-- ==== Sys2Proof/Word.lean ====
section
/-!
DEFINITION. The word types of the machine and the fixed-size tables of them: a lane word, a scalar,
a 128-bit mask, a vector register of 128 lane words.
-/
namespace Sys2Proof

/-- One byte. -/
abbrev Byte := BitVec 8
/-- A 32-bit lane word, instruction word or literal (R29, R59). -/
abbrev Word := BitVec 32
/-- A 64-bit scalar (R127). -/
abbrev Dword := BitVec 64
/-- One bit per lane: EXEC, a predicate, LIVE, a done-mask (R19, R127). -/
abbrev Mask := BitVec 128
/-- A virtual byte address (R29, R374). -/
abbrev Va := BitVec 56
/-- A 7-bit register field of an instruction word (R30). -/
abbrev Reg := BitVec 7

/-- A table of `n` entries from its values, lowest index first. -/
def tab (n : Nat) (f : Nat → α) : Vector α n :=
  ⟨⟨(List.range n).map f⟩, by simp⟩

/-- Entry `i` of a table, or `d` where there is none. -/
def Vector.at0 (v : Vector α n) (i : Nat) (d : α) : α := v.toList.getD i d

/-- The table with entry `i` replaced; an index outside the table changes nothing. -/
def Vector.put (v : Vector α n) (i : Nat) (x : α) : Vector α n :=
  ⟨⟨v.toList.set i x⟩, by simp⟩

/-- A vector register: lane `L` is entry `L` (R109). -/
abbrev VReg := Vector Word 128

/-- The vector register that holds zero in every lane. -/
def VReg.zero : VReg := Vector.replicate 128 0

/-- The word of lane `L`. -/
def VReg.lane (v : VReg) (L : Nat) : Word := Vector.at0 v L 0

/-- Bit `L` of a mask. -/
def Mask.has (m : Mask) (L : Nat) : Bool := m.getLsbD L

/-- The mask whose bit `L` is `f L`. -/
def Mask.of (f : Nat → Bool) : Mask :=
  (List.range 128).foldl (fun m L => if f L then m ||| (1#128 <<< L) else m) 0#128

/-- All 128 bits one or all zero. -/
def Mask.all (b : Bool) : Mask := if b then BitVec.allOnes 128 else 0#128

/-- The lanes of a mask in ascending order. -/
def Mask.lanes (m : Mask) : List Nat := (List.range 128).filter m.has

/-- The number of lanes of a mask. -/
def Mask.count (m : Mask) : Nat := m.lanes.length

/-- The lowest lane of a mask. -/
def Mask.first (m : Mask) : Option Nat := m.lanes.head?

/-- The bits `hi` to `lo` of a number, as a number (R2). -/
def bits (x : Nat) (hi lo : Nat) : Nat := (x >>> lo) % 2 ^ (hi + 1 - lo)

/-- Bit `n` of a number. -/
def bit (x : Nat) (n : Nat) : Bool := x.testBit n

/-- A field value placed at bit `lo`. -/
def place (x : Nat) (lo : Nat) : Nat := x <<< lo

/-- A Boolean as a bit. -/
def b2n (b : Bool) : Nat := if b then 1 else 0

end Sys2Proof
end

