-- ==== Sys2Proof/Syntax.lean ====
section
/-!
DEFINITION. The instructions of Dymet 1 and the indivisible steps of the machine's engines, controllers
and host commands: one constructor for each row of the opcode table (spec/opcode_table.json). A word's
constructor carries the fields of its form (R30, Table 2.3). An engine's or the host's step carries the
data it acts on: a message in flight, or the key of the thing that moves.
-/
namespace Sys2Proof

/-- A group's role in its team (R21). -/
inductive Role where
  | consumer | producer
  deriving DecidableEq, Repr

/-- The kind of an access to memory (R378, R383): a load, a store, an atomic, an instruction fetch. -/
inductive Acc where
  | read | write | atomic | fetch
  deriving DecidableEq, Repr

/-- The orders of the ORD prefix, by their codes 0 to 4 (R45). -/
inductive Order where
  | sc | acquire | release | acqRel | relaxed
  deriving DecidableEq, Repr

/-- The operations of the atomics (Table 10.3). -/
inductive AtomOp where
  | add | sub | min | max | and | or | xor | xch | cas | inc | dec | fadd
  deriving DecidableEq, Repr

/-- An enqueue on its way to a home slice: the records of its live lanes in ascending lane order (R282). -/
structure EnqReq where
  /-- Issuing group. -/
  gid : Nat
  /-- The operation's key on path QUEUE. -/
  op : Nat
  /-- Queue: die times 4,096 plus queue number. -/
  queue : Nat
  /-- Result predicate. -/
  pd : Reg
  /-- LIVE at issue. -/
  live : Mask
  /-- Lane and record words. -/
  recs : List (Nat × List Word)
  /-- Group time at issue (R285). -/
  time : Nat
  deriving DecidableEq, Repr

/-- Where a dequeue puts its records: vector registers from `vd`, or scratch from `off` (R284). -/
inductive DeqDest where
  | regs (vd : Reg)
  | scratch (off : Nat)
  deriving DecidableEq, Repr

/-- A dequeue at a home slice (R284). -/
structure DeqReq where
  /-- Issuing group. -/
  gid : Nat
  /-- The operation's key on path QUEUE. -/
  op : Nat
  /-- Queue: die times 4,096 plus queue number. -/
  queue : Nat
  /-- Result predicate. -/
  pb : Reg
  /-- LIVE at issue. -/
  live : Mask
  /-- Destination. -/
  dest : DeqDest
  /-- The handle's nowait bit. -/
  nowait : Bool
  deriving DecidableEq, Repr

/-- The reply of a queue operation (R282, R284). -/
inductive QReply where
  /-- Accepted lanes and the refusal reasons of an enqueue. -/
  | enq (gid op : Nat) (pd : Reg) (live ok : Mask) (full closed : Bool)
  /-- Records taken by a dequeue, by lane, each with its poison mark; `time` bounds the accesses before their enqueues. -/
  | deq (gid op : Nat) (pb : Reg) (live : Mask) (dest : DeqDest) (recs : List (Nat × List Word × Bool)) (time : Nat)
  deriving DecidableEq, Repr

/-- A request to an L2 bank for a line, from a crossbar requester port (R18, R227). -/
structure L2Req where
  /-- Line number: PA div 256. -/
  line : Nat
  /-- Requester port 0 to 22. -/
  port : Nat
  /-- It writes the line. -/
  write : Bool
  /-- It is a PREF's, dropped where the bank would refuse it (R245). -/
  pref : Bool
  deriving DecidableEq, Repr

/-- A write-back: a line and its written bytes (R230). -/
structure WriteBack where
  /-- Line number: PA div 256. -/
  line : Nat
  /-- Requester port 0 to 22. -/
  port : Nat
  /-- Byte offset in the line and byte. -/
  data : List (Nat × Byte)
  deriving DecidableEq, Repr

/-- One lane of an atomic on its way to its service warp or pool unit (R268). -/
structure AtomLane where
  /-- Issuing group, and its core. -/
  gid : Nat
  core : Nat
  /-- The operation's key on its path. -/
  op : Nat
  /-- Lane. -/
  lane : Nat
  /-- Physical address of the word. -/
  pa : Nat
  /-- Operation. -/
  kind : AtomOp
  /-- Operands x and y. -/
  x : Word
  y : Word
  /-- The MR captured at issue (R38). -/
  mr : Word
  /-- Order, scope code and noret (R253). -/
  order : Order
  scope : Nat
  noret : Bool
  /-- Its place among the lanes in flight, in the order in which they were sent (R267). -/
  seq : Nat
  /-- Destination register. -/
  vd : Reg
  deriving DecidableEq, Repr

/-- The old value of an atomic lane on its way back (R267). -/
structure AtomReply where
  /-- Issuing group. -/
  gid : Nat
  /-- The operation's key on its path. -/
  op : Nat
  /-- Lane. -/
  lane : Nat
  /-- Destination register. -/
  vd : Reg
  /-- Old value and whether it is poisoned (R269). -/
  old : Word
  bad : Bool
  deriving DecidableEq, Repr

/-- The key of a named tile (R294): function, tensor, tile index, iteration. -/
structure NameKey where
  /-- Host-port function. -/
  func : Nat
  /-- Tensor identifier. -/
  tensor : Nat
  /-- Tile index. -/
  tile : Nat
  /-- Iteration. -/
  iter : Nat
  deriving DecidableEq, Repr

/-- A requester slot of a pending-interest entry (R298). -/
inductive Requester where
  /-- A ticket of a group on the die. -/
  | ticket (gid : Nat) (t : Word)
  /-- An upstream direction (Table 12.2 code) and the entry number at the other end. -/
  | upstream (dir entry : Nat)
  deriving DecidableEq, Repr

/-- An interest arriving at a die (R298); `refresh` marks a later expiry of an entry (R299). -/
structure Interest where
  /-- Die it arrives at. -/
  die : Nat
  /-- Key. -/
  key : NameKey
  /-- Who asks. -/
  who : Requester
  /-- Expiry tick. -/
  expiry : Option Nat
  /-- A refresh of an entry already forwarded. -/
  refresh : Bool
  deriving DecidableEq, Repr

/-- A tile or an answer travelling the reverse path (R298, R304 to R306): `status` is a code of
Table 12.3, or 9 for BUSY (R300). -/
structure Answer where
  /-- Die it arrives at, and the entry there that asked. -/
  die : Nat
  entry : Nat
  /-- Key. -/
  key : NameKey
  /-- Code of Table 12.3; 9 is BUSY. -/
  status : Nat
  /-- The tile's bytes, when it is delivered; `bad` lists its poisoned 256-byte lines. -/
  tile : List Byte
  bad : List Nat
  /-- The accesses before the announcement lie at or below this time (R308). -/
  time : Nat
  /-- The link port it came by. -/
  via : Option Nat
  deriving DecidableEq, Repr

/-- A flit on a link (R344): header fields, payload bytes in clear, and its 256 bytes as they travel. -/
structure Flit where
  /-- Flit type (Table 14.2). -/
  typ : Nat
  /-- Sequence number. -/
  seq : Nat
  /-- Key slot. -/
  slot : Nat
  /-- Package identifiers of receiver and sender. -/
  dpkg : Nat
  spkg : Nat
  /-- Argument byte. -/
  arg : Nat
  /-- Invocation counter. -/
  ctr : Nat
  /-- Some reserved header bit is set. -/
  rsv : Bool
  /-- The 224 payload bytes. -/
  payload : List Byte
  image : List Byte
  deriving DecidableEq, Repr

/-- A row of HBM4E (Table 15.8). -/
structure RowLoc where
  /-- Package stack 0 to 11. -/
  stack : Nat
  /-- Pseudo-channel. -/
  pc : Nat
  /-- Bank. -/
  bank : Nat
  /-- Row. -/
  row : Nat
  deriving DecidableEq, Repr

/-- One sample of the ageing indicators (Table 17.8), predicted months and mean power (R426, R427). -/
structure AgeSample where
  /-- Ring-oscillator drift, SerDes eye margin, HBM correctable-error rate, Hearth retention margin. -/
  drift : Word
  eye : Word
  hbm : Word
  hearth : Word
  /-- Predicted end of life in months. -/
  months : Byte
  /-- Mean power in watts. -/
  watts : BitVec 16
  deriving DecidableEq, Repr

/-- A command entry of a function's command ring (Table 17.2). -/
structure Cmd where
  /-- Host-port function. -/
  func : Nat
  /-- Command code, tag, reserved bits [47:8]. -/
  op : Byte
  tag : BitVec 16
  rsv : BitVec 40
  /-- Argument words. -/
  a0 : Dword
  a1 : Dword
  a2 : Dword
  a3 : Dword
  a4 : Dword
  a5 : Dword
  a6 : Dword
  deriving DecidableEq, Repr

/-- The rows of the opcode table. -/
inductive Instr where
  /-- ILLEGAL (R92): Opcode 0x000, whose fields are ignored, raises ILLEGAL_OPCODE. -/
  | illegal (x : BitVec 21)
  /-- UNASSIGNED_OPCODE (R49): A word with an unassigned opcode or a class 15 opcode raises ILLEGAL_OPCODE in the scalar/control pipe. -/
  | unassignedOpcode (w : Word)
  /-- NOP (R92): Advances the PC by 4 and changes nothing else. -/
  | nop
  /-- BR (R93): Branches when any live lane satisfies the predicate (all live lanes with U), or always with pred 15. -/
  | br (u : Bool) (pred : BitVec 4) (sense : Bool) (off : BitVec 15)
  /-- BRP (R93): Branches when LIVE is non-empty and every live lane satisfies the predicate. -/
  | brp (u : Bool) (pred : BitVec 4) (sense : Bool) (off : BitVec 15)
  /-- BREXZ (R94): Branches when EXEC is zero. -/
  | brexz (off : BitVec 15)
  /-- CALL (R93): Branches as BR and writes the return address to s126 when taken. -/
  | call (u : Bool) (pred : BitVec 4) (sense : Bool) (off : BitVec 15)
  /-- CALLR (R95): Jumps to s[a] and writes the return address to s126. -/
  | callr (a : Reg)
  /-- RET (R95): Jumps to the address in s126. -/
  | ret
  /-- JMPR (R95): Jumps to the address in s[a]. -/
  | jmpr (a : Reg)
  /-- IFP (R96): Pushes a mask-stack entry, narrows EXEC to the lanes satisfying the predicate and branches when none do. -/
  | ifp (u : Bool) (pred : BitVec 4) (sense : Bool) (off : BitVec 15)
  /-- ELSEP (R96): Switches EXEC to the top entry's other lanes and branches when none remain. -/
  | elsep (off : BitVec 15)
  /-- ENDIF (R96): Pops the mask stack and restores the saved EXEC. -/
  | endif
  /-- SPAWN (R97): Creates a new group of the team on the core if a context, a free block and a group number are available, or writes all ones. -/
  | spawn (d a b : Reg)
  /-- SPAWNW (R97): Creates a new group, waiting until a context, a block and a group number are available. -/
  | spawnw (d a b : Reg)
  /-- EXIT (R100): Retires the group, freeing its context and blocks and releasing Anvil ownership. -/
  | exit
  /-- YIELD (R101): Makes the group the most recently issued and leaves the register cache's active set. -/
  | yield
  /-- SETPRI (R101): Sets the group's issue priority. -/
  | setpri (k : BitVec 4)
  /-- SLEEP (R101): Makes the group not ready for 64 × n cycles. -/
  | sleep (k : BitVec 14)
  /-- LNCH (R102): Reads a launch descriptor and creates a child grid in the die's child-grid table. -/
  | lnch (d a b : Reg)
  /-- SETMODE (R37): Writes MR from the literal after checking for reserved codes. -/
  | setmode (lit : Word)
  /-- SETMODES (R37): Writes MR from bits [31:0] of s[a] after checking for reserved codes. -/
  | setmodes (a : Reg)
  /-- RDMODE (R37): Writes MR, zero-extended, to s[d]. -/
  | rdmode (d : Reg)
  /-- RDX (R129): Copies EXEC into an even scalar pair. -/
  | rdx (d : Reg)
  /-- WRX (R129): Writes EXEC from an even scalar pair. -/
  | wrx (a : Reg)
  /-- PRDS (R129): Copies a predicate into an even scalar pair. -/
  | prds (d a : Reg)
  /-- PWRS (R129): Writes a predicate from an even scalar pair. -/
  | pwrs (d a : Reg)
  /-- PAND (R130): Writes the AND of two predicates in the live lanes. -/
  | pand (d a b : Reg)
  /-- POR (R130): Writes the OR of two predicates in the live lanes. -/
  | por (d a b : Reg)
  /-- PXOR (R130): Writes the XOR of two predicates in the live lanes. -/
  | pxor (d a b : Reg)
  /-- PANDN (R130): Writes p[a] AND NOT p[b] in the live lanes. -/
  | pandn (d a b : Reg)
  /-- PNOT (R130): Writes the complement of a predicate in the live lanes. -/
  | pnot (d a : Reg)
  /-- PSET (R131): Writes a constant bit to a predicate in the live lanes. -/
  | pset (d : Reg) (k : Bool)
  /-- PCNT (R131): Counts the live lanes whose predicate bit is set. -/
  | pcnt (d a : Reg)
  /-- PFFS (R131): Writes the lowest live lane whose predicate bit is set, or 128. -/
  | pffs (d a : Reg)
  /-- ADD (R140): Adds elements exactly and fits the result under MR.sat. -/
  | add (d a b : Reg)
  /-- SUB (R140): Subtracts elements exactly and fits the result. -/
  | sub (d a b : Reg)
  /-- MUL (R140): Multiplies elements exactly and fits the result. -/
  | mul (d a b : Reg)
  /-- MULH (R140): Writes the high half of each element product. -/
  | mulh (d a b : Reg)
  /-- MAD (R140): Writes x × y + z per element, fitted. -/
  | mad (d a b : Reg)
  /-- MIN (R140): Writes the element-wise minimum. -/
  | min (d a b : Reg)
  /-- MAX (R140): Writes the element-wise maximum. -/
  | max (d a b : Reg)
  /-- ABS (R140): Writes the element-wise absolute value, fitted. -/
  | abs (d a : Reg)
  /-- NEG (R140): Writes the element-wise negation, fitted. -/
  | neg (d a : Reg)
  /-- AND (R141): Bitwise AND of 32-bit lanes. -/
  | and (d a b : Reg)
  /-- OR (R141): Bitwise OR of 32-bit lanes. -/
  | or (d a b : Reg)
  /-- XOR (R141): Bitwise XOR of 32-bit lanes. -/
  | xor (d a b : Reg)
  /-- NOT (R141): Bitwise complement of 32-bit lanes. -/
  | not (d a : Reg)
  /-- SHL (R141): Shifts each element left, filling with zeros. -/
  | shl (d a b : Reg)
  /-- SHR (R141): Shifts each element right, filling with zeros. -/
  | shr (d a b : Reg)
  /-- SAR (R141): Shifts each element right, filling with the sign bit. -/
  | sar (d a b : Reg)
  /-- CLZ (R142): Counts leading zeros of each element. -/
  | clz (d a : Reg)
  /-- POPC (R142): Counts one bits of each element. -/
  | popc (d a : Reg)
  /-- BFX (R143): Extracts a bit field from each element. -/
  | bfx (d a b : Reg)
  /-- BINS (R143): Inserts a bit field into each element of v[d]. -/
  | bins (d a b : Reg)
  /-- SEL (R144): Selects v[a] or v[b] per lane by p0. -/
  | sel (d a b : Reg)
  /-- CMPEQ (R145): Sets the predicate where every element is equal. -/
  | cmpeq (d a b : Reg)
  /-- CMPNE (R145): Sets the predicate where every element differs. -/
  | cmpne (d a b : Reg)
  /-- CMPLT (R145): Sets the predicate where every element is less. -/
  | cmplt (d a b : Reg)
  /-- CMPLE (R145): Sets the predicate where every element is less or equal. -/
  | cmple (d a b : Reg)
  /-- CMPGT (R145): Sets the predicate where every element is greater. -/
  | cmpgt (d a b : Reg)
  /-- CMPGE (R145): Sets the predicate where every element is greater or equal. -/
  | cmpge (d a b : Reg)
  /-- MOV (R144): Copies v[a] to v[d] in the live lanes. -/
  | mov (d a : Reg)
  /-- MOVS (R144): Broadcasts s[a][31:0] to the live lanes of v[d]. -/
  | movs (d a : Reg)
  /-- MOVI (R144): Writes the literal to the live lanes of v[d]. -/
  | movi (d : Reg) (lit : Word)
  /-- LANEID (R144): Writes each live lane's number into v[d]. -/
  | laneid (d : Reg)
  /-- FADD (R147): Floating addition rounded once under MR.round. -/
  | fadd (d a b : Reg)
  /-- FSUB (R147): Floating subtraction rounded once. -/
  | fsub (d a b : Reg)
  /-- FMUL (R147): Floating multiplication rounded once. -/
  | fmul (d a b : Reg)
  /-- FMA (R147): Fused multiply-add a × b + d rounded once. -/
  | fma (d a b : Reg)
  /-- FMIN (R148): Floating minimum with −0 below +0 and NaN handling. -/
  | fmin (d a b : Reg)
  /-- FMAX (R148): Floating maximum with −0 below +0 and NaN handling. -/
  | fmax (d a b : Reg)
  /-- FABS (R148): Clears the sign bit of each element. -/
  | fabs (d a : Reg)
  /-- FNEG (R148): Inverts the sign bit of each element. -/
  | fneg (d a : Reg)
  /-- FCMPEQ (R149): Floating equality compare into a predicate. -/
  | fcmpeq (d a b : Reg)
  /-- FCMPNE (R149): Floating inequality compare into a predicate. -/
  | fcmpne (d a b : Reg)
  /-- FCMPLT (R149): Floating less-than compare into a predicate. -/
  | fcmplt (d a b : Reg)
  /-- FCMPLE (R149): Floating less-or-equal compare into a predicate. -/
  | fcmple (d a b : Reg)
  /-- FCMPGT (R149): Floating greater-than compare into a predicate. -/
  | fcmpgt (d a b : Reg)
  /-- FCMPGE (R149): Floating greater-or-equal compare into a predicate. -/
  | fcmpge (d a b : Reg)
  /-- FCMPUN (R149): Sets the predicate where either input is NaN. -/
  | fcmpun (d a b : Reg)
  /-- FRCP (R150): Reciprocal within the bound of Table 6.5. -/
  | frcp (d a : Reg)
  /-- FRSQ (R150): Reciprocal square root within the bound of Table 6.5. -/
  | frsq (d a : Reg)
  /-- FSQRT (R150): Correctly rounded square root. -/
  | fsqrt (d a : Reg)
  /-- FEXP2 (R150): Base-2 exponential within the bound of Table 6.5. -/
  | fexp2 (d a : Reg)
  /-- FLOG2 (R150): Base-2 logarithm within the bound of Table 6.5. -/
  | flog2 (d a : Reg)
  /-- FSIN (R150): Sine within the bound of Table 6.5. -/
  | fsin (d a : Reg)
  /-- FCOS (R150): Cosine within the bound of Table 6.5. -/
  | fcos (d a : Reg)
  /-- FTANH (R150): Hyperbolic tangent within the bound of Table 6.5. -/
  | ftanh (d a : Reg)
  /-- FCLASS (R152): Writes a one-hot class word per element. -/
  | fclass (d a : Reg)
  /-- CVT (R153): Converts elements from the source type in b to MR.etype across register ranges. -/
  | cvt (d a b : Reg)
  /-- PQ (R155): Quantises a 32-element block per lane into PNI planes and a scale code. -/
  | pq (d a b : Reg)
  /-- PX (R156): Reconstructs f32 values from PNI planes and a scale code. -/
  | px (d a b : Reg)
  /-- TOPKINS (R158): Sorts three ranked entries so the list keeps the best two. -/
  | topkins (d a b : Reg)
  /-- KEEPK (R157): Forms a ranked entry from a value's key and an index. -/
  | keepk (d a b : Reg)
  /-- FLDEXP (R159): Scales each element by 2^n, rounded once. -/
  | fldexp (d a b : Reg)
  /-- FFREXP (R160): Splits each element into fraction and exponent. -/
  | ffrexp (d a b : Reg)
  /-- SADD (R161): 64-bit scalar addition modulo 2^64. -/
  | sadd (d a b : Reg)
  /-- SSUB (R161): 64-bit scalar subtraction. -/
  | ssub (d a b : Reg)
  /-- SMUL (R161): 64-bit scalar multiplication, low half. -/
  | smul (d a b : Reg)
  /-- SMIN (R161): Signed scalar minimum. -/
  | smin (d a b : Reg)
  /-- SMAX (R161): Signed scalar maximum. -/
  | smax (d a b : Reg)
  /-- SAND (R161): Scalar bitwise AND. -/
  | sand (d a b : Reg)
  /-- SOR (R161): Scalar bitwise OR. -/
  | sor (d a b : Reg)
  /-- SXOR (R161): Scalar bitwise XOR. -/
  | sxor (d a b : Reg)
  /-- SSHL (R162): Scalar left shift, 0 for counts of 64 or more. -/
  | sshl (d a b : Reg)
  /-- SSHR (R162): Scalar logical right shift. -/
  | sshr (d a b : Reg)
  /-- SSAR (R162): Scalar arithmetic right shift. -/
  | ssar (d a b : Reg)
  /-- SCMPEQ (R163): Writes a uniform predicate for scalar equality. -/
  | scmpeq (d a b : Reg)
  /-- SCMPNE (R163): Writes a uniform predicate for scalar inequality. -/
  | scmpne (d a b : Reg)
  /-- SCMPLT (R163): Writes a uniform predicate for signed less-than. -/
  | scmplt (d a b : Reg)
  /-- SCMPLE (R163): Writes a uniform predicate for signed less-or-equal. -/
  | scmple (d a b : Reg)
  /-- SCMPLTN (R163): Writes a uniform predicate for unsigned less-than. -/
  | scmpltn (d a b : Reg)
  /-- SCMPLEN (R163): Writes a uniform predicate for unsigned less-or-equal. -/
  | scmplen (d a b : Reg)
  /-- SMOV (R161): Copies a scalar register. -/
  | smov (d a : Reg)
  /-- SMOVI (R161): Writes the sign-extended literal to s[d]. -/
  | smovi (d : Reg) (lit : Word)
  /-- SADDI (R164): Adds a signed 14-bit immediate to s[d]. -/
  | saddi (d : Reg) (k : BitVec 14)
  /-- SCLZ (R161): Counts leading zeros of a scalar. -/
  | sclz (d a : Reg)
  /-- SPOPC (R161): Counts one bits of a scalar. -/
  | spopc (d a : Reg)
  /-- XACQ (R117): Acquires extended register blocks from the role's reserve, parking in the wait line if they cannot be granted. -/
  | xacq (m : BitVec 3)
  /-- XTRY (R117): Acquires extended register blocks only if possible at once, writing the outcome to a predicate. -/
  | xtry (d : Reg) (m : BitVec 3)
  /-- XREL (R117): Returns extended register blocks to the role's reserve. -/
  | xrel (m : BitVec 3)
  /-- SHFL (R132): Reads each live lane's value from the lane indexed by v[b]. -/
  | shfl (d a b : Reg)
  /-- SHFLUP (R132): Shifts lane values up by s[b] lanes. -/
  | shflup (d a b : Reg)
  /-- SHFLDN (R132): Shifts lane values down by s[b] lanes. -/
  | shfldn (d a b : Reg)
  /-- SHFLX (R132): Exchanges lane values by XOR of the lane index with s[b]. -/
  | shflx (d a b : Reg)
  /-- LRD (R133): Reads one lane of a vector register into a scalar. -/
  | lrd (d a b : Reg)
  /-- LWR (R133): Writes one lane of a vector register from a scalar. -/
  | lwr (d a b : Reg)
  /-- RSUM (R134): Reduces the live lanes to their exact sum in s[d]. -/
  | rsum (d a : Reg)
  /-- RMAX (R134): Reduces the live lanes to their maximum in s[d]. -/
  | rmax (d a : Reg)
  /-- SCANX (R135): Writes the exclusive prefix sum over the live lanes. -/
  | scanx (d a : Reg)
  /-- LDSW (R201): Loads a word from scratch per live lane. -/
  | ldsw (d a b : Reg)
  /-- LDSD (R201): Loads a doubleword from scratch per live lane. -/
  | ldsd (d a b : Reg)
  /-- LDSQ (R201): Loads a quadword from scratch per live lane. -/
  | ldsq (d a b : Reg)
  /-- STSW (R201): Stores a word to scratch per live lane. -/
  | stsw (d a b : Reg)
  /-- STSD (R201): Stores a doubleword to scratch per live lane. -/
  | stsd (d a b : Reg)
  /-- STSQ (R201): Stores a quadword to scratch per live lane. -/
  | stsq (d a b : Reg)
  /-- ASADD (R202): Scratch atomic add returning the old word. -/
  | asadd (d a b : Reg)
  /-- ASMIN (R202): Scratch atomic minimum returning the old word. -/
  | asmin (d a b : Reg)
  /-- ASMAX (R202): Scratch atomic maximum returning the old word. -/
  | asmax (d a b : Reg)
  /-- ASAND (R202): Scratch atomic AND returning the old word. -/
  | asand (d a b : Reg)
  /-- ASOR (R202): Scratch atomic OR returning the old word. -/
  | asor (d a b : Reg)
  /-- ASXOR (R202): Scratch atomic XOR returning the old word. -/
  | asxor (d a b : Reg)
  /-- ASXCH (R202): Scratch atomic exchange. -/
  | asxch (d a b : Reg)
  /-- ASCAS (R202): Scratch atomic compare-and-swap. -/
  | ascas (d a b : Reg)
  /-- BINIT (R207): Initialises or untags a barrier word in scratch. -/
  | binit (a b : Reg)
  /-- BARR (R207): Arrives at a barrier and waits for its phase to complete. -/
  | barr (a : Reg)
  /-- BARRTX (R207): Arrives at a barrier announcing transaction bytes, without waiting. -/
  | barrtx (a b : Reg)
  /-- BWAIT (R207): Waits on a barrier for the given phase parity. -/
  | bwait (a b : Reg)
  /-- BTEST (R207): Writes a barrier's phase parity to a predicate. -/
  | btest (d a : Reg)
  /-- BINV (R207): Invalidates a barrier and releases its waiters with ok 0. -/
  | binv (a : Reg)
  /-- CPGS (R213): Starts a copy from global memory into scratch accounted against a barrier. -/
  | cpgs (d a b : Reg)
  /-- WAITC (R220): Waits until the LOAD, STORE, COPY and TILE counters fall to the given thresholds. -/
  | waitc (l s c : BitVec 5) (t : BitVec 6)
  /-- WAITP (R220): Waits until one path counter falls to the threshold in s[b]. -/
  | waitp (a b : Reg)
  /-- LDB (R241): Loads a byte per live lane, zero-extended. -/
  | ldb (d a b : Reg)
  /-- LDH (R241): Loads a halfword per live lane, zero-extended. -/
  | ldh (d a b : Reg)
  /-- LDW (R241): Loads a word per live lane. -/
  | ldw (d a b : Reg)
  /-- LDD (R241): Loads a doubleword per live lane into two registers. -/
  | ldd (d a b : Reg)
  /-- LDQ (R241): Loads a quadword per live lane into four registers. -/
  | ldq (d a b : Reg)
  /-- STB (R241): Stores a byte per live lane. -/
  | stb (d a b : Reg)
  /-- STH (R241): Stores a halfword per live lane. -/
  | sth (d a b : Reg)
  /-- STW (R241): Stores a word per live lane. -/
  | stw (d a b : Reg)
  /-- STD (R241): Stores a doubleword per live lane. -/
  | std (d a b : Reg)
  /-- STQ (R241): Stores a quadword per live lane. -/
  | stq (d a b : Reg)
  /-- SLDW (R242): Whole-group load of a word into a scalar. -/
  | sldw (d a b : Reg)
  /-- SLDD (R242): Whole-group load of a doubleword into a scalar. -/
  | sldd (d a b : Reg)
  /-- SSTW (R242): Whole-group store of a scalar's low word. -/
  | sstw (d a b : Reg)
  /-- SSTD (R242): Whole-group store of a scalar doubleword. -/
  | sstd (d a b : Reg)
  /-- ORD (R46): Prefix that sets order, scope and noret of the following load, store or atomic, issuing with it as one pair. -/
  | ord (noret : Bool) (order : BitVec 3) (scope : BitVec 4)
  /-- AADD (R268): Global atomic add performed by a service warp. -/
  | aadd (d a b : Reg)
  /-- ASUB (R268): Global atomic subtract. -/
  | asub (d a b : Reg)
  /-- AMIN (R268): Global atomic minimum. -/
  | amin (d a b : Reg)
  /-- AMAX (R268): Global atomic maximum. -/
  | amax (d a b : Reg)
  /-- AAND (R268): Global atomic AND. -/
  | aand (d a b : Reg)
  /-- AOR (R268): Global atomic OR. -/
  | aor (d a b : Reg)
  /-- AXOR (R268): Global atomic XOR. -/
  | axor (d a b : Reg)
  /-- AXCH (R268): Global atomic exchange. -/
  | axch (d a b : Reg)
  /-- ACAS (R268): Global atomic compare-and-swap. -/
  | acas (d a b : Reg)
  /-- AINC (R268): Global atomic wrapping increment. -/
  | ainc (d a b : Reg)
  /-- ADEC (R268): Global atomic wrapping decrement. -/
  | adec (d a b : Reg)
  /-- AFADD (R268): Global atomic f32 addition. -/
  | afadd (d a b : Reg)
  /-- FENCE (R256): Applies a fence's time update to every thread, flushes combining buffers and orders DV/SO accesses at package scope or wider. -/
  | fence (order : BitVec 3) (scope : BitVec 4)
  /-- MONA (R270): Arms the group's monitor on the line of the lowest live lane. -/
  | mona (a b : Reg)
  /-- MWT (R271): Parks the group until the monitored line is written or the timeout expires. -/
  | mwt (a : Reg)
  /-- PREF (R245): Asks home slices to fill the lines of live lanes whose translation is present. -/
  | pref (a b : Reg)
  /-- WCFL (R246): Flushes every combining buffer of the group and waits for acceptance. -/
  | wcfl
  /-- GATH (R340): Gathers one element per live lane through a handle descriptor, trapping on out-of-range coordinates. -/
  | gath (d a b : Reg)
  /-- GATHQ (R340): Gathers one element per live lane, writing 0 for out-of-range coordinates. -/
  | gathq (d a b : Reg)
  /-- PGLD (R326): Loads and checks a pattern program into the core's pattern store and writes its handle. -/
  | pgld (d a : Reg)
  /-- PGFREE (R327): Frees a pattern slot and raises its generation. -/
  | pgfree (a : Reg)
  /-- FOPEN (R330): Opens a fibre over a pattern or a CSR/CSC index, taking a Swage context. -/
  | fopen (d a b : Reg)
  /-- FADV (R333): Hands out the next fibre coordinates and ranks to the live lanes as one step of the fibre order. -/
  | fadv (d a : Reg)
  /-- FEND (R335): Writes the group's end mask of a fibre to a predicate. -/
  | fend (d a : Reg)
  /-- FCLOSE (R335): Closes a fibre and frees its Swage context. -/
  | fclose (a : Reg)
  /-- FPOS (R335): Writes a fibre's count and exhausted flag. -/
  | fpos (d a : Reg)
  /-- MXACQ (R166): Takes Anvil ownership or parks in the ownership line. -/
  | mxacq
  /-- MXTRY (R166): Takes Anvil ownership only if free, writing the outcome to a predicate. -/
  | mxtry (d : Reg)
  /-- MXREL (R166): Releases Anvil ownership. -/
  | mxrel
  /-- MMA (R175): Checks a format block and queues a dense block product into an accumulator tile. -/
  | mma (d a b : Reg)
  /-- MMAS (R176): Queues a block product that skips K-blocks absent from a fibre's pattern. -/
  | mmas (d a b : Reg)
  /-- ACCZ (R185): Queues zeroing of the live rows of a tile. -/
  | accz (d : Reg)
  /-- ACCRD (R185): Queues a read of 8 tile columns into registers. -/
  | accrd (d a b : Reg)
  /-- ACCWR (R185): Queues a write of 8 tile columns from registers. -/
  | accwr (d a b : Reg)
  /-- ACCST (R187): Queues a store of a tile's live rows to memory with optional conversion. -/
  | accst (d a b : Reg)
  /-- MFENCE (R183): Closes the open tile batch and writes its number. -/
  | mfence (d : Reg)
  /-- MWAITB (R184): Waits until every closed batch up to s[a] is complete. -/
  | mwaitb (a : Reg)
  /-- SETRST (R192): Registers or clears the restart label in RSTPC. -/
  | setrst (lit : Word)
  /-- QENQ (R282): Sends one record per live lane from registers to a queue part. -/
  | qenq (d a b : Reg)
  /-- QENQM (R282): Sends one record per live lane from scratch to a queue part. -/
  | qenqm (d a b : Reg)
  /-- QDEQ (R284): Requests up to one record per live lane from a queue part into registers. -/
  | qdeq (d a b : Reg)
  /-- QDEQM (R284): Requests up to one record per live lane from a queue part into scratch. -/
  | qdeqm (d a b : Reg)
  /-- QLEN (R286): Reads a queue part's backlog. -/
  | qlen (d a : Reg)
  /-- QSEAL (R286): Seals a queue part as a release. -/
  | qseal (a : Reg)
  /-- QINFO (R286): Reads a queue part's state word. -/
  | qinfo (d a : Reg)
  /-- NINT (R312): Registers an interest in a named tile, takes a ticket and offers the interest to the die. -/
  | nint (d a b : Reg)
  /-- NANN (R313): Announces a named tile, reserving its registry entry and copying it into the Crucibles. -/
  | nann (a b : Reg)
  /-- NSEAL (R314): Raises a tensor's seal and retire horizons and tests pending interests. -/
  | nseal (a : Reg)
  /-- NDROP (R315): Resolves a ticket as DROPPED with an empty delivery. -/
  | ndrop (a : Reg)
  /-- NSTAT (R316): Reads a ticket's status word. -/
  | nstat (d a : Reg)
  /-- XAGREE (R359): Agrees block scale codes across ranks by unsigned maximum. -/
  | xagree (d a : Reg)
  /-- XSUM (R360): Runs the exact agreed-scale reduction over the collective tree. -/
  | xsum (d a : Reg)
  /-- PLFILL (R365): Near-memory fill of a pool range. -/
  | plfill (d a : Reg)
  /-- PLCOPY (R365): Near-memory copy between pool ranges. -/
  | plcopy (d a : Reg)
  /-- PLCMP (R365): Near-memory compare of two pool ranges. -/
  | plcmp (d a : Reg)
  /-- PLRED (R365): Near-memory reduction over pool words. -/
  | plred (d a : Reg)
  /-- SNOPEN (R369): Opens a snapshot of a pool region and writes its id. -/
  | snopen (d a : Reg)
  /-- SNCLOSE (R373): Closes a snapshot and frees its version slots. -/
  | snclose (a : Reg)
  /-- SNBIND (R372): Binds or unbinds the group to a snapshot. -/
  | snbind (a : Reg)
  /-- TRAP (R403): Raises SOFTWARE with the immediate in TINFO. -/
  | trap (k : BitVec 14)
  /-- TRET (R405): Returns from a handler, arming a partial replay and releasing the halt or starting the next handler. -/
  | tret
  /-- TMASK (R406): Masks deferred trap categories. -/
  | tmask (k : BitVec 4)
  /-- TUNMASK (R406): Unmasks deferred trap categories. -/
  | tunmask (k : BitVec 4)
  /-- RDSR (R404): Reads a special register into a scalar. -/
  | rdsr (d : Reg) (k : BitVec 14)
  /-- WRSR (R404): Writes a special register from a scalar under its access codes. -/
  | wrsr (d : Reg) (k : BitVec 14)
  /-- CLK (R407): Reads the package cycle count. -/
  | clk (d : Reg)
  /-- BRK (R403): Raises BREAKPOINT, or halts the team for the attached host debugger. -/
  | brk (k : BitVec 14)
  /-- DEFERRED_TRAP_DELIVERY (R395): Delivers an engine-raised or held trap to the receiving group at its next issue cycle or wait. -/
  | deferredTrapDelivery (tid : Nat)
  /-- SIBLING_HALT_STOP (R397): A sibling group stops after its skid of at most 8 instructions and records TSKID and TPC. -/
  | siblingHaltStop (gid : Nat)
  /-- HANDLER_COUNT_EXPIRY (R412): A handler reaching 4,096 instructions after a pre-emption request lets the save proceed inside the handler. -/
  | handlerCountExpiry (gid : Nat)
  /-- STARVATION_EPISODE (R28): A group's starvation count reaching 2^20 updates STARVE_COUNT and STARVE_LAST and logs an event. -/
  | starvationEpisode (gid : Nat)
  /-- SLOT_DECISION (R291): A slot controller chooses the eligible stage or child grid with the greatest differential and launches one team. -/
  | slotDecision (core : Nat)
  /-- TEAM_RETIREMENT (R88): Once the last group has exited and every operation has finished, frees all of the team's resources. -/
  | teamRetirement (tid : Nat)
  /-- CHILD_GRID_END (R105): When a child grid ends, adds to its done word and frees its table entry. -/
  | childGridEnd (grid : Nat)
  /-- SLEEP_EXPIRY (R101): A sleeping group becomes ready again after 64 × n cycles. -/
  | sleepExpiry (gid : Nat)
  /-- XACQ_GRANT (R118): Grants waiting XACQs from the front of the wait line after the reserve rises. -/
  | xacqGrant (tid core : Nat) (role : Role)
  /-- COMPACTOR_COPY_DONE (R116): A compactor block copy completes, updating the owner's map and freeing the pair for the grant. -/
  | compactorCopyDone (core : Nat)
  /-- REGISTER_DEADLOCK_DETECTION (R120): The cycle after every living group of a team is parked in XACQ, raises REGISTER_DEADLOCK in the
  earliest-parked group. -/
  | registerDeadlockDetection (tid : Nat)
  /-- REGISTER_RESULT_LAND (R136): A long-latency register result lands and readers of the register become ready. -/
  | registerResultLand (gid op : Nat)
  /-- ANVIL_OWNERSHIP_GRANT (R166): The next group in the ownership line becomes owner in the cycle after a release. -/
  | anvilOwnershipGrant (core : Nat)
  /-- TILE_OP_START (R172): A tile operation starts at its place in tile order once earlier operations on its tile have completed. -/
  | tileOpStart (core op : Nat)
  /-- TILE_LINE_FETCH (R181): The tile fetch unit reads and pins an operand line, waiting for a free pin if needed. -/
  | tileLineFetch (core op : Nat)
  /-- TILE_OP_COMPLETE (R182): A tile operation completes, lowering TILE and possibly completing its batch. -/
  | tileOpComplete (core op : Nat)
  /-- COPY_CHUNK_DELIVERY (R214): Delivers one 4 KiB copy chunk into scratch and subtracts its length from the bound barrier's pending. -/
  | copyChunkDelivery (op : Nat)
  /-- QUEUE_ENQUEUE_STEP (R282): An enqueue arriving at the home slice places its records by R278 as one step of the acceptance order. -/
  | queueEnqueueStep (r : EnqReq)
  /-- QUEUE_DEQUEUE_STEP (R284): A dequeue at the home slice takes up to k ring records once records exist or the part drains. -/
  | queueDequeueStep (r : DeqReq)
  /-- QUEUE_REPLY (R282): A queue operation's reply writes predicates, registers or scratch, QSTATUS, and lowers QUEUE. -/
  | queueReply (r : QReply)
  /-- SPILL_REFILL_LANDING (R279): Spilled records land at the ring tail in spill order. -/
  | spillRefillLanding (queue n : Nat)
  /-- BELLOWS_SAMPLE (R288): At each tick boundary every home slice samples each queue part's backlog and flags for distribution. -/
  | bellowsSample
  /-- CROSSBAR_GRANT (R231): A slice port grants one request-class and one write-back-class transfer by least-recently-granted bits. -/
  | crossbarGrant (die slice : Nat) (writeBack : Bool)
  /-- L2_REQUEST (R227): A request arriving at an L2 bank is served, queued in the set-wait buffer or bypass queue, or starts a fill. -/
  | l2Request (r : L2Req)
  /-- L2_FILL_COMPLETE (R227): A fill from backing memory completes and the set's waiting requests are served in arrival order. -/
  | l2FillComplete (line : Nat) (bad : Bool)
  /-- L2_WRITEBACK (R230): A write-back arriving at a slice merges into a fill or enters the write-back queue. -/
  | l2Writeback (w : WriteBack)
  /-- MONITOR_TIMEOUT_EXPIRY (R271): An MWT whose timeout expires raises MONITOR_TIMEOUT with the monitor still armed. -/
  | monitorTimeoutExpiry (gid : Nat)
  /-- HEARTH_REFRESH_WINDOW (R235): Every 1,120 reference cycles the next Hearth bank enters its refresh window and one leaves. -/
  | hearthRefreshWindow
  /-- HEARTH_BANK_READ (R235): A Hearth read is served by its bank, after waiting for any refresh window to end. -/
  | hearthBankRead (die off : Nat)
  /-- HEARTH_WINDOW_LOADING (R237): A draining Hearth write window becomes loading once no team holds its mark bit. -/
  | hearthWindowLoading (die : Nat)
  /-- CXL_TRANSACTION_ERROR (R238): A failed CXL transaction poisons the line for a load or drops the store bytes and logs an event. -/
  | cxlTransactionError (pa : Nat) (store : Bool) (time : Nat)
  /-- SERVICE_WARP_ATOMIC (R268): A service warp performs an atomic lane at its line's logical time. -/
  | serviceWarpAtomic (a : AtomLane)
  /-- POOL_ATOMIC (R363): A pool unit performs an atomic lane on a region in atomic mode. -/
  | poolAtomic (a : AtomLane)
  /-- ATOMIC_REPLY (R267): An atomic's reply writes the old value through the return slot and frees the slot. -/
  | atomicReply (r : AtomReply)
  /-- PAGE_WALK (R380): Walks one or two stages of page tables for a page, possibly making a page request or raising a fault. -/
  | pageWalk (gid : Nat) (va : Dword) (acc : Acc)
  /-- PAGE_REQUEST_RELEASE (R383): A held page request takes an entry and ring slot when space frees and writes its record. -/
  | pageRequestRelease (die : Nat)
  /-- PRQ_REPLY (R384): A reply word from the hypervisor frees the request; waiters walk again or take PAGE_FAULT. -/
  | prqReply (word : Dword)
  /-- PRQ_HEAD (R383): A host write of the consumed page-request count frees ring space. -/
  | prqHead (func : Nat) (word : Dword)
  /-- BAR0_WRITE (R414): A host write to a BAR0 register without behaviour of its own replaces its value or is ignored. -/
  | bar0Write (func off : Nat) (val : Dword)
  /-- HEAT_SAMPLE (R387): Every 64th memory access of a die adds one to its page's heat counter. -/
  | heatSample (die pa : Nat)
  /-- HEAT_DECAY_SWEEP (R388): At the end of each decay interval a sweep halves every heat counter. -/
  | heatDecaySweep (die : Nat)
  /-- MIGRATION_LINE_COPY (R389): The migration engine copies one source line to the destination while writes are mirrored. -/
  | migrationLineCopy (op : Nat)
  /-- MIGRATION_FINISH (R389): After the shootdown completes, mirroring ends, heat moves, the command completes and event 0x07 is posted. -/
  | migrationFinish (op : Nat)
  /-- ROW_RETIREMENT (R391): An uncorrectable or sixteenth corrected error retires an HBM row by repair, logging it first. -/
  | rowRetirement (loc : RowLoc) (uncorrectable spare : Bool)
  /-- INTEREST_ARRIVAL (R298): A named-tile interest arriving at a die is answered, merged, forwarded, refused BUSY or answered NOROUTE. -/
  | interestArrival (m : Interest)
  /-- INTEREST_RETRY (R300): After a BUSY, the sender re-offers the interest after its back-off. -/
  | interestRetry (m : Interest) (n : Nat)
  /-- INTEREST_SLOT_EXPIRY (R299): An upstream requester slot is removed at its expiry tick, freeing the entry when empty. -/
  | interestSlotExpiry (die entry slot : Nat)
  /-- TILE_ANSWER_ARRIVAL (R298): A tile or answer reaching a die fans out to the requester slots of its entry or is discarded. -/
  | tileAnswerArrival (m : Answer)
  /-- NAMED_TILE_DELIVERY (R307): A tile reaching a pending ticket is written into scratch and subtracts L from the bound barrier. -/
  | namedTileDelivery (gid : Nat) (ticket : Word) (m : Answer)
  /-- TICKET_EXPIRY (R309): An unresolved ticket becomes EXPIRED with an empty delivery at its lifetime's end. -/
  | ticketExpiry (gid : Nat) (ticket : Word)
  /-- NANN_COPY_COMPLETE (R313): The announced tile's copy completes and pending interests are answered, or a fault removes the reservation. -/
  | nannCopyComplete (op : Nat)
  /-- SWAGE_COUNT_COMPLETE (R334): A non-invertible FOPEN's count of preceding positions completes. -/
  | swageCountComplete (tid fib : Nat)
  /-- FLIT_RECEIVE (R346): A received flit is accepted in seq order or discarded, with a nak on a tag failure. -/
  | flitReceive (port : Nat) (flit tag : List Byte)
  /-- REC_LANDING_RETRY (R354): Held records refused as hard full are retried at the part each cycle. -/
  | recLandingRetry (port : Nat)
  /-- ACK_RECEIVE (R346): An ACK frees covered retry-buffer flits and returns credits, or a nak triggers a resend. -/
  | ackReceive (port : Nat) (flit tag : List Byte)
  /-- ACK_SEND (R346): The receiver sends an ACK after 16 accepted flits or 64 link cycles. -/
  | ackSend (port : Nat)
  /-- RETRY_TIMEOUT (R346): With no acknowledgement progress for 1,024 link cycles the transmitter resends from its oldest held flit. -/
  | retryTimeout (port : Nat)
  /-- PORT_FORWARD_DECISION (R353): In a free link cycle a port forwards records of the part with the greatest positive weighted differential. -/
  | portForwardDecision (port : Nat)
  /-- KEY_SWITCHOVER (R350): The transmitter sends a KEYSW and forms later flits under the other key slot. -/
  | keySwitchover (port : Nat)
  /-- KEY_SLOT_RETIRE (R350): After 64 flits following its ACK of a KEYSW, the receiver empties the old slot. -/
  | keySlotRetire (port : Nat)
  /-- COLL_FLIT_ARRIVAL (R437): A COLL contribution, result or abort arriving at a package is reduced, forwarded or applied. -/
  | collFlitArrival (port : Nat) (payload : List Byte)
  /-- COLLECTIVE_TIMEOUT (R361): A collective not complete 2^26 cycles after issue aborts with status 3. -/
  | collectiveTimeout (cid : Nat)
  /-- POOL_OP_LINE (R365): The pool unit processes one line of a near-memory operation, completing it or faulting. -/
  | poolOpLine (op : Nat)
  /-- COLLECTOR_SERVE (R408): A die's collector takes the next pre-emption request and halts and stops its team. -/
  | collectorServe (die : Nat)
  /-- PREEMPT_STOP_COMPLETE (R409): Once every engine has acknowledged, the stop completes and the save begins. -/
  | preemptStopComplete (die : Nat)
  /-- PREEMPT_SAVE_COMPLETE (R409): The save image is written and the team's resources are freed. -/
  | preemptSaveComplete (die : Nat)
  /-- RESTORE_PLACEMENT (R413): A restored team is placed when resources allow and its operations resume. -/
  | restorePlacement (image : Nat)
  /-- GRAPH_RUN_END (R418): A graph run ends, freeing queue and stage numbers and posting a graph-end event. -/
  | graphRunEnd (graph : Nat)
  /-- EVENT_RING_RELEASE (R419): Held events are posted in order once ring space frees. -/
  | eventRingRelease (func n : Nat)
  /-- RESET (R421): Reset re-applies the retirement log and starts a wipe under reduced service. -/
  | reset
  /-- WIPE_COMPLETE (R421): The wipe finishes and commands are accepted again. -/
  | wipeComplete
  /-- FIRMWARE_VERIFIED (R422): Firmware verification ends reduced service and steps to full service with a wipe. -/
  | firmwareVerified
  /-- POWER_LIMIT_STEP (R428): Measured power above the limit lowers the core clock by 50 MHz steps. -/
  | powerLimitStep (watts : Nat)
  /-- THERMAL_TRIP (R428): A junction at 105 °C resets the module with a wipe. -/
  | thermalTrip
  /-- AGEING_SAMPLE (R426): The management controller samples the ageing indicators and updates its end-of-life prediction. -/
  | ageingSample (a : AgeSample)
  /-- UNKNOWN_COMMAND (R416): A command with an unknown op or bad fields completes with INVALID. -/
  | unknownCommand (c : Cmd)
  /-- SUBMIT_GRAPH (R417): Checks and places queue and stage descriptors and starts a graph run. -/
  | submitGraph (c : Cmd)
  /-- END_RUN (R418): Stops launches of a graph and completes when its last team retires. -/
  | endRun (c : Cmd)
  /-- SEAL_QUEUE (R280): Seals a queue part from the host. -/
  | sealQueue (c : Cmd)
  /-- RESTART_STAGE (R287): Lets a stage stopped by its restart policy launch again. -/
  | restartStage (c : Cmd)
  /-- HEARTH_DRAIN (R237): Puts a die's Hearth write window into draining. -/
  | hearthDrain (c : Cmd)
  /-- HEARTH_WRITE (R237): Writes host data into a loading Hearth. -/
  | hearthWrite (c : Cmd)
  /-- HEARTH_OPEN (R237): Reopens a die's Hearth window, releasing waiting reads. -/
  | hearthOpen (c : Cmd)
  /-- SET_ROUTE (R295): Writes a name-routing table entry. -/
  | setRoute (c : Cmd)
  /-- CLEAR_NAMES (R302): Clears a function's registry, horizons and Crucible lines. -/
  | clearNames (c : Cmd)
  /-- SET_CRUCIBLE (R302): Resizes a die's Crucibles. -/
  | setCrucible (c : Cmd)
  /-- SET_XLATE (R375): Writes a translation context and drops the function's TLB entries. -/
  | setXlate (c : Cmd)
  /-- SHOOTDOWN (R382): Drops matching TLB and walk-cache entries and waits for accesses through them. -/
  | shootdown (c : Cmd)
  /-- SET_COLL (R356): Writes a collective table entry. -/
  | setColl (c : Cmd)
  /-- SET_POOL (R362): Writes a pool region descriptor. -/
  | setPool (c : Cmd)
  /-- HEAT_READ (R388): Copies heat counters to host memory. -/
  | heatRead (c : Cmd)
  /-- SET_DECAY (R388): Sets the heat decay interval. -/
  | setDecay (c : Cmd)
  /-- MIGRATE (R389): Starts a page migration with mirroring on. -/
  | migrate (c : Cmd)
  /-- RETIRE_ROW (R390): Commands retirement of an HBM row. -/
  | retireRow (c : Cmd) (spare : Bool)
  /-- CLEAR_RETLOG (R392): Clears the retirement log under a signature. -/
  | clearRetlog (c : Cmd) (sigOk : Bool)
  /-- PREEMPT (R408): Queues a pre-emption request for one team with its image address. -/
  | preempt (c : Cmd)
  /-- PREEMPT_FUNCTION (R408): Queues pre-emption of every team of a function using an image list. -/
  | preemptFunction (c : Cmd)
  /-- RESTORE (R413): Checks a save image's digest and requests placement of the team. -/
  | restore (c : Cmd)
  /-- TERMINATE (R400): Terminates a team with reason 3. -/
  | terminate (c : Cmd)
  /-- ATTACH (R403): Attaches or detaches the host debugger to a team. -/
  | attach (c : Cmd)
  /-- RESUME (R403): Resumes a team halted at a breakpoint. -/
  | resume (c : Cmd)
  /-- LINK_TRAIN (R343): Trains a Jenhombe Link port with its neighbour. -/
  | linkTrain (c : Cmd) (pkg : Nat) (port : Nat)
  /-- KEY_INSTALL (R350): Installs a link key into the unused slot of a direction. -/
  | keyInstall (c : Cmd)
  /-- SET_MODE (R423): Switches a device function between hardware and host-assisted modes. -/
  | setMode (c : Cmd)
  /-- QUOTE (R425): Writes a signed quote of the measurement log, state, stepping and nonce. -/
  | quote (c : Cmd)
  /-- LIFECYCLE (R420): Moves the module to another life-cycle state under a signature, running a wipe. -/
  | lifecycle (c : Cmd) (sigOk : Bool)
  /-- HEALTH (R427): Writes the health record of ageing indicators, end of life and power. -/
  | health (c : Cmd)
  /-- HOST_PORT_ACCESS (R264): A host read or write of device memory through the host port is performed as an sc access at system scope,
  recalling owned lines and waking monitors. -/
  | hostPortAccess (pa : Nat) (data : List Byte) (write : Bool)
  /-- LINK_KEY_MANAGEMENT (R350): In its hardware mode the management controller negotiates a link key and installs it into the slot the
  transmitter is not using, at both ends. -/
  | linkKeyManagement (port dir slot linkid key : Nat)
  deriving DecidableEq, Repr

end Sys2Proof
end

