-- ==== Sys2Proof/Machine/Operands.lean ====
section
/-!
DEFINITION. What an instruction word names: its form and fields (Table 2.1), its opcode (Table 2.7), the
registers it reads and writes with the kinds of Table 2.3, its pipe (Table 4.3), its path (Table 8.7), the
element types it accepts (R41), and whether a trap handler may execute it (Table 16.2).
-/
namespace Sys2Proof.Machine
open Sys2Proof

/-- A word's form with its fields (R30, Table 2.1); `raw` is a word taken whole, `none` is no word. -/
inductive Form where
  | t (op : BitVec 11) (d a b : Reg)
  | k (op : BitVec 11) (d : Reg) (k : BitVec 14)
  | l (op : BitVec 11) (d : Reg) (lit : Word)
  | b (op : BitVec 11) (u : Bool) (pred : BitVec 4) (sense : Bool) (off : BitVec 15)
  | w (op : BitVec 11) (l s c : BitVec 5) (t : BitVec 6)
  | raw (w : Word)
  | none
  deriving DecidableEq, Repr

/-- What a field of an instruction names (Tables 2.2 and 2.3). `rd` and `wr` say whether the instruction
reads and writes it. -/
inductive Use where
  /-- Vector registers `r` to `r + n - 1`. -/
  | v (r : Reg) (n : Nat) (rd wr : Bool)
  /-- Scalar registers `r` to `r + n - 1`. -/
  | s (r : Reg) (n : Nat) (rd wr : Bool)
  /-- An even pair of scalars. -/
  | even (r : Reg) (rd wr : Bool)
  /-- A predicate. -/
  | p (r : Reg) (rd wr : Bool)
  /-- An accumulator tile. -/
  | acc (r : Reg)
  /-- A fibre register. -/
  | fib (r : Reg)
  /-- A number up to `hi`. -/
  | num (r : Reg) (hi : Nat)
  /-- The predicate field of form B; 15 only where `always` holds, with U and sense 0 (R31). -/
  | brPred (pred : BitVec 4) (always u sense : Bool)
  /-- A register-block mask, which must not be zero. -/
  | mask (m : BitVec 3)
  /-- An order code up to `hi` (R45, R256). -/
  | order (o : BitVec 3) (hi : Nat)
  /-- A scope code (R14). -/
  | scope (s : BitVec 4)
  /-- A special-register number (Table 16.4). -/
  | special (k : BitVec 14)
  /-- Two fields that must differ (R158, R160). -/
  | distinct (a b : Reg)
  deriving DecidableEq, Repr

/-- The state that lengthens a register range at issue: MR.planes, MR.etype and a queue's record words (R57). -/
structure UseCtx where
  planes : Nat
  etype : Nat
  recWords : Nat
  deriving DecidableEq, Repr

/-- Elements per lane of an element-type code (Table 3.1). -/
def elemsPerLane (t : Nat) : Nat :=
  if t ≤ 2 then 1 else if t ≤ 6 then 2 else 4

/-- Registers CVT reads for source type `src` and destination type `dst` (R153). -/
def cvtSrc (src dst : Nat) : Nat :=
  if elemsPerLane src < elemsPerLane dst then elemsPerLane dst / elemsPerLane src else 1

/-- Registers CVT writes for source type `src` and destination type `dst` (R153). -/
def cvtDst (src dst : Nat) : Nat :=
  if elemsPerLane dst ≤ elemsPerLane src then elemsPerLane src / elemsPerLane dst else 1

/-- The form and fields of each instruction (R30, R35, R48). A step of an engine or of the host is no word. -/
def form : Instr → Form
  | .illegal x => .raw (0#11 ++ x)
  | .unassignedOpcode w => .raw w
  | .nop => .t 0x001 0 0 0
  | .br u pred sense off => .b 0x002 u pred sense off
  | .brp u pred sense off => .b 0x003 u pred sense off
  | .brexz off => .b 0x004 false 0 false off
  | .call u pred sense off => .b 0x005 u pred sense off
  | .callr a => .t 0x006 0 a 0
  | .ret => .t 0x007 0 0 0
  | .jmpr a => .t 0x008 0 a 0
  | .ifp u pred sense off => .b 0x009 u pred sense off
  | .elsep off => .b 0x00A false 0 false off
  | .endif => .t 0x00B 0 0 0
  | .spawn d a b => .t 0x00C d a b
  | .spawnw d a b => .t 0x00D d a b
  | .exit => .t 0x00E 0 0 0
  | .yield => .t 0x00F 0 0 0
  | .setpri k => .k 0x010 0 (0#10 ++ k)
  | .sleep k => .k 0x011 0 k
  | .lnch d a b => .t 0x012 d a b
  | .setmode lit => .l 0x080 0 lit
  | .setmodes a => .t 0x081 0 a 0
  | .rdmode d => .t 0x082 d 0 0
  | .rdx d => .t 0x083 d 0 0
  | .wrx a => .t 0x084 0 a 0
  | .prds d a => .t 0x085 d a 0
  | .pwrs d a => .t 0x086 d a 0
  | .pand d a b => .t 0x087 d a b
  | .por d a b => .t 0x088 d a b
  | .pxor d a b => .t 0x089 d a b
  | .pandn d a b => .t 0x08A d a b
  | .pnot d a => .t 0x08B d a 0
  | .pset d k => .k 0x08C d (0#13 ++ BitVec.ofBool k)
  | .pcnt d a => .t 0x08D d a 0
  | .pffs d a => .t 0x08E d a 0
  | .add d a b => .t 0x100 d a b
  | .sub d a b => .t 0x101 d a b
  | .mul d a b => .t 0x102 d a b
  | .mulh d a b => .t 0x103 d a b
  | .mad d a b => .t 0x104 d a b
  | .min d a b => .t 0x105 d a b
  | .max d a b => .t 0x106 d a b
  | .abs d a => .t 0x107 d a 0
  | .neg d a => .t 0x108 d a 0
  | .and d a b => .t 0x109 d a b
  | .or d a b => .t 0x10A d a b
  | .xor d a b => .t 0x10B d a b
  | .not d a => .t 0x10C d a 0
  | .shl d a b => .t 0x10D d a b
  | .shr d a b => .t 0x10E d a b
  | .sar d a b => .t 0x10F d a b
  | .clz d a => .t 0x110 d a 0
  | .popc d a => .t 0x111 d a 0
  | .bfx d a b => .t 0x112 d a b
  | .bins d a b => .t 0x113 d a b
  | .sel d a b => .t 0x114 d a b
  | .cmpeq d a b => .t 0x115 d a b
  | .cmpne d a b => .t 0x116 d a b
  | .cmplt d a b => .t 0x117 d a b
  | .cmple d a b => .t 0x118 d a b
  | .cmpgt d a b => .t 0x119 d a b
  | .cmpge d a b => .t 0x11A d a b
  | .mov d a => .t 0x11B d a 0
  | .movs d a => .t 0x11C d a 0
  | .movi d lit => .l 0x11D d lit
  | .laneid d => .t 0x11E d 0 0
  | .fadd d a b => .t 0x180 d a b
  | .fsub d a b => .t 0x181 d a b
  | .fmul d a b => .t 0x182 d a b
  | .fma d a b => .t 0x183 d a b
  | .fmin d a b => .t 0x184 d a b
  | .fmax d a b => .t 0x185 d a b
  | .fabs d a => .t 0x186 d a 0
  | .fneg d a => .t 0x187 d a 0
  | .fcmpeq d a b => .t 0x188 d a b
  | .fcmpne d a b => .t 0x189 d a b
  | .fcmplt d a b => .t 0x18A d a b
  | .fcmple d a b => .t 0x18B d a b
  | .fcmpgt d a b => .t 0x18C d a b
  | .fcmpge d a b => .t 0x18D d a b
  | .fcmpun d a b => .t 0x18E d a b
  | .frcp d a => .t 0x18F d a 0
  | .frsq d a => .t 0x190 d a 0
  | .fsqrt d a => .t 0x191 d a 0
  | .fexp2 d a => .t 0x192 d a 0
  | .flog2 d a => .t 0x193 d a 0
  | .fsin d a => .t 0x194 d a 0
  | .fcos d a => .t 0x195 d a 0
  | .ftanh d a => .t 0x196 d a 0
  | .fclass d a => .t 0x197 d a 0
  | .cvt d a b => .t 0x200 d a b
  | .pq d a b => .t 0x201 d a b
  | .px d a b => .t 0x202 d a b
  | .topkins d a b => .t 0x203 d a b
  | .keepk d a b => .t 0x204 d a b
  | .fldexp d a b => .t 0x205 d a b
  | .ffrexp d a b => .t 0x206 d a b
  | .sadd d a b => .t 0x280 d a b
  | .ssub d a b => .t 0x281 d a b
  | .smul d a b => .t 0x282 d a b
  | .smin d a b => .t 0x283 d a b
  | .smax d a b => .t 0x284 d a b
  | .sand d a b => .t 0x285 d a b
  | .sor d a b => .t 0x286 d a b
  | .sxor d a b => .t 0x287 d a b
  | .sshl d a b => .t 0x288 d a b
  | .sshr d a b => .t 0x289 d a b
  | .ssar d a b => .t 0x28A d a b
  | .scmpeq d a b => .t 0x28B d a b
  | .scmpne d a b => .t 0x28C d a b
  | .scmplt d a b => .t 0x28D d a b
  | .scmple d a b => .t 0x28E d a b
  | .scmpltn d a b => .t 0x28F d a b
  | .scmplen d a b => .t 0x290 d a b
  | .smov d a => .t 0x291 d a 0
  | .smovi d lit => .l 0x292 d lit
  | .saddi d k => .k 0x293 d k
  | .sclz d a => .t 0x294 d a 0
  | .spopc d a => .t 0x295 d a 0
  | .xacq m => .k 0x300 0 (0#11 ++ m)
  | .xtry d m => .k 0x301 d (0#11 ++ m)
  | .xrel m => .k 0x302 0 (0#11 ++ m)
  | .shfl d a b => .t 0x303 d a b
  | .shflup d a b => .t 0x304 d a b
  | .shfldn d a b => .t 0x305 d a b
  | .shflx d a b => .t 0x306 d a b
  | .lrd d a b => .t 0x307 d a b
  | .lwr d a b => .t 0x308 d a b
  | .rsum d a => .t 0x309 d a 0
  | .rmax d a => .t 0x30A d a 0
  | .scanx d a => .t 0x30B d a 0
  | .ldsw d a b => .t 0x380 d a b
  | .ldsd d a b => .t 0x381 d a b
  | .ldsq d a b => .t 0x382 d a b
  | .stsw d a b => .t 0x383 d a b
  | .stsd d a b => .t 0x384 d a b
  | .stsq d a b => .t 0x385 d a b
  | .asadd d a b => .t 0x386 d a b
  | .asmin d a b => .t 0x387 d a b
  | .asmax d a b => .t 0x388 d a b
  | .asand d a b => .t 0x389 d a b
  | .asor d a b => .t 0x38A d a b
  | .asxor d a b => .t 0x38B d a b
  | .asxch d a b => .t 0x38C d a b
  | .ascas d a b => .t 0x38D d a b
  | .binit a b => .t 0x38E 0 a b
  | .barr a => .t 0x38F 0 a 0
  | .barrtx a b => .t 0x390 0 a b
  | .bwait a b => .t 0x391 0 a b
  | .btest d a => .t 0x392 d a 0
  | .binv a => .t 0x393 0 a 0
  | .cpgs d a b => .t 0x394 d a b
  | .waitc l s c t => .w 0x395 l s c t
  | .waitp a b => .t 0x396 0 a b
  | .ldb d a b => .t 0x400 d a b
  | .ldh d a b => .t 0x401 d a b
  | .ldw d a b => .t 0x402 d a b
  | .ldd d a b => .t 0x403 d a b
  | .ldq d a b => .t 0x404 d a b
  | .stb d a b => .t 0x405 d a b
  | .sth d a b => .t 0x406 d a b
  | .stw d a b => .t 0x407 d a b
  | .std d a b => .t 0x408 d a b
  | .stq d a b => .t 0x409 d a b
  | .sldw d a b => .t 0x40A d a b
  | .sldd d a b => .t 0x40B d a b
  | .sstw d a b => .t 0x40C d a b
  | .sstd d a b => .t 0x40D d a b
  | .ord noret order scope => .k 0x40E 0 (0#6 ++ BitVec.ofBool noret ++ order ++ scope)
  | .aadd d a b => .t 0x40F d a b
  | .asub d a b => .t 0x410 d a b
  | .amin d a b => .t 0x411 d a b
  | .amax d a b => .t 0x412 d a b
  | .aand d a b => .t 0x413 d a b
  | .aor d a b => .t 0x414 d a b
  | .axor d a b => .t 0x415 d a b
  | .axch d a b => .t 0x416 d a b
  | .acas d a b => .t 0x417 d a b
  | .ainc d a b => .t 0x418 d a b
  | .adec d a b => .t 0x419 d a b
  | .afadd d a b => .t 0x41A d a b
  | .fence order scope => .k 0x41B 0 (0#7 ++ order ++ scope)
  | .mona a b => .t 0x41C 0 a b
  | .mwt a => .t 0x41D 0 a 0
  | .pref a b => .t 0x41E 0 a b
  | .wcfl => .t 0x41F 0 0 0
  | .gath d a b => .t 0x480 d a b
  | .gathq d a b => .t 0x481 d a b
  | .pgld d a => .t 0x482 d a 0
  | .pgfree a => .t 0x483 0 a 0
  | .fopen d a b => .t 0x484 d a b
  | .fadv d a => .t 0x485 d a 0
  | .fend d a => .t 0x486 d a 0
  | .fclose a => .t 0x487 0 a 0
  | .fpos d a => .t 0x488 d a 0
  | .mxacq => .t 0x500 0 0 0
  | .mxtry d => .t 0x501 d 0 0
  | .mxrel => .t 0x502 0 0 0
  | .mma d a b => .t 0x503 d a b
  | .mmas d a b => .t 0x504 d a b
  | .accz d => .t 0x505 d 0 0
  | .accrd d a b => .t 0x506 d a b
  | .accwr d a b => .t 0x507 d a b
  | .accst d a b => .t 0x508 d a b
  | .mfence d => .t 0x509 d 0 0
  | .mwaitb a => .t 0x50A 0 a 0
  | .setrst lit => .l 0x50B 0 lit
  | .qenq d a b => .t 0x580 d a b
  | .qenqm d a b => .t 0x581 d a b
  | .qdeq d a b => .t 0x582 d a b
  | .qdeqm d a b => .t 0x583 d a b
  | .qlen d a => .t 0x584 d a 0
  | .qseal a => .t 0x585 0 a 0
  | .qinfo d a => .t 0x586 d a 0
  | .nint d a b => .t 0x600 d a b
  | .nann a b => .t 0x601 0 a b
  | .nseal a => .t 0x602 0 a 0
  | .ndrop a => .t 0x603 0 a 0
  | .nstat d a => .t 0x604 d a 0
  | .xagree d a => .t 0x680 d a 0
  | .xsum d a => .t 0x681 d a 0
  | .plfill d a => .t 0x682 d a 0
  | .plcopy d a => .t 0x683 d a 0
  | .plcmp d a => .t 0x684 d a 0
  | .plred d a => .t 0x685 d a 0
  | .snopen d a => .t 0x686 d a 0
  | .snclose a => .t 0x687 0 a 0
  | .snbind a => .t 0x688 0 a 0
  | .trap k => .k 0x700 0 k
  | .tret => .t 0x701 0 0 0
  | .tmask k => .k 0x702 0 (0#10 ++ k)
  | .tunmask k => .k 0x703 0 (0#10 ++ k)
  | .rdsr d k => .k 0x704 d k
  | .wrsr d k => .k 0x705 d k
  | .clk d => .t 0x706 d 0 0
  | .brk k => .k 0x707 0 k
  | .deferredTrapDelivery .. => .none
  | .siblingHaltStop .. => .none
  | .handlerCountExpiry .. => .none
  | .starvationEpisode .. => .none
  | .slotDecision .. => .none
  | .teamRetirement .. => .none
  | .childGridEnd .. => .none
  | .sleepExpiry .. => .none
  | .xacqGrant .. => .none
  | .compactorCopyDone .. => .none
  | .registerDeadlockDetection .. => .none
  | .registerResultLand .. => .none
  | .anvilOwnershipGrant .. => .none
  | .tileOpStart .. => .none
  | .tileLineFetch .. => .none
  | .tileOpComplete .. => .none
  | .copyChunkDelivery .. => .none
  | .queueEnqueueStep .. => .none
  | .queueDequeueStep .. => .none
  | .queueReply .. => .none
  | .spillRefillLanding .. => .none
  | .bellowsSample .. => .none
  | .crossbarGrant .. => .none
  | .l2Request .. => .none
  | .l2FillComplete .. => .none
  | .l2Writeback .. => .none
  | .monitorTimeoutExpiry .. => .none
  | .hearthRefreshWindow .. => .none
  | .hearthBankRead .. => .none
  | .hearthWindowLoading .. => .none
  | .cxlTransactionError .. => .none
  | .serviceWarpAtomic .. => .none
  | .poolAtomic .. => .none
  | .atomicReply .. => .none
  | .pageWalk .. => .none
  | .pageRequestRelease .. => .none
  | .prqReply .. => .none
  | .prqHead .. => .none
  | .bar0Write .. => .none
  | .heatSample .. => .none
  | .heatDecaySweep .. => .none
  | .migrationLineCopy .. => .none
  | .migrationFinish .. => .none
  | .rowRetirement .. => .none
  | .interestArrival .. => .none
  | .interestRetry .. => .none
  | .interestSlotExpiry .. => .none
  | .tileAnswerArrival .. => .none
  | .namedTileDelivery .. => .none
  | .ticketExpiry .. => .none
  | .nannCopyComplete .. => .none
  | .swageCountComplete .. => .none
  | .flitReceive .. => .none
  | .recLandingRetry .. => .none
  | .ackReceive .. => .none
  | .ackSend .. => .none
  | .retryTimeout .. => .none
  | .portForwardDecision .. => .none
  | .keySwitchover .. => .none
  | .keySlotRetire .. => .none
  | .collFlitArrival .. => .none
  | .collectiveTimeout .. => .none
  | .poolOpLine .. => .none
  | .collectorServe .. => .none
  | .preemptStopComplete .. => .none
  | .preemptSaveComplete .. => .none
  | .restorePlacement .. => .none
  | .graphRunEnd .. => .none
  | .eventRingRelease .. => .none
  | .reset .. => .none
  | .wipeComplete .. => .none
  | .firmwareVerified .. => .none
  | .powerLimitStep .. => .none
  | .thermalTrip .. => .none
  | .ageingSample .. => .none
  | .unknownCommand .. => .none
  | .submitGraph .. => .none
  | .endRun .. => .none
  | .sealQueue .. => .none
  | .restartStage .. => .none
  | .hearthDrain .. => .none
  | .hearthWrite .. => .none
  | .hearthOpen .. => .none
  | .setRoute .. => .none
  | .clearNames .. => .none
  | .setCrucible .. => .none
  | .setXlate .. => .none
  | .shootdown .. => .none
  | .setColl .. => .none
  | .setPool .. => .none
  | .heatRead .. => .none
  | .setDecay .. => .none
  | .migrate .. => .none
  | .retireRow .. => .none
  | .clearRetlog .. => .none
  | .preempt .. => .none
  | .preemptFunction .. => .none
  | .restore .. => .none
  | .terminate .. => .none
  | .attach .. => .none
  | .resume .. => .none
  | .linkTrain .. => .none
  | .keyInstall .. => .none
  | .setMode .. => .none
  | .quote .. => .none
  | .lifecycle .. => .none
  | .health .. => .none
  | .hostPortAccess .. => .none
  | .linkKeyManagement .. => .none

/-- The registers and numbers each instruction names, with what it reads and writes (Table 2.3). -/
def uses (c : UseCtx) : Instr → List Use
  | .illegal _ => []
  | .unassignedOpcode _ => []
  | .nop => []
  | .br u pred sense _ => [.brPred pred true u sense]
  | .brp u pred sense _ => [.brPred pred false u sense]
  | .brexz _ => []
  | .call u pred sense _ => [.s 126 1 false true, .brPred pred true u sense]
  | .callr a => [.s a 1 true false, .s 126 1 false true]
  | .ret => [.s 126 1 true false]
  | .jmpr a => [.s a 1 true false]
  | .ifp u pred sense _ => [.brPred pred false u sense]
  | .elsep _ => []
  | .endif => []
  | .spawn d a b => [.s d 1 false true, .s a 1 true false, .s b 8 true false]
  | .spawnw d a b => [.s d 1 false true, .s a 1 true false, .s b 8 true false]
  | .exit => []
  | .yield => []
  | .setpri _ => []
  | .sleep _ => []
  | .lnch d a b => [.s d 1 false true, .s a 1 true false, .s b 8 true false]
  | .setmode _ => []
  | .setmodes a => [.s a 1 true false]
  | .rdmode d => [.s d 1 false true]
  | .rdx d => [.even d false true]
  | .wrx a => [.even a true false]
  | .prds d a => [.even d false true, .p a true false]
  | .pwrs d a => [.p d false true, .even a true false]
  | .pand d a b => [.p d false true, .p a true false, .p b true false]
  | .por d a b => [.p d false true, .p a true false, .p b true false]
  | .pxor d a b => [.p d false true, .p a true false, .p b true false]
  | .pandn d a b => [.p d false true, .p a true false, .p b true false]
  | .pnot d a => [.p d false true, .p a true false]
  | .pset d _ => [.p d false true]
  | .pcnt d a => [.s d 1 false true, .p a true false]
  | .pffs d a => [.s d 1 false true, .p a true false]
  | .add d a b => [.v d 1 false true, .v a 1 true false, .v b 1 true false]
  | .sub d a b => [.v d 1 false true, .v a 1 true false, .v b 1 true false]
  | .mul d a b => [.v d 1 false true, .v a 1 true false, .v b 1 true false]
  | .mulh d a b => [.v d 1 false true, .v a 1 true false, .v b 1 true false]
  | .mad d a b => [.v d 1 true true, .v a 1 true false, .v b 1 true false]
  | .min d a b => [.v d 1 false true, .v a 1 true false, .v b 1 true false]
  | .max d a b => [.v d 1 false true, .v a 1 true false, .v b 1 true false]
  | .abs d a => [.v d 1 false true, .v a 1 true false]
  | .neg d a => [.v d 1 false true, .v a 1 true false]
  | .and d a b => [.v d 1 false true, .v a 1 true false, .v b 1 true false]
  | .or d a b => [.v d 1 false true, .v a 1 true false, .v b 1 true false]
  | .xor d a b => [.v d 1 false true, .v a 1 true false, .v b 1 true false]
  | .not d a => [.v d 1 false true, .v a 1 true false]
  | .shl d a b => [.v d 1 false true, .v a 1 true false, .v b 1 true false]
  | .shr d a b => [.v d 1 false true, .v a 1 true false, .v b 1 true false]
  | .sar d a b => [.v d 1 false true, .v a 1 true false, .v b 1 true false]
  | .clz d a => [.v d 1 false true, .v a 1 true false]
  | .popc d a => [.v d 1 false true, .v a 1 true false]
  | .bfx d a b => [.v d 1 false true, .v a 1 true false, .v b 1 true false]
  | .bins d a b => [.v d 1 true true, .v a 1 true false, .v b 1 true false]
  | .sel d a b => [.v d 1 false true, .v a 1 true false, .v b 1 true false, .p 0 true false]
  | .cmpeq d a b => [.p d false true, .v a 1 true false, .v b 1 true false]
  | .cmpne d a b => [.p d false true, .v a 1 true false, .v b 1 true false]
  | .cmplt d a b => [.p d false true, .v a 1 true false, .v b 1 true false]
  | .cmple d a b => [.p d false true, .v a 1 true false, .v b 1 true false]
  | .cmpgt d a b => [.p d false true, .v a 1 true false, .v b 1 true false]
  | .cmpge d a b => [.p d false true, .v a 1 true false, .v b 1 true false]
  | .mov d a => [.v d 1 false true, .v a 1 true false]
  | .movs d a => [.v d 1 false true, .s a 1 true false]
  | .movi d _ => [.v d 1 false true]
  | .laneid d => [.v d 1 false true]
  | .fadd d a b => [.v d 1 false true, .v a 1 true false, .v b 1 true false]
  | .fsub d a b => [.v d 1 false true, .v a 1 true false, .v b 1 true false]
  | .fmul d a b => [.v d 1 false true, .v a 1 true false, .v b 1 true false]
  | .fma d a b => [.v d 1 true true, .v a 1 true false, .v b 1 true false]
  | .fmin d a b => [.v d 1 false true, .v a 1 true false, .v b 1 true false]
  | .fmax d a b => [.v d 1 false true, .v a 1 true false, .v b 1 true false]
  | .fabs d a => [.v d 1 false true, .v a 1 true false]
  | .fneg d a => [.v d 1 false true, .v a 1 true false]
  | .fcmpeq d a b => [.p d false true, .v a 1 true false, .v b 1 true false]
  | .fcmpne d a b => [.p d false true, .v a 1 true false, .v b 1 true false]
  | .fcmplt d a b => [.p d false true, .v a 1 true false, .v b 1 true false]
  | .fcmple d a b => [.p d false true, .v a 1 true false, .v b 1 true false]
  | .fcmpgt d a b => [.p d false true, .v a 1 true false, .v b 1 true false]
  | .fcmpge d a b => [.p d false true, .v a 1 true false, .v b 1 true false]
  | .fcmpun d a b => [.p d false true, .v a 1 true false, .v b 1 true false]
  | .frcp d a => [.v d 1 false true, .v a 1 true false]
  | .frsq d a => [.v d 1 false true, .v a 1 true false]
  | .fsqrt d a => [.v d 1 false true, .v a 1 true false]
  | .fexp2 d a => [.v d 1 false true, .v a 1 true false]
  | .flog2 d a => [.v d 1 false true, .v a 1 true false]
  | .fsin d a => [.v d 1 false true, .v a 1 true false]
  | .fcos d a => [.v d 1 false true, .v a 1 true false]
  | .ftanh d a => [.v d 1 false true, .v a 1 true false]
  | .fclass d a => [.v d 1 false true, .v a 1 true false]
  | .cvt d a b => [.v d (cvtDst b.toNat c.etype) false true, .v a (cvtSrc b.toNat c.etype) true false, .num b 8]
  | .pq d a b => [.v d c.planes false true, .v a 32 true false, .v b 1 false true]
  | .px d a b => [.v d 32 false true, .v a c.planes true false, .v b 1 true false]
  | .topkins d a b => [.v d 1 true true, .v a 1 true true, .v b 1 true true, .distinct d a, .distinct d b, .distinct a b]
  | .keepk d a b => [.v d 1 false true, .v a 1 true false, .v b 1 true false]
  | .fldexp d a b => [.v d 1 false true, .v a 1 true false, .v b 1 true false]
  | .ffrexp d a b => [.v d 1 false true, .v a 1 true false, .v b 1 false true, .distinct d b]
  | .sadd d a b => [.s d 1 false true, .s a 1 true false, .s b 1 true false]
  | .ssub d a b => [.s d 1 false true, .s a 1 true false, .s b 1 true false]
  | .smul d a b => [.s d 1 false true, .s a 1 true false, .s b 1 true false]
  | .smin d a b => [.s d 1 false true, .s a 1 true false, .s b 1 true false]
  | .smax d a b => [.s d 1 false true, .s a 1 true false, .s b 1 true false]
  | .sand d a b => [.s d 1 false true, .s a 1 true false, .s b 1 true false]
  | .sor d a b => [.s d 1 false true, .s a 1 true false, .s b 1 true false]
  | .sxor d a b => [.s d 1 false true, .s a 1 true false, .s b 1 true false]
  | .sshl d a b => [.s d 1 false true, .s a 1 true false, .s b 1 true false]
  | .sshr d a b => [.s d 1 false true, .s a 1 true false, .s b 1 true false]
  | .ssar d a b => [.s d 1 false true, .s a 1 true false, .s b 1 true false]
  | .scmpeq d a b => [.p d false true, .s a 1 true false, .s b 1 true false]
  | .scmpne d a b => [.p d false true, .s a 1 true false, .s b 1 true false]
  | .scmplt d a b => [.p d false true, .s a 1 true false, .s b 1 true false]
  | .scmple d a b => [.p d false true, .s a 1 true false, .s b 1 true false]
  | .scmpltn d a b => [.p d false true, .s a 1 true false, .s b 1 true false]
  | .scmplen d a b => [.p d false true, .s a 1 true false, .s b 1 true false]
  | .smov d a => [.s d 1 false true, .s a 1 true false]
  | .smovi d _ => [.s d 1 false true]
  | .saddi d _ => [.s d 1 true true]
  | .sclz d a => [.s d 1 false true, .s a 1 true false]
  | .spopc d a => [.s d 1 false true, .s a 1 true false]
  | .xacq m => [.mask m]
  | .xtry d m => [.p d false true, .mask m]
  | .xrel m => [.mask m]
  | .shfl d a b => [.v d 1 false true, .v a 1 true false, .v b 1 true false]
  | .shflup d a b => [.v d 1 false true, .v a 1 true false, .s b 1 true false]
  | .shfldn d a b => [.v d 1 false true, .v a 1 true false, .s b 1 true false]
  | .shflx d a b => [.v d 1 false true, .v a 1 true false, .s b 1 true false]
  | .lrd d a b => [.s d 1 false true, .v a 1 true false, .s b 1 true false]
  | .lwr d a b => [.v d 1 false true, .s a 1 true false, .s b 1 true false]
  | .rsum d a => [.s d 1 false true, .v a 1 true false]
  | .rmax d a => [.s d 1 false true, .v a 1 true false]
  | .scanx d a => [.v d 1 false true, .v a 1 true false]
  | .ldsw d a b => [.v d 1 false true, .s a 1 true false, .v b 1 true false]
  | .ldsd d a b => [.v d 2 false true, .s a 1 true false, .v b 1 true false]
  | .ldsq d a b => [.v d 4 false true, .s a 1 true false, .v b 1 true false]
  | .stsw d a b => [.v d 1 true false, .s a 1 true false, .v b 1 true false]
  | .stsd d a b => [.v d 2 true false, .s a 1 true false, .v b 1 true false]
  | .stsq d a b => [.v d 4 true false, .s a 1 true false, .v b 1 true false]
  | .asadd d a b => [.v d 1 true true, .s a 1 true false, .v b 1 true false]
  | .asmin d a b => [.v d 1 true true, .s a 1 true false, .v b 1 true false]
  | .asmax d a b => [.v d 1 true true, .s a 1 true false, .v b 1 true false]
  | .asand d a b => [.v d 1 true true, .s a 1 true false, .v b 1 true false]
  | .asor d a b => [.v d 1 true true, .s a 1 true false, .v b 1 true false]
  | .asxor d a b => [.v d 1 true true, .s a 1 true false, .v b 1 true false]
  | .asxch d a b => [.v d 1 true true, .s a 1 true false, .v b 1 true false]
  | .ascas d a b => [.v d 2 true true, .s a 1 true false, .v b 1 true false]
  | .binit a b => [.s a 1 true false, .s b 1 true false]
  | .barr a => [.s a 1 true false]
  | .barrtx a b => [.s a 1 true false, .s b 1 true false]
  | .bwait a b => [.s a 1 true false, .s b 1 true false]
  | .btest d a => [.p d false true, .s a 1 true false]
  | .binv a => [.s a 1 true false]
  | .cpgs d a b => [.s d 1 true false, .s a 1 true false, .s b 2 true false]
  | .waitc _ _ _ _ => []
  | .waitp a b => [.num a 7, .s b 1 true false]
  | .ldb d a b => [.v d 1 false true, .s a 1 true false, .v b 1 true false]
  | .ldh d a b => [.v d 1 false true, .s a 1 true false, .v b 1 true false]
  | .ldw d a b => [.v d 1 false true, .s a 1 true false, .v b 1 true false]
  | .ldd d a b => [.v d 2 false true, .s a 1 true false, .v b 1 true false]
  | .ldq d a b => [.v d 4 false true, .s a 1 true false, .v b 1 true false]
  | .stb d a b => [.v d 1 true false, .s a 1 true false, .v b 1 true false]
  | .sth d a b => [.v d 1 true false, .s a 1 true false, .v b 1 true false]
  | .stw d a b => [.v d 1 true false, .s a 1 true false, .v b 1 true false]
  | .std d a b => [.v d 2 true false, .s a 1 true false, .v b 1 true false]
  | .stq d a b => [.v d 4 true false, .s a 1 true false, .v b 1 true false]
  | .sldw d a b => [.s d 1 false true, .s a 1 true false, .s b 1 true false]
  | .sldd d a b => [.s d 1 false true, .s a 1 true false, .s b 1 true false]
  | .sstw d a b => [.s d 1 true false, .s a 1 true false, .s b 1 true false]
  | .sstd d a b => [.s d 1 true false, .s a 1 true false, .s b 1 true false]
  | .ord _ order scope => [.order order 4, .scope scope]
  | .aadd d a b => [.v d 1 true true, .s a 1 true false, .v b 1 true false]
  | .asub d a b => [.v d 1 true true, .s a 1 true false, .v b 1 true false]
  | .amin d a b => [.v d 1 true true, .s a 1 true false, .v b 1 true false]
  | .amax d a b => [.v d 1 true true, .s a 1 true false, .v b 1 true false]
  | .aand d a b => [.v d 1 true true, .s a 1 true false, .v b 1 true false]
  | .aor d a b => [.v d 1 true true, .s a 1 true false, .v b 1 true false]
  | .axor d a b => [.v d 1 true true, .s a 1 true false, .v b 1 true false]
  | .axch d a b => [.v d 1 true true, .s a 1 true false, .v b 1 true false]
  | .acas d a b => [.v d 2 true true, .s a 1 true false, .v b 1 true false]
  | .ainc d a b => [.v d 1 true true, .s a 1 true false, .v b 1 true false]
  | .adec d a b => [.v d 1 true true, .s a 1 true false, .v b 1 true false]
  | .afadd d a b => [.v d 1 true true, .s a 1 true false, .v b 1 true false]
  | .fence order scope => [.order order 3, .scope scope]
  | .mona a b => [.s a 1 true false, .v b 1 true false]
  | .mwt a => [.s a 1 true false]
  | .pref a b => [.s a 1 true false, .v b 1 true false]
  | .wcfl => []
  | .gath d a b => [.v d 1 false true, .s a 1 true false, .v b 1 true false]
  | .gathq d a b => [.v d 1 false true, .s a 1 true false, .v b 1 true false]
  | .pgld d a => [.s d 1 false true, .s a 1 true false]
  | .pgfree a => [.s a 1 true false]
  | .fopen d a b => [.fib d, .s a 1 true false, .s b 1 true false]
  | .fadv d a => [.v d 2 false true, .fib a]
  | .fend d a => [.p d false true, .fib a]
  | .fclose a => [.fib a]
  | .fpos d a => [.s d 1 false true, .fib a]
  | .mxacq => []
  | .mxtry d => [.p d false true]
  | .mxrel => []
  | .mma d a b => [.acc d, .s a 1 true false, .s b 2 true false]
  | .mmas d a b => [.acc d, .s a 1 true false, .s b 2 true false]
  | .accz d => [.acc d]
  | .accrd d a b => [.v d 8 false true, .acc a, .s b 1 true false]
  | .accwr d a b => [.acc d, .v a 8 true false, .s b 1 true false]
  | .accst d a b => [.acc d, .s a 1 true false, .s b 1 true false]
  | .mfence d => [.s d 1 false true]
  | .mwaitb a => [.s a 1 true false]
  | .setrst _ => []
  | .qenq d a b => [.p d false true, .s a 1 true false, .v b c.recWords true false]
  | .qenqm d a b => [.p d false true, .s a 1 true false, .s b 1 true false]
  | .qdeq d a b => [.v d c.recWords false true, .s a 1 true false, .p b false true]
  | .qdeqm d a b => [.s d 1 true false, .s a 1 true false, .p b false true]
  | .qlen d a => [.s d 1 false true, .s a 1 true false]
  | .qseal a => [.s a 1 true false]
  | .qinfo d a => [.s d 1 false true, .s a 1 true false]
  | .nint d a b => [.s d 1 false true, .s a 2 true false, .s b 2 true false]
  | .nann a b => [.s a 2 true false, .s b 2 true false]
  | .nseal a => [.s a 2 true false]
  | .ndrop a => [.s a 1 true false]
  | .nstat d a => [.s d 1 false true, .s a 1 true false]
  | .xagree d a => [.v d 1 true true, .s a 1 true false]
  | .xsum d a => [.s d 1 false true, .s a 1 true false]
  | .plfill d a => [.s d 1 false true, .s a 1 true false]
  | .plcopy d a => [.s d 1 false true, .s a 1 true false]
  | .plcmp d a => [.s d 1 false true, .s a 1 true false]
  | .plred d a => [.s d 1 false true, .s a 1 true false]
  | .snopen d a => [.s d 1 false true, .s a 1 true false]
  | .snclose a => [.s a 1 true false]
  | .snbind a => [.s a 1 true false]
  | .trap _ => []
  | .tret => []
  | .tmask _ => []
  | .tunmask _ => []
  | .rdsr d k => [.s d 1 false true, .special k]
  | .wrsr d k => [.s d 1 true false, .special k]
  | .clk d => [.s d 1 false true]
  | .brk _ => []
  | .deferredTrapDelivery .. => []
  | .siblingHaltStop .. => []
  | .handlerCountExpiry .. => []
  | .starvationEpisode .. => []
  | .slotDecision .. => []
  | .teamRetirement .. => []
  | .childGridEnd .. => []
  | .sleepExpiry .. => []
  | .xacqGrant .. => []
  | .compactorCopyDone .. => []
  | .registerDeadlockDetection .. => []
  | .registerResultLand .. => []
  | .anvilOwnershipGrant .. => []
  | .tileOpStart .. => []
  | .tileLineFetch .. => []
  | .tileOpComplete .. => []
  | .copyChunkDelivery .. => []
  | .queueEnqueueStep .. => []
  | .queueDequeueStep .. => []
  | .queueReply .. => []
  | .spillRefillLanding .. => []
  | .bellowsSample .. => []
  | .crossbarGrant .. => []
  | .l2Request .. => []
  | .l2FillComplete .. => []
  | .l2Writeback .. => []
  | .monitorTimeoutExpiry .. => []
  | .hearthRefreshWindow .. => []
  | .hearthBankRead .. => []
  | .hearthWindowLoading .. => []
  | .cxlTransactionError .. => []
  | .serviceWarpAtomic .. => []
  | .poolAtomic .. => []
  | .atomicReply .. => []
  | .pageWalk .. => []
  | .pageRequestRelease .. => []
  | .prqReply .. => []
  | .prqHead .. => []
  | .bar0Write .. => []
  | .heatSample .. => []
  | .heatDecaySweep .. => []
  | .migrationLineCopy .. => []
  | .migrationFinish .. => []
  | .rowRetirement .. => []
  | .interestArrival .. => []
  | .interestRetry .. => []
  | .interestSlotExpiry .. => []
  | .tileAnswerArrival .. => []
  | .namedTileDelivery .. => []
  | .ticketExpiry .. => []
  | .nannCopyComplete .. => []
  | .swageCountComplete .. => []
  | .flitReceive .. => []
  | .recLandingRetry .. => []
  | .ackReceive .. => []
  | .ackSend .. => []
  | .retryTimeout .. => []
  | .portForwardDecision .. => []
  | .keySwitchover .. => []
  | .keySlotRetire .. => []
  | .collFlitArrival .. => []
  | .collectiveTimeout .. => []
  | .poolOpLine .. => []
  | .collectorServe .. => []
  | .preemptStopComplete .. => []
  | .preemptSaveComplete .. => []
  | .restorePlacement .. => []
  | .graphRunEnd .. => []
  | .eventRingRelease .. => []
  | .reset .. => []
  | .wipeComplete .. => []
  | .firmwareVerified .. => []
  | .powerLimitStep .. => []
  | .thermalTrip .. => []
  | .ageingSample .. => []
  | .unknownCommand .. => []
  | .submitGraph .. => []
  | .endRun .. => []
  | .sealQueue .. => []
  | .restartStage .. => []
  | .hearthDrain .. => []
  | .hearthWrite .. => []
  | .hearthOpen .. => []
  | .setRoute .. => []
  | .clearNames .. => []
  | .setCrucible .. => []
  | .setXlate .. => []
  | .shootdown .. => []
  | .setColl .. => []
  | .setPool .. => []
  | .heatRead .. => []
  | .setDecay .. => []
  | .migrate .. => []
  | .retireRow .. => []
  | .clearRetlog .. => []
  | .preempt .. => []
  | .preemptFunction .. => []
  | .restore .. => []
  | .terminate .. => []
  | .attach .. => []
  | .resume .. => []
  | .linkTrain .. => []
  | .keyInstall .. => []
  | .setMode .. => []
  | .quote .. => []
  | .lifecycle .. => []
  | .health .. => []
  | .hostPortAccess .. => []
  | .linkKeyManagement .. => []

/-- The least that state allows a range to be (R57). -/
def UseCtx.least (i : Instr) : UseCtx :=
  match i with
  | .cvt _ _ b => { planes := 2, etype := b.toNat, recWords := 16 }
  | _ => { planes := 2, etype := 0, recWords := 16 }

/-- The opcode of a word (R47); none for a step of an engine or of the host. -/
def opcode (i : Instr) : Option Nat :=
  match form i with
  | .t op .. => some op.toNat
  | .k op .. => some op.toNat
  | .l op .. => some op.toNat
  | .b op .. => some op.toNat
  | .w op .. => some op.toNat
  | .raw w => some (w.toNat >>> 21)
  | .none => none

/-- The opcode, or a number above every opcode. -/
def opnum (i : Instr) : Nat := (opcode i).getD 0x800

/-- Bytes of an instruction: 8 in form L, 4 otherwise (R29). -/
def instrBytes (i : Instr) : Nat :=
  match form i with
  | .l .. => 8
  | _ => 4

/-- Number of an assigned opcode's class and offset (Table 2.7): the count of assigned offsets by class. -/
def assignedOffsets (cls : Nat) : Nat :=
  [0x13, 0x0F, 0x1F, 0x18, 0x07, 0x16, 0x0C, 0x17, 0x20, 0x09, 0x0C, 0x07, 0x05, 0x09, 0x08].getD cls 0

/-- The opcode is assigned (R48). -/
def isAssigned (op : Nat) : Bool := decide (op % 128 < assignedOffsets (op / 128))

/-- The special-register numbers of Table 16.4. -/
def isSpecial (k : Nat) : Bool :=
  decide (k ≤ 0x009) || (decide (0x010 ≤ k) && decide (k ≤ 0x015)) || (decide (0x020 ≤ k) && decide (k ≤ 0x022))
    || (decide (0x030 ≤ k) && decide (k ≤ 0x032)) || (decide (0x040 ≤ k) && decide (k ≤ 0x048))

/-- A field holds a legal value (R31, R34, R45): step 3 of R50. -/
def Use.legal : Use → Bool
  | .v r n _ _ => decide (r.toNat + n ≤ 128)
  | .s r n _ _ => decide (r.toNat + n ≤ 128)
  | .even r _ _ => decide (r.toNat % 2 = 0)
  | .p r _ _ => decide (r.toNat ≤ 11)
  | .acc r => decide (r.toNat ≤ 11)
  | .fib r => decide (r.toNat ≤ 7)
  | .num r hi => decide (r.toNat ≤ hi)
  | .brPred q always u sense => decide (q.toNat ≤ 11) || (always && decide (q.toNat = 15) && !u && !sense)
  | .mask m => decide (m ≠ 0)
  | .order o hi => decide (o.toNat ≤ hi)
  | .scope x => decide (x.toNat ≤ 9)
  | .special k => isSpecial k.toNat
  | .distinct x y => decide (x ≠ y)

/-- Every field is legal. -/
def fieldsLegal (c : UseCtx) (i : Instr) : Bool := (uses c i).all Use.legal

/-- The issue pipes of a core (R87). -/
inductive Pipe where
  | vector | scalar | memory
  deriving DecidableEq, Repr

/-- The pipe of an opcode (Table 4.3). -/
def pipeOf (op : Nat) : Pipe :=
  let cls := op / 128
  let off := op % 128
  if cls = 2 ∨ cls = 3 ∨ cls = 4 then .vector
  else if cls = 6 then (if (3 ≤ off ∧ off ≤ 6) ∨ 9 ≤ off then .vector else .scalar)
  else if 7 ≤ cls ∧ cls ≤ 13 then .memory
  else .scalar

/-- The pipe an instruction issues in; a word without an assigned opcode takes the scalar/control pipe (R50). -/
def pipe (i : Instr) : Pipe :=
  if isAssigned (opnum i) then pipeOf (opnum i) else .scalar

/-- The instruction reads LIVE: its effects are per lane (R42, R43). -/
def readsLive (op : Nat) : Bool :=
  let cls := op / 128
  let off := op % 128
  if cls = 0 then decide (off = 2 ∨ off = 3 ∨ off = 5)
  else if cls = 1 then decide (7 ≤ off)
  else if cls = 2 ∨ cls = 3 ∨ cls = 4 then true
  else if cls = 6 then decide (off = 1 ∨ (3 ≤ off ∧ off ≤ 6) ∨ 9 ≤ off)
  else if cls = 7 then decide (off ≤ 0x0D)
  else if cls = 8 then decide (off ≤ 9 ∨ (0x0F ≤ off ∧ off ≤ 0x1A) ∨ off = 0x1C ∨ off = 0x1E)
  else if cls = 9 then decide (off ≤ 1 ∨ off = 5)
  else if cls = 10 then decide (3 ≤ off ∧ off ≤ 8)
  else if cls = 11 then decide (off ≤ 3)
  else if cls = 13 then decide (off = 0)
  else false

/-- A handler may execute the instruction (Table 16.2); BRK is judged with the attach bit (R403). -/
def handlerMay (op : Nat) : Bool :=
  let cls := op / 128
  let off := op % 128
  if cls = 0 then decide (1 ≤ off ∧ off ≤ 8)
  else if cls = 1 then decide (off ≤ 6 ∨ off = 0x0D ∨ off = 0x0E)
  else if cls = 5 then true
  else if cls = 6 then decide (off = 7 ∨ off = 8)
  else if cls = 7 then decide (off = 0x12 ∨ off = 0x13 ∨ off = 0x14)
  else if cls = 8 then decide ((0x0A ≤ off ∧ off ≤ 0x0E) ∨ off = 0x1B ∨ off = 0x1F)
  else if cls = 11 then decide (4 ≤ off)
  else if cls = 12 then decide (off = 3 ∨ off = 4)
  else if cls = 14 then decide (1 ≤ off)
  else false

/-- The path an instruction counts on (Table 8.7); an atomic with noret counts on STORE (R267). -/
def pathOf (op : Nat) (noret : Bool) : Option Nat :=
  let cls := op / 128
  let off := op % 128
  if cls = 8 then
    if off ≤ 4 ∨ off = 0x0A ∨ off = 0x0B then some 0
    else if off ≤ 9 ∨ off = 0x0C ∨ off = 0x0D then some 1
    else if 0x0F ≤ off ∧ off ≤ 0x1A then some (if noret then 1 else 0)
    else none
  else if cls = 7 then (if off = 0x14 then some 2 else none)
  else if cls = 10 then (if off = 3 ∨ off = 4 ∨ off = 5 ∨ off = 7 ∨ off = 8 then some 3 else none)
  else if cls = 9 then (if off ≤ 2 then some 4 else none)
  else if cls = 11 then (if off ≤ 3 then some 5 else none)
  else if cls = 12 then (if off = 0 then some 6 else none)
  else if cls = 13 then (if off ≤ 6 then some 7 else none)
  else none

/-- The element types an opcode accepts, given MR.sat; none where MR.etype is not read (R41). -/
def acceptedEtypes (op : Nat) (sat : Bool) : Option (List Nat) :=
  let cls := op / 128
  let off := op % 128
  if cls = 2 then
    if (9 ≤ off ∧ off ≤ 0x0C) ∨ off = 0x14 ∨ 0x1B ≤ off then none else some [0, 1, 5, 6, 7, 8]
  else if cls = 3 then some [2, 3, 4]
  else if cls = 4 then
    (match off with
     | 1 => some [2]
     | 2 => some [2]
     | 4 => some [0, 1, 2]
     | 5 => some [2, 3, 4]
     | 6 => some [2, 3, 4]
     | _ => none)
  else if cls = 6 then
    (match off with
     | 9 => some [0, 1, 2]
     | 0x0A => some [0, 1, 2]
     | 0x0B => some [0, 1]
     | _ => none)
  else if cls = 7 then (if off = 7 ∨ off = 8 then some [0, 1] else none)
  else if cls = 8 then
    if off = 0x0F ∨ off = 0x10 then (if sat then some [0, 1] else none)
    else if off = 0x11 ∨ off = 0x12 then some [0, 1]
    else if off = 0x1A then some [2]
    else none
  else none

/-- Step 5 of R50: the instruction accepts MR's element type. -/
def acceptsEtype (op : Nat) (sat : Bool) (etype : Nat) : Bool :=
  match acceptedEtypes op sat with
  | none => true
  | some l => l.contains etype

/-- The word may follow an ORD (R46): a load or store, or an atomic. -/
def ordPairs (op : Nat) : Bool := decide ((0x400 ≤ op ∧ op ≤ 0x40D) ∨ (0x40F ≤ op ∧ op ≤ 0x41A))

/-- The word is an atomic of class 8. -/
def isAtomic (op : Nat) : Bool := decide (0x40F ≤ op ∧ op ≤ 0x41A)

/-- The word is a store of class 8. -/
def isStore (op : Nat) : Bool := decide ((0x405 ≤ op ∧ op ≤ 0x409) ∨ op = 0x40C ∨ op = 0x40D)

/-- The orders of Table 10.2 by their codes: the instruction admits the order with this noret. -/
def admitsOrder (op : Nat) (noret : Bool) (order : Nat) : Bool :=
  if isAtomic op then
    (if noret then decide (order = 0 ∨ order = 2 ∨ order = 4) else decide (order ≤ 4))
  else !noret && (if isStore op then decide (order = 0 ∨ order = 2 ∨ order = 4)
    else decide (order = 0 ∨ order = 1 ∨ order = 4))

end Sys2Proof.Machine
end

