-- ==== Sys2Proof/WellFormed.lean ====
section
/-!
DEFINITION. Which instructions are well formed: every field names a register of its kind, every range the word
fixes lies inside its register file, every code is one the spec defines (R31, R34, R45, R57), and a word given
as unassigned has an opcode that Table 2.7 leaves unassigned.
-/
namespace Sys2Proof
open Sys2Proof.Machine

/-- The checks of step 3 of R50 that the word alone decides (R57). -/
def Instr.wellFormed (i : Instr) : Bool :=
  match i with
  | .unassignedOpcode w => !isAssigned (w.toNat >>> 21)
  | i => fieldsLegal (UseCtx.least i) i

/-- A well-formed instruction. -/
abbrev Instr.WF (i : Instr) : Prop := i.wellFormed = true

end Sys2Proof
end

