-- ==== Sys2Proof/Decode.lean ====
section
/-!
DEFINITION. The decoder of instruction words, total on any bytes, and the encoder (R29 to R35, R47, R48,
Tables 2.1, 2.3 and 2.7). Decoding fixes a word's opcode and fields; R31 and R34's legal values are WellFormed's.
-/
namespace Sys2Proof
open Sys2Proof.Machine

/-- Why bytes decode to no instruction: a bit that the instruction does not use is not zero (R33), or the
bytes end before the instruction does. -/
inductive DecodeError where
  | reservedField
  | truncated
  deriving DecidableEq, Repr

/-- Opcode, bits [31:21] (R30). -/
def fOp (w : Word) : BitVec 11 := w.extractLsb' 21 11
/-- Field d, bits [20:14]. -/
def fD (w : Word) : Reg := w.extractLsb' 14 7
/-- Field a, bits [13:7]. -/
def fA (w : Word) : Reg := w.extractLsb' 7 7
/-- Field b, bits [6:0]. -/
def fB (w : Word) : Reg := w.extractLsb' 0 7
/-- Immediate k14, bits [13:0]. -/
def fK (w : Word) : BitVec 14 := w.extractLsb' 0 14
/-- U of form B, bit [20]. -/
def fU (w : Word) : Bool := w.getLsbD 20
/-- pred of form B, bits [19:16]. -/
def fPred (w : Word) : BitVec 4 := w.extractLsb' 16 4
/-- sense of form B, bit [15]. -/
def fSense (w : Word) : Bool := w.getLsbD 15
/-- offset of form B, bits [14:0]. -/
def fOff (w : Word) : BitVec 15 := w.extractLsb' 0 15

/-- The instruction where the bits it does not use are zero (R33). -/
def zeroElse (p : Prop) [Decidable p] (i : Instr) : Except DecodeError Instr :=
  if p then .ok i else .error .reservedField

/-- The instructions of class 0 by their offsets (Table 2.7). -/
def decodeClass0 (o : Nat) (w : Word) : Except DecodeError Instr :=
  match o with
  | 0x00 => .ok (.illegal (w.extractLsb' 0 21))
  | 0x01 => zeroElse (fD w = 0 ∧ fA w = 0 ∧ fB w = 0) .nop
  | 0x02 => .ok (.br (fU w) (fPred w) (fSense w) (fOff w))
  | 0x03 => .ok (.brp (fU w) (fPred w) (fSense w) (fOff w))
  | 0x04 => zeroElse (fU w = false ∧ fPred w = 0 ∧ fSense w = false) (.brexz (fOff w))
  | 0x05 => .ok (.call (fU w) (fPred w) (fSense w) (fOff w))
  | 0x06 => zeroElse (fD w = 0 ∧ fB w = 0) (.callr (fA w))
  | 0x07 => zeroElse (fD w = 0 ∧ fA w = 0 ∧ fB w = 0) .ret
  | 0x08 => zeroElse (fD w = 0 ∧ fB w = 0) (.jmpr (fA w))
  | 0x09 => .ok (.ifp (fU w) (fPred w) (fSense w) (fOff w))
  | 0x0A => zeroElse (fU w = false ∧ fPred w = 0 ∧ fSense w = false) (.elsep (fOff w))
  | 0x0B => zeroElse (fD w = 0 ∧ fA w = 0 ∧ fB w = 0) .endif
  | 0x0C => .ok (.spawn (fD w) (fA w) (fB w))
  | 0x0D => .ok (.spawnw (fD w) (fA w) (fB w))
  | 0x0E => zeroElse (fD w = 0 ∧ fA w = 0 ∧ fB w = 0) .exit
  | 0x0F => zeroElse (fD w = 0 ∧ fA w = 0 ∧ fB w = 0) .yield
  | 0x10 => zeroElse (fD w = 0 ∧ w.extractLsb' 4 10 = 0) (.setpri (w.extractLsb' 0 4))
  | 0x11 => zeroElse (fD w = 0) (.sleep (fK w))
  | 0x12 => .ok (.lnch (fD w) (fA w) (fB w))
  | _ => .ok (.unassignedOpcode w)

/-- The instructions of class 1 by their offsets (Table 2.7). -/
def decodeClass1 (o : Nat) (w lit : Word) : Except DecodeError Instr :=
  match o with
  | 0x00 => zeroElse (fD w = 0 ∧ fK w = 0) (.setmode lit)
  | 0x01 => zeroElse (fD w = 0 ∧ fB w = 0) (.setmodes (fA w))
  | 0x02 => zeroElse (fA w = 0 ∧ fB w = 0) (.rdmode (fD w))
  | 0x03 => zeroElse (fA w = 0 ∧ fB w = 0) (.rdx (fD w))
  | 0x04 => zeroElse (fD w = 0 ∧ fB w = 0) (.wrx (fA w))
  | 0x05 => zeroElse (fB w = 0) (.prds (fD w) (fA w))
  | 0x06 => zeroElse (fB w = 0) (.pwrs (fD w) (fA w))
  | 0x07 => .ok (.pand (fD w) (fA w) (fB w))
  | 0x08 => .ok (.por (fD w) (fA w) (fB w))
  | 0x09 => .ok (.pxor (fD w) (fA w) (fB w))
  | 0x0A => .ok (.pandn (fD w) (fA w) (fB w))
  | 0x0B => zeroElse (fB w = 0) (.pnot (fD w) (fA w))
  | 0x0C => zeroElse (w.extractLsb' 1 13 = 0) (.pset (fD w) (w.getLsbD 0))
  | 0x0D => zeroElse (fB w = 0) (.pcnt (fD w) (fA w))
  | 0x0E => zeroElse (fB w = 0) (.pffs (fD w) (fA w))
  | _ => .ok (.unassignedOpcode w)

/-- The instructions of class 2 by their offsets (Table 2.7). -/
def decodeClass2 (o : Nat) (w lit : Word) : Except DecodeError Instr :=
  match o with
  | 0x00 => .ok (.add (fD w) (fA w) (fB w))
  | 0x01 => .ok (.sub (fD w) (fA w) (fB w))
  | 0x02 => .ok (.mul (fD w) (fA w) (fB w))
  | 0x03 => .ok (.mulh (fD w) (fA w) (fB w))
  | 0x04 => .ok (.mad (fD w) (fA w) (fB w))
  | 0x05 => .ok (.min (fD w) (fA w) (fB w))
  | 0x06 => .ok (.max (fD w) (fA w) (fB w))
  | 0x07 => zeroElse (fB w = 0) (.abs (fD w) (fA w))
  | 0x08 => zeroElse (fB w = 0) (.neg (fD w) (fA w))
  | 0x09 => .ok (.and (fD w) (fA w) (fB w))
  | 0x0A => .ok (.or (fD w) (fA w) (fB w))
  | 0x0B => .ok (.xor (fD w) (fA w) (fB w))
  | 0x0C => zeroElse (fB w = 0) (.not (fD w) (fA w))
  | 0x0D => .ok (.shl (fD w) (fA w) (fB w))
  | 0x0E => .ok (.shr (fD w) (fA w) (fB w))
  | 0x0F => .ok (.sar (fD w) (fA w) (fB w))
  | 0x10 => zeroElse (fB w = 0) (.clz (fD w) (fA w))
  | 0x11 => zeroElse (fB w = 0) (.popc (fD w) (fA w))
  | 0x12 => .ok (.bfx (fD w) (fA w) (fB w))
  | 0x13 => .ok (.bins (fD w) (fA w) (fB w))
  | 0x14 => .ok (.sel (fD w) (fA w) (fB w))
  | 0x15 => .ok (.cmpeq (fD w) (fA w) (fB w))
  | 0x16 => .ok (.cmpne (fD w) (fA w) (fB w))
  | 0x17 => .ok (.cmplt (fD w) (fA w) (fB w))
  | 0x18 => .ok (.cmple (fD w) (fA w) (fB w))
  | 0x19 => .ok (.cmpgt (fD w) (fA w) (fB w))
  | 0x1A => .ok (.cmpge (fD w) (fA w) (fB w))
  | 0x1B => zeroElse (fB w = 0) (.mov (fD w) (fA w))
  | 0x1C => zeroElse (fB w = 0) (.movs (fD w) (fA w))
  | 0x1D => zeroElse (fK w = 0) (.movi (fD w) lit)
  | 0x1E => zeroElse (fA w = 0 ∧ fB w = 0) (.laneid (fD w))
  | _ => .ok (.unassignedOpcode w)

/-- The instructions of class 3 by their offsets (Table 2.7). -/
def decodeClass3 (o : Nat) (w : Word) : Except DecodeError Instr :=
  match o with
  | 0x00 => .ok (.fadd (fD w) (fA w) (fB w))
  | 0x01 => .ok (.fsub (fD w) (fA w) (fB w))
  | 0x02 => .ok (.fmul (fD w) (fA w) (fB w))
  | 0x03 => .ok (.fma (fD w) (fA w) (fB w))
  | 0x04 => .ok (.fmin (fD w) (fA w) (fB w))
  | 0x05 => .ok (.fmax (fD w) (fA w) (fB w))
  | 0x06 => zeroElse (fB w = 0) (.fabs (fD w) (fA w))
  | 0x07 => zeroElse (fB w = 0) (.fneg (fD w) (fA w))
  | 0x08 => .ok (.fcmpeq (fD w) (fA w) (fB w))
  | 0x09 => .ok (.fcmpne (fD w) (fA w) (fB w))
  | 0x0A => .ok (.fcmplt (fD w) (fA w) (fB w))
  | 0x0B => .ok (.fcmple (fD w) (fA w) (fB w))
  | 0x0C => .ok (.fcmpgt (fD w) (fA w) (fB w))
  | 0x0D => .ok (.fcmpge (fD w) (fA w) (fB w))
  | 0x0E => .ok (.fcmpun (fD w) (fA w) (fB w))
  | 0x0F => zeroElse (fB w = 0) (.frcp (fD w) (fA w))
  | 0x10 => zeroElse (fB w = 0) (.frsq (fD w) (fA w))
  | 0x11 => zeroElse (fB w = 0) (.fsqrt (fD w) (fA w))
  | 0x12 => zeroElse (fB w = 0) (.fexp2 (fD w) (fA w))
  | 0x13 => zeroElse (fB w = 0) (.flog2 (fD w) (fA w))
  | 0x14 => zeroElse (fB w = 0) (.fsin (fD w) (fA w))
  | 0x15 => zeroElse (fB w = 0) (.fcos (fD w) (fA w))
  | 0x16 => zeroElse (fB w = 0) (.ftanh (fD w) (fA w))
  | 0x17 => zeroElse (fB w = 0) (.fclass (fD w) (fA w))
  | _ => .ok (.unassignedOpcode w)

/-- The instructions of class 4 by their offsets (Table 2.7). -/
def decodeClass4 (o : Nat) (w : Word) : Except DecodeError Instr :=
  match o with
  | 0x00 => .ok (.cvt (fD w) (fA w) (fB w))
  | 0x01 => .ok (.pq (fD w) (fA w) (fB w))
  | 0x02 => .ok (.px (fD w) (fA w) (fB w))
  | 0x03 => .ok (.topkins (fD w) (fA w) (fB w))
  | 0x04 => .ok (.keepk (fD w) (fA w) (fB w))
  | 0x05 => .ok (.fldexp (fD w) (fA w) (fB w))
  | 0x06 => .ok (.ffrexp (fD w) (fA w) (fB w))
  | _ => .ok (.unassignedOpcode w)

/-- The instructions of class 5 by their offsets (Table 2.7). -/
def decodeClass5 (o : Nat) (w lit : Word) : Except DecodeError Instr :=
  match o with
  | 0x00 => .ok (.sadd (fD w) (fA w) (fB w))
  | 0x01 => .ok (.ssub (fD w) (fA w) (fB w))
  | 0x02 => .ok (.smul (fD w) (fA w) (fB w))
  | 0x03 => .ok (.smin (fD w) (fA w) (fB w))
  | 0x04 => .ok (.smax (fD w) (fA w) (fB w))
  | 0x05 => .ok (.sand (fD w) (fA w) (fB w))
  | 0x06 => .ok (.sor (fD w) (fA w) (fB w))
  | 0x07 => .ok (.sxor (fD w) (fA w) (fB w))
  | 0x08 => .ok (.sshl (fD w) (fA w) (fB w))
  | 0x09 => .ok (.sshr (fD w) (fA w) (fB w))
  | 0x0A => .ok (.ssar (fD w) (fA w) (fB w))
  | 0x0B => .ok (.scmpeq (fD w) (fA w) (fB w))
  | 0x0C => .ok (.scmpne (fD w) (fA w) (fB w))
  | 0x0D => .ok (.scmplt (fD w) (fA w) (fB w))
  | 0x0E => .ok (.scmple (fD w) (fA w) (fB w))
  | 0x0F => .ok (.scmpltn (fD w) (fA w) (fB w))
  | 0x10 => .ok (.scmplen (fD w) (fA w) (fB w))
  | 0x11 => zeroElse (fB w = 0) (.smov (fD w) (fA w))
  | 0x12 => zeroElse (fK w = 0) (.smovi (fD w) lit)
  | 0x13 => .ok (.saddi (fD w) (fK w))
  | 0x14 => zeroElse (fB w = 0) (.sclz (fD w) (fA w))
  | 0x15 => zeroElse (fB w = 0) (.spopc (fD w) (fA w))
  | _ => .ok (.unassignedOpcode w)

/-- The instructions of class 6 by their offsets (Table 2.7). -/
def decodeClass6 (o : Nat) (w : Word) : Except DecodeError Instr :=
  match o with
  | 0x00 => zeroElse (fD w = 0 ∧ w.extractLsb' 3 11 = 0) (.xacq (w.extractLsb' 0 3))
  | 0x01 => zeroElse (w.extractLsb' 3 11 = 0) (.xtry (fD w) (w.extractLsb' 0 3))
  | 0x02 => zeroElse (fD w = 0 ∧ w.extractLsb' 3 11 = 0) (.xrel (w.extractLsb' 0 3))
  | 0x03 => .ok (.shfl (fD w) (fA w) (fB w))
  | 0x04 => .ok (.shflup (fD w) (fA w) (fB w))
  | 0x05 => .ok (.shfldn (fD w) (fA w) (fB w))
  | 0x06 => .ok (.shflx (fD w) (fA w) (fB w))
  | 0x07 => .ok (.lrd (fD w) (fA w) (fB w))
  | 0x08 => .ok (.lwr (fD w) (fA w) (fB w))
  | 0x09 => zeroElse (fB w = 0) (.rsum (fD w) (fA w))
  | 0x0A => zeroElse (fB w = 0) (.rmax (fD w) (fA w))
  | 0x0B => zeroElse (fB w = 0) (.scanx (fD w) (fA w))
  | _ => .ok (.unassignedOpcode w)

/-- The instructions of class 7 by their offsets (Table 2.7). -/
def decodeClass7 (o : Nat) (w : Word) : Except DecodeError Instr :=
  match o with
  | 0x00 => .ok (.ldsw (fD w) (fA w) (fB w))
  | 0x01 => .ok (.ldsd (fD w) (fA w) (fB w))
  | 0x02 => .ok (.ldsq (fD w) (fA w) (fB w))
  | 0x03 => .ok (.stsw (fD w) (fA w) (fB w))
  | 0x04 => .ok (.stsd (fD w) (fA w) (fB w))
  | 0x05 => .ok (.stsq (fD w) (fA w) (fB w))
  | 0x06 => .ok (.asadd (fD w) (fA w) (fB w))
  | 0x07 => .ok (.asmin (fD w) (fA w) (fB w))
  | 0x08 => .ok (.asmax (fD w) (fA w) (fB w))
  | 0x09 => .ok (.asand (fD w) (fA w) (fB w))
  | 0x0A => .ok (.asor (fD w) (fA w) (fB w))
  | 0x0B => .ok (.asxor (fD w) (fA w) (fB w))
  | 0x0C => .ok (.asxch (fD w) (fA w) (fB w))
  | 0x0D => .ok (.ascas (fD w) (fA w) (fB w))
  | 0x0E => zeroElse (fD w = 0) (.binit (fA w) (fB w))
  | 0x0F => zeroElse (fD w = 0 ∧ fB w = 0) (.barr (fA w))
  | 0x10 => zeroElse (fD w = 0) (.barrtx (fA w) (fB w))
  | 0x11 => zeroElse (fD w = 0) (.bwait (fA w) (fB w))
  | 0x12 => zeroElse (fB w = 0) (.btest (fD w) (fA w))
  | 0x13 => zeroElse (fD w = 0 ∧ fB w = 0) (.binv (fA w))
  | 0x14 => .ok (.cpgs (fD w) (fA w) (fB w))
  | 0x15 => .ok (.waitc (w.extractLsb' 16 5) (w.extractLsb' 11 5) (w.extractLsb' 6 5) (w.extractLsb' 0 6))
  | 0x16 => zeroElse (fD w = 0) (.waitp (fA w) (fB w))
  | _ => .ok (.unassignedOpcode w)

/-- The instructions of class 8 by their offsets (Table 2.7). -/
def decodeClass8 (o : Nat) (w : Word) : Except DecodeError Instr :=
  match o with
  | 0x00 => .ok (.ldb (fD w) (fA w) (fB w))
  | 0x01 => .ok (.ldh (fD w) (fA w) (fB w))
  | 0x02 => .ok (.ldw (fD w) (fA w) (fB w))
  | 0x03 => .ok (.ldd (fD w) (fA w) (fB w))
  | 0x04 => .ok (.ldq (fD w) (fA w) (fB w))
  | 0x05 => .ok (.stb (fD w) (fA w) (fB w))
  | 0x06 => .ok (.sth (fD w) (fA w) (fB w))
  | 0x07 => .ok (.stw (fD w) (fA w) (fB w))
  | 0x08 => .ok (.std (fD w) (fA w) (fB w))
  | 0x09 => .ok (.stq (fD w) (fA w) (fB w))
  | 0x0A => .ok (.sldw (fD w) (fA w) (fB w))
  | 0x0B => .ok (.sldd (fD w) (fA w) (fB w))
  | 0x0C => .ok (.sstw (fD w) (fA w) (fB w))
  | 0x0D => .ok (.sstd (fD w) (fA w) (fB w))
  | 0x0E => zeroElse (fD w = 0 ∧ w.extractLsb' 8 6 = 0) (.ord (w.getLsbD 7) (w.extractLsb' 4 3) (w.extractLsb' 0 4))
  | 0x0F => .ok (.aadd (fD w) (fA w) (fB w))
  | 0x10 => .ok (.asub (fD w) (fA w) (fB w))
  | 0x11 => .ok (.amin (fD w) (fA w) (fB w))
  | 0x12 => .ok (.amax (fD w) (fA w) (fB w))
  | 0x13 => .ok (.aand (fD w) (fA w) (fB w))
  | 0x14 => .ok (.aor (fD w) (fA w) (fB w))
  | 0x15 => .ok (.axor (fD w) (fA w) (fB w))
  | 0x16 => .ok (.axch (fD w) (fA w) (fB w))
  | 0x17 => .ok (.acas (fD w) (fA w) (fB w))
  | 0x18 => .ok (.ainc (fD w) (fA w) (fB w))
  | 0x19 => .ok (.adec (fD w) (fA w) (fB w))
  | 0x1A => .ok (.afadd (fD w) (fA w) (fB w))
  | 0x1B => zeroElse (fD w = 0 ∧ w.extractLsb' 7 7 = 0) (.fence (w.extractLsb' 4 3) (w.extractLsb' 0 4))
  | 0x1C => zeroElse (fD w = 0) (.mona (fA w) (fB w))
  | 0x1D => zeroElse (fD w = 0 ∧ fB w = 0) (.mwt (fA w))
  | 0x1E => zeroElse (fD w = 0) (.pref (fA w) (fB w))
  | 0x1F => zeroElse (fD w = 0 ∧ fA w = 0 ∧ fB w = 0) .wcfl
  | _ => .ok (.unassignedOpcode w)

/-- The instructions of class 9 by their offsets (Table 2.7). -/
def decodeClass9 (o : Nat) (w : Word) : Except DecodeError Instr :=
  match o with
  | 0x00 => .ok (.gath (fD w) (fA w) (fB w))
  | 0x01 => .ok (.gathq (fD w) (fA w) (fB w))
  | 0x02 => zeroElse (fB w = 0) (.pgld (fD w) (fA w))
  | 0x03 => zeroElse (fD w = 0 ∧ fB w = 0) (.pgfree (fA w))
  | 0x04 => .ok (.fopen (fD w) (fA w) (fB w))
  | 0x05 => zeroElse (fB w = 0) (.fadv (fD w) (fA w))
  | 0x06 => zeroElse (fB w = 0) (.fend (fD w) (fA w))
  | 0x07 => zeroElse (fD w = 0 ∧ fB w = 0) (.fclose (fA w))
  | 0x08 => zeroElse (fB w = 0) (.fpos (fD w) (fA w))
  | _ => .ok (.unassignedOpcode w)

/-- The instructions of class 10 by their offsets (Table 2.7). -/
def decodeClass10 (o : Nat) (w lit : Word) : Except DecodeError Instr :=
  match o with
  | 0x00 => zeroElse (fD w = 0 ∧ fA w = 0 ∧ fB w = 0) .mxacq
  | 0x01 => zeroElse (fA w = 0 ∧ fB w = 0) (.mxtry (fD w))
  | 0x02 => zeroElse (fD w = 0 ∧ fA w = 0 ∧ fB w = 0) .mxrel
  | 0x03 => .ok (.mma (fD w) (fA w) (fB w))
  | 0x04 => .ok (.mmas (fD w) (fA w) (fB w))
  | 0x05 => zeroElse (fA w = 0 ∧ fB w = 0) (.accz (fD w))
  | 0x06 => .ok (.accrd (fD w) (fA w) (fB w))
  | 0x07 => .ok (.accwr (fD w) (fA w) (fB w))
  | 0x08 => .ok (.accst (fD w) (fA w) (fB w))
  | 0x09 => zeroElse (fA w = 0 ∧ fB w = 0) (.mfence (fD w))
  | 0x0A => zeroElse (fD w = 0 ∧ fB w = 0) (.mwaitb (fA w))
  | 0x0B => zeroElse (fD w = 0 ∧ fK w = 0) (.setrst lit)
  | _ => .ok (.unassignedOpcode w)

/-- The instructions of class 11 by their offsets (Table 2.7). -/
def decodeClass11 (o : Nat) (w : Word) : Except DecodeError Instr :=
  match o with
  | 0x00 => .ok (.qenq (fD w) (fA w) (fB w))
  | 0x01 => .ok (.qenqm (fD w) (fA w) (fB w))
  | 0x02 => .ok (.qdeq (fD w) (fA w) (fB w))
  | 0x03 => .ok (.qdeqm (fD w) (fA w) (fB w))
  | 0x04 => zeroElse (fB w = 0) (.qlen (fD w) (fA w))
  | 0x05 => zeroElse (fD w = 0 ∧ fB w = 0) (.qseal (fA w))
  | 0x06 => zeroElse (fB w = 0) (.qinfo (fD w) (fA w))
  | _ => .ok (.unassignedOpcode w)

/-- The instructions of class 12 by their offsets (Table 2.7). -/
def decodeClass12 (o : Nat) (w : Word) : Except DecodeError Instr :=
  match o with
  | 0x00 => .ok (.nint (fD w) (fA w) (fB w))
  | 0x01 => zeroElse (fD w = 0) (.nann (fA w) (fB w))
  | 0x02 => zeroElse (fD w = 0 ∧ fB w = 0) (.nseal (fA w))
  | 0x03 => zeroElse (fD w = 0 ∧ fB w = 0) (.ndrop (fA w))
  | 0x04 => zeroElse (fB w = 0) (.nstat (fD w) (fA w))
  | _ => .ok (.unassignedOpcode w)

/-- The instructions of class 13 by their offsets (Table 2.7). -/
def decodeClass13 (o : Nat) (w : Word) : Except DecodeError Instr :=
  match o with
  | 0x00 => zeroElse (fB w = 0) (.xagree (fD w) (fA w))
  | 0x01 => zeroElse (fB w = 0) (.xsum (fD w) (fA w))
  | 0x02 => zeroElse (fB w = 0) (.plfill (fD w) (fA w))
  | 0x03 => zeroElse (fB w = 0) (.plcopy (fD w) (fA w))
  | 0x04 => zeroElse (fB w = 0) (.plcmp (fD w) (fA w))
  | 0x05 => zeroElse (fB w = 0) (.plred (fD w) (fA w))
  | 0x06 => zeroElse (fB w = 0) (.snopen (fD w) (fA w))
  | 0x07 => zeroElse (fD w = 0 ∧ fB w = 0) (.snclose (fA w))
  | 0x08 => zeroElse (fD w = 0 ∧ fB w = 0) (.snbind (fA w))
  | _ => .ok (.unassignedOpcode w)

/-- The instructions of class 14 by their offsets (Table 2.7). -/
def decodeClass14 (o : Nat) (w : Word) : Except DecodeError Instr :=
  match o with
  | 0x00 => zeroElse (fD w = 0) (.trap (fK w))
  | 0x01 => zeroElse (fD w = 0 ∧ fA w = 0 ∧ fB w = 0) .tret
  | 0x02 => zeroElse (fD w = 0 ∧ w.extractLsb' 4 10 = 0) (.tmask (w.extractLsb' 0 4))
  | 0x03 => zeroElse (fD w = 0 ∧ w.extractLsb' 4 10 = 0) (.tunmask (w.extractLsb' 0 4))
  | 0x04 => .ok (.rdsr (fD w) (fK w))
  | 0x05 => .ok (.wrsr (fD w) (fK w))
  | 0x06 => zeroElse (fA w = 0 ∧ fB w = 0) (.clk (fD w))
  | 0x07 => zeroElse (fD w = 0) (.brk (fK w))
  | _ => .ok (.unassignedOpcode w)
/-- The instruction of a word; `lit` is the word after it, which form L alone reads (R32). Opcodes that
Table 2.7 does not assign give UNASSIGNED_OPCODE (R49). -/
def decodeWord (w lit : Word) : Except DecodeError Instr :=
  let o := (fOp w).toNat % 128
  match (fOp w).toNat / 128 with
  | 0 => decodeClass0 o w
  | 1 => decodeClass1 o w lit
  | 2 => decodeClass2 o w lit
  | 3 => decodeClass3 o w
  | 4 => decodeClass4 o w
  | 5 => decodeClass5 o w lit
  | 6 => decodeClass6 o w
  | 7 => decodeClass7 o w
  | 8 => decodeClass8 o w
  | 9 => decodeClass9 o w
  | 10 => decodeClass10 o w lit
  | 11 => decodeClass11 o w
  | 12 => decodeClass12 o w
  | 13 => decodeClass13 o w
  | 14 => decodeClass14 o w
  | _ => .ok (.unassignedOpcode w)

/-- The opcode is of form L: SETMODE, MOVI, SMOVI or SETRST (Table 2.7). -/
def isLForm (op : Nat) : Bool := decide (op = 0x080 ∨ op = 0x11D ∨ op = 0x292 ∨ op = 0x50B)

/-- Four bytes as a little-endian word (R2, R29). -/
def wordOfBytes (b0 b1 b2 b3 : Byte) : Word := b3 ++ b2 ++ b1 ++ b0

/-- The bytes of a word, lowest address first. -/
def bytesOfWord (w : Word) : List Byte :=
  [w.extractLsb' 0 8, w.extractLsb' 8 8, w.extractLsb' 16 8, w.extractLsb' 24 8]

/-- The instruction at the head of a byte string, and the bytes after it. -/
def decode : List Byte → Except DecodeError (Instr × List Byte)
  | b0 :: b1 :: b2 :: b3 :: rest =>
    let w := wordOfBytes b0 b1 b2 b3
    if isLForm (fOp w).toNat then
      match rest with
      | c0 :: c1 :: c2 :: c3 :: rest' =>
        (decodeWord w (wordOfBytes c0 c1 c2 c3)).map (fun i => (i, rest'))
      | _ => .error .truncated
    else (decodeWord w 0).map (fun i => (i, rest))
  | _ => .error .truncated

/-- The word of a form. -/
def formWord : Form → Word
  | .t op d a b => (op ++ d ++ a ++ b : BitVec 32)
  | .k op d k => (op ++ d ++ k : BitVec 32)
  | .l op d _ => (op ++ d ++ (0#14) : BitVec 32)
  | .b op u p s o => (op ++ BitVec.ofBool u ++ p ++ BitVec.ofBool s ++ o : BitVec 32)
  | .w op l s c t => (op ++ l ++ s ++ c ++ t : BitVec 32)
  | .raw w => w
  | .none => 0

/-- The words of an instruction, first word first; a step of an engine or of the host has none. -/
def encode (i : Instr) : List Word :=
  match form i with
  | .none => []
  | .l op d lit => [formWord (.l op d lit), lit]
  | f => [formWord f]

/-- The bytes of an instruction in memory. -/
def encodeBytes (i : Instr) : List Byte := (encode i).flatMap bytesOfWord

/-- The words of an opcode-table numbering: bit 0 is the least significant bit of the first word. -/
def tableBytes (w : Nat) : List Byte :=
  bytesOfWord (BitVec.ofNat 32 w) ++ bytesOfWord (BitVec.ofNat 32 (w >>> 32))

/-- The instruction of a row's bits, numbered as the opcode table numbers them; bits above `nbits` are 0. -/
def decodeTableWord (nbits w : Nat) : Option Instr :=
  match decode (tableBytes (w % 2 ^ nbits)) with
  | .ok (i, _) => some i
  | .error _ => none

end Sys2Proof
end

