-- ==== Sys2Proof/Config.lean ====
section
/-!
DEFINITION. What the spec leaves open: values within a bound, unpredictable values, and functions the spec names by
reference. Each is an uninterpreted constant, so that nothing can be proved of its value; no state holds one.
-/
namespace Sys2Proof.Config
open Sys2Proof

/-- A free 32-bit value, by the state's counter of free values: unpredictable tile rows (R190) and destination bytes of
an aborted collective (R361). -/
opaque freeWord : Nat → Word

/-- The value within Table 6.5's bound that a function of R150 returns: by function (FRCP 0, FRSQ 1, FEXP2 2, FLOG2 3,
FSIN 4, FCOS 5, FTANH 6), element type, MR.ftz and the input element. -/
opaque funcValue : Nat → Nat → Bool → Nat → Nat

/-- Whether a register-cache entry that is written back holds an erroneous word of its register (R122, R125), by the count of free
values: the spec does not say which registers the cache holds. -/
opaque writtenBack : Nat → Bool

/-- The bytes of a save image's sections, whose layout is the device's own (R410), by image address and offset. -/
opaque imageByte : Nat → Nat → Byte

/-- The index and the component code of a measurement-log entry as QUOTE writes them (R425): the spec gives no widths. -/
opaque logFields : Nat → Nat → List Byte

/-- The life-cycle state as QUOTE writes it, and the module's stepping (R425). -/
opaque lifeField : Nat → List Byte
opaque stepping : List Byte

/-- The Ed448 signature under the identity key, which never leaves the management controller (R424, R425). -/
opaque identitySign : List Byte → List Byte

/-- The address and length of the signature block that a command's locator words give (R424): the spec gives no layout. -/
opaque sigLocator : Cmd → Nat × Nat

/-- The owner key, provisioned at the 0→1 transition (R424). -/
opaque ownerKey : List Byte

/-- A signature block verifies under Ed448 (RFC 8032) for a key and a message (R424). -/
opaque ed448 (key message block : List Byte) : Bool

/-- The component code of a boot component, by its index in the measurement log (R425). -/
opaque componentCode : Nat → Nat

/-- A bank of HBM4E has a spare row left (R391). -/
opaque spareRow : RowLoc → Bool

/-- The package and port a link port trains with (R343). -/
opaque neighbour : Nat → Nat × Nat

/-- The sample of a summary tick of a queue part of another package, by handle and tick: backlog, sealed, full,
lingered (R288, R353). -/
opaque peerSample : Nat → Nat → Nat × Bool × Bool × Bool

/-- The payloads of the NAME flits that carry an interest or an answer (R344), whose layout the spec does not give. -/
opaque namePayloads : Sum Interest Answer → List (List Byte)

/-- The host-port function that a pool region belongs to (R362), by the SET_POOL command that defines it: no field of the
command or of the descriptor names it. -/
opaque poolOwner : Cmd → Nat

/-- The image of a boot component, by its index in the measurement log (R425). -/
opaque firmwareImage : Nat → List Byte

/-- The interest or answer that the NAME flits accepted since the last one complete, by their payloads; none while
it is not complete. -/
opaque nameMessage : List (List Byte) → Option (Sum Interest Answer)

end Sys2Proof.Config
end

