-- ==== Sys2Proof/Machine/Assoc.lean ====
section
/-!
DEFINITION. Tables by number as plain data: a list of keys and values with keys strictly rising, and the byte
memory built the same way, in which a byte that is not listed reads as zero.
-/
namespace Sys2Proof.Machine
open Sys2Proof

/-- A table by number, keys strictly rising. -/
abbrev Assoc (α : Type) := List (Nat × α)

/-- The entry of a key. -/
def Assoc.get : Assoc α → Nat → Option α
  | [], _ => none
  | (k, v) :: r, a => if k = a then some v else Assoc.get r a

/-- The entry of a key, or `d`. -/
def Assoc.getD (m : Assoc α) (a : Nat) (d : α) : α := (Assoc.get m a).getD d

/-- The table with an entry replaced or added. -/
def Assoc.put : Assoc α → Nat → α → Assoc α
  | [], a, x => [(a, x)]
  | (k, v) :: r, a, x =>
    if a < k then (a, x) :: (k, v) :: r
    else if k = a then (a, x) :: r
    else (k, v) :: Assoc.put r a x

/-- The table without an entry. -/
def Assoc.del : Assoc α → Nat → Assoc α
  | [], _ => []
  | (k, v) :: r, a => if k = a then r else (k, v) :: Assoc.del r a

/-- The table with an entry changed, where there is one. -/
def Assoc.upd : Assoc α → Nat → (α → α) → Assoc α
  | [], _, _ => []
  | (k, v) :: r, a, f => if k = a then (k, f v) :: r else (k, v) :: Assoc.upd r a f

/-- The table has an entry of the key. -/
def Assoc.has (m : Assoc α) (a : Nat) : Bool := (Assoc.get m a).isSome

/-- The values, by rising key. -/
def Assoc.vals (m : Assoc α) : List α := m.map Prod.snd

/-- The lowest number below `n` that is no key, counting up from `a`. -/
def Assoc.lowestFree (m : Assoc α) (a : Nat) : Nat → Option Nat
  | 0 => none
  | n + 1 => if Assoc.has m a then Assoc.lowestFree m (a + 1) n else some a

/-- Memory by address: addresses strictly rising, no listed byte zero. -/
abbrev Memory := List Host.Cell

/-- The byte at an address; a byte not listed is zero. -/
def Memory.get (m : Memory) (a : Nat) : Byte := Assoc.getD m a 0

/-- The bytes with one byte written. -/
def Memory.put (m : Memory) (a : Nat) (b : Byte) : Memory :=
  if b = 0 then Assoc.del m a else Assoc.put m a b

/-- The form that makes equal memories equal lists: addresses strictly rising, no zero byte listed. -/
def Memory.wf : Memory → Bool
  | [] => true
  | (_, b) :: [] => decide (b ≠ 0)
  | (a, b) :: (a', b') :: r => decide (b ≠ 0) && decide (a < a') && Memory.wf ((a', b') :: r)

/-- Consecutive bytes from an address. -/
def Memory.read (m : Memory) (a : Nat) : Nat → List Byte
  | 0 => []
  | n + 1 => Memory.get m a :: Memory.read m (a + 1) n

/-- Consecutive bytes written from an address. -/
def Memory.write (m : Memory) (a : Nat) : List Byte → Memory
  | [] => m
  | b :: r => Memory.write (Memory.put m a b) (a + 1) r

/-- Little-endian number of a byte string (R2). -/
def leNat : List Byte → Nat
  | [] => 0
  | b :: r => b.toNat + 256 * leNat r

/-- The `n` low bytes of a number, little-endian (R2). -/
def natLe (x : Nat) : Nat → List Byte
  | 0 => []
  | n + 1 => BitVec.ofNat 8 x :: natLe (x / 256) n

end Sys2Proof.Machine
end

