-- ==== Sys2Proof/Machine/Event.lean ====
section
/-!
DEFINITION. What may be in flight: the engines' and the host's indivisible steps, with the data they act on. An event of
a row of the opcode table is the instruction of the same name in Sys2Proof.Instr; it stands as a type of its own because the
state holds it.
-/
namespace Sys2Proof.Machine
open Sys2Proof

/-- An event or message in flight. -/
inductive Event where
  /-- DEFERRED_TRAP_DELIVERY (R395). -/
  | deferredTrapDelivery (tid : Nat)
  /-- SIBLING_HALT_STOP (R397). -/
  | siblingHaltStop (gid : Nat)
  /-- HANDLER_COUNT_EXPIRY (R412). -/
  | handlerCountExpiry (gid : Nat)
  /-- STARVATION_EPISODE (R28). -/
  | starvationEpisode (gid : Nat)
  /-- SLOT_DECISION (R291). -/
  | slotDecision (core : Nat)
  /-- TEAM_RETIREMENT (R88). -/
  | teamRetirement (tid : Nat)
  /-- CHILD_GRID_END (R105). -/
  | childGridEnd (grid : Nat)
  /-- SLEEP_EXPIRY (R101). -/
  | sleepExpiry (gid : Nat)
  /-- XACQ_GRANT (R118). -/
  | xacqGrant (tid core : Nat) (role : Role)
  /-- COMPACTOR_COPY_DONE (R116). -/
  | compactorCopyDone (core : Nat)
  /-- REGISTER_DEADLOCK_DETECTION (R120). -/
  | registerDeadlockDetection (tid : Nat)
  /-- REGISTER_RESULT_LAND (R136). -/
  | registerResultLand (gid op : Nat)
  /-- ANVIL_OWNERSHIP_GRANT (R166). -/
  | anvilOwnershipGrant (core : Nat)
  /-- TILE_OP_START (R172). -/
  | tileOpStart (core op : Nat)
  /-- TILE_LINE_FETCH (R181). -/
  | tileLineFetch (core op : Nat)
  /-- TILE_OP_COMPLETE (R182). -/
  | tileOpComplete (core op : Nat)
  /-- COPY_CHUNK_DELIVERY (R214). -/
  | copyChunkDelivery (op : Nat)
  /-- QUEUE_ENQUEUE_STEP (R282). -/
  | queueEnqueueStep (r : EnqReq)
  /-- QUEUE_DEQUEUE_STEP (R284). -/
  | queueDequeueStep (r : DeqReq)
  /-- QUEUE_REPLY (R282). -/
  | queueReply (r : QReply)
  /-- SPILL_REFILL_LANDING (R279). -/
  | spillRefillLanding (queue n : Nat)
  /-- BELLOWS_SAMPLE (R288). -/
  | bellowsSample
  /-- CROSSBAR_GRANT (R231). -/
  | crossbarGrant (die slice : Nat) (writeBack : Bool)
  /-- L2_REQUEST (R227). -/
  | l2Request (r : L2Req)
  /-- L2_FILL_COMPLETE (R227). -/
  | l2FillComplete (line : Nat) (bad : Bool)
  /-- L2_WRITEBACK (R230). -/
  | l2Writeback (w : WriteBack)
  /-- MONITOR_TIMEOUT_EXPIRY (R271). -/
  | monitorTimeoutExpiry (gid : Nat)
  /-- HEARTH_REFRESH_WINDOW (R235). -/
  | hearthRefreshWindow
  /-- HEARTH_BANK_READ (R235). -/
  | hearthBankRead (die off : Nat)
  /-- HEARTH_WINDOW_LOADING (R237). -/
  | hearthWindowLoading (die : Nat)
  /-- CXL_TRANSACTION_ERROR (R238). -/
  | cxlTransactionError (pa : Nat) (store : Bool) (time : Nat)
  /-- SERVICE_WARP_ATOMIC (R268). -/
  | serviceWarpAtomic (a : AtomLane)
  /-- POOL_ATOMIC (R363). -/
  | poolAtomic (a : AtomLane)
  /-- ATOMIC_REPLY (R267). -/
  | atomicReply (r : AtomReply)
  /-- PAGE_WALK (R380). -/
  | pageWalk (gid : Nat) (va : Dword) (acc : Acc)
  /-- PAGE_REQUEST_RELEASE (R383). -/
  | pageRequestRelease (die : Nat)
  /-- PRQ_REPLY (R384). -/
  | prqReply (word : Dword)
  /-- PRQ_HEAD (R383). -/
  | prqHead (func : Nat) (word : Dword)
  /-- BAR0_WRITE (R414). -/
  | bar0Write (func off : Nat) (val : Dword)
  /-- HEAT_SAMPLE (R387). -/
  | heatSample (die pa : Nat)
  /-- HEAT_DECAY_SWEEP (R388). -/
  | heatDecaySweep (die : Nat)
  /-- MIGRATION_LINE_COPY (R389). -/
  | migrationLineCopy (op : Nat)
  /-- MIGRATION_FINISH (R389). -/
  | migrationFinish (op : Nat)
  /-- ROW_RETIREMENT (R391). -/
  | rowRetirement (loc : RowLoc) (uncorrectable spare : Bool)
  /-- INTEREST_ARRIVAL (R298). -/
  | interestArrival (m : Interest)
  /-- INTEREST_RETRY (R300). -/
  | interestRetry (m : Interest) (n : Nat)
  /-- INTEREST_SLOT_EXPIRY (R299). -/
  | interestSlotExpiry (die entry slot : Nat)
  /-- TILE_ANSWER_ARRIVAL (R298). -/
  | tileAnswerArrival (m : Answer)
  /-- NAMED_TILE_DELIVERY (R307). -/
  | namedTileDelivery (gid : Nat) (ticket : Word) (m : Answer)
  /-- TICKET_EXPIRY (R309). -/
  | ticketExpiry (gid : Nat) (ticket : Word)
  /-- NANN_COPY_COMPLETE (R313). -/
  | nannCopyComplete (op : Nat)
  /-- SWAGE_COUNT_COMPLETE (R334). -/
  | swageCountComplete (tid fib : Nat)
  /-- FLIT_RECEIVE (R346). -/
  | flitReceive (port : Nat) (flit tag : List Byte)
  /-- REC_LANDING_RETRY (R354). -/
  | recLandingRetry (port : Nat)
  /-- ACK_RECEIVE (R346). -/
  | ackReceive (port : Nat) (flit tag : List Byte)
  /-- ACK_SEND (R346). -/
  | ackSend (port : Nat)
  /-- RETRY_TIMEOUT (R346). -/
  | retryTimeout (port : Nat)
  /-- PORT_FORWARD_DECISION (R353). -/
  | portForwardDecision (port : Nat)
  /-- KEY_SWITCHOVER (R350). -/
  | keySwitchover (port : Nat)
  /-- KEY_SLOT_RETIRE (R350). -/
  | keySlotRetire (port : Nat)
  /-- COLL_FLIT_ARRIVAL (R437). -/
  | collFlitArrival (port : Nat) (payload : List Byte)
  /-- COLLECTIVE_TIMEOUT (R361). -/
  | collectiveTimeout (cid : Nat)
  /-- POOL_OP_LINE (R365). -/
  | poolOpLine (op : Nat)
  /-- COLLECTOR_SERVE (R408). -/
  | collectorServe (die : Nat)
  /-- PREEMPT_STOP_COMPLETE (R409). -/
  | preemptStopComplete (die : Nat)
  /-- PREEMPT_SAVE_COMPLETE (R409). -/
  | preemptSaveComplete (die : Nat)
  /-- RESTORE_PLACEMENT (R413). -/
  | restorePlacement (image : Nat)
  /-- GRAPH_RUN_END (R418). -/
  | graphRunEnd (graph : Nat)
  /-- EVENT_RING_RELEASE (R419). -/
  | eventRingRelease (func n : Nat)
  /-- RESET (R421). -/
  | reset
  /-- WIPE_COMPLETE (R421). -/
  | wipeComplete
  /-- FIRMWARE_VERIFIED (R422). -/
  | firmwareVerified
  /-- POWER_LIMIT_STEP (R428). -/
  | powerLimitStep (watts : Nat)
  /-- THERMAL_TRIP (R428). -/
  | thermalTrip
  /-- AGEING_SAMPLE (R426). -/
  | ageingSample (a : AgeSample)
  /-- UNKNOWN_COMMAND (R416). -/
  | unknownCommand (c : Cmd)
  /-- SUBMIT_GRAPH (R417). -/
  | submitGraph (c : Cmd)
  /-- END_RUN (R418). -/
  | endRun (c : Cmd)
  /-- SEAL_QUEUE (R280). -/
  | sealQueue (c : Cmd)
  /-- RESTART_STAGE (R287). -/
  | restartStage (c : Cmd)
  /-- HEARTH_DRAIN (R237). -/
  | hearthDrain (c : Cmd)
  /-- HEARTH_WRITE (R237). -/
  | hearthWrite (c : Cmd)
  /-- HEARTH_OPEN (R237). -/
  | hearthOpen (c : Cmd)
  /-- SET_ROUTE (R295). -/
  | setRoute (c : Cmd)
  /-- CLEAR_NAMES (R302). -/
  | clearNames (c : Cmd)
  /-- SET_CRUCIBLE (R302). -/
  | setCrucible (c : Cmd)
  /-- SET_XLATE (R375). -/
  | setXlate (c : Cmd)
  /-- SHOOTDOWN (R382). -/
  | shootdown (c : Cmd)
  /-- SET_COLL (R356). -/
  | setColl (c : Cmd)
  /-- SET_POOL (R362). -/
  | setPool (c : Cmd)
  /-- HEAT_READ (R388). -/
  | heatRead (c : Cmd)
  /-- SET_DECAY (R388). -/
  | setDecay (c : Cmd)
  /-- MIGRATE (R389). -/
  | migrate (c : Cmd)
  /-- RETIRE_ROW (R390). -/
  | retireRow (c : Cmd) (spare : Bool)
  /-- CLEAR_RETLOG (R392). -/
  | clearRetlog (c : Cmd) (sigOk : Bool)
  /-- PREEMPT (R408). -/
  | preempt (c : Cmd)
  /-- PREEMPT_FUNCTION (R408). -/
  | preemptFunction (c : Cmd)
  /-- RESTORE (R413). -/
  | restore (c : Cmd)
  /-- TERMINATE (R400). -/
  | terminate (c : Cmd)
  /-- ATTACH (R403). -/
  | attach (c : Cmd)
  /-- RESUME (R403). -/
  | resume (c : Cmd)
  /-- LINK_TRAIN (R343). -/
  | linkTrain (c : Cmd) (pkg : Nat) (port : Nat)
  /-- KEY_INSTALL (R350). -/
  | keyInstall (c : Cmd)
  /-- SET_MODE (R423). -/
  | setMode (c : Cmd)
  /-- QUOTE (R425). -/
  | quote (c : Cmd)
  /-- LIFECYCLE (R420). -/
  | lifecycle (c : Cmd) (sigOk : Bool)
  /-- HEALTH (R427). -/
  | health (c : Cmd)
  /-- HOST_PORT_ACCESS (R264). -/
  | hostPortAccess (pa : Nat) (data : List Byte) (write : Bool)
  /-- An error in a word of a group's registers: single-bit, or double-bit (R123). -/
  | registerError (gid kind reg lane : Nat) (double : Bool)
  /-- An error in a word of a team's tile (R171). -/
  | tileError (tid tile word : Nat) (double : Bool)
  /-- An error in a word of a team's scratch (R204). -/
  | scratchError (tid off : Nat) (double : Bool)
  /-- Backing memory has lost a line: its next return is uncorrectable (R233). -/
  | lineError (pa : Nat)
  /-- The host sets an expander port's window (R238). -/
  | cxlWindow (port base size : Nat)
  /-- A collective that waits for a line, or for a Hearth bank in refresh, goes on (R235, R261, R360). -/
  | collStep (cid : Nat)
  /-- A function's next command entry is read once no engine owns its line (R261, R415). -/
  | commandFetch (func : Nat)
  /-- A miss that waits for a way of its set is tried again (R229). -/
  | wayRetry (slice set : Nat)
  /-- A function is reset: its names go (R302). -/
  | functionReset (func : Nat)
  /-- LINK_KEY_MANAGEMENT (R350). -/
  | linkKeyManagement (port dir slot linkid key : Nat)
  deriving DecidableEq, Repr

end Sys2Proof.Machine
end

