-- ==== Sys2Proof/Machine/State.lean ====
section
/-!
DEFINITION. The state of the machine: everything the spec gives one package, as plain data, with the reasons
a step can stop and the state after reset.
-/
namespace Sys2Proof.Machine
open Sys2Proof

/-! ## Groups -/

/-- The times a thread keeps (R250): floor of accesses, floor of stores, greatest time used, greatest time of loads. -/
structure Times where
  f : Nat
  s : Nat
  h : Nat
  l : Nat
  deriving DecidableEq, Repr

/-- An entry of the mask stack (R90). -/
structure MaskEntry where
  saved : Mask
  other : Mask
  deriving DecidableEq, Repr

/-- An operation counted on a path (R219): its key, whether it has finished, and the write time that a wait
covering it raises h to (R261); 0 where it has none. -/
structure PathOp where
  op : Nat
  fin : Bool
  tw : Nat
  deriving DecidableEq, Repr

/-- The register files of a group, numbered as REGERR.kind numbers them (Table 5.4). -/
inductive RegKind where
  | vec | scalar | pred | special
  deriving DecidableEq, Repr

/-- A place in a group's registers (R125): `special` 0 is EXEC and 1 is MR. -/
structure RegPos where
  kind : RegKind
  reg : Nat
  lane : Nat
  deriving DecidableEq, Repr

/-- A register result that has not landed (R136, R137): the lanes still due, and the values once they are known. -/
structure Pend where
  op : Nat
  kind : RegKind
  reg : Nat
  /-- Lanes still due; all ones for a scalar or a predicate. -/
  lanes : Mask
  /-- Words of a vector result, when the operation has been performed. -/
  vec : Option VReg
  /-- Value of a scalar or predicate result. -/
  num : Option Nat
  /-- Lanes whose word lands poisoned (R233). -/
  bad : Mask
  deriving DecidableEq, Repr

/-- A line on its way from its home slice to a lane of an operation (R227, R233). -/
structure Fill where
  op : Nat
  lane : Nat
  line : Nat
  deriving DecidableEq, Repr

/-- Where a group is parked (R24). -/
inductive Park where
  /-- A barrier wait on a scratch offset and parity (R209). -/
  | barrier (off : Nat) (parity : Bool)
  /-- A register-block acquisition (R117). -/
  | blocks
  /-- Anvil ownership (R166). -/
  | anvil
  /-- The monitor, with the clock at which its timeout expires (R271). -/
  | monitor (deadline : Option Nat)
  /-- A dequeue, by the operation's key (R284). -/
  | dequeue (op : Nat)
  /-- A translation wait (R243). -/
  | translation
  /-- A Hearth read that waits for the write window (R237). -/
  | hearth
  /-- An instruction that ends with an engine's operation: NANN, or an atomic or queue reply it waits for. -/
  | engine (op : Nat)
  /-- An access that waits for an engine that owns its line (R261). -/
  | access (op : Nat)
  deriving DecidableEq, Repr

/-- The ORD prefix of an instruction (R45). -/
structure Prefix where
  noret : Bool
  order : Order
  scope : Nat
  deriving DecidableEq, Repr

/-- What an instruction in a translation wait, or armed by TRET, holds from its issue (R241, R243, R405). -/
structure Replay where
  /-- Address of the instruction. -/
  pc : Nat
  /-- Operation key on its path. -/
  op : Nat
  /-- Effective addresses by lane. -/
  ea : Vector Dword 128
  /-- Registers of data captured at issue. -/
  data : List VReg
  /-- Lanes of LIVE at issue, and lanes done. -/
  live : Mask
  done : Mask
  /-- MR captured at issue. -/
  mr : Word
  /-- Lanes that have faulted, with cause and TINFO. -/
  faults : List (Nat × Nat × Dword)
  /-- Lanes that wait for a page request, by its granule, or for the Hearth's window. -/
  waits : List (Nat × Option Nat)
  /-- The instruction has ended in a lane trap; TRET decides whether it is made again (R405). -/
  faulted : Bool
  /-- The instruction and its prefix, which go on without another fetch (R385). -/
  instr : Option (Instr × Option Prefix)
  /-- The scalar and vector registers that it reads, as they stood at its issue (R38, R174, R385). -/
  regs : List (Nat × Dword)
  vregs : List (Nat × VReg)
  /-- Lanes that have waited for an engine that owned their line, each with the write time that its access exceeds (R261). -/
  low : List (Nat × Nat)
  deriving DecidableEq, Repr

/-- A FENCE that its group has executed while atomics of the group were in flight: its key, order and scope (R250, R256). -/
structure Fenced where
  op : Nat
  order : Order
  scope : Nat
  deriving DecidableEq, Repr

/-- A group's ticket (R297, R312). -/
structure Ticket where
  serial : Nat
  key : NameKey
  /-- Destination offset and declared length. -/
  off : Nat
  len : Nat
  /-- Bound barrier offset. -/
  bar : Option Nat
  /-- Code of Table 12.3. -/
  status : Nat
  /-- Length delivered. -/
  got : Nat
  /-- Expiry tick. -/
  expiry : Option Nat
  retries : Nat
  /-- The path operation it is counted as. -/
  op : Nat
  /-- Once delivered, the time the NANN ordered (R308). -/
  time : Nat
  /-- The word s[b] of the NINT (R317). -/
  dest : Dword
  deriving DecidableEq, Repr

/-- A group's armed monitor (R270, R272). -/
structure Monitor where
  line : Nat
  time : Nat
  coarse : Bool
  deriving DecidableEq, Repr

/-- How far a group of a halted team has stopped (R397): running with the skid left, or stopped. -/
inductive Stop where
  | running
  | skid (issued : Nat)
  | stopped
  deriving DecidableEq, Repr

/-- The trap registers of a group (R393, Table 16.3), field by field. -/
structure TrapRegs where
  code : BitVec 8
  partialBit : Bool
  defer : Bool
  tpc : Va
  taddr : Dword
  tinfo : Dword
  tdone : Mask
  orig : Bool
  count : Nat
  tvec : Va
  hcount : Nat
  tmask : BitVec 4
  inHandler : Bool
  inh : Bool
  /-- The code of the trap that the group's handler was entered for (R400). -/
  first : BitVec 8
  deriving DecidableEq, Repr

/-- REGERR's fields (Table 5.4). -/
structure RegErr where
  valid : Bool
  ce : Nat
  latent : Nat
  kind : Nat
  reg : Nat
  lane : Nat
  deriving DecidableEq, Repr

/-- A scope's instance (R15, R16), by the numbers that lead to it: die, cluster, core, team, thread. The empty path is the
package; a path holds the agents of every path it begins. -/
abbrev Inst := List Nat

/-- What a thread's times are to the observers within a scope's instance, beside those all observers see (R254): accesses and
fences at that scope keep their order there and act as relaxed elsewhere. -/
structure Near where
  lane : Nat
  inst : Inst
  times : Times
  deriving DecidableEq, Repr

/-- A group (R19, R83, R86): its registers, its place and everything its context holds. -/
structure Group where
  team : Nat
  core : Nat
  ctx : Nat
  num : Nat
  role : Role
  pri : Nat
  pc : Va
  s : Vector Dword 128
  v : Vector VReg 128
  p : Vector Mask 12
  exec : Mask
  mr : Word
  stack : List MaskEntry
  /-- Physical block of each logical block 0 to 3 that is held (R109). -/
  blocks : Vector (Option Nat) 4
  /-- Poisoned register words, and those that hold a single-bit error not yet corrected (R123). -/
  bad : List RegPos
  soft : List RegPos
  regerr : RegErr
  /-- Operations counted on each path, oldest first (R219). -/
  paths : Vector (List PathOp) 8
  times : Vector Times 128
  /-- Times toward the observers of narrower scopes (R254). -/
  near : List Near
  /-- Greatest time of each thread on each line it has accessed (R251), by lane × 2^44 + line. -/
  seen : Assoc Nat
  qflags : BitVec 3
  bstatus : Bool
  qstatus : BitVec 2
  /-- XLATE_CNT's counts (Table 15.3). -/
  preq : Nat
  refs : Nat
  walks : Nat
  park : Option Park
  /-- Last cycle of a SLEEP (R101). -/
  sleep : Option Nat
  starve : Nat
  /-- Cycle and pipe of the last issue, and a count that orders issues; 0 before the first (R25, R101). -/
  last : Option (Nat × Nat)
  order : Nat
  rstpc : Dword
  restarts : Nat
  restarted : Bool
  /-- Open batch, and the tile operations of each batch that have not completed (R182). -/
  batch : Nat
  /-- Greatest write time of the completed ACCSTs of a batch (R184, R261). -/
  batchTw : Assoc Nat
  /-- The lines that the completed ACCSTs of a batch have written, each with its time (R184). -/
  batchLines : Assoc (List (Nat × Nat))
  serial : Nat
  tickets : Assoc Ticket
  mon : Option Monitor
  /-- Snapshot id the group is bound to, and its region (R372). -/
  snap : Option (Nat × Nat)
  /-- End mask of each fibre register (R333). -/
  ends : Vector Mask 8
  trap : TrapRegs
  stop : Stop
  replay : Option Replay
  /-- The same for an instruction of the group's handler (R242). -/
  hreplay : Option Replay
  /-- TRET armed a partial replay: the lanes that the next instruction leaves out (R405). -/
  skip : Option Mask
  pend : List Pend
  /-- Lines that its loads wait for. -/
  fills : List Fill
  /-- Lines whose write-backs its FENCE or WCFL has sent: it is not ready until each is accepted (R246, R256). -/
  flushing : List Nat
  /-- A barrier wait set aside while the group runs its handler, with its instruction's address (R209). -/
  armed : Option (Nat × Bool × Nat)
  /-- A partial replay set aside while the group runs another handler, with its instruction's address (R405). -/
  skipAside : Option (Mask × Nat)
  /-- The cycle in which the group last raised a trap (R398). -/
  raised : Nat
  /-- Operations issued that count on no path and have not completed: ACCRD, NANN, a queue read (R88, R172). -/
  others : List Nat
  /-- Scalar registers that hold the result of a pool operation, with the write time that a read of them orders (R366). -/
  owed : Assoc Nat
  /-- The time every thread started with (R250). -/
  born : Nat
  /-- The first cycle in which it may issue: the one after its creation (R97). -/
  ready : Nat
  /-- Atomics of the group that created it, ordered before its accesses and not yet performed (R98, R106). -/
  after : List Nat
  /-- FENCEs executed since the oldest of its atomics in flight (R250). -/
  fences : List Fenced
  /-- Greatest times of its flushed WC stores, and of its stores that raised no h: those and its DV and SO stores (R175, R247). -/
  wcTime : Nat
  ownTime : Nat
  /-- Its path counters when the last halt of its team reached it (R397). -/
  counts : List Nat
  deriving DecidableEq, Repr

/-! ## Teams -/

/-- A team's origin: a stage of a graph run with its launch serial, or a team of a child grid with its index. -/
inductive Origin where
  | stage (graph stage : Nat)
  | grid (die entry : Nat)
  deriving DecidableEq, Repr

/-- A group waiting for register blocks (R117, R118). -/
structure BlockWait where
  gid : Nat
  want : BitVec 3
  pri : Nat
  cycle : Nat
  deriving DecidableEq, Repr

/-- The reserve of a role on a core (R112). -/
structure Reserve where
  count : Nat
  cap : Nat
  line : List BlockWait
  deriving DecidableEq, Repr

/-- A loaded pattern program (R325). -/
structure PatSlot where
  words : List Word
  inv : Bool
  deriving DecidableEq, Repr

/-- A handle descriptor's fields (Table 13.7). -/
structure Handle where
  pstride : Nat
  pitch : Nat
  cols : Nat
  rows : Nat
  blen : Nat
  planes : Nat
  sgn : Bool
  esize : Nat
  fmt : Nat
  idx : Nat
  aux : Nat
  base : Nat
  deriving DecidableEq, Repr

/-- What a fibre enumerates (R330): a copy of a pattern program, or a stored index. -/
inductive FibSrc where
  | pattern (words : List Word) (inv : Bool)
  | stored (h : Handle)
  deriving DecidableEq, Repr

/-- An open fibre (R328 to R335). -/
structure Fibre where
  src : FibSrc
  trans : Bool
  row0 : Nat
  col0 : Nat
  rspan : Nat
  cspan : Nat
  /-- Coordinates handed out since FOPEN. -/
  count : Nat
  /-- The cursor over a stored index (R342): the row or column of the window it stands in, and the next position there with the
  end of that row's positions, once its pointers are read. -/
  major : Nat
  row : Option (Nat × Nat)
  exhausted : Bool
  /-- A non-invertible FOPEN's count of preceding positions is still running (R334). -/
  counting : Bool
  /-- Group time of the FOPEN (R335). -/
  time : Nat
  deriving DecidableEq, Repr

/-- A deferred trap that waits for delivery (R398). -/
structure Held where
  gid : Nat
  /-- Category: 0 COPY_FAULT, 1 ANVIL_FAULT, 2 NEVER_PRODUCED, 3 POOL_FAULT (Table 16.3); 4 is the SCRATCH_POISON of a
  delivery (R204), which nothing masks. -/
  cat : Nat
  addr : Dword
  info : Dword
  /-- Issue order of the operation. -/
  op : Nat
  deriving DecidableEq, Repr

/-- A team's halt (R396, R403, R409). -/
inductive Halt where
  | none
  /-- A handler runs in this group. -/
  | handler (gid : Nat)
  /-- Halted at a BRK with the host attached. -/
  | breakpoint (gid : Nat)
  /-- Halted by a collector. -/
  | preempt
  deriving DecidableEq, Repr

/-- A team (R19, R22, R83). -/
structure Team where
  func : Nat
  origin : Origin
  /-- Launch serial or grid index (R104, R276). -/
  serial : Nat
  life : Nat
  home : Nat
  /-- The first cycle that counts its resources as taken for a decision of the cycle before (R22). -/
  since : Nat
  /-- Cores in placement order, each with the slot taken there. -/
  slots : List (Nat × Nat)
  /-- Scratch units, bytes, poisoned words (R195, R196, R204). -/
  units : Nat
  scratch : Memory
  sbad : List Nat
  /-- Offsets of the scratch words that hold a single-bit error not yet corrected (R204). -/
  ssoft : List Nat
  /-- Offsets of the scratch words whose tag is 1 (R205). -/
  tags : List Nat
  /-- Tiles: words by row × 256 + column, zero words unlisted; poisoned words (R170, R171). -/
  ntiles : Nat
  tiles : Vector (Assoc Word) 12
  tbad : List (Nat × Nat)
  /-- Tile words that hold a single-bit error not yet corrected, by tile and word (R171). -/
  tsoft : List (Nat × Nat)
  /-- Reserves by 2 × core + role (R112). -/
  reserves : Assoc Reserve
  patterns : Assoc PatSlot
  gens : Assoc Nat
  fibres : Assoc Fibre
  hearth : BitVec 4
  halt : Halt
  /-- Groups with a pending trap, oldest first (R398). -/
  pending : List Nat
  held : List Held
  attach : Bool
  /-- Greatest time that the arrivals and deliveries of each barrier word order before a wait (R211). -/
  btimes : Assoc Nat
  /-- Atomics not yet performed that those arrivals order as well, by the same keys (R211). -/
  bafter : Assoc (List Nat)
  /-- Operations whose group has retired and that have not finished (R88). -/
  orphans : List Nat
  /-- Pending tickets of groups that have exited, by group (R310). -/
  oldTickets : List (Nat × Ticket)
  /-- The team was terminated, with the reason (R400). -/
  ended : Option Nat
  /-- Interest lifetime aside, what SPAWN needs of the team's descriptor: blocks per group by role (R112). -/
  tvec : Va
  /-- Pre-emption: handler instructions counted since the request was taken (R412). -/
  preCount : Nat
  deriving DecidableEq, Repr

/-! ## Cores -/

/-- A combining buffer (R240). -/
structure Combine where
  gid : Nat
  team : Nat
  line : Nat
  /-- Byte offset and byte, offsets rising. -/
  data : List (Nat × Byte)
  /-- Store operations that wrote into it (R219). -/
  ops : List Nat
  deriving DecidableEq, Repr

/-- The permissions and type of a leaf, kept by stage (Table 15.2, R381). -/
structure Perm where
  rd : Bool
  w : Bool
  x : Bool
  typ : Nat
  deriving DecidableEq, Repr

/-- A TLB entry: one complete translation of a page (R381). -/
structure Tlb where
  func : Nat
  /-- Page base in the virtual space and in the physical space, and page size as a power of two. -/
  va : Nat
  pa : Nat
  ipa : Nat
  log : Nat
  s1 : Perm
  s2 : Perm
  deriving DecidableEq, Repr

/-- A walk-cache entry (R381). -/
structure WalkEntry where
  func : Nat
  stage : Nat
  level : Nat
  /-- Physical address of the table entry, and the entry. -/
  pa : Nat
  pte : Nat
  /-- The address the entry was reached for: VA or IPA with the bits below its level cleared. -/
  base : Nat
  deriving DecidableEq, Repr

/-- A format block's fields (Table 3.6). -/
structure Fmt where
  trans : Bool
  fibre : Nat
  imode : Bool
  wide : Bool
  bplanes : Nat
  blen : Nat
  kblocks : Nat
  bsstride : Nat
  asstride : Nat
  bpstride : Nat
  apstride : Nat
  bscales : Nat
  ascales : Nat
  deriving DecidableEq, Repr

/-- What a tile operation does (R175, R185, R187). -/
inductive TileKind where
  /-- Format, A base, B base, and the K-blocks that are present. -/
  | mma (f : Fmt) (abase bbase : Nat) (present : List Nat)
  | accz
  | accrd (vd col : Nat)
  | accwr (data : List VReg) (col : Nat)
  /-- Destination, stride, conversion. -/
  | accst (dst stride cvt : Nat)
  deriving DecidableEq, Repr

/-- A pin (R181): the virtual line address it was fetched by, its physical line, and whether it is one reserved for its core. -/
structure Pin where
  va : Nat
  line : Nat
  own : Bool
  deriving DecidableEq, Repr

/-- An entry of the tile-operation queue (R172, R174). -/
structure TileOp where
  id : Nat
  gid : Nat
  team : Nat
  tile : Nat
  live : Mask
  mr : Word
  kind : TileKind
  batch : Nat
  opc : Nat
  /-- Group time at issue, and the write time of an ACCST's lines (R180, R261). -/
  time : Nat
  tw : Nat
  started : Bool
  /-- Lines still to fetch, in order, by virtual line address, and the bytes fetched. -/
  todo : List Nat
  got : Assoc (List Byte)
  /-- The lines listed of the K-block being fetched: 0 none yet, 1 those of its scale bytes, 2 those of its planes. -/
  phase : Nat
  /-- Present K-blocks fetched, and consumed by the array; the cycle in which the array has consumed the one it works on. -/
  fetched : Nat
  eaten : Nat
  eats : Option Nat
  /-- Lines fetched, by virtual address and number, that are still on their way to their home slices. -/
  due : List (Nat × Nat)
  /-- It met a fault that has not been delivered (R190). -/
  stuck : Bool
  pins : List Pin
  /-- Physical lines owned (R261). -/
  owned : List Nat
  deriving DecidableEq, Repr

/-- A compactor copy (R116): source and destination block, and the group whose grant waits for it, with its blocks. Both
blocks are 128 while the grant waits for the copy before it. -/
structure BlockMove where
  src : Nat
  dst : Nat
  gid : Nat
  want : BitVec 3
  deriving DecidableEq, Repr

/-- A line of a read cache, with the lease end its source granted (R225, R336). -/
structure Leased where
  line : Nat
  lease : Nat
  deriving DecidableEq, Repr

/-- A core (Table 1.6): what belongs to no team. -/
structure Core where
  starveCount : Nat
  starveStamp : Nat
  starvePrio : Nat
  starveCtx : Nat
  /-- Anvil owner and ownership line (R165). -/
  owner : Option Nat
  line : List Nat
  tileq : List TileOp
  combine : List Combine
  tlb : List Tlb
  /-- Launches by cycle and stage, for the adjusted view (R291). -/
  launches : List (Nat × Nat)
  /-- Compactor copies in progress (R116). -/
  moving : List BlockMove
  /-- One more than the cycle in which each pipe last issued (R25), and than that of the core's last reservation (R107). -/
  pipes : Vector Nat 4
  placed : Nat
  /-- L1 read cache, least recently used first (R197, R224). -/
  l1 : List Leased
  deriving DecidableEq, Repr

/-! ## Memory -/

/-- A superseded version of bytes of a line (R249): the time of the write that replaced them, and what they held. -/
structure Version where
  time : Nat
  old : List Host.Cell
  /-- Its least time to the observers within narrower scopes (R254). -/
  tags : List (Inst × Nat)
  /-- A migration brought it here: it is no write of this line for MWT (R271, R389). -/
  moved : Bool
  deriving DecidableEq, Repr

/-- An engine operation that owns a line: its key, the write time it fixed, the core that issued it (R261). -/
structure Owner where
  op : Nat
  tw : Nat
  core : Nat
  deriving DecidableEq, Repr

/-- What the memory system keeps of a 256-byte line beside its bytes: its writes by falling time, the greatest
time granted to a reader (R225), the engine operations that own it in issue order (R261), poison (R233). -/
structure Line where
  versions : List Version
  rtime : Nat
  /-- Greatest times of its readers to the observers within narrower scopes (R254). -/
  rnear : List (Inst × Nat)
  owners : List Owner
  bad : Bool
  deriving DecidableEq, Repr

/-- An L2 bank (R227): waiting requests, and the bypass queue, oldest first. -/
structure Bank where
  setWait : List L2Req
  bypass : List L2Req
  deriving DecidableEq, Repr

/-- An L2 slice (R227 to R231). -/
structure Slice where
  banks : Vector Bank 4
  /-- Lines whose fill is in flight. -/
  misses : List Nat
  /-- Lines present, least recently used first, each with its dirty mark. -/
  present : List (Nat × Bool)
  /-- Written bytes that merge into a fill in flight, one entry for each (R230). -/
  wb : List WriteBack
  /-- Requests at the crosspoints, and write-backs. -/
  reqs : List L2Req
  wbs : List WriteBack
  /-- Write-backs accepted and not yet written into their lines (R230). -/
  wbq : List WriteBack
  /-- Least-recently-granted bits of each class: for each requester port the mask of those over which it has priority (R18,
  R231). -/
  lrg : List Nat
  lrgWb : List Nat
  /-- The ports of each class by their last grant, least recent first. -/
  turn : List Nat
  turnWb : List Nat
  /-- One more than the cycle of the last grant of each class (R231). -/
  granted : Nat
  grantedWb : Nat
  deriving DecidableEq, Repr

/-! ## Queues and stages -/

/-- A record in a queue part: its words, its poison mark, the tick of its acceptance (R277, R288). -/
structure Rec where
  words : List Word
  bad : Bool
  tick : Nat
  /-- The accesses before the enqueue lie at or below this time (R285). -/
  time : Nat
  deriving DecidableEq, Repr

/-- The sample of a queue part (R288). -/
structure Sample where
  b : Nat
  sealed : Bool
  full : Bool
  lingered : Bool
  deriving DecidableEq, Repr

/-- A queue part (R273 to R280), by die × 4,096 + number. -/
structure Queue where
  graph : Nat
  func : Nat
  rsize : Nat
  lcap : Nat
  slice : Nat
  linger : Nat
  spillu : Nat
  spillbase : Nat
  peers : List Nat
  ring : List Rec
  spill : List Rec
  /-- The slot of the spill region that holds the oldest spilled record. -/
  spillHead : Nat
  /-- Spilled records in transit to the ring, counted in `spill` until they land. -/
  transit : Nat
  sealed : Bool
  /-- The accesses before a QSEAL lie at or below this time (R286). -/
  sealTime : Nat
  /-- Dequeues that wait, oldest first (R284). -/
  waiting : List DeqReq
  /-- The samples of the last tick, which decisions use, and of this one (R288). -/
  sample : Sample
  taken : Sample
  deriving DecidableEq, Repr

/-- A stage (Table 11.3). -/
structure Stage where
  graph : Nat
  func : Nat
  cores : Nat
  life : Nat
  restart : Nat
  batch : Nat
  weight : Nat
  acc : Nat
  scratch : Nat
  cblocks : Nat
  pblocks : Nat
  cgroups : Nat
  pgroups : Nat
  /-- Keys of the output parts and of the input part, and the handle words that name them. -/
  outs : List Nat
  inq : Nat
  outHandles : List Nat
  inHandle : Nat
  arg : Dword
  stksize : Nat
  stkbase : Nat
  tvec : Va
  entry : Va
  launches : Nat
  /-- Not launched again until the host restarts it (R287). -/
  stopped : Bool
  deriving DecidableEq, Repr

/-- A graph run (R417, R418). -/
structure Graph where
  func : Nat
  /-- No stage of it is launched again in this run (R287, R418). -/
  stopped : Bool
  /-- END_RUN commands that wait for the last team. -/
  ending : List Cmd
  deriving DecidableEq, Repr

/-- A child grid (R102 to R105). -/
structure Grid where
  graph : Nat
  func : Nat
  clusters : Nat
  doneVa : Nat
  restart : Nat
  weight : Nat
  acc : Nat
  scratch : Nat
  cblocks : Nat
  pblocks : Nat
  cgroups : Nat
  pgroups : Nat
  teams : Nat
  tvec : Va
  entry : Va
  args : List Dword
  life : Nat
  launched : Nat
  living : Nat
  /-- Some team terminated or was abandoned. -/
  broken : Bool
  /-- Time of the launching group's accesses before the LNCH (R106), and of the teams' accesses (R105). -/
  time : Nat
  doneTime : Nat
  /-- Atomics of the launching group that come before the teams' accesses and are not yet performed (R106). -/
  after : List Nat
  /-- The addition to the done word waits for a page-request reply. -/
  adding : Bool
  deriving DecidableEq, Repr

/-! ## Dies -/

/-- An entry of the pending-interest table (R298). -/
structure PitEntry where
  key : NameKey
  /-- Cycle at which it was made. -/
  born : Nat
  /-- Requesters by slot, each with its expiry tick. -/
  slots : Assoc (Requester × Option Nat)
  /-- The latest expiry forwarded. -/
  sent : Option Nat
  /-- BUSY answers to its forward (R300). -/
  tries : Nat
  /-- Answers held for tickets of saved teams, by slot (R310). -/
  held : Assoc Nat
  deriving DecidableEq, Repr

/-- A registered tile (R302, R303): the copy is complete once `ready`. -/
structure RegTile where
  key : NameKey
  bytes : List Byte
  len : Nat
  /-- Poisoned lines of the copy. -/
  bad : List Nat
  ready : Bool
  /-- The key of the NANN whose reservation it is. -/
  op : Nat
  /-- The accesses before the NANN lie at or below this time (R308). -/
  time : Nat
  deriving DecidableEq, Repr

/-- The horizons of a tensor (R302). -/
structure Horizon where
  func : Nat
  tensor : Nat
  sealTo : Option Nat
  retireTo : Option Nat
  deriving DecidableEq, Repr

/-- Who waits for a page request (R383). -/
inductive Waiter where
  | group (gid : Nat)
  /-- An engine operation, by its key. -/
  | engine (op : Nat)
  deriving DecidableEq, Repr

/-- A page request, pending or held (R383, Table 15.6). -/
structure PageReq where
  func : Nat
  granule : Nat
  acc : Acc
  level : Nat
  tbl : Bool
  gen : Nat
  /-- Who waits, each with the 64 KiB page of the virtual address that it waits at. -/
  waiters : List (Waiter × Nat)
  deriving DecidableEq, Repr

/-- The Hearth's write window (R237). -/
inductive Window where
  | opened | draining | loading
  deriving DecidableEq, Repr

/-- A pre-emption request (R408). -/
structure PreReq where
  team : Nat
  func : Nat
  pri : Nat
  image : Nat
  size : Nat
  /-- The PREEMPT command it belongs to, and the entry of its image list. -/
  cmd : Cmd
  listEntry : Option Nat
  deriving DecidableEq, Repr

/-- What a collector does with the request it serves (R409). -/
inductive PrePhase where
  | stopping | saving
  deriving DecidableEq, Repr

/-- A die. -/
structure Die where
  routes : Assoc Dword
  pit : Assoc PitEntry
  registry : List RegTile
  horizons : List Horizon
  crucible : Nat
  grids : Assoc Grid
  tlb : List Tlb
  walkCache : List WalkEntry
  preqs : Assoc PageReq
  gens : Assoc Nat
  heldReqs : List PageReq
  /-- Heat counters by page number (PA div 65,536), and accesses modulo 64 (R387). -/
  heat : Assoc Nat
  accesses : Nat
  window : Window
  preQueue : List PreReq
  serving : Option (PreReq × PrePhase)
  deriving DecidableEq, Repr

/-! ## Fabric and pool -/

/-- A key slot of a direction (R348 to R350): empty, or live with its link id and key; the invocation counter of a
transmitter, and one above the greatest counter accepted at a receiver. -/
structure KeySlot where
  live : Bool
  linkid : Nat
  key : Nat
  ctr : Nat
  exhausted : Bool
  deriving DecidableEq, Repr

/-- A Jenhombe Link port (R343 to R354). -/
structure Port where
  up : Bool
  nbrPkg : Nat
  nbrPort : Nat
  /-- Transmit side. -/
  txSeq : Nat
  retry : List Flit
  txKeys : Vector KeySlot 2
  txSlot : Nat
  credits : Nat
  /-- Receive side. -/
  rxSeq : Nat
  rxKeys : Vector KeySlot 2
  rxSlot : Nat
  fails : Nat
  sinceAck : Nat
  creditsDue : Nat
  /-- A tag failure has not been answered yet (R346). -/
  nakDue : Bool
  /-- Flits accepted since the ACK that covered a KEYSW, while the old slot is still live. -/
  retiring : Option Nat
  /-- Flits accepted after a KEYSW that no ACK has yet covered. -/
  keyswDue : Bool
  /-- Landings that found their part full, oldest first (R354). -/
  heldRecs : List (Nat × List (List Word))
  /-- The first flit of a 256-byte record. -/
  half : Option (Nat × List Byte)
  /-- NAME and COLL flits that wait for a link cycle: type, argument, payload. -/
  out : List (Nat × Nat × List Byte)
  /-- Payloads of the NAME flits accepted since the last message they completed. -/
  names : List (List Byte)
  /-- Reference cycle of the last progress of acknowledgement (R346). -/
  progress : Nat
  /-- The first link cycle that no flit has claimed yet. -/
  claimed : Nat
  /-- Flits sent, resent ones included, oldest first: what leaves the package here. -/
  wire : List Flit
  /-- Records forwarded in the last two ticks: tick, part, peer handle, count (R353). -/
  forwarded : List (Nat × Nat × Nat × Nat)
  deriving DecidableEq, Repr

/-- A collective operation in progress at this package (R358 to R361, R437). -/
structure Coll where
  gid : Nat
  team : Nat
  op : Nat
  sum : Bool
  seq : Nat
  dest : Nat
  live : Mask
  ftz : Bool
  /-- XSUM's descriptor: source, codes, destination, oscale, blocks, ofmt, bcast; XAGREE has one block. -/
  src : Nat
  codes : Nat
  dst : Nat
  oscale : Nat
  nblk : Nat
  ofmt : Bool
  bcast : Bool
  /-- Blocks of this rank's contribution that are formed, and blocks that are reduced. -/
  formed : Nat
  reduced : Nat
  /-- Contributions not yet reduced: source port or 16 for the local rank, block, code, 32 containers (XSUM) or the 128
  code bytes (XAGREE). -/
  parts : List (Nat × Nat × Nat × List Int)
  /-- Results by block, in the form of Table 14.7a from byte 16 on, and the lines of dst, and of the scale bytes, that have been
  written to this rank's memory. -/
  results : Assoc (List Byte)
  landed : Nat
  scaled : Nat
  /-- Lines of its source and codes that have been read, by virtual line number, the last used last. -/
  kept : List (Nat × List Byte)
  time : Nat
  issued : Nat
  deriving DecidableEq, Repr

/-- A pool region (Table 14.8), with its open snapshots by id. -/
structure Region where
  valid : Bool
  atomic : Bool
  base : Nat
  units : Nat
  vbase : Nat
  vunits : Nat
  func : Nat
  /-- Open snapshots, ids rising. -/
  snaps : List Nat
  /-- Version slots in use: line, and the time of the version kept (R370). -/
  slots : List (Nat × Nat)
  /-- The greatest id that a snapshot of the region has had (R371). -/
  top : Nat
  deriving DecidableEq, Repr

/-- A near-memory operation (R365): kind 0 PLFILL, 1 PLCOPY, 2 PLCMP, 3 PLRED. -/
structure PoolOp where
  gid : Nat
  team : Nat
  func : Nat
  kind : Nat
  dst : Nat
  src : Nat
  len : Nat
  value : Nat
  rop : Nat
  sd : Nat
  /-- Bytes processed. -/
  done : Nat
  /-- Bytes of PLRED's source read so far. -/
  data : List Byte
  /-- The last line read of PLCOPY's or PLCMP's source, by virtual line number. -/
  kept : Option (Nat × List Byte)
  unit : Option Nat
  time : Nat
  tw : Nat
  owned : List Nat
  waiting : Bool
  deriving DecidableEq, Repr

/-- A copy (R213 to R218). -/
structure Copy where
  gid : Nat
  team : Nat
  func : Nat
  dst : Nat
  src : Nat
  len : Nat
  bar : Option Nat
  /-- Chunks delivered. -/
  chunks : Nat
  time : Nat
  waiting : Bool
  deriving DecidableEq, Repr

/-- An announcement's copy (R313). -/
structure Nann where
  gid : Nat
  /-- The die that registers the tile. -/
  die : Nat
  key : NameKey
  src : Nat
  len : Nat
  time : Nat
  deriving DecidableEq, Repr

/-- A migration (R389). -/
structure Migration where
  die : Nat
  func : Nat
  stage : Nat
  leaf : Nat
  expected : Nat
  src : Nat
  dst : Nat
  /-- Lines copied. -/
  copied : Nat
  cmd : Cmd
  /-- Waiting for one of the die's 16 places. -/
  waiting : Bool
  deriving DecidableEq, Repr

/-! ## Host port and device -/

/-- A host-port function (R375, R414, R415). -/
structure Func where
  /-- Translation context (Table 15.1). -/
  s1root : Nat
  s2root : Nat
  s2en : Bool
  valid : Bool
  prqbase : Nat
  prqlog : Nat
  /-- Page-request records written (R383), and PRQ_HEAD. -/
  prqSent : Nat
  prqHead : Nat
  /-- BAR0 (Table 17.1). -/
  cmdBase : Dword
  cmdLog : Nat
  cplBase : Dword
  evtBase : Dword
  evtLog : Nat
  /-- Entries read of the command ring, completions and events written. -/
  cmdRead : Nat
  cmdTail : Nat
  cplSent : Nat
  evtSent : Nat
  /-- Events the host has freed space for, beyond one ring (R419). -/
  evtFreed : Nat
  heldEvents : List (List Byte)
  /-- A command that has begun and not completed (R415). -/
  busy : Option Cmd
  deriving DecidableEq, Repr

/-- An entry of the retirement log (Table 15.8). -/
structure RetEntry where
  unrep : Bool
  loc : RowLoc
  cause : Nat
  boot : Nat
  deriving DecidableEq, Repr

/-- A saved team (R409, R410): what its image holds. -/
structure Saved where
  id : Nat
  team : Team
  groups : Assoc Group
  copies : Assoc Copy
  pools : Assoc PoolOp
  header : Nat
  size : Nat
  digest : List Byte
  deriving DecidableEq, Repr

/-- The device (R414 to R428): what no die, core or function holds. -/
structure Device where
  pkg : Nat
  life : Nat
  reduced : Bool
  wiping : Bool
  verified : Bool
  /-- The owner's keys are provisioned: at 0→1, until RETURNED erases them (R424). -/
  keyed : Bool
  /-- Host-assisted mode of the six functions (R423). -/
  assisted : BitVec 6
  /-- Core clock in MHz (R7, R428). -/
  mhz : Nat
  ageing : AgeSample
  retlog : List RetEntry
  powerUps : Nat
  /-- Corrected errors since power-up by row, and spare rows used up are the host's to know (R390, R391). -/
  corrected : List (RowLoc × Nat)
  /-- Rows that have had an uncorrectable error since power-up (R390). -/
  failed : List RowLoc
  /-- Measurement log: index, component code, digest (R425). -/
  measured : List (Nat × Nat × List Byte)
  /-- Heat decay exponent d (R388). -/
  decay : Nat
  /-- CXL windows by expander port 0 to 6: base and size (R238). -/
  windows : List (Nat × Nat × Nat)
  /-- Restore requests waiting for resources (R413). -/
  restores : List (Nat × Cmd)
  /-- Teams saved so far by a function-wide pre-emption, by the function that commands it (R408). -/
  tally : Assoc Nat
  /-- Management controller's event log, newest last: kind and detail. -/
  mclog : List (Nat × Nat)
  deriving DecidableEq, Repr

/-! ## The model's own schedule -/

/-- An event or message in flight: not before a core cycle, or not before a reference cycle. -/
structure Due where
  at_ : Nat
  onRef : Bool
  ev : Event
  deriving DecidableEq, Repr

/-- What moves next: a pipe of a core issues, or the k-th event in flight happens. -/
inductive Move where
  | pipe (core : Nat) (p : Nat)
  | event (k : Nat)
  deriving DecidableEq, Repr

/-- One choice of the schedule: core cycles that pass first, the logical time that the accesses of the step ask for
(the newest where none), the logical time as of which its instruction words are read (R265), and what moves. -/
structure Turn where
  wait : Nat
  time : Option Nat
  code : Option Nat
  move : Move
  deriving DecidableEq, Repr

/-- The group whose instruction issues in this step, the pipe (vector 0 and 1, scalar/control 2, memory/engine 3), its
prefix, the times the step asks for, whether it turned out not to be able to issue now (R24), the reference cycle until
which Hearth banks in refresh hold what it reads (R235), and the poisoned lines that it has read (R233). -/
structure Cur where
  gid : Nat
  pipe : Nat
  pre : Option Prefix
  time : Option Nat
  code : Option Nat
  stalled : Bool
  bank : Nat
  poison : List Nat
  deriving DecidableEq, Repr

/-- The machine: one package. -/
structure State where
  /-- Core cycles since reset (R407), reference cycles (R8), and the remainder between them. -/
  clk : Nat
  refc : Nat
  refrem : Nat
  dev : Device
  mem : Memory
  lines : Assoc Line
  slices : Assoc Slice
  /-- The Tongs' line cache of each cluster, least recently used first (R336). -/
  tongs : Assoc (List Leased)
  groups : Assoc Group
  /-- Groups that have left with atomics in flight, for the order of those (R250, R268). -/
  left : Assoc Group
  teams : Assoc Team
  cores : Assoc Core
  dies : Vector Die 4
  ports : Vector Port 16
  funcs : Assoc Func
  queues : Assoc Queue
  stages : Assoc Stage
  graphs : Assoc Graph
  collTable : Assoc Nat
  colls : Assoc Coll
  /-- Contributions that arrived before this package's own operation: entry, port, payload (R437). -/
  collEarly : List (Nat × Nat × List Byte)
  aborts : Assoc (Nat × Nat)
  regions : Assoc Region
  copies : Assoc Copy
  poolOps : Assoc PoolOp
  nanns : Assoc Nann
  migrations : Assoc Migration
  saved : Assoc Saved
  agenda : List Due
  turns : List Turn
  /-- Page requests refused, by waiter and 64 KiB page of its virtual address, until the waiter takes the fault (R384). -/
  refused : List (Nat × Nat)
  /-- Greatest time of the host's accesses (R264). -/
  hostT : Nat
  cur : Option Cur
  uid : Nat
  free : Nat
  deriving DecidableEq, Repr

/-! ## Stops -/

/-- Why the machine stops with a fault. -/
inductive Fault where
  /-- A word is executed with no living group to issue it: `cur` names none. Raised by every word's meaning through
  the shared issue step; no run from reset reaches it, since step sets `cur`. Safe: the spec gives no such case. -/
  | noIssuer
  deriving DecidableEq, Repr

/-- Why the machine gives no meaning. -/
inductive Refusal where
  /-- The instruction is not modelled. Raised by an arm of `exec` that names it. Safe: the machine stops. -/
  | notModelled (mnemonic : String)
  deriving DecidableEq, Repr

/-! ## Reset -/

/-- A core with nothing on it. -/
def Core.fresh : Core :=
  { starveCount := 0, starveStamp := 0, starvePrio := 0, starveCtx := 0, owner := none, line := [], tileq := [],
    combine := [], tlb := [], launches := [], moving := [], pipes := Vector.replicate 4 0, placed := 0, l1 := [] }

/-- The priority bits of a slice port before its first grant: each requester over those of higher number. -/
def firstBits : List Nat := (List.range 23).map (fun p => 2 ^ 23 - 2 ^ (p + 1))

/-- A slice with nothing in it. -/
def Slice.fresh : Slice :=
  { banks := Vector.replicate 4 { setWait := [], bypass := [] }, misses := [], present := [], wb := [],
    reqs := [], wbs := [], wbq := [], lrg := firstBits, lrgWb := firstBits, turn := List.range 23, turnWb := List.range 23, granted := 0, grantedWb := 0 }

/-- A line no access has reached. -/
def Line.fresh : Line := { versions := [], rtime := 0, rnear := [], owners := [], bad := false }

/-- A die after reset. -/
def Die.fresh : Die :=
  { routes := [], pit := [], registry := [], horizons := [], crucible := 0, grids := [], tlb := [], walkCache := [],
    preqs := [], gens := [], heldReqs := [], heat := [], accesses := 0, window := .opened, preQueue := [],
    serving := none }

/-- An empty key slot. -/
def KeySlot.empty : KeySlot := { live := false, linkid := 0, key := 0, ctr := 0, exhausted := false }

/-- A port that has not trained. -/
def Port.down : Port :=
  { up := false, nbrPkg := 0, nbrPort := 0, txSeq := 0, retry := [], txKeys := Vector.replicate 2 KeySlot.empty,
    txSlot := 0, credits := 64, rxSeq := 0, rxKeys := Vector.replicate 2 KeySlot.empty, rxSlot := 0, fails := 0,
    sinceAck := 0, creditsDue := 0, nakDue := false, retiring := none, keyswDue := false, heldRecs := [],
    half := none, out := [], names := [], progress := 0, claimed := 0, wire := [],
    forwarded := [] }

/-- A function after reset. -/
def Func.fresh : Func :=
  { s1root := 0, s2root := 0, s2en := false, valid := false, prqbase := 0, prqlog := 0, prqSent := 0, prqHead := 0,
    cmdBase := 0, cmdLog := 0, cplBase := 0, evtBase := 0, evtLog := 0, cmdRead := 0, cmdTail := 0, cplSent := 0, evtSent := 0,
    evtFreed := 0, heldEvents := [], busy := none }

/-- The device after reset: wiping, under reduced service, at 0.7 GHz (R7, R421, R422). The package identifier, the
life-cycle state, the ageing record and the logs are kept outside the wipe; their values here are log entry 3's. -/
def Device.fresh : Device :=
  { pkg := 0, life := 2, reduced := true, wiping := true, verified := false, keyed := true, assisted := 0, mhz := 700,
    ageing := { drift := 0, eye := 0, hbm := 0, hearth := 0, months := 0, watts := 0 }, retlog := [], powerUps := 0,
    corrected := [], failed := [], measured := [], decay := 4, windows := [], restores := [], tally := [], mclog := [] }

/-- The machine right after reset (R421). -/
def State.reset : State :=
  { clk := 0, refc := 0, refrem := 0, dev := Device.fresh, mem := [], lines := [], slices := [], tongs := [], groups := [], left := [],
    teams := [], cores := [], dies := Vector.replicate 4 Die.fresh, ports := Vector.replicate 16 Port.down,
    funcs := [], queues := [], stages := [], graphs := [], collTable := [], colls := [], collEarly := [], aborts := [], regions := [],
    copies := [], poolOps := [], nanns := [], migrations := [], saved := [],
    agenda := [{ at_ := 0, onRef := false, ev := .wipeComplete }, { at_ := 128, onRef := true, ev := .bellowsSample },
      { at_ := 1120, onRef := true, ev := .hearthRefreshWindow }, { at_ := 2 ^ 24, onRef := false, ev := .heatDecaySweep 0 },
      { at_ := 2 ^ 24, onRef := false, ev := .heatDecaySweep 1 }, { at_ := 2 ^ 24, onRef := false, ev := .heatDecaySweep 2 },
      { at_ := 2 ^ 24, onRef := false, ev := .heatDecaySweep 3 }],
    turns := [], refused := [], hostT := 0, cur := none, uid := 0, free := 0 }

end Sys2Proof.Machine
end

