-- ==== Sys2Proof/Machine/Ops.lean ====
section
/-!
DEFINITION. The named operations over the state: access to groups, teams, cores and dies; physical addresses; registers, predicates, EXEC
and MR; path counters; logical times of threads; writing a line of memory; events to the host; taking a trap, halting
a team and returning from a handler (R393 to R405); ending a team (R88, R400).
-/
namespace Sys2Proof.Machine
open Sys2Proof

/-- A count that saturates at `top`. -/
def satAdd (x n top : Nat) : Nat := if top < x + n then top else x + n

/-! ## Access -/

/-- A core, fresh where nothing has touched it. -/
def State.core (s : State) (c : Nat) : Core := Assoc.getD s.cores c Core.fresh
/-- The state with a core changed. -/
def State.setCore (s : State) (c : Nat) (f : Core → Core) : State := { s with cores := Assoc.put s.cores c (f (s.core c)) }
/-- A group by its key. -/
def State.group (s : State) (g : Nat) : Option Group := Assoc.get s.groups g
/-- The state with a group changed. -/
def State.setGroup (s : State) (g : Nat) (f : Group → Group) : State := { s with groups := Assoc.upd s.groups g f }
/-- A team by its key. -/
def State.team (s : State) (t : Nat) : Option Team := Assoc.get s.teams t
/-- The state with a team changed. -/
def State.setTeam (s : State) (t : Nat) (f : Team → Team) : State := { s with teams := Assoc.upd s.teams t f }
/-- A die. -/
def State.die (s : State) (d : Nat) : Die := Vector.at0 s.dies d Die.fresh
/-- The state with a die changed. -/
def State.setDie (s : State) (d : Nat) (f : Die → Die) : State := { s with dies := Vector.put s.dies d (f (s.die d)) }
/-- A link port. -/
def State.port (s : State) (p : Nat) : Port := Vector.at0 s.ports p Port.down
/-- The state with a port changed. -/
def State.setPort (s : State) (p : Nat) (f : Port → Port) : State := { s with ports := Vector.put s.ports p (f (s.port p)) }
/-- A host-port function. -/
def State.func (s : State) (f : Nat) : Func := Assoc.getD s.funcs f Func.fresh
/-- The state with a function changed. -/
def State.setFunc (s : State) (n : Nat) (f : Func → Func) : State := { s with funcs := Assoc.put s.funcs n (f (s.func n)) }
/-- A slice, by 32 × die + slice. -/
def State.slice (s : State) (k : Nat) : Slice := Assoc.getD s.slices k Slice.fresh
/-- The state with a slice changed. -/
def State.setSlice (s : State) (k : Nat) (f : Slice → Slice) : State := { s with slices := Assoc.put s.slices k (f (s.slice k)) }
/-- A line of memory. -/
def State.line (s : State) (n : Nat) : Line := Assoc.getD s.lines n Line.fresh
/-- The state with a line's record changed. -/
def State.setLine (s : State) (n : Nat) (f : Line → Line) : State := { s with lines := Assoc.put s.lines n (f (s.line n)) }
/-- The state with a queue part changed. -/
def State.setQueue (s : State) (q : Nat) (f : Queue → Queue) : State := { s with queues := Assoc.upd s.queues q f }
/-- The state with the device changed. -/
def State.setDev (s : State) (f : Device → Device) : State := { s with dev := f s.dev }

/-- A fresh key for a group, a team or an operation. -/
def State.fresh (s : State) : State := { s with uid := s.uid + 1 }

/-- An event put in flight, to happen when the schedule takes it. -/
def State.post (s : State) (e : Event) : State := { s with agenda := s.agenda ++ [{ at_ := s.clk, onRef := false, ev := e }] }
/-- An event put in flight, not before a core cycle. -/
def State.postAt (s : State) (t : Nat) (e : Event) : State := { s with agenda := s.agenda ++ [{ at_ := t, onRef := false, ev := e }] }
/-- An event put in flight, not before a reference cycle. -/
def State.postRef (s : State) (t : Nat) (e : Event) : State := { s with agenda := s.agenda ++ [{ at_ := t, onRef := true, ev := e }] }
/-- An event put in flight unless the same one is in flight. -/
def State.postOnce (s : State) (e : Event) : State := if s.agenda.any (fun d => decide (d.ev = e)) then s else s.post e

/-- An event put in flight, not before a core cycle, unless the same one is in flight for that cycle. -/
def State.postOnceAt (s : State) (t : Nat) (e : Event) : State :=
  if s.agenda.any (fun d => decide (Nat.max d.at_ s.clk = Nat.max t s.clk ∧ d.onRef = false ∧ d.ev = e)) then s else s.postAt t e

/-- An event in flight may happen now. -/
def Due.ready (d : Due) (s : State) : Bool := if d.onRef then decide (d.at_ ≤ s.refc) else decide (d.at_ ≤ s.clk)

/-- The next free value (R190, R361). -/
def State.drawWord (s : State) : Word := Config.freeWord s.free

/-- The groups of a team, by rising key. -/
def State.teamGroups (s : State) (t : Nat) : List (Nat × Group) := s.groups.filter (fun p => decide (p.2.team = t))
/-- The groups on a core. -/
def State.coreGroups (s : State) (c : Nat) : List (Nat × Group) := s.groups.filter (fun p => decide (p.2.core = c))
/-- The team of a group. -/
def State.teamOf (s : State) (g : Nat) : Option Team := (s.group g).bind (fun x => s.team x.team)
/-- The die of a core (R17). -/
def dieOfCore (c : Nat) : Nat := c / 64

/-- The length of a summary tick in reference cycles (R288, R289). -/
def State.tickLen (s : State) : Nat := if s.dev.assisted.getLsbD 5 then 4096 else 128
/-- The summary tick (R288). -/
def State.tick (s : State) : Nat := s.refc / s.tickLen

/-! ## MR (R36, Table 2.4) -/

def mrGuard (mr : Word) : Nat := bits mr.toNat 3 0
def mrSense (mr : Word) : Bool := bit mr.toNat 4
def mrEtype (mr : Word) : Nat := bits mr.toNat 8 5
def mrRound (mr : Word) : Nat := bits mr.toNat 11 9
def mrSat (mr : Word) : Bool := bit mr.toNat 12
def mrFtz (mr : Word) : Bool := bit mr.toNat 13
def mrPlanes (mr : Word) : Nat := bits mr.toNat 17 14

/-- MR at a group's creation: planes 8, guard 15 (R36). -/
def mrReset : Word := 0x0002000F

/-- A value SETMODE may write (R37). -/
def mrLegal (x : Word) : Bool :=
  let g := mrGuard x
  decide (g ≤ 11 ∨ g = 15) && decide (mrEtype x ≤ 8) && decide (mrRound x ≤ 4)
    && decide (2 ≤ mrPlanes x) && decide (mrPlanes x ≤ 8)

/-- What a write leaves in MR: bits [31:18] are ignored (R37). -/
def mrWrite (x : Word) : Word := x &&& 0x0003FFFF

/-! ## Registers -/

/-- Scalar register `r`. -/
def Group.sr (g : Group) (r : Nat) : Dword := Vector.at0 g.s r 0
/-- Vector register `r`. -/
def Group.vr (g : Group) (r : Nat) : VReg := Vector.at0 g.v r VReg.zero
/-- Predicate `r`. -/
def Group.pr (g : Group) (r : Nat) : Mask := Vector.at0 g.p r 0
/-- The 128-bit value of an even pair (R35). -/
def Group.pair (g : Group) (r : Nat) : Mask := (g.sr (r + 1) ++ g.sr r : BitVec 128)

/-- LIVE (R42). -/
def Group.live (g : Group) : Mask :=
  if mrGuard g.mr = 15 then g.exec
  else g.exec &&& (if mrSense g.mr then g.pr (mrGuard g.mr) else ~~~ g.pr (mrGuard g.mr))

/-- The results not landed, without those of lanes of a register that a later write supersedes (R137). -/
def dropPend (l : List Pend) (k : RegKind) (r : Nat) (m : Mask) : List Pend :=
  l.filterMap (fun x =>
    if x.kind = k ∧ x.reg = r then
      (let rest := x.lanes &&& ~~~ m
       if rest = 0 then none else some { x with lanes := rest })
    else some x)

/-- The poison marks without those of lanes of a register that a write clears (R126). -/
def dropBad (l : List RegPos) (k : RegKind) (r : Nat) (m : Mask) : List RegPos :=
  l.filter (fun x => !(decide (x.kind = k ∧ x.reg = r) && m.has x.lane))

/-- A scalar register written. -/
def Group.setS (g : Group) (r : Nat) (x : Dword) : Group :=
  { g with s := Vector.put g.s r x, bad := dropBad g.bad .scalar r (BitVec.allOnes 128),
           soft := dropBad g.soft .scalar r (BitVec.allOnes 128),
           pend := dropPend g.pend .scalar r (BitVec.allOnes 128), owed := Assoc.del g.owed r }

/-- The words of a vector register's lanes written, where `m` holds them (R43). -/
def Group.setV (g : Group) (r : Nat) (m : Mask) (f : Nat → Word) : Group :=
  { g with v := Vector.put g.v r (tab 128 (fun L => if m.has L then f L else (g.vr r).lane L)),
           bad := dropBad g.bad .vec r m, soft := dropBad g.soft .vec r m, pend := dropPend g.pend .vec r m }

/-- The marks of single-bit errors of a predicate, by its 32-lane quarters, without those of quarters written whole (R123, R126). -/
def dropQuarters (l : List RegPos) (r : Nat) (m : Mask) : List RegPos :=
  l.filter (fun x => !(decide (x.kind = .pred ∧ x.reg = r) && decide (m.extractLsb' (32 * x.lane) 32 = BitVec.allOnes 32)))

/-- The bits of a predicate written, where `m` holds them. A write of all 128 bits ends its poison (R126); one of part of
it leaves the register poisoned: the spec is silent on that (DESIGN CHOICE, log entry 76). -/
def Group.setPLanes (g : Group) (r : Nat) (m x : Mask) : Group :=
  { g with p := Vector.put g.p r ((g.pr r &&& ~~~ m) ||| (x &&& m)),
           bad := if m = BitVec.allOnes 128 then dropBad g.bad .pred r m else g.bad,
           soft := dropQuarters g.soft r m,
           pend := dropPend g.pend .pred r m }

/-- A whole predicate written. -/
def Group.setP (g : Group) (r : Nat) (x : Mask) : Group := g.setPLanes r (BitVec.allOnes 128) x

/-- EXEC written. -/
def Group.setExec (g : Group) (x : Mask) : Group :=
  { g with exec := x, bad := dropBad g.bad .special 0 (BitVec.allOnes 128), soft := dropBad g.soft .special 0 (BitVec.allOnes 128) }

/-- An even pair written (R35). -/
def Group.setPair (g : Group) (r : Nat) (x : Mask) : Group :=
  (g.setS r (x.extractLsb' 0 64)).setS (r + 1) (x.extractLsb' 64 64)

/-- The group holds the extended block of a register, or it is a base register (R109). -/
def Group.holds (g : Group) (r : Nat) : Bool :=
  decide (r < 32) || (Vector.at0 g.blocks (r / 32) none).isSome

/-- XHELD (Table 5.1). -/
def Group.xheld (g : Group) : BitVec 3 :=
  BitVec.ofNat 3 (b2n (Vector.at0 g.blocks 1 none).isSome + 2 * b2n (Vector.at0 g.blocks 2 none).isSome
    + 4 * b2n (Vector.at0 g.blocks 3 none).isSome)

/-- The state with a result put on its way to a register of a group: it lands later (R136). -/
def Group.pendWith (g : Group) (x : Pend) : Group := { g with pend := dropPend g.pend x.kind x.reg x.lanes ++ [x] }

/-- A result that has arrived is written to its register in the lanes still due. -/
def Group.landOne (g : Group) (x : Pend) : Group :=
  match x.kind with
  | .vec =>
    (match x.vec with
     | some w =>
       let g' := g.setV x.reg x.lanes (fun L => w.lane L)
       { g' with bad := g'.bad ++ ((x.bad &&& x.lanes).lanes.map (fun L => { kind := .vec, reg := x.reg, lane := L })) }
     | none => g)
  | .scalar =>
    (match x.num with
     | some n =>
       let g' := g.setS x.reg (BitVec.ofNat 64 n)
       if x.bad = 0 then g' else { g' with bad := g'.bad ++ [{ kind := .scalar, reg := x.reg, lane := 0 }] }
     | none => g)
  | .pred => (match x.num with | some n => g.setPLanes x.reg x.lanes (BitVec.ofNat 128 n) | none => g)
  | .special => g

/-- The results of an operation that are known land (R137). -/
def Group.land (g : Group) (op : Nat) : Group :=
  let ready := g.pend.filter (fun x => decide (x.op = op) && (x.vec.isSome || x.num.isSome))
  ready.foldl Group.landOne { g with pend := g.pend.filter (fun x => !(decide (x.op = op) && (x.vec.isSome || x.num.isSome))) }

/-- A result that an instruction reads has not landed (R24). -/
def Group.pendingReg (g : Group) (k : RegKind) (r : Nat) : Bool := g.pend.any (fun x => decide (x.kind = k ∧ x.reg = r))

/-! ## Held instructions (R243, R385) -/

/-- What the group's instruction in a translation wait holds: in a handler, that of the handler's instruction (R242). -/
def Group.held (g : Group) : Option Replay := if g.trap.inh then g.hreplay else g.replay
/-- The group with it set. -/
def Group.setHeld (g : Group) (r : Option Replay) : Group := if g.trap.inh then { g with hreplay := r } else { g with replay := r }

/-! ## Path counters (R219) -/

/-- The operations counted on a path. -/
def Group.path (g : Group) (n : Nat) : List PathOp := Vector.at0 g.paths n []
/-- The operations that the counter still counts: those from the oldest unfinished one on (R219). -/
def dropFinished (l : List PathOp) : List PathOp := l.dropWhile (fun x => x.fin)
/-- A path counter. -/
def Group.counter (g : Group) (n : Nat) : Nat := (dropFinished (g.path n)).length
/-- The finished operations at the head of a path are kept while a wait may still raise h to their write times: none
without one (R220, R261). -/
def prunePath (l : List PathOp) : List PathOp := l.dropWhile (fun x => x.fin && decide (x.tw = 0))
/-- An operation raises its path's counter. -/
def Group.raisePath (g : Group) (n op : Nat) (tw : Nat) : Group :=
  { g with paths := Vector.put g.paths n (g.path n ++ [{ op := op, fin := false, tw := tw }]) }
/-- An operation has completed, wherever it is counted. -/
def Group.finish (g : Group) (op : Nat) : Group :=
  { g with paths := g.paths.map (fun l => prunePath (l.map (fun x => if x.op = op then { x with fin := true } else x))),
           others := g.others.filter (fun x => decide (x ≠ op)) }

/-! ## Times (R250, R262) -/

/-- The times of a thread. -/
def Group.tm (g : Group) (L : Nat) : Times := Vector.at0 g.times L ⟨0, 0, 0, 0⟩
/-- The group time (R262): the greatest h of its threads, toward any observer (R254). -/
def Group.time (g : Group) : Nat :=
  g.near.foldl (fun a n => Nat.max a n.times.h) ((List.range 128).foldl (fun a L => Nat.max a (g.tm L).h) 0)
/-- A thread's times changed. -/
def Group.setTm (g : Group) (L : Nat) (t : Times) : Group := { g with times := Vector.put g.times L t }
/-- h of every thread raised (R261, R262). -/
def Group.raiseH (g : Group) (t : Nat) : Group :=
  { g with times := g.times.map (fun x => { x with h := Nat.max x.h t }) }
/-- An acquire by the whole group of everything ordered at or below a time (R98, R211, R285, R308). -/
def Group.acquire (g : Group) (t : Nat) : Group :=
  { g with times := g.times.map (fun x => { x with f := Nat.max x.f t, h := Nat.max x.h t }) }

/-- The thread number that stands for the whole group in an access of R242 (R262). -/
def whole : Nat := 128

/-- The greater of two threads' times, one by one. -/
def Times.sup (a b : Times) : Times :=
  { f := Nat.max a.f b.f, s := Nat.max a.s b.s, h := Nat.max a.h b.h, l := Nat.max a.l b.l }

/-- A thread's times to the observers of an instance concern a thread: its own, or those of the whole group. -/
def Near.concerns (n : Near) (w : Nat) : Bool := decide (w = whole) || decide (n.lane = whole) || decide (n.lane = w)

/-- The instance of a scope that holds a thread of a group; none for node, fabric and system, which hold every agent.
Lane and group scope hold the thread alone (R255). A spanning team's team scope is its cluster's (R16). -/
def State.instOf (s : State) (gid : Nat) (g : Group) (lane scope : Nat) : Option Inst :=
  let place := [g.core / 64, g.core / 4, g.core]
  match scope with
  | 0 => some (place ++ [g.team, gid * 256 + lane])
  | 1 => some (place ++ [g.team, gid * 256 + lane])
  | 2 => some (match s.team g.team with
      | some t => if 1 < t.slots.length then place.take 2 else place ++ [g.team]
      | none => place ++ [g.team])
  | 3 => some place
  | 4 => some (place.take 2)
  | 5 => some (place.take 1)
  | 6 => some []
  | _ => none

/-- A scope's instance holds every agent of another one. -/
def holdsInst (scope : Option Inst) (i : Inst) : Bool := match scope with | none => true | some j => j.isPrefixOf i

/-- An acquire by the whole group, toward the observers within a scope's instance, of what is ordered at or below a time (R211,
R254). -/
def Group.acquireIn (g : Group) (i : Option Inst) (t : Nat) : Group :=
  match i with
  | none => g.acquire t
  | some i =>
    if g.times.all (fun x => decide (t ≤ x.f)) then g
    else
      let mine := fun (n : Near) => decide (n.lane = whole ∧ n.inst = i)
      let old := (g.near.filter mine).foldl (fun (a : Times) n => a.sup n.times) ⟨0, 0, 0, 0⟩
      { g with near := g.near.filter (fun n => !mine n) ++ [{ lane := whole, inst := i, times := old.sup ⟨t, 0, t, 0⟩ }] }

/-- An operation on a path, wherever it is counted, has performed an access at a time (R219, R220). -/
def Group.performedAt (g : Group) (op t : Nat) : Group :=
  { g with paths := g.paths.map (fun l => l.map (fun x => if x.op = op then { x with tw := Nat.max x.tw t } else x)) }

/-- The operations a wait covers on a path, leaving the last `n` (R220), raise h to their write times. On path STORE,
whose operations are complete when performed at their times, they come before every later access (R219, R220); on path
NAMED they are acquired, with the announcements of the tiles received (R308). -/
def Group.coverPath (g : Group) (path n : Nat) : Group :=
  let l := g.path path
  let old := l.take (l.length - n)
  let tw := old.foldl (fun a x => Nat.max a x.tw) 0
  let g := { g with paths := Vector.put g.paths path (old.filter (fun x => !x.fin) ++ l.drop (l.length - n)) }
  if tw = 0 then g else if path = 6 ∨ path = 1 then g.acquire tw else g.raiseH tw

/-- The group stood at a wait for one of some counters, each with its threshold, when the halt of its team reached it, and has
issued nothing since: it stops there (R397). -/
def Group.stoodAt (g : Group) (l : List (Nat × Nat)) : Bool :=
  decide (g.stop = .skid 0) && l.any (fun p => decide (p.2 < g.counts.getD p.1 0))

/-! ## Physical addresses (R222, R223) -/

/-- What backs a physical address (Table 9.1). -/
inductive PaKind where
  | hbm | hearth | host | cxl | none
  deriving DecidableEq, Repr

/-- Bytes of HBM4E of a die. -/
def hbmDie : Nat := 0x2400000000
/-- First physical address of the Hearth, and bytes of a die's Hearth. -/
def hearthBase : Nat := 0x10000000000
def hearthDie : Nat := 0x20000000

/-- The expander window that covers an address, by port index 0 to 6 (R238). -/
def State.cxlPort (s : State) (pa : Nat) : Option Nat :=
  (s.dev.windows.find? (fun w => decide (w.2.1 ≤ pa) && decide (pa < w.2.1 + w.2.2))).map Prod.fst

/-- What backs an address now: under reduced service die 0's first stack, its Hearth and the host window (R222, R422). -/
def State.paKind (s : State) (pa : Nat) : PaKind :=
  if pa < 4 * hbmDie then (if s.dev.reduced && decide (0xC00000000 ≤ pa) then .none else .hbm)
  else if hearthBase ≤ pa ∧ pa < hearthBase + 4 * hearthDie then
    (if s.dev.reduced && decide (hearthBase + hearthDie ≤ pa) then .none else .hearth)
  else if 0x4000000000000 ≤ pa ∧ pa < 0x8000000000000 then .host
  else if 0x8000000000000 ≤ pa ∧ pa < 0x10000000000000 then
    (if !s.dev.reduced && (s.cxlPort pa).isSome then .cxl else .none)
  else .none

/-- Home die of an address (Table 9.1). -/
def State.homeDie (s : State) (pa : Nat) : Nat :=
  match s.paKind pa with
  | .hbm => pa / hbmDie
  | .hearth => (pa - hearthBase) / hearthDie
  | .cxl => (((s.cxlPort pa).getD 0) + 1) / 2
  | _ => 0

/-- Home slice of an address within its die (R223). -/
def sliceOf (pa : Nat) : Nat := (bits pa 12 8) ^^^ (bits pa 17 13) ^^^ (bits pa 22 18) ^^^ (bits pa 27 23)

/-- The package's key of a line's home slice. -/
def State.homeSlice (s : State) (pa : Nat) : Nat := 32 * s.homeDie pa + sliceOf pa

/-- The line's set within its slice, and the set's bank (R223). -/
def setOf (line : Nat) : Nat := (line * 256 / 8192) % 768
def bankOf (line : Nat) : Nat := setOf line % 4

/-- A transfer of a line between a die and HBM4E or an expander; every 64th samples the page's heat (R387). -/
def State.touch (s : State) (pa : Nat) : State :=
  let d := s.homeDie pa
  if s.dev.assisted.getLsbD 3 || decide (s.paKind pa ≠ .hbm ∧ s.paKind pa ≠ .cxl) then s
  else
    let n := (s.die d).accesses + 1
    let s := s.setDie d (fun x => { x with accesses := n % 64 })
    if n = 64 then s.post (.heatSample d pa) else s

/-! ## The way to a line (R18, R223) -/

/-- The region of a physical address, when it lies in a valid pool region (R362). -/
def State.regionOf (s : State) (pa : Nat) : Option (Nat × Region) :=
  s.regions.find? (fun p => p.2.valid && decide (p.2.base ≤ pa) && decide (pa < p.2.base + 65536 * p.2.units))

/-- The line of a physical address (R223). -/
def lineOf (pa : Nat) : Nat := pa / 256

/-- The requester port through which a requester of a die, at a port of that die's crossbar, reaches the home die of a line:
its own there, a die bridge elsewhere (R18, Table 1.5). -/
def portVia (from_ die own : Nat) : Nat := if from_ = die then own else 16 + (if from_ < die then from_ else from_ - 1)
/-- The port of a core's cluster. -/
def portOf (core die : Nat) : Nat := portVia (dieOfCore core) die ((core % 64) / 4)
/-- The ports of the fabric block, of the host and CXL block, of the copy and collective engines, and of the pool unit. -/
def fabricPort : Nat := 19
def hostPort : Nat := 20
def enginePort : Nat := 21
def poolPort : Nat := 22

/-- A crossbar grant is due at a slice, one of a class in a cycle (R231). -/
def State.askGrant (s : State) (k : Nat) (wb : Bool) : State :=
  let e := Event.crossbarGrant (k / 32) (k % 32) wb
  let last := if wb then (s.slice k).grantedWb else (s.slice k).granted
  if s.agenda.any (fun d => decide (d.ev = e)) then s else s.postAt (Nat.max s.clk last) e

/-- A request for a line goes to its home slice (R223, R227). -/
def State.ask (s : State) (port line : Nat) (write : Bool) (pref : Bool := false) : State :=
  let k := s.homeSlice (line * 256)
  let r : L2Req := { line := line, port := port, write := write, pref := pref }
  if (s.slice k).reqs.contains r then s
  else (s.setSlice k (fun x => { x with reqs := x.reqs ++ [r] })).askGrant k false

/-- A line of HBM4E or of an expander that its home slice neither holds nor fills is asked for, or written there: by a page walk,
an instruction fetch, the host or a migration (R223, R380); a line of a pool region passes by the slices (R362, R387). -/
def State.wantLine (s : State) (die own pa : Nat) (write : Bool := false) : State :=
  let k := s.paKind pa
  let x := s.slice (s.homeSlice pa)
  if (s.regionOf pa).isSome then s.touch pa
  else if k ≠ .hbm ∧ k ≠ .cxl then s
  else if !write && (x.misses.contains (lineOf pa) || x.present.any (fun p => decide (p.1 = lineOf pa))) then s
  else s.ask (portVia die (s.homeDie pa) own) (lineOf pa) write

/-! ## The Hearth's refresh (R235, R236) -/

/-- Reference cycles of a refresh period, of a bank's window, and between the openings of two windows. -/
def refreshPeriod : Nat := 71680
def refreshWindow : Nat := 2240
def refreshStride : Nat := 1120

/-- The position in the refresh period. -/
def State.refreshPos (s : State) : Nat := s.refc % refreshPeriod

/-- The bank whose window opened last, and the other bank in refresh (Table 9.2). -/
def State.bankHi (s : State) : Nat := s.refreshPos / refreshStride
def State.bankLo (s : State) : Nat := (s.bankHi + 63) % 64

/-- The reference cycle at which a bank in refresh leaves it. -/
def State.bankEnd (s : State) (b : Nat) : Option Nat :=
  let opened := s.refc - s.refc % refreshStride
  if s.bankHi = b then some (opened + refreshWindow) else if s.bankLo = b then some (opened + refreshStride) else none

/-- The reference cycle until which a read of physical memory waits: a Hearth bank in refresh (R235). -/
def State.bankWait (s : State) (pa : Nat) : Option Nat :=
  if s.paKind pa = .hearth then s.bankEnd (bits ((pa - hearthBase) % hearthDie) 28 23) else none

/-! ## Writing memory -/

/-- The time of a line's last write. -/
def Line.wtime (l : Line) : Nat := match l.versions with | [] => 0 | v :: _ => v.time
/-- The greatest of the times listed for narrower scopes. -/
def topTag (l : List (Inst × Nat)) : Nat := l.foldl (fun a x => Nat.max a x.2) 0
/-- The time of a line's last write, toward any observer (R254). -/
def Line.topTime (l : Line) : Nat := l.versions.foldl (fun a v => Nat.max a (Nat.max v.time (topTag v.tags))) 0
/-- A time above every write, every lease end and every write time fixed by an owner of a line, toward any observer (R225,
R249, R254, R261). -/
def Line.nextTime (l : Line) : Nat :=
  (l.owners.foldl (fun a o => Nat.max a o.tw) (Nat.max (Nat.max l.topTime l.rtime) (topTag l.rnear))) + 1

/-- A time at which no write of the line lies, counting up from `t`. -/
def Line.freeTime (l : Line) (t : Nat) : Nat → Nat
  | 0 => t
  | n + 1 => if l.versions.any (fun v => decide (v.time = t)) then l.freeTime (t + 1) n else t

/-- The byte of an address as of a logical time, from what it holds now and the writes since (R249). -/
def byteAt (t a : Nat) : List Version → Byte → Byte
  | [], b => b
  | v :: r, b => if v.time ≤ t then b else byteAt t a r (Assoc.getD v.old a b)

/-- Consecutive bytes as of a logical time. -/
def State.bytesAt (s : State) (pa n t : Nat) : List Byte :=
  (List.range n).map (fun i => byteAt t (pa + i) (s.line ((pa + i) / 256)).versions (Memory.get s.mem (pa + i)))

/-- The version slots of a region that some open snapshot needs: version time t_c needs slot while t_c ≤ S < next. -/
def slotNeeded (snaps : List Nat) (lo hi : Nat) : Bool := snaps.any (fun S => decide (lo ≤ S) && decide (S < hi))

/-- The slots still needed by the open snapshots (R370): each keeps the version at its time, superseded later. -/
def State.pruneSlots (s : State) (r : Region) : Region :=
  { r with slots := r.slots.filter (fun p =>
      -- the version of line p.1 written at p.2 is superseded at the first later write
      let later := ((s.line p.1).versions.filter (fun v => decide (p.2 < v.time))).map Version.time
      match later.getLast? with
      | some hi => slotNeeded r.snaps p.2 hi
      | none => slotNeeded r.snaps p.2 (p.2 + 1)) }

/-- R371: open snapshots with the least ids are revoked until a slot is free or no snapshot needs the version. -/
def State.takeSlot (s : State) (line tc t : Nat) : Nat → Region → Region
  | 0, r => r
  | n + 1, r =>
    if !slotNeeded r.snaps tc t || r.slots.any (fun p => decide (p = (line, tc))) then r
    else if r.slots.length < 256 * r.vunits then { r with slots := r.slots ++ [(line, tc)] }
    else match r.snaps with
      | [] => r
      | _ :: rest => s.takeSlot line tc t n (s.pruneSlots { r with snaps := rest })

/-- A write to a pool line keeps the version that an open snapshot needs (R370, R371). -/
def State.keepVersion (s : State) (line t : Nat) : State :=
  match s.regionOf (line * 256) with
  | none => s
  | some (n, r) =>
    if r.snaps = [] then s
    else
      let tc := (s.line line).wtime
      { s with regions := Assoc.put s.regions n (s.takeSlot line tc t 17 r) }

/-- An operation on a path takes another write time (R261). -/
def Group.retime (g : Group) (op tw : Nat) : Group :=
  { g with paths := g.paths.map (fun l => l.map (fun x => if x.op = op then { x with tw := tw } else x)) }

/-- The PC of a group moved past a parked instruction, which completes. -/
def Group.unpark (g : Group) : Group := { g with park := none, pc := g.pc + 4 }

/-- A write of a line at a time ends the monitor waits on the line whose arm time lies below, and those of coarse monitors
on its slice (R271, R272). -/
def State.wakeMonitors (s : State) (line t : Nat) : State :=
  { s with groups := s.groups.map (fun (p : Nat × Group) =>
      match p.2.mon, p.2.park with
      | some m, some (.monitor _) =>
        if (m.line = line ∧ m.time < t) ∨ (m.coarse ∧ s.homeSlice (m.line * 256) = s.homeSlice (line * 256)) then
          (p.1, { p.2.unpark with mon := none })
        else p
      | _, _ => p) }

/-- A write at a time set among the writes of a line, newest first: the list without the bytes it replaces, the cells
that no newer write covers, and the bytes that newer writes now replace in its stead. -/
def insertVersion (t : Nat) (cells : List Host.Cell) : List Version → List Version × List Host.Cell × List Host.Cell
  | [] => ([{ time := t, old := [], tags := [], moved := false }], cells, [])
  | v :: r =>
    if v.time ≤ t then ({ time := t, old := [], tags := [], moved := false } :: v :: r, cells, [])
    else
      let (r', left, olds) := insertVersion t cells r
      let here := left.filter (fun (c : Host.Cell) => Assoc.has v.old c.1)
      let old := v.old.map (fun (c : Host.Cell) => ((c.1, Assoc.getD here c.1 c.2) : Host.Cell))
      ({ v with old := old } :: r', left.filter (fun (c : Host.Cell) => !Assoc.has v.old c.1),
        here.map (fun (c : Host.Cell) => ((c.1, Assoc.getD v.old c.1 0) : Host.Cell)) ++ olds)

/-- The bytes of one line written at one time (R249), `tags` its times toward the observers of narrower scopes (R254): what they replace
stays as the version before. A line that is written whole loses its poison (R233). -/
def State.writeLine (s : State) (line t : Nat) (cells : List Host.Cell) (tags : List (Inst × Nat) := []) : State :=
  let s := s.keepVersion line t
  let (vs, now, olds) := insertVersion t cells (s.line line).versions
  let old := olds ++ now.map (fun (c : Host.Cell) => ((c.1, Memory.get s.mem c.1) : Host.Cell))
  let s := { s with mem := now.foldl (fun (m : Memory) (c : Host.Cell) => Memory.put m c.1 c.2) s.mem }
  let s := s.setLine line (fun l =>
    { l with versions := vs.map (fun v => if v.time = t then { v with old := old, tags := tags } else v),
             bad := l.bad && decide (cells.length < 256) })
  s.wakeMonitors line t

/-- The destination lines that mirror a source line (R389 step 1). -/
def State.mirrors (s : State) (line : Nat) : List Nat :=
  (s.migrations.filter (fun p => !p.2.waiting && decide (p.2.src / 256 ≤ line) && decide (line < p.2.src / 256 + 256))).map
    (fun p => p.2.dst / 256 + (line - p.2.src / 256))

/-- The bytes of a line written by any agent, at its line and at the line that mirrors it, at one time (R389). -/
def State.storeLine (s : State) (line t : Nat) (cells : List Host.Cell) (tags : List (Inst × Nat) := []) : State :=
  if cells = [] then s
  else (s.mirrors line).foldl (fun s d =>
    (s.wantLine (s.homeDie (line * 256)) enginePort (d * 256) true).writeLine d t
      (cells.map (fun (c : Host.Cell) => ((c.1 - line * 256 + d * 256, c.2) : Host.Cell))) tags) (s.writeLine line t cells tags)

/-- Cells of a byte string from an address. -/
def cellsAt (pa : Nat) : List Byte → List Host.Cell
  | [] => []
  | b :: r => (pa, b) :: cellsAt (pa + 1) r

/-- The lines that a range of bytes touches, ascending. -/
def linesOf (pa n : Nat) : List Nat :=
  if n = 0 then [] else (List.range ((pa + n - 1) / 256 - pa / 256 + 1)).map (fun i => pa / 256 + i)

/-- A write by the host or by the device on its behalf: each line at a time above all of the line's and above the
host's earlier accesses (R264). The host port is on die 0 (R18, Table 1.5). -/
def State.hostWrite (s : State) (pa : Nat) (data : List Byte) : State :=
  let cells := cellsAt pa data
  (linesOf pa data.length).foldl (fun s n =>
    let t := Nat.max (s.line n).nextTime (s.hostT + 1)
    let s := s.wantLine 0 hostPort (n * 256) true
    { s.storeLine n t (cells.filter (fun c => decide (c.1 / 256 = n))) with hostT := t }) s

/-- The bytes at an address as they stand. -/
def State.bytes (s : State) (pa n : Nat) : List Byte := Memory.read s.mem pa n
/-- A little-endian number as it stands in memory. -/
def State.num (s : State) (pa n : Nat) : Nat := leNat (s.bytes pa n)

/-! ## Events to the host (R419) -/

/-- An event entry: type, phase, and payload bytes by offset. -/
def eventBytes (typ : Nat) (phase : Bool) (payload : List (Nat × Nat × Nat)) : List Byte :=
  let m : Memory := payload.foldl (fun m f => Memory.write m f.1 (natLe f.2.2 f.2.1)) []
  (List.range 64).map (fun i => if i = 0 then BitVec.ofNat 8 typ else if i = 1 then BitVec.ofNat 8 (b2n phase) else Memory.get m i)

/-- The entry of an event whose phase is set when it is posted. -/
def withPhase (e : List Byte) (phase : Bool) : List Byte := e.set 1 (BitVec.ofNat 8 (b2n phase))

/-- The entries that a ring of the exponent n holds: n from 4 to 12; any other names no ring (R414; DESIGN CHOICE, log entry 92). -/
def ringSize (n : Nat) : Nat := if 4 ≤ n ∧ n ≤ 12 then 2 ^ n else 0

/-- The entries an event ring holds (R414). -/
def Func.evtSize (f : Func) : Nat := ringSize f.evtLog

/-- An event posted to a function's ring, or held while the ring is full (R419). The phase bit is 1 on the first pass round the ring
(DESIGN CHOICE, log entry 92). -/
def State.postEvent (s : State) (fn typ : Nat) (payload : List (Nat × Nat × Nat)) : State :=
  let f := s.func fn
  let e := eventBytes typ false payload
  if f.heldEvents = [] ∧ f.evtSent < f.evtFreed + f.evtSize then
    let phase := decide ((f.evtSent / f.evtSize) % 2 = 0)
    let s := s.setFunc fn (fun f => { f with evtSent := f.evtSent + 1 })
    s.hostWrite (f.evtBase.toNat + 64 * (f.evtSent % f.evtSize)) (withPhase e phase)
  else s.setFunc fn (fun f => { f with heldEvents := f.heldEvents ++ [e] })

/-- An event to the management controller's event log, which the host's ring mirrors where Table 17.5 lists it. -/
def State.mcEvent (s : State) (kind detail : Nat) : State := s.setDev (fun d => { d with mclog := d.mclog ++ [(kind, detail)] })

/-- A poisoned line has been read: one event, which concerns no team and goes to the PF (R233, R419). -/
def State.poisonEvent (s : State) (pa : Nat) : State :=
  (s.mcEvent 0x04 pa).postEvent 0 0x04 [(8, 1, 1), (12, 4, 0), (16, 8, pa)]

/-- A line has been read: a poisoned one sends its event, once for the reads of one pass of an instruction, by whatever lanes (R233;
DEDUCED, log entry 93). -/
def State.poisonRead (s : State) (pa : Nat) : State :=
  let n := lineOf pa
  if !(s.line n).bad || (s.cur.map Cur.poison).any (fun l => l.contains n) then s
  else { s.poisonEvent (n * 256) with cur := s.cur.map (fun c => { c with poison := c.poison ++ [n] }) }

/-- A read by the host or on its behalf: the lines it reads are granted at a time no write precedes (R264). The host port is on
die 0 (R18, Table 1.5). -/
def State.hostRead (s : State) (pa n : Nat) : State :=
  (linesOf pa n).foldl (fun s m =>
    let t := Nat.max (s.line m).topTime s.hostT
    let s := (s.wantLine 0 hostPort (m * 256)).poisonRead (m * 256)
    { s.setLine m (fun l => { l with rtime := Nat.max l.rtime t }) with hostT := t }) s

/-- A team's id: 256 × core + slot (17, after Table 17.4). -/
def Team.id (t : Team) : Nat := 256 * t.home + ((t.slots.head?).map Prod.snd).getD 0

/-! ## Operations of a team (R88) -/

/-- An operation has completed: its path falls, or its team's list of operations without a group loses it; a team
with neither groups nor operations retires. -/
def State.finishOp (s : State) (gid op : Nat) : State :=
  match s.group gid with
  | some _ => s.setGroup gid (fun g => g.finish op)
  | none =>
    s.teams.foldl (fun s p =>
      if p.2.orphans.contains op then
        (let rest := p.2.orphans.filter (fun x => decide (x ≠ op))
         let s := s.setTeam p.1 (fun t => { t with orphans := rest })
         if rest = [] ∧ s.teamGroups p.1 = [] then s.post (.teamRetirement p.1) else s)
      else s) s

/-- The operations of a group that have not finished. -/
def Group.unfinished (g : Group) : List Nat :=
  ((g.paths.toList.flatMap (fun l => l.filter (fun x => !x.fin))).map PathOp.op) ++ g.others

/-- R22, R85: what of a core's resources is taken. A team counts on each core it occupies until it retires. -/
def State.freeTeamSlots (s : State) (c : Nat) : Nat :=
  24 - (s.teams.filter (fun p => p.2.slots.any (fun x => decide (x.1 = c)))).length
def State.freeContexts (s : State) (c : Nat) : Nat := 96 - (s.coreGroups c).length
def State.freeScratch (s : State) (c : Nat) : Nat :=
  48 - (s.teams.filter (fun p => decide (p.2.home = c))).foldl (fun a p => a + p.2.units) 0
def State.freeTiles (s : State) (c : Nat) : Nat :=
  12 - (s.teams.filter (fun p => decide (p.2.home = c))).foldl (fun a p => a + p.2.ntiles) 0
/-- Physical blocks held on a core (R109, R111). -/
def State.heldBlocks (s : State) (c : Nat) : List Nat :=
  (s.coreGroups c).flatMap (fun p => p.2.blocks.toList.filterMap id)
/-- Blocks counted in reserves on a core (R111, R112). -/
def State.reservedBlocks (s : State) (c : Nat) : Nat :=
  s.teams.foldl (fun a p => p.2.reserves.foldl (fun a r => if r.1 / 2 = c then a + r.2.count else a) a) 0
/-- Extended blocks of a mask. -/
def blockCount (m : BitVec 3) : Nat := b2n (m.getLsbD 0) + b2n (m.getLsbD 1) + b2n (m.getLsbD 2)
/-- Blocks drawn from a reserve for grants that wait for the compactor: neither reserved, nor held, nor free (R111, R116). -/
def State.grantedBlocks (s : State) (c : Nat) : Nat := (s.core c).moving.foldl (fun a m => a + blockCount m.want) 0
/-- Blocks that a copy of the compactor writes for no grant, the group that was to have it having left. -/
def State.movedBlocks (s : State) (c : Nat) : Nat := ((s.core c).moving.filter (fun m => decide (m.want = 0 ∧ m.src < 128))).length
/-- Free blocks (R111). -/
def State.freeBlocks (s : State) (c : Nat) : Nat :=
  128 - (s.heldBlocks c).length - s.reservedBlocks c - s.grantedBlocks c - s.movedBlocks c

/-- Key of a team's reserve for a role on a core (R112). -/
def reserveKey (c : Nat) (r : Role) : Nat := 2 * c + (match r with | .consumer => 0 | .producer => 1)

/-! ## Scratch and barrier words (R196, R204 to R212) -/

/-- A barrier word's fields but for its tag (Table 8.3). -/
structure Barrier where
  phase : Bool
  inv : Bool
  err : Bool
  expected : Nat
  arrivals : Nat
  pending : Int
  deriving DecidableEq, Repr

/-- The fields of a 64-bit word. -/
def Barrier.ofWord (w : Nat) : Barrier :=
  { phase := bit w 62, inv := bit w 61, err := bit w 60, expected := bits w 55 42, arrivals := bits w 41 28,
    pending := if bit w 27 then (bits w 27 0 : Int) - 2 ^ 28 else bits w 27 0 }

/-- The word of a barrier, its tag set. -/
def Barrier.word (b : Barrier) : Nat :=
  place 1 63 + place (b2n b.phase) 62 + place (b2n b.inv) 61 + place (b2n b.err) 60 + place (b.expected % 2 ^ 14) 42
    + place (b.arrivals % 2 ^ 14) 28 + (b.pending % 2 ^ 28).toNat

/-- A scratch doubleword and a scratch word. -/
def Team.word64 (t : Team) (off : Nat) : Nat := leNat (Memory.read t.scratch off 8)
def Team.word32 (t : Team) (off : Nat) : Nat := leNat (Memory.read t.scratch off 4)

/-- A range lies in the team's scratch (R196). -/
def Team.inScratch (t : Team) (off n : Nat) : Bool := decide (off + n ≤ 16384 * t.units)

/-- The word at an offset is a barrier object: its tag, which BINIT alone sets and clears, is 1 (R205, R207). -/
def Team.tagged (t : Team) (off : Nat) : Bool := t.tags.contains off

/-- A range overlaps a barrier word. -/
def Team.overlapsTag (t : Team) (off n : Nat) : Bool := t.tags.any (fun a => decide (off < a + 8) && decide (a < off + n))

/-- The lowest poisoned scratch word that a range reads, by its offset (R204; DESIGN CHOICE, log entry 94). -/
def Team.poisonIn (t : Team) (off n : Nat) : Option Nat :=
  (t.sbad.filter (fun w => decide (off < w + 4) && decide (w < off + n))).foldl (fun a w => some (match a with | some b => Nat.min b w | none => w)) none

/-- Bytes written to scratch: a word written whole loses its poison (R204). -/
def Team.putScratch (t : Team) (off : Nat) (data : List Byte) : Team :=
  { t with scratch := Memory.write t.scratch off data,
           sbad := t.sbad.filter (fun w => !(decide (off ≤ w) && decide (w + 4 ≤ off + data.length))),
           ssoft := t.ssoft.filter (fun w => !(decide (off ≤ w) && decide (w + 4 ≤ off + data.length))) }

/-- A group has read `n` words that held single-bit errors (R123, R171, R204). -/
def Group.countErrors (g : Group) (n : Nat) : Group :=
  { g with regerr := { g.regerr with ce := satAdd g.regerr.ce n 65535 } }

/-- The single-bit errors in the scratch words that a group reads, each range by offset and length, are corrected and counted
(R204). -/
def State.correctScratch (s : State) (gid tid : Nat) (l : List (Nat × Nat)) : State :=
  let hit := fun (w : Nat) => l.any (fun r => decide (r.1 < w + 4) && decide (w < r.1 + r.2))
  let n := (((s.team tid).map Team.ssoft).getD []).filter hit
  if n = [] then s
  else (s.setTeam tid (fun t => { t with ssoft := t.ssoft.filter (fun w => !hit w) })).setGroup gid (fun g => g.countErrors n.length)

/-- The single-bit errors in the tile words that a group reads are corrected and counted (R171). -/
def State.correctTile (s : State) (gid tid tile : Nat) (reads : Nat → Bool) : State :=
  let hit := fun (q : Nat × Nat) => decide (q.1 = tile) && reads q.2
  let n := (((s.team tid).map Team.tsoft).getD []).filter hit
  if n = [] then s
  else (s.setTeam tid (fun t => { t with tsoft := t.tsoft.filter (fun q => !hit q) })).setGroup gid (fun g => g.countErrors n.length)

/-- The barrier at an offset. -/
def Team.barrier (t : Team) (off : Nat) : Barrier := Barrier.ofWord (t.word64 off)

/-- The times a barrier word keeps: of the arrivals and deliveries of its current phase, and of those that its last
completed phase counted (R211). -/
def Team.phaseTime (t : Team) (off : Nat) : Nat := Assoc.getD t.btimes (2 * off) 0
def Team.doneTime (t : Team) (off : Nat) : Nat := Assoc.getD t.btimes (2 * off + 1) 0
/-- The atomics, not yet performed when the arrivals were made, of the current phase and of the last completed one (R211). -/
def Team.phaseAfter (t : Team) (off : Nat) : List Nat := Assoc.getD t.bafter (2 * off) []
def Team.doneAfter (t : Team) (off : Nat) : List Nat := Assoc.getD t.bafter (2 * off + 1) []

/-- The groups of a team that wait on a barrier word. -/
def State.waitersOn (s : State) (tid off : Nat) : List (Nat × Group) :=
  (s.teamGroups tid).filter (fun p => match p.2.park with | some (.barrier o _) => decide (o = off) | _ => false)

/-- A barrier wait of a group ends (R209, R210): with ok, what the phase counted is ordered before what follows, at team scope
(R211): the atomics among it that have not been performed come before its accesses too. -/
def Group.endWait (g : Group) (ok : Bool) (i : Option Inst) (t : Nat) (after : List Nat) : Group :=
  let g := { g.unpark with bstatus := ok }
  if ok then { g.acquireIn i t with after := g.after ++ after } else g

/-- The waiters on a word whose parity differs from `phase`, or all of them, are released (R208, R207). -/
def State.releaseWaiters (s : State) (tid off : Nat) (ok phase : Bool) (t : Nat) (after : List Nat) : State :=
  { s with groups := s.groups.map (fun (p : Nat × Group) =>
      match p.2.park with
      | some (.barrier o q) =>
        if p.2.team = tid ∧ o = off ∧ (!ok || decide (q ≠ phase)) then (p.1, p.2.endWait ok (s.instOf p.1 p.2 0 2) t after) else p
      | _ => p) }

/-- A barrier word changed: it completes its phase where every arrival has been made and nothing is pending (R208). -/
def State.putBarrier (s : State) (tid off : Nat) (b : Barrier) : State :=
  let done := !b.inv && decide (b.arrivals = b.expected) && decide (b.pending = 0)
  let b' := if done then { b with phase := !b.phase, arrivals := 0 } else b
  let t := ((s.team tid).map (fun t => t.phaseTime off)).getD 0
  let after := ((s.team tid).map (fun t => t.phaseAfter off)).getD []
  let s := s.setTeam tid (fun y =>
    { y.putScratch off (natLe b'.word 8) with
      btimes := if done then Assoc.put (Assoc.put y.btimes (2 * off) 0) (2 * off + 1) t else y.btimes,
      bafter := if done then Assoc.put (Assoc.del y.bafter (2 * off)) (2 * off + 1) after else y.bafter })
  if done then s.releaseWaiters tid off true b'.phase t after else s

/-- A barrier word is invalidated and its waiters released (R207, R212). -/
def State.invalidate (s : State) (tid off : Nat) (b : Barrier) : State :=
  let s := s.setTeam tid (fun y => y.putScratch off (natLe ({ b with inv := true } : Barrier).word 8))
  s.releaseWaiters tid off false b.phase 0 []

/-- What an arrival or a delivery orders before the phase's waits (R211), with the atomics of an arriving group that have not been
performed. -/
def State.phaseOrders (s : State) (tid off t : Nat) (after : List Nat := []) : State :=
  s.setTeam tid (fun y =>
    { y with btimes := Assoc.put y.btimes (2 * off) (Nat.max (y.phaseTime off) t),
             bafter := if after = [] then y.bafter else Assoc.put y.bafter (2 * off) (y.phaseAfter off ++ after) })

/-- A delivery subtracts its bytes from the barrier it is bound to, where that is still a barrier (R212, R214). -/
def State.subtract (s : State) (tid : Nat) (bar : Option Nat) (n t : Nat) : State :=
  match bar, s.team tid with
  | some off, some y =>
    if !y.tagged off then s
    else
      let b := y.barrier off
      let p := b.pending - n
      if p < -(2 ^ 27) then s.invalidate tid off { b with err := true }
      else (s.phaseOrders tid off t).putBarrier tid off { b with pending := p }
  | _, _ => s

/-- Waiting on a barrier word and a parity (R209), for a group at the instruction that waits: it goes past it at once,
or parks. -/
def State.waitOn (s : State) (gid tid off : Nat) (q : Bool) : State :=
  match s.team tid with
  | none => s
  | some y =>
    let b := y.barrier off
    if b.phase ≠ q then s.setGroup gid (fun g => g.endWait true (s.instOf gid g 0 2) (y.doneTime off) (y.doneAfter off))
    else if b.inv then s.setGroup gid (fun g => g.endWait false none 0 [])
    else s.setGroup gid (fun g => { g with park := some (.barrier off q) })

/-! ## Halt and traps (R393 to R405) -/

/-- What a trap records (R394, R395). `next` is the length added to TPC by SOFTWARE and BREAKPOINT. -/
structure TrapInfo where
  code : Nat
  addr : Dword
  info : Dword
  done : Option Mask
  defer : Bool
  next : Nat
  deriving DecidableEq, Repr

/-- A precise trap with no address (R395). -/
def trapP (code : Nat) : TrapInfo := { code := code, addr := 0, info := 0, done := none, defer := false, next := 0 }
/-- A precise trap with TADDR and TINFO. -/
def trapPA (code : Nat) (addr info : Dword) : TrapInfo :=
  { code := code, addr := addr, info := info, done := none, defer := false, next := 0 }

/-- Restart policy of a terminated team (R287). -/
def State.applyRestart (s : State) (o : Origin) : State :=
  match o with
  | .stage graph st =>
    (match (Assoc.get s.stages st).map Stage.restart with
     | some 1 => { s with stages := Assoc.upd s.stages st (fun x => { x with stopped := true }) }
     | some 2 => { s with graphs := Assoc.upd s.graphs graph (fun x => { x with stopped := true }) }
     | _ => s)
  | .grid d e =>
    (match Assoc.get (s.die d).grids e with
     | none => s
     | some g =>
       let s := s.setDie d (fun x => { x with grids := Assoc.upd x.grids e (fun g =>
         { g with broken := true, launched := if g.restart = 0 then g.launched else g.teams }) })
       if g.restart = 2 then { s with graphs := Assoc.upd s.graphs g.graph (fun x => { x with stopped := true }) } else s)

/-- The tickets that are pending are dropped without a delivery (R310). -/
def dropTickets (g : Group) : Group :=
  let g' := (g.tickets.filter (fun p => decide (p.2.status = 0))).foldl (fun (g : Group) p => g.finish p.2.op) g
  { g' with tickets := g.tickets.map (fun (p : Nat × Ticket) => if p.2.status = 0 then (p.1, { p.2 with status := 3 }) else p) }

/-- The requester slots of a group's tickets leave the pending-interest tables; an entry without slots is freed (R299). -/
def State.dropInterests (s : State) (gid : Nat) : State :=
  { s with dies := s.dies.map (fun d => { d with pit := d.pit.filterMap (fun p =>
      let keep := p.2.slots.filter (fun x => match x.2.1 with | .ticket g _ => decide (g ≠ gid) | _ => true)
      if keep = [] ∧ p.2.slots ≠ [] then none else some (p.1, { p.2 with slots := keep })) }) }

/-- The reply of a queue operation is on its way. -/
def State.replyDue (s : State) (op : Nat) : Bool :=
  s.agenda.any (fun d => match d.ev with | .queueReply (.deq _ o _ _ _ _ _) => decide (o = op) | _ => false)

/-- The group's waiting dequeue is withdrawn, having taken nothing (R287). -/
def State.withdraw (s : State) (gid : Nat) : State :=
  match (s.group gid).bind (fun g => g.park) with
  | some (.dequeue op) =>
    if s.replyDue op then s
    else
      let s := { s with queues := s.queues.map (fun (p : Nat × Queue) =>
                          (p.1, { p.2 with waiting := p.2.waiting.filter (fun r => decide (r.op ≠ op)) })),
                        agenda := s.agenda.filter (fun d => match d.ev with
                          | .queueDequeueStep r => decide (r.op ≠ op) | _ => true) }
      s.setGroup gid (fun g => { g.finish op with park := none })
  | _ => s

/-- A group of a halted team stops at its next instruction, or at its wait, having issued `n` in its skid (R397). -/
def Group.stopAt (g : Group) (n : Nat) : Group :=
  { g with stop := .stopped, trap := { g.trap with tpc := g.pc, orig := false, count := n } }

/-- A group is parked at a wait of R24, and a halt stops it at once: not inside an instruction that an engine must end first, nor
at a dequeue whose reply is on its way (R397; DEDUCED, log entry 90). -/
def State.atWait (s : State) (g : Group) : Bool :=
  match g.park with
  | none => false
  | some (.engine _) => false
  | some (.access _) => false
  | some (.dequeue op) => !s.replyDue op
  | _ => true

/-- A group leaves its core's active set (R122): the register-cache entries that differ from the file are written back, and the
single-bit errors found then are corrected and counted (R125). Which of its erroneous words such entries hold is free. -/
def State.leaveActive (s : State) (gid : Nat) : State :=
  match s.group gid with
  | none => s
  | some g =>
    let soft := g.soft.filter (fun x => decide (x.kind = .vec))
    if soft = [] then s
    else
      let found := (soft.zipIdx.filter (fun p => Config.writtenBack (s.free + p.2))).map Prod.fst
      { s.setGroup gid (fun g => { g.countErrors found.length with soft := g.soft.filter (fun x => !found.contains x) }) with
        free := s.free + soft.length }

/-- The halt reaches a group that runs: one parked at a wait stops at once, a waiting dequeue withdrawn (R287, R397); any other
runs into its skid. -/
def State.haltGroup (s : State) (gid : Nat) (g : Group) : State :=
  let s := s.leaveActive gid
  if s.atWait g then (s.withdraw gid).setGroup gid (fun g => g.stopAt 0)
  else (s.setGroup gid (fun g => { g with stop := .skid 0, counts := (List.range 8).map g.counter })).post (.siblingHaltStop gid)

/-- A halt is broadcast to every other group of the team (R396, R397). -/
def State.broadcastHalt (s : State) (tid : Nat) (except : Option Nat) : State :=
  (s.teamGroups tid).foldl (fun s p =>
    if some p.1 = except then s
    else match p.2.stop with
      | .running => s.haltGroup p.1 p.2
      | _ => s) s

/-- The atomic lane that an event carries to its unit. -/
def atomIn : Event → Option AtomLane
  | .serviceWarpAtomic a => some a
  | .poolAtomic a => some a
  | _ => none

/-- The atomic lanes on their way to the units that perform them, in the order of the agenda. -/
def State.atoms (s : State) : List AtomLane := s.agenda.filterMap (fun d => atomIn d.ev)

/-- The atomics that come before a group's accesses and have not been performed: its own, and those of the group that
created it (R98, R106, R250). -/
def State.atomsBefore (s : State) (gid : Nat) : List Nat :=
  let after := ((s.group gid).map Group.after).getD []
  ((s.atoms.filter (fun a => decide (a.gid = gid) || after.contains a.op)).map AtomLane.op).eraseDups

/-- An atomic that comes before the group's accesses has not been performed. -/
def State.atomicDue (s : State) (gid : Nat) : Bool := !(s.atomsBefore gid).isEmpty

/-- An access of a team at a time comes before the addition that ends the team's grid (R105). -/
def State.gridOrders (s : State) (tid t : Nat) : State :=
  match (s.team tid).map Team.origin with
  | some (.grid d e) => s.setDie d (fun x => { x with grids := Assoc.upd x.grids e (fun y => { y with doneTime := Nat.max y.doneTime t }) })
  | _ => s

/-- What a group leaves behind when it leaves the machine is kept while atomics of it are in flight, or stores of it stand in combining
buffers, which take their times later (R240, R250). -/
def State.keeps (s : State) (gid : Nat) : Bool :=
  s.atoms.any (fun a => decide (a.gid = gid)) || s.cores.any (fun (p : Nat × Core) => p.2.combine.any (fun b => decide (b.gid = gid)))

/-- A thread's group, in the machine or gone, with atomics in flight or buffers left. -/
def State.thread (s : State) (gid : Nat) : Option Group :=
  match s.group gid with
  | some g => some g
  | none => Assoc.get s.left gid

/-- Nothing more is kept of a group that has left. -/
def State.forget (s : State) (gid : Nat) : State := if s.keeps gid then s else { s with left := Assoc.del s.left gid }

/-- A group leaves the machine: its context and blocks are freed, its extended blocks return to the reserve, Anvil
ownership passes on, its unfinished operations and its pending tickets stay with its team; with the team's last group
the pending tickets are dropped (R88, R100, R310). Its atomics in flight keep their order (R250); a held trap may have another
receiver now, or none (R400). -/
def State.removeGroup (s : State) (gid : Nat) : State :=
  match s.group gid with
  | none => s
  | some g =>
    -- the extended blocks it holds, and those drawn for its grant that waits for the compactor
    let ext := ((List.range 4).filter (fun i => decide (0 < i) && (Vector.at0 g.blocks i none).isSome)).length
      + ((s.core g.core).moving.filter (fun m => decide (m.gid = gid))).foldl (fun a m => a + blockCount m.want) 0
    let s := s.setCore g.core (fun c => { c with moving := c.moving.map (fun m => if m.gid = gid then { m with want := 0 } else m) })
    let home := ((s.team g.team).map Team.home).getD g.core
    let live := g.tickets.filter (fun p => decide (p.2.status = 0))
    let named := live.map (fun p => p.2.op)
    let last := decide ((s.teamGroups g.team).length ≤ 1)
    let gone := if last then gid :: ((s.team g.team).map (fun t => t.oldTickets.map Prod.fst)).getD [] else []
    let s := gone.foldl (fun s k => s.dropInterests k) s
    let s := s.setTeam g.team (fun t =>
      { t with reserves := Assoc.upd t.reserves (reserveKey g.core g.role) (fun r =>
                 { r with count := r.count + ext, line := r.line.filter (fun w => decide (w.gid ≠ gid)) }),
               orphans := t.orphans ++ g.unfinished.filter (fun o => !named.contains o),
               oldTickets := if last then [] else t.oldTickets ++ live.map (fun p => (gid, p.2)),
               pending := t.pending.filter (fun x => decide (x ≠ gid)) })
    let s := if 0 < ext then s.postOnceAt (s.clk + 1) (.xacqGrant g.team g.core g.role) else s
    let s := s.setCore home (fun c =>
      { c with owner := if c.owner = some gid then none else c.owner, line := c.line.filter (fun x => decide (x ≠ gid)) })
    let s := if (s.core home).owner = none ∧ (s.core home).line ≠ [] then s.postOnceAt (s.clk + 1) (.anvilOwnershipGrant home) else s
    let s := s.gridOrders g.team (Nat.max (Nat.max g.time g.ownTime)
      (g.paths.toList.flatten.foldl (fun a (p : PathOp) => Nat.max a p.tw) (g.batchTw.foldl (fun a (p : Nat × Nat) => Nat.max a p.2) 0)))
    let left := if s.keeps gid then Assoc.put s.left gid g else s.left
    let s := { s with groups := Assoc.del s.groups gid, left := left }
    let held : List Held := ((s.team g.team).map Team.held).getD []
    if held.isEmpty then s else s.postOnce (.deferredTrapDelivery g.team)

/-- A tile's words with one written; zero words are not listed. -/
def putWord (m : Assoc Word) (k : Nat) (w : Word) : Assoc Word := if w = 0 then Assoc.del m k else Assoc.put m k w

/-- The groups whose accesses wait for an engine's write look at their lines again (R261). -/
def State.wakeOwned (s : State) : State :=
  { s with groups := s.groups.map (fun (p : Nat × Group) =>
      match p.2.held, p.2.park with
      | some r, some (.access _) => if r.low = [] then p else (p.1, { p.2 with park := none })
      | some r, some .translation => if r.low = [] then p else (p.1, { p.2 with park := none })
      | some r, some .hearth => if r.low = [] then p else (p.1, { p.2 with park := none })
      | _, _ => p) }

/-- An engine operation no longer owns a line, which keeps its content (R261). -/
def State.disown (s : State) (op : Nat) (lines : List Nat) : State :=
  State.wakeOwned <| lines.foldl (fun s n => s.setLine n (fun l => { l with owners := l.owners.filter (fun w => decide (w.op ≠ op)) })) s

/-- The operations of a core's tile queue that have not started are looked at again (R172). -/
def State.startTiles (s : State) (core : Nat) : State :=
  ((s.core core).tileq.filter (fun o => !o.started)).foldl (fun s o => s.postOnce (.tileOpStart core o.id)) s

/-- A tile operation is discarded: it leaves the queue, the array, its pins and its lines, and counts as complete; the
rows it would have written in the tile hold free values (R190). An ACCRD lands nothing: the spec speaks of no register of a discarded
operation, and the model leaves its destinations as they were (DESIGN CHOICE, log entry 2). -/
def State.dropTile (s : State) (core : Nat) (o : TileOp) : State :=
  let s := s.setCore core (fun c => { c with tileq := c.tileq.filter (fun y => decide (y.id ≠ o.id)) })
  let junk := fun (m : Assoc Word) => o.live.lanes.foldl (fun m L =>
    (List.range 256).foldl (fun m c => putWord m (L * 256 + c) (Config.freeWord (s.free + L * 256 + c))) m) m
  let s := match o.kind with
    | .accrd _ _ => s
    | .accst _ _ _ => s
    | _ => { s.setTeam o.team (fun t => { t with tiles := Vector.put t.tiles o.tile (junk (Vector.at0 t.tiles o.tile [])) }) with
             free := s.free + 32768 }
  let s := s.disown o.id o.owned
  let s := s.setGroup o.gid (fun g => { g with pend := g.pend.filter (fun x => decide (x.op ≠ o.id)) })
  s.finishOp o.gid o.id

/-- R190's discard: the faulting operation `op` of a group and the group's later operations that have not started. -/
def State.discardTiles (s : State) (gid op : Nat) : State :=
  s.cores.foldl (fun s p =>
    let gone := p.2.tileq.filter (fun o => decide (o.gid = gid) && (decide (o.id = op) || (decide (op < o.id) && !o.started)))
    if gone = [] then s else (gone.foldl (fun s o => s.dropTile p.1 o) s).startTiles p.1) s

/-- A team is terminated: its groups stop, its pending interests are dropped, the host receives the report, and the
restart policy applies; it retires once its operations have ended (R400). -/
def State.terminate (s : State) (tid reason num code : Nat) (cause tpc addr info : Dword) : State :=
  match s.team tid with
  | none => s
  | some t =>
    if t.ended.isSome then s
    else
      let s := s.postEvent t.func 0x01 [(8, 4, t.id), (12, 1, num), (13, 1, reason), (14, 1, if reason = 1 then code else 0),
        (16, 8, cause.toNat), (24, 8, tpc.toNat), (32, 8, addr.toNat), (40, 8, info.toNat)]
      let s := (t.held.filter (fun h => decide (h.cat = 1))).foldl (fun s h => s.discardTiles h.gid h.op) s
      let s := s.setTeam tid (fun t => { t with ended := some reason, held := [], pending := [], halt := .none })
      let s := (s.teamGroups tid).foldl (fun s p => (((s.withdraw p.1).setGroup p.1 dropTickets).dropInterests p.1).removeGroup p.1) s
      let s := s.applyRestart t.origin
      s.post (.teamRetirement tid)

/-- The word of TCAUSE (Table 16.3). -/
def TrapRegs.tcause (r : TrapRegs) : Dword :=
  BitVec.ofNat 64 (r.code.toNat + 256 * b2n r.partialBit + 512 * b2n r.defer)

/-- The word of TSTATE (Table 16.3). -/
def TrapRegs.tstate (r : TrapRegs) (attach : Bool) : Dword :=
  BitVec.ofNat 64 (b2n r.inh + 2 * b2n r.inHandler + 4 * b2n attach + 256 * r.tmask.toNat + 65536 * r.hcount)

/-- A group's trap registers record a trap (R396 step 1, R394, R395). -/
def Group.record (g : Group) (x : TrapInfo) : Group :=
  { g with trap := { g.trap with
      code := BitVec.ofNat 8 x.code, partialBit := x.done.isSome, defer := x.defer, tpc := g.pc + BitVec.ofNat 56 x.next,
      taddr := x.addr, tinfo := x.info, tdone := x.done.getD g.trap.tdone } }

/-- A parked group that takes a trap: a barrier wait is armed, any other wait is left to its instruction, which issues
again (R209, R271, R287). A parked XACQ keeps its place and priority in the wait line while its own group's handler runs, even if the
handler changes TPC (R118, R120; DESIGN CHOICE, log entry 100). -/
def Group.unparkForTrap (g : Group) : Group :=
  match g.park with
  | some (.barrier off q) => { g with park := none, armed := some (off, q, g.pc.toNat) }
  | some .blocks => { g with park := none }
  | some .anvil => { g with park := none }
  | some (.monitor _) => { g with park := none }
  | some .translation => { g with park := none }
  | some .hearth => { g with park := none }
  | _ => g

/-- A group enters its handler (R396 steps 1 to 3), whose first instruction issues in a later cycle. With no handler its team is
terminated (R400), once the traps of this cycle are in, of which one of a lower group number comes first (R398; DEDUCED, log
entry 90); until then it is halted. -/
def State.enterHandler (s : State) (gid : Nat) : State :=
  match s.group gid with
  | none => s
  | some g =>
    if g.trap.tvec = 0 then
      let s := s.setGroup gid (fun g => { g.unparkForTrap with stop := .stopped, sleep := none })
      let s := s.setTeam g.team (fun t => { t with halt := .handler gid, preCount := 0 })
      (s.broadcastHalt g.team (some gid)).postAt (s.clk + 1) (.siblingHaltStop gid)
    else
      let s := { s with refused := s.refused.filter (fun p => decide (p.1 ≠ gid)) }
      let s := s.setGroup gid (fun g => { g.unparkForTrap with
        pc := g.trap.tvec, stop := .running, sleep := none, hreplay := none, skip := none, ready := s.clk + 1,
        skipAside := g.skip.map (fun m => (m, g.pc.toNat)),
        trap := { g.trap with orig := true, count := 0, inh := true, hcount := 0, first := g.trap.code } })
      let s := s.setTeam g.team (fun t => { t with halt := .handler gid, preCount := 0 })
      s.broadcastHalt g.team (some gid)

/-- A group's trap becomes pending: traps are ordered by the cycle in which they were raised, those of one cycle by group number
(R398). -/
def State.insertPending (s : State) (gid : Nat) (l : List Nat) : List Nat :=
  let key := fun (k : Nat) => ((s.group k).map (fun (g : Group) => (g.raised, g.num))).getD (0, 0)
  let before := fun (a b : Nat) => decide ((key a).1 < (key b).1 ∨ ((key a).1 = (key b).1 ∧ (key a).2 ≤ (key b).2))
  l.takeWhile (fun k => before k gid) ++ gid :: l.dropWhile (fun k => before k gid)

/-- A group that has recorded its trap stops as a sibling does, with its trap pending (R398). -/
def State.pend (s : State) (gid tid : Nat) : State :=
  let s := s.setGroup gid (fun g =>
    let n := match g.stop with | .skid n => n | _ => 0
    { g.unparkForTrap with stop := .stopped, trap := { g.trap with orig := false, count := n } })
  s.setTeam tid (fun t => { t with pending := s.insertPending gid t.pending })

/-- The group whose handler has started in this very cycle, by a trap of this cycle, and gives it up to a lower group number that
traps in the same cycle (R398). -/
def State.yields (s : State) (h : Halt) (g : Group) : Option Nat :=
  match h with
  | .handler k =>
    match s.group k with
    | some y => if y.raised = s.clk ∧ g.num < y.num then some k else none
    | none => none
  | _ => none

/-- A group gives up the handler that it has just entered: it stands where it trapped, and its trap is pending (R398). -/
def State.giveUp (s : State) (gid tid : Nat) : State :=
  (s.setGroup gid (fun g =>
    if g.trap.inh then
      { g with pc := g.trap.tpc, stop := .running, skip := g.skipAside.map Prod.fst, skipAside := none,
               trap := { g.trap with inh := false } }
    else { g with stop := .running })).pend gid tid

/-- TAKING A TRAP (R396 to R400). The group's trap registers record it. In its own handler it is a double fault, which
terminates the team. While a handler of the team runs, or a collector halts it, the trap stays pending and the group
stops; but of the groups that trap in one cycle the lowest number has the handler. Otherwise the group enters its handler
and the team halts. -/
def State.takeTrap (s : State) (gid : Nat) (x : TrapInfo) : State :=
  match s.group gid with
  | none => s
  | some g =>
    if g.trap.inh then
      s.terminate g.team 1 g.num g.trap.first.toNat 0x80 (g.pc.zeroExtend 64) g.trap.taddr g.trap.tinfo
    else
      let s := s.withdraw gid
      let s := s.setGroup gid (fun y => { y.record x with raised := s.clk })
      match (s.team g.team).map Team.halt with
      | some .none => s.enterHandler gid
      | some h =>
        (match s.yields h g with
         | some k => (s.giveUp k g.team).enterHandler gid
         | none => s.pend gid g.team)
      | none => s.pend gid g.team

/-- A collector is stopping or saving a team (R409). -/
def State.collecting (s : State) (tid : Nat) : Bool :=
  s.dies.toList.any (fun d => match d.serving with | some (r, _) => decide (r.team = tid) | none => false)

/-- The groups of a team that run stop where they stand: the halt of the team goes on (R398, R412). -/
def State.stopRunning (s : State) (tid : Nat) : State :=
  { s with groups := s.groups.map (fun (p : Nat × Group) =>
      if p.2.team = tid ∧ p.2.stop = .running then (p.1, p.2.stopAt 0) else p) }

/-- A team that a collector wants stays halted after its handler (R412). -/
def State.keepHalted (s : State) (tid : Nat) : State :=
  (s.setTeam tid (fun t => { t with halt := .preempt })).stopRunning tid

/-- The halt of a team is released: every group may issue again, and a sleep that the halt met ends (R101, R405). -/
def State.resumeTeam (s : State) (tid : Nat) : State :=
  let s := s.setTeam tid (fun t => { t with halt := .none })
  let waits := ((s.team tid).map Team.reserves).getD [] |>.filter (fun r => decide (r.2.line ≠ []))
  let s := waits.foldl (fun s r => s.postOnce (.xacqGrant tid (r.1 / 2) (if r.1 % 2 = 0 then .consumer else .producer))) s
  let s := if ((s.team tid).map (fun t => t.held)).getD [] = [] then s else s.postOnce (.deferredTrapDelivery tid)
  { s with groups := s.groups.map (fun (p : Nat × Group) =>
      if p.2.team = tid then
        (p.1, { p.2 with stop := .running, sleep := match p.2.stop with | .running => p.2.sleep | _ => none })
      else p) }

/-- The halt of a team ends, unless a collector wants the team (R405, R412). -/
def State.releaseHalt (s : State) (tid : Nat) : State := if s.collecting tid then s.keepHalted tid else s.resumeTeam tid

/-- The lowest-numbered living group of a team (R217). -/
def State.lowestGroup (s : State) (tid : Nat) : Option Nat :=
  ((s.teamGroups tid).foldl (fun (a : Option (Nat × Nat)) p =>
    match a with
    | some (_, n) => if p.2.num < n then some (p.1, p.2.num) else a
    | none => some (p.1, p.2.num)) none).map Prod.fst

/-- The group that receives a deferred trap: the issuing group, or the lowest-numbered living one (R217). -/
def State.receiver (s : State) (tid : Nat) (h : Held) : Option Nat :=
  if (s.group h.gid).isSome then some h.gid else s.lowestGroup tid

/-- A held trap may be delivered: its receiver lives and does not mask its category, and is not inside an instruction
that an engine must end first. -/
def State.deliverable (s : State) (tid : Nat) (h : Held) : Bool :=
  match (s.receiver tid h).bind s.group with
  | none => true
  | some g => !g.trap.tmask.getLsbD h.cat && (match g.park with
    | some (.engine _) => false
    | some (.access _) => false
    | some (.dequeue op) => !s.replyDue op
    | _ => true)

/-- The cause code of a category of deferred traps (Table 16.1). -/
def heldCode (cat : Nat) : Nat := [0x24, 0x1B, 0x36, 0x42, 0x22].getD cat 0x24

/-- The held trap of the earliest operation among those deliverable (R398). -/
def State.nextHeld (s : State) (tid : Nat) (l : List Held) : Option Held :=
  (l.filter (s.deliverable tid)).foldl (fun (a : Option Held) h =>
    match a with
    | some b => if h.op < b.op then some h else a
    | none => some h) none

/-- A deferred trap is delivered (R190, R217, R317, R395): TPC is the receiver's next instruction or its wait. With no living group
the report shows the trap and no group (R400; DESIGN CHOICE, log entry 91). -/
def State.deliverHeld (s : State) (tid : Nat) (h : Held) : State :=
  let s := s.setTeam tid (fun t => { t with held := t.held.filter (fun x => decide (x ≠ h)) })
  let s := if h.cat = 1 then s.discardTiles h.gid h.op else s
  match s.receiver tid h with
  | none => s.terminate tid 2 0 0 (BitVec.ofNat 64 (heldCode h.cat + 512)) 0 h.addr h.info
  | some gid => s.takeTrap gid { code := heldCode h.cat, addr := h.addr, info := h.info, done := none, defer := decide (h.cat < 4), next := 0 }

/-- An engine raises a deferred trap: it is held until its delivery (R398). -/
def State.raiseDeferred (s : State) (tid : Nat) (h : Held) : State :=
  match s.team tid with
  | none => s
  | some t =>
    if t.ended.isSome then (if h.cat = 1 then s.discardTiles h.gid h.op else s)
    else (s.setTeam tid (fun t => { t with held := t.held ++ [h] })).postOnce (.deferredTrapDelivery tid)

/-- After a handler's TRET: the team's next pending or deliverable held trap starts its handler, or the halt is
released (R398, R405). A collector's request keeps the team halted. -/
def State.afterHandler (s : State) (tid : Nat) : State :=
  match s.team tid with
  | none => s
  | some t =>
    match t.pending with
    | gid :: rest =>
      let s := (s.setTeam tid (fun t => { t with pending := rest, halt := .none })).stopRunning tid
      s.enterHandler gid
    | [] =>
      match s.nextHeld tid t.held with
      | some h => ((s.setTeam tid (fun t => { t with halt := .none })).stopRunning tid).deliverHeld tid h
      | none => s.releaseHalt tid

/-- RETURN FROM A HANDLER (R405): the status bits fall, the PC is TPC, a partial trap arms the replay of the lanes that
TDONE leaves 0, an armed barrier wait is resumed by its instruction, and the team goes on. -/
def State.trapReturn (s : State) (gid : Nat) : State :=
  match s.group gid with
  | none => s
  | some g =>
    -- a replay armed by an earlier TRET is still to come where the group goes on at its instruction
    let skip := if g.trap.partialBit then some g.trap.tdone
      else (g.skipAside.filter (fun p => decide (p.2 = g.trap.tpc.toNat))).map Prod.fst
    let s := s.setGroup gid (fun g =>
      { g with pc := g.trap.tpc,
               trap := { g.trap with inh := false, inHandler := false, hcount := 0, partialBit := false },
               skip := skip, skipAside := none, armed := none, hreplay := none })
    let s := match g.hreplay with | some r => s.finishOp gid r.op | none => s
    let s := match g.armed with
      | some (off, q, a) => if a = g.trap.tpc.toNat then s.waitOn gid g.team off q else s
      | none => s
    -- an instruction that ended in a lane trap and is not made again has finished (R243)
    let s := match g.replay with
      | some r =>
        if r.faulted && !(skip.isSome && decide (r.pc = g.trap.tpc.toNat)) then
          (s.setGroup gid (fun g => { g.land r.op with replay := none })).finishOp gid r.op
        else s
      | none => s
    s.afterHandler g.team

end Sys2Proof.Machine
end

