-- ==== Sys2Proof/Machine/Translate.lean ====
section
/-!
DEFINITION. Page tables, walks, TLBs and walk caches (R374 to R382), page
requests (R383, R384), the Hearth's marks and window (R237).
-/
namespace Sys2Proof.Machine
open Sys2Proof

/-! ## Page-table entries (Table 15.2) -/

def pteValid (e : Nat) : Bool := bit e 0
def pteLeaf (e : Nat) : Bool := bit e 1
def pteAddr (e : Nat) : Nat := bits e 51 13 * 8192
def ptePerm (e : Nat) : Perm := { rd := bit e 4, w := bit e 5, x := bit e 6, typ := bits e 3 2 }

/-- Page size of a leaf at a level, as a power of two (R376). -/
def pageLog (level : Nat) : Nat := 46 - 10 * level
/-- Table index of an address at a level (R376). -/
def tableIndex (level addr : Nat) : Nat := (addr >>> pageLog level) % 1024

/-- A valid entry is malformed at its level (R377). -/
def pteMalformed (level e : Nat) : Bool :=
  decide (bits e 59 52 ≠ 0) || decide (bits e 12 7 ≠ 0)
    || (if pteLeaf e then decide (level = 0) || decide (pteAddr e % 2 ^ pageLog level ≠ 0)
        else decide (level = 3) || decide (bits e 6 2 ≠ 0))

/-- The permissions that let every access through. -/
def Perm.full : Perm := { rd := true, w := true, x := true, typ := 0 }

/-- A leaf permits an access (R378). -/
def Perm.permits (p : Perm) (a : Acc) : Bool :=
  match a with
  | .read => p.rd
  | .write => p.w
  | .atomic => p.rd && p.w
  | .fetch => p.x

/-- The stronger of two memory types (R378). -/
def strongerType (a b : Nat) : Nat := Nat.max a b

/-! ## Walks (R379 to R381) -/

/-- What a walk has done: references made, entries for the walk caches, entries that fall out of them, what it read. -/
structure Walk where
  refs : Nat
  add : List WalkEntry
  drop : List Nat
  /-- Physical addresses of the entries read from memory, and granules of the addresses that stage 2 translated. -/
  reads : List Nat
  granules : List Nat
  deriving DecidableEq, Repr

/-- How reading a table entry ends. -/
inductive PteRead where
  | entry (e : Nat)
  /-- PAGE_FAULT subcause 4 or 5 (R379). -/
  | bad (sub : Nat)
  deriving DecidableEq, Repr

/-- A table entry read, from the walk caches as they stood when the walk began, or from its home slice (R379, R380). -/
def readPte (s : State) (wc : List WalkEntry) (fn stage level pa base : Nat) (w : Walk) : Walk × PteRead :=
  match wc.find? (fun e => decide (e.func = fn ∧ e.stage = stage ∧ e.level = level ∧ e.pa = pa)) with
  | some e => (w, .entry e.pte)
  | none =>
    match s.paKind pa with
    | .hearth => (w, .bad 4)
    | .none => (w, .bad 4)
    | _ =>
      if (s.regionOf pa).isSome then (w, .bad 4)
      else
        let w := { w with refs := w.refs + 1, reads := w.reads ++ [pa] }
        if (s.line (lineOf pa)).bad then (w, .bad 5)
        else
          let e := s.num pa 8
          let ok := pteValid e && !pteMalformed level e
          ({ w with add := if ok then w.add ++ [{ func := fn, stage := stage, level := level, pa := pa, pte := e, base := base }] else w.add },
           .entry e)

/-- How a stage-2 walk ends. -/
inductive S2Res where
  | ok (pa : Nat) (perm : Perm) (log : Nat)
  /-- A page request is due (R383), from this level; the size of the page known to lack the access, 64 KiB where none is. -/
  | miss (level log : Nat)
  /-- PAGE_FAULT subcause 4 or 5 at this level (R379). -/
  | bad (sub level : Nat)
  deriving DecidableEq, Repr

/-- A stage-2 walk from a level whose table stands at `tbl` (R376 to R378). `n` levels are left. -/
def walk2 (s : State) (wc : List WalkEntry) (fn ipa : Nat) (acc : Acc) : Nat → Nat → Walk → Walk × S2Res
  | 0, _, w => (w, .miss 3 16)
  | n + 1, tbl, w =>
    let level := 3 - n
    let ipa' := ipa % 2 ^ 52
    let pa := tbl + 8 * tableIndex level ipa'
    let (w, r) := readPte s wc fn 2 level pa (ipa' >>> pageLog level <<< pageLog level) w
    match r with
    | .bad sub => (w, .bad sub level)
    | .entry e =>
      if !pteValid e || pteMalformed level e then (w, .miss level 16)
      else if pteLeaf e then
        -- an atomic on a Hearth page faults whatever permissions the page holds (R266)
        if (ptePerm e).permits acc || (decide (acc = .atomic) && decide (s.paKind (pteAddr e + ipa' % 2 ^ pageLog level) = .hearth)) then
          (w, .ok (pteAddr e + ipa' % 2 ^ pageLog level) (ptePerm e) (pageLog level))
        else ({ w with add := w.add.filter (fun x => !decide (x.stage = 2 ∧ x.pa = pa)), drop := w.drop ++ [pa] }, .miss level (pageLog level))
      else walk2 s wc fn ipa acc n (pteAddr e) w

/-- The stage-2 step of a walk: the identity where the function has one stage. -/
def stage2 (s : State) (wc : List WalkEntry) (fn ipa : Nat) (acc : Acc) (w : Walk) : Walk × S2Res :=
  if (s.func fn).s2en then walk2 s wc fn ipa acc 4 (s.func fn).s2root { w with granules := w.granules ++ [ipa / 65536 * 65536] }
  else (w, .ok ipa Perm.full 52)

/-- How a translation ends before permissions and places are judged. -/
inductive WalkRes where
  /-- Physical address, permissions of both stages, IPA, size of the page. -/
  | ok (pa : Nat) (s1 s2 : Perm) (ipa log : Nat)
  /-- PAGE_FAULT: subcause, level, stage 2. -/
  | fault (sub level : Nat) (two : Bool)
  /-- PROTECTION of stage 1, met together with a stage-2 miss. -/
  | denied
  /-- A page request is due: granule, level, it holds a stage-1 table, the access, and the size of the page. -/
  | miss (granule level : Nat) (tbl : Bool) (acc : Acc) (log : Nat)
  deriving DecidableEq, Repr

/-- A stage-1 walk from a level whose table stands at `tbl` (R376 to R380). -/
def walk1 (s : State) (wc : List WalkEntry) (fn va : Nat) (acc : Acc) : Nat → Nat → Walk → Walk × WalkRes
  | 0, _, w => (w, .fault 1 3 false)
  | n + 1, tbl, w =>
    let level := 3 - n
    let (w, t) := stage2 s wc fn tbl .read w
    match t with
    | .miss l _ => (w, .miss (tbl / 65536 * 65536) l true .read 16)
    | .bad sub l => (w, .fault sub l true)
    | .ok tpa _ _ =>
      let pa := tpa + 8 * tableIndex level va
      let (w, r) := readPte s wc fn 1 level pa (va >>> pageLog level <<< pageLog level) w
      match r with
      | .bad sub => (w, .fault sub level false)
      | .entry e =>
        if !pteValid e then (w, .fault 0 level false)
        else if pteMalformed level e then (w, .fault 1 level false)
        else if pteLeaf e then
          let ipa := pteAddr e + va % 2 ^ pageLog level
          let (w, r2) := stage2 s wc fn ipa acc w
          match r2 with
          | .ok pa p2 log2 => (w, .ok pa (ptePerm e) p2 ipa (Nat.min (pageLog level) log2))
          | .bad sub l => (w, .fault sub l true)
          | .miss l log => (w, if (ptePerm e).permits acc then .miss (ipa / 65536 * 65536) l false acc (Nat.min (pageLog level) log) else .denied)
        else walk1 s wc fn va acc n (pteAddr e) w

/-! ## Translation of an access -/

/-- Who translates: the function, the core and die whose TLBs serve it, the group that XLATE_CNT counts for, the key
that waits for page requests, and the team whose Hearth mark is meant. -/
structure Xc where
  fn : Nat
  core : Nat
  gid : Nat
  waiter : Waiter
  team : Nat
  deriving DecidableEq, Repr

/-- How the translation of an access ends. -/
inductive XRes where
  | ok (pa typ : Nat)
  /-- A fault: cause and TINFO. -/
  | fault (code : Nat) (info : Dword)
  /-- The access waits for the page request of a granule, or for the Hearth's window. -/
  | wait (granule : Option Nat)
  deriving DecidableEq, Repr

/-- TINFO of a PAGE_FAULT (Table 15.4). -/
def pageInfo (sub level : Nat) (two : Bool) : Dword := BitVec.ofNat 64 (place sub 60 + place level 58 + place (b2n two) 57)
/-- TINFO of a PROTECTION (Table 15.5). -/
def protInfo (sub : Nat) : Dword := BitVec.ofNat 64 (place sub 60)
/-- Subcause of a PROTECTION by the access (Table 15.5). -/
def protSub (a : Acc) : Nat := match a with | .read => 0 | .write => 1 | .fetch => 3 | .atomic => 4

/-- The key a waiter is refused under. -/
def Waiter.key : Waiter → Nat
  | .group g => g
  | .engine o => o

/-- A page-request record (Table 15.6) written to the function's ring (R383). Its phase bit is 1 on the first pass (DESIGN CHOICE, log
entry 92). -/
def State.writeRecord (s : State) (d entry : Nat) (q : PageReq) : State :=
  let f := s.func q.func
  let n := 2 ^ (f.prqlog + 4)
  let reqid := q.gen * 2048 + d * 512 + entry
  let phase := b2n (decide ((f.prqSent / n) % 2 = 0))
  let x := b2n (decide (q.acc = .fetch))
  let w := b2n (decide (q.acc = .write ∨ q.acc = .atomic))
  let rd := b2n (decide (q.acc = .read ∨ q.acc = .atomic))
  let lo := phase + place (b2n q.tbl) 32 + place q.func 33 + place q.level 40 + place rd 42 + place w 43 + place x 44 + place reqid 48
  let s := s.setFunc q.func (fun f => { f with prqSent := f.prqSent + 1 })
  s.hostWrite (f.prqbase + 16 * (f.prqSent % n)) (natLe lo 8 ++ natLe q.granule 8)

/-- The function's ring has no room (R383). -/
def State.ringFull (s : State) (fn : Nat) : Bool :=
  let f := s.func fn
  decide ((f.prqSent + 2 ^ 32 - f.prqHead) % 2 ^ 32 = 2 ^ (f.prqlog + 4))

/-- A request takes a free entry and a ring slot, or none is free (R383). -/
def State.placeReq (s : State) (d : Nat) (q : PageReq) : Option State :=
  match Assoc.lowestFree (s.die d).preqs 0 512 with
  | none => none
  | some e =>
    if s.ringFull q.func then none
    else
      let gen := (Assoc.getD (s.die d).gens e 0 + 1) % 32
      let q := { q with gen := gen }
      let s := s.setDie d (fun x => { x with preqs := Assoc.put x.preqs e q, gens := Assoc.put x.gens e gen })
      some (s.writeRecord d e q)

/-- The held requests of a die take entries and ring slots as they find them, in the order in which they were held; a function
whose context has one stage sends none (R375, R383). -/
def State.releaseReqs (d : Nat) : List PageReq → State → State
  | [], s => s
  | q :: r, s =>
    match (if (s.func q.func).s2en then s.placeReq d q else none) with
    | some s => State.releaseReqs d r (s.setDie d (fun x => { x with heldReqs := x.heldReqs.erase q }))
    | none => State.releaseReqs d r s

/-- A page request of an access at a virtual address: it joins the one pending or held for its key, or takes an entry, after the
held ones that can, or is held (R383). -/
def State.pageRequest (s : State) (d : Nat) (c : Xc) (va granule level : Nat) (tbl : Bool) (acc : Acc) : State :=
  let isKey := fun (q : PageReq) => decide (q.func = c.fn ∧ q.granule = granule)
  let w := (c.waiter, va / 65536)
  let join := fun (q : PageReq) => if q.waiters.contains w then q else { q with waiters := q.waiters ++ [w] }
  if (s.die d).preqs.any (fun p => isKey p.2) then
    s.setDie d (fun x => { x with preqs := x.preqs.map (fun p => if isKey p.2 then (p.1, join p.2) else p) })
  else if (s.die d).heldReqs.any isKey then
    s.setDie d (fun x => { x with heldReqs := x.heldReqs.map (fun q => if isKey q then join q else q) })
  else
    let s := s.setGroup c.gid (fun g => { g with preq := satAdd g.preq 1 65535 })
    let q : PageReq := { func := c.fn, granule := granule, acc := acc, level := level, tbl := tbl, gen := 0, waiters := [w] }
    let s := State.releaseReqs d (s.die d).heldReqs s
    match s.placeReq d q with
    | some s => s
    | none => s.setDie d (fun x => { x with heldReqs := x.heldReqs ++ [q] })

/-- The TLB entry of a virtual address. -/
def Tlb.covers (e : Tlb) (fn va : Nat) : Bool := decide (e.func = fn) && decide (e.va >>> e.log = va >>> e.log)

/-- A Hearth read at translation: the team's mark is set, or the read waits for the window (R237). -/
def State.hearthGate (s : State) (c : Xc) (pa : Nat) : State × Bool :=
  let d := s.homeDie pa
  match s.team c.team with
  | none => (s, true)
  | some t =>
    if t.hearth.getLsbD d then (s, true)
    else if (s.die d).window = .opened then
      (s.setTeam c.team (fun t => { t with hearth := t.hearth ||| (1#4 <<< d) }), true)
    else (s, false)

/-- The address lies in a pool region in compute mode (R266, R363). -/
def State.computePool (s : State) (pa : Nat) : Bool :=
  match s.regionOf pa with
  | some (_, r) => !r.atomic
  | none => false

/-- A translated access judged: permissions of stage 1, the Hearth's, and the place of the address (R222, R244, R266,
R378). -/
def State.judge (s : State) (c : Xc) (acc : Acc) (pa : Nat) (s1 : Perm) (typ : Nat) : State × XRes :=
  let k := s.paKind pa
  if k = .hearth ∧ (acc = .write ∨ acc = .atomic) then (s, .fault 0x2A (protInfo 2))
  else if acc = .atomic ∧ k ≠ .none ∧ (typ ≠ 0 ∨ k = .host ∨ s.computePool pa) then (s, .fault 0x2C 0)
  else if !s1.permits acc then (s, .fault 0x2A (protInfo (protSub acc)))
  else if k = .none then (s, .fault 0x2B 0)
  else if k = .hearth then
    let (s, ok) := s.hearthGate c pa
    if ok then (s, .ok pa typ) else (s, .wait none)
  else (s, .ok pa typ)

/-- Entries kept of a list that holds at most `n`, newest first. -/
def keepNewest (n : Nat) (l : List α) : List α := l.take n

/-- The translation of an access (R374 to R384): TLBs, walk, page request, judgement. A refused request gives its
waiter PAGE_FAULT subcause 3 where it waited, before any other look (R384). -/
def State.translate (s : State) (c : Xc) (va : Dword) (acc : Acc) : State × XRes :=
  if va.toNat / 2 ^ 56 ≠ 0 then (s, .fault 0x29 (pageInfo 2 0 false))
  else if s.refused.contains (c.waiter.key, va.toNat / 65536) then
    ({ s with refused := s.refused.erase (c.waiter.key, va.toNat / 65536) }, .fault 0x29 (pageInfo 3 0 true))
  else
    let d := dieOfCore c.core
    let a := va.toNat
    let hit := match (s.core c.core).tlb.find? (fun e => e.covers c.fn a) with
      | some e => some e
      | none => (s.die d).tlb.find? (fun e => e.covers c.fn a)
    match hit.filter (fun e => e.s1.permits acc && e.s2.permits acc) with
    | some e => s.judge c acc (e.pa + a % 2 ^ e.log) e.s1 (strongerType e.s1.typ e.s2.typ)
    | none =>
      -- an entry that does not permit the access is dropped and the tables are walked afresh (R381)
      let s := s.setCore c.core (fun x => { x with tlb := x.tlb.filter (fun e => !e.covers c.fn a) })
      let s := s.setDie d (fun x => { x with tlb := x.tlb.filter (fun e => !e.covers c.fn a) })
      let wc := (s.die d).walkCache
      let (w, r) := walk1 s wc c.fn a acc 4 (s.func c.fn).s1root { refs := 0, add := [], drop := [], reads := [], granules := [] }
      let s := s.setGroup c.gid (fun g =>
        { g with refs := satAdd g.refs w.refs (2 ^ 24 - 1), walks := satAdd g.walks 1 (2 ^ 24 - 1) })
      let s := s.setDie d (fun x => { x with walkCache :=
        w.add.eraseDups ++ x.walkCache.filter (fun e => !(decide (e.stage = 2 ∧ e.func = c.fn) && w.drop.contains e.pa)) })
      let s := w.reads.foldl (fun s pa => (s.wantLine d ((c.core % 64) / 4) pa).poisonRead pa) s
      match r with
      | .fault sub level two => (s, .fault 0x29 (pageInfo sub level two))
      | .denied => (s, .fault 0x2A (protInfo (protSub acc)))
      | .miss granule level tbl acc' _ => (s.pageRequest d c a granule level tbl acc', .wait (some granule))
      | .ok pa s1 s2 ipa log =>
        let e : Tlb := { func := c.fn, va := a >>> log <<< log, pa := pa >>> log <<< log, ipa := ipa, log := log, s1 := s1, s2 := s2 }
        let s := s.setCore c.core (fun x => { x with tlb := keepNewest 128 (e :: x.tlb) })
        let s := s.setDie d (fun x => { x with tlb := keepNewest 8192 (e :: x.tlb) })
        s.judge c acc pa s1 (strongerType s1.typ s2.typ)

/-- The size, as a power of two, of the page that an address lies in, as far as its walk finds one (R376, R434): 64 KiB where an
entry of stage 2 is missing, the reach of the stage-1 entry where that is. -/
def State.pageSize (s : State) (c : Xc) (va : Nat) (acc : Acc) : Nat :=
  match (walk1 s (s.die (dieOfCore c.core)).walkCache c.fn va acc 4 (s.func c.fn).s1root
      { refs := 0, add := [], drop := [], reads := [], granules := [] }).2 with
  | .ok _ _ _ _ log => log
  | .fault _ level false => pageLog level
  | .miss _ _ _ _ log => log
  | _ => 16

/-- The translation context of a group. -/
def State.groupXc (s : State) (gid : Nat) : Xc :=
  match s.group gid with
  | none => { fn := 0, core := 0, gid := gid, waiter := .group gid, team := 0 }
  | some g => { fn := ((s.team g.team).map Team.func).getD 0, core := g.core, gid := gid, waiter := .group gid, team := g.team }

/-- The translation context of an engine operation of a team (R375). -/
def State.engineXc (s : State) (tid gid op : Nat) : Xc :=
  { fn := ((s.team tid).map Team.func).getD 0, core := ((s.team tid).map Team.home).getD 0, gid := gid, waiter := .engine op, team := tid }

/-- The pages that a range of virtual addresses touches, in 64 KiB steps of its lines. -/
def vaLines (va n : Nat) : List Nat := (linesOf va n).map (fun m => m * 256)

end Sys2Proof.Machine
end

