-- ==== Sys2Proof/Machine/Issue.lean ====
section
/-!
DEFINITION. Issuing an instruction: what the group's registers offer it, the checks of R50, the readiness of R24, the
poison of R124, the handler's permissions of R399, and what every issue records. Fetching instruction words.
-/
namespace Sys2Proof.Machine
open Sys2Proof

/-- How an instruction's own execution ends. -/
inductive Done where
  /-- It completes, and the PC advances past it. -/
  | next (s : State)
  /-- It completes, and the PC is given. -/
  | jump (s : State) (pc : Va)
  /-- The PC stays: the group is parked, or has left the machine, or the PC has been set. -/
  | stay (s : State)
  /-- It raises a precise trap. -/
  | trap (s : State) (x : TrapInfo)
  /-- It cannot issue now (R24). -/
  | stall
  deriving DecidableEq, Repr

/-- What an instruction sees at its issue: the group and its registers, the key of its operation, the lanes it acts in,
its ORD prefix, the logical time the step asks for, and whether it goes on with a held done-mask (R243, R405). -/
structure Ix where
  gid : Nat
  op : Nat
  g : Group
  live : Mask
  pre : Option Prefix
  time : Option Nat
  code : Option Nat
  again : Bool
  deriving DecidableEq, Repr

/-- Words of a record by the rsize of a queue handle; the reserved code names no range (R281). -/
def handleWords (h : Dword) : Nat :=
  match h.toNat % 4 with
  | 0 => 16
  | 1 => 32
  | 2 => 64
  | _ => 0

/-- The state that lengthens an instruction's register ranges (R57, R281). -/
def useCtx (i : Instr) (g : Group) : UseCtx :=
  { planes := mrPlanes g.mr, etype := mrEtype g.mr,
    recWords := match i with
      | .qenq _ a _ => handleWords (g.sr a.toNat)
      | .qdeq _ a _ => handleWords (g.sr a.toNat)
      | _ => 16 }

/-- The held replay belongs to the word at the PC. -/
def Group.isAgain (g : Group) : Bool :=
  match g.held with
  | some r => decide (r.pc = g.pc.toNat)
  | none => false

/-- The lanes an instruction acts in: LIVE, or what a held done-mask leaves of the LIVE of its issue (R243, R405). -/
def Group.liveNow (g : Group) : Mask :=
  match g.held, g.isAgain with
  | some r, true => r.live &&& ~~~ (g.skip.getD r.done)
  | _, _ => g.live &&& ~~~ (g.skip.getD 0)

/-- A group as an instruction that goes on sees it: the registers that it reads and MR stand as at its issue (R38, R174, R385). -/
def Group.atIssue (g : Group) : Group :=
  match g.held, g.isAgain with
  | some r, true =>
    { g with s := r.regs.foldl (fun s p => Vector.put s p.1 p.2) g.s, v := r.vregs.foldl (fun v p => Vector.put v p.1 p.2) g.v, mr := r.mr }
  | _, _ => g

/-- The scalar and vector registers that an instruction reads, with their values. -/
def sourceRegs (c : UseCtx) (i : Instr) (g : Group) : List (Nat × Dword) × List (Nat × VReg) :=
  (uses c i).foldl (fun l u => match u with
    | .s r n true _ => (l.1 ++ (List.range n).map (fun j => (r.toNat + j, g.sr (r.toNat + j))), l.2)
    | .even r true _ => (l.1 ++ [(r.toNat, g.sr r.toNat), (r.toNat + 1, g.sr (r.toNat + 1))], l.2)
    | .v r n true _ => (l.1, l.2 ++ (List.range n).map (fun j => (r.toNat + j, g.vr (r.toNat + j))))
    | _ => l) ([], [])

/-- Every vector register that an instruction names lies in a block the group holds (R114). -/
def blocksHeld (c : UseCtx) (i : Instr) (g : Group) : Bool :=
  (uses c i).all (fun u => match u with
    | .v r n _ _ => (List.range n).all (fun j => g.holds (r.toNat + j))
    | _ => true)

/-- The instruction reads a place of the registers (R124). -/
def readsPos (c : UseCtx) (i : Instr) (g : Group) (x : RegPos) : Bool :=
  let op := opnum i
  match x.kind with
  | .vec =>
    (uses c i).any (fun u => match u with
      | .v r n true _ => decide (r.toNat ≤ x.reg) && decide (x.reg < r.toNat + n)
      | _ => false)
      && (match i with | .lrd _ _ b => decide ((g.sr b.toNat).toNat % 128 = x.lane) | _ => true)
  | .scalar =>
    (uses c i).any (fun u => match u with
      | .s r n true _ => decide (r.toNat ≤ x.reg) && decide (x.reg < r.toNat + n)
      | .even r true _ => decide (x.reg = r.toNat ∨ x.reg = r.toNat + 1)
      | _ => false)
  | .pred =>
    (uses c i).any (fun u => match u with
      | .p r true _ => decide (r.toNat = x.reg)
      | .brPred q _ _ _ => decide (q.toNat = x.reg)
      | _ => false)
      || (readsLive op && decide (mrGuard g.mr = x.reg))
  | .special =>
    if x.reg = 0 then readsLive op || decide (op = 0x004 ∨ op = 0x009 ∨ op = 0x083)
    else readsLive op || decide (op = 0x082)

/-- The instruction consumes a place that it reads: the value decides a result, an address or what it sends (R124).
In a vector register these are the lanes it acts in, but for the instructions that choose their source lanes. -/
def consumesPos (i : Instr) (g : Group) (live : Mask) (x : RegPos) : Bool :=
  match x.kind with
  | .vec =>
    let k := fun (b : Reg) => (g.sr b.toNat).toNat
    (match i with
     | .shfl _ a b => (decide (x.reg = b.toNat) && live.has x.lane)
         || (decide (x.reg = a.toNat) && live.lanes.any (fun L => decide (((g.vr b.toNat).lane L).toNat % 128 = x.lane)))
     | .shflup _ _ b => live.lanes.any (fun L => decide ((if k b ≤ L then L - k b else L) = x.lane))
     | .shfldn _ _ b => live.lanes.any (fun L => decide ((if L + k b ≤ 127 then L + k b else L) = x.lane))
     | .shflx _ _ b => live.lanes.any (fun L => decide (L ^^^ (k b % 128) = x.lane))
     | .lrd _ _ _ => true
     | .sel _ a b => (decide (x.reg = a.toNat) && (live &&& g.pr 0).has x.lane)
         || (decide (x.reg = b.toNat) && (live &&& ~~~ g.pr 0).has x.lane)
     | .mona _ _ => decide (live.first = some x.lane)
     -- an exclusive scan: the word of the highest live lane reaches no result
     | .scanx _ _ => live.has x.lane && decide (live.lanes.getLast? ≠ some x.lane)
     | _ => live.has x.lane)
  | .pred =>
    (match i with
     | .pcnt _ _ => decide (live ≠ 0) || decide (mrGuard g.mr = x.reg)
     | .pffs _ _ => decide (live ≠ 0) || decide (mrGuard g.mr = x.reg)
     | _ => true)
  | _ => true

/-- REGERR's code of a register file (Table 5.4). -/
def RegKind.code : RegKind → Nat
  | .vec => 0
  | .scalar => 1
  | .pred => 2
  | .special => 3

/-- Bits [15:0] of REGERR for a place (R124). -/
def RegPos.word (x : RegPos) : Nat := place x.kind.code 14 + place x.reg 7 + x.lane

/-- REGERR (Table 5.4). -/
def RegErr.word (r : RegErr) : Nat :=
  place (b2n r.valid) 63 + place r.ce 32 + place r.latent 16 + place r.kind 14 + place r.reg 7 + r.lane

/-- A poisoned place that is read without being consumed is recorded as latent, with an event (R124). -/
def State.recordLatent (s : State) (gid : Nat) (l : List RegPos) : State :=
  l.foldl (fun s x =>
    let s := s.setGroup gid (fun g =>
      { g with regerr := { g.regerr with valid := true, latent := satAdd g.regerr.latent 1 255, kind := x.kind.code, reg := x.reg, lane := x.lane } })
    match s.group gid with
    | none => s
    | some g =>
      let w := g.regerr.word
      match s.team g.team with
      | none => s
      | some t => (s.mcEvent 0x04 w).postEvent t.func 0x04 [(8, 1, 0), (12, 4, t.id), (16, 8, w)]) s

/-- The instruction waits for a register result (R24, R137). -/
def awaits (c : UseCtx) (i : Instr) (g : Group) : Bool :=
  g.pend.any (fun x =>
    match x.kind, i with
    | .vec, _ => readsPos c i g { kind := .vec, reg := x.reg, lane := (match i with | .lrd _ _ b => (g.sr b.toNat).toNat % 128 | _ => 0) }
    | k, _ => readsPos c i g { kind := k, reg := x.reg, lane := 0 })

/-- What the checks before an instruction's own execution find. -/
inductive Gate where
  | go
  | trap (x : TrapInfo)
  | stall
  deriving DecidableEq, Repr

/-- A path counter at 63 keeps an instruction from issuing (R219), and so it does in the skid where it did at the halt (R397). -/
def pathFull (i : Instr) (pre : Option Prefix) (g : Group) : Bool :=
  match pathOf (opnum i) ((pre.map Prefix.noret).getD false) with
  | some n => decide (63 ≤ g.counter n) || g.stoodAt [(n, 62)]
  | none => false

/-- The queue handle that gives an instruction its register range has not landed (R24, R281). -/
def handleDue (i : Instr) (g : Group) : Bool :=
  match i with
  | .qenq _ a _ => g.pendingReg .scalar a.toNat
  | .qdeq _ a _ => g.pendingReg .scalar a.toNat
  | _ => false

/-- The checks at issue: the handler's permission (R399), steps 3, 5 and 6 of R50, readiness (R24, R219), and poison
(R124). An instruction that goes on with a held done-mask has passed those that read registers. -/
def gate (i : Instr) (pre : Option Prefix) (g : Group) : Gate :=
  let c := useCtx i g.atIssue
  if !g.isAgain && handleDue i g then .stall
  else if g.trap.inh && !handlerMay (opnum i) then .trap (trapP 0x80)
  else if !fieldsLegal c i then .trap (trapP 0x02)
  else if g.isAgain then .go
  else if !acceptsEtype (opnum i) (mrSat g.mr) (mrEtype g.mr) then .trap (trapP 0x02)
  else if !blocksHeld c i g then .trap (trapP 0x10)
  else if awaits c i g || pathFull i pre g then .stall
  else
    match g.bad.find? (fun x => readsPos c i g x && consumesPos i g g.liveNow x) with
    | some x => .trap (trapPA 0x13 (BitVec.ofNat 64 x.word) 0)
    | none => .go

/-- Bytes of the instruction at the PC: an ORD pair is 8 (R46), form L is 8 (R29). -/
def issueBytes (i : Instr) (pre : Option Prefix) : Nat := if pre.isSome then 8 else instrBytes i

/-- What every issue records: a fresh key, the cycle, pipe and order of the issue (R25), the starvation count (R28);
a held replay of another word ends (R405). Of two groups that last issued in one cycle, in different pipes, the one whose
step came first counts as issued less recently: the spec gives no order between them (DESIGN CHOICE, log entry 75). -/
def State.stamp (s : State) (c : Cur) (g : Group) : State :=
  let s := { s with uid := s.uid + 1 }
  let s := s.setGroup c.gid (fun g => { g with last := some (s.clk, c.pipe), order := s.uid, starve := 0, skip := none, flushing := [] })
  let s := s.setCore g.core (fun x => { x with pipes := Vector.put x.pipes c.pipe (s.clk + 1) })
  match g.held with
  | some r =>
    if g.isAgain then s
    else (s.setGroup c.gid (fun g => (g.land r.op).setHeld none)).finishOp c.gid r.op
  | none => s

/-- An issued instruction counts in the skid (R397), in the handler's count, and in that of a pre-emption (R399, R412). -/
def State.counted (s : State) (gid : Nat) (g0 : Group) : State :=
  if g0.isAgain then s
  else
    let s := s.setGroup gid (fun g =>
      { g with stop := (match g0.stop, g.stop with
                 | .skid n, .skid _ => .skid (n + 1)
                 | _, x => x),
               trap := if g0.trap.inh && g.trap.inh then { g.trap with hcount := satAdd g.trap.hcount 1 4096 } else g.trap })
    if g0.trap.inh then
      let s := s.setTeam g0.team (fun t => { t with preCount := t.preCount + 1 })
      if ((s.team g0.team).map (fun t => t.preCount)).getD 0 = 4096 then s.postOnce (.handlerCountExpiry gid) else s
    else s

/-- TRET ends its handler, whose count it does not raise: the count of the handler that it may start begins at 0 (R399, R412). -/
def State.countedBut (s : State) (op gid : Nat) (g0 : Group) : State := if op = 0x701 then s else s.counted gid g0

/-- The step of an instruction that cannot issue now: the state says so, and nothing else changes. -/
def State.stalled (s : State) (c : Cur) : State := { s with cur := some { c with stalled := true } }

/-- What the instruction sees. -/
def ixOf (s : State) (c : Cur) (g : Group) : Ix :=
  { gid := c.gid, op := (match g.held, g.isAgain with | some r, true => r.op | _, _ => s.uid + 1), g := g.atIssue,
    live := g.liveNow, pre := c.pre, time := c.time, code := c.code, again := g.isAgain }

/-- The words it reads and does not consume are recorded as latent (R124). -/
def latentOf (i : Instr) (g : Group) : List RegPos :=
  if g.isAgain then []
  else g.bad.filter (fun x => readsPos (useCtx i g) i g x && !consumesPos i g g.liveNow x)

/-- A group that reads the result of a pool operation has its writes ordered before what follows (R366). -/
def Group.orderReads (g : Group) (i : Instr) : Group :=
  g.owed.foldl (fun (h : Group) (p : Nat × Nat) =>
    if readsPos (useCtx i g) i g { kind := .scalar, reg := p.1, lane := 0 } then
      { h.raiseH p.2 with owed := Assoc.del h.owed p.1 }
    else h) g

/-- The single-bit errors in the words that an instruction reads are corrected and counted (R123, R125). -/
def Group.correct (g : Group) (p : RegPos → Bool) : Group :=
  { g.countErrors (g.soft.filter p).length with soft := g.soft.filter (fun x => !p x) }

/-- The state in which an instruction's own execution starts. -/
def State.begun (s : State) (i : Instr) (c : Cur) (g : Group) : State :=
  ((s.stamp c g).setGroup c.gid (fun g => (g.orderReads i).correct (readsPos (useCtx i g) i g))).recordLatent c.gid (latentOf i g)

/-- An instruction that waits for its translation, or that has ended in a lane trap, holds itself with the registers that it reads
(R174, R385, R405). Only what the instruction itself holds is marked: after TRET the group holds what it held before its trap. -/
def Group.holding (g : Group) (i : Instr) (x : Ix) : Group :=
  match g.held with
  | none => g
  | some r =>
    if r.op ≠ x.op then g
    else
      let l := sourceRegs (useCtx i x.g) i x.g
      g.setHeld (some { r with instr := if r.faulted then none else some (i, x.pre), regs := l.1, vregs := l.2 })

/-- The state after an instruction that completes with the PC at `pc`. -/
def State.retired (s : State) (c : Cur) (g : Group) (pc : Va) : State :=
  (s.setGroup c.gid (fun g => { g with pc := pc })).counted c.gid g

/-- The instruction acts at once and comes after every access of its group (R286): the home slice takes a QSEAL once the group's
atomics have been performed (DEDUCED, log entry 9). Every other instruction that orders the group's atomics issues while they are in
flight, and what it orders takes their times when they are performed: FENCE (`Times.fenced`), arrivals (`Team.bafter`), SPAWN and
LNCH (`Group.after`), enqueues and NANN (`EnqReq.time`, `RegTile.time`). -/
def placedByTime (i : Instr) : Bool := decide (opnum i = 0x585)

/-- ISSUING AN INSTRUCTION: the checks of R50, then its own execution, then what every issue records. A trap is taken;
an instruction that cannot issue leaves the state as it is but for the mark that says so. -/
def issue (i : Instr) (s : State) (body : Ix → State → Done) : Host.Outcome State Fault Refusal :=
  match s.cur with
  | none => .fault .noIssuer
  | some c =>
    match s.group c.gid with
    | none => .fault .noIssuer
    | some g =>
      match (if placedByTime i && s.atomicDue c.gid then Gate.stall else gate i c.pre g) with
      | .stall => .next (s.stalled c)
      | .trap x => .next ((s.stamp c g).takeTrap c.gid x)
      | .go =>
        match body (ixOf s c g) (s.begun i c g) with
        | .stall => .next (s.stalled c)
        | .trap s' x => .next ((s'.setGroup c.gid (fun h => h.holding i (ixOf s c g))).takeTrap c.gid x)
        | .next s' => .next (s'.retired c g (g.pc + BitVec.ofNat 56 (issueBytes i c.pre)))
        | .jump s' pc => .next (s'.retired c g pc)
        | .stay s' => .next (((s'.setGroup c.gid (fun h => h.holding i (ixOf s c g))).leaveActive c.gid).countedBut (opnum i) c.gid g)

/-- A body that changes only the issuing group. -/
def Ix.upd (x : Ix) (s : State) (f : Group → Group) : Done := .next (s.setGroup x.gid f)

/-! ## Fetch (R29, R50 step 1, R265) -/

/-- How the fetch of a word ends. -/
inductive Fetch where
  | word (w : Word)
  | fault (x : TrapInfo)
  /-- The group is parked in a translation wait. -/
  | wait
  /-- The word lies in a Hearth bank in refresh: the group cannot issue now (R235). -/
  | busy
  deriving DecidableEq, Repr

/-- The physical address of a word at an address of the group, where its line is poisoned. -/
def State.fetchBad (s : State) (gid : Nat) (a : Va) : Option Nat :=
  match (s.translate (s.groupXc gid) (a.zeroExtend 64) .fetch).2 with
  | .ok pa _ => if (s.line (lineOf pa)).bad then some pa else none
  | _ => none

/-- An instruction word read through the group's translation, as of the time the step asks for, no older than the
group. A word of a poisoned line is a free value; a word in a Hearth bank in refresh waits (R235). -/
def State.fetchWord (s : State) (gid : Nat) (code : Option Nat) (a : Va) : State × Fetch :=
  let va : Dword := a.zeroExtend 64
  let (s, r) := s.translate (s.groupXc gid) va .fetch
  match r with
  | .fault c info => (s, .fault (trapPA c va info))
  | .wait n => (s.setGroup gid (fun g => { g with park := some (if n.isSome then .translation else .hearth) }), .wait)
  | .ok pa typ =>
    let core := ((s.group gid).map Group.core).getD 0
    -- a DV or SO page is held by no cache (R239)
    let s := if 2 ≤ typ then s.touch pa else s.wantLine (dieOfCore core) ((core % 64) / 4) pa
    if (s.bankWait pa).isSome then (s, .busy)
    else if (s.line (lineOf pa)).bad then ({ s with free := s.free + 1 }, .word s.drawWord)
    else
      let b := match code, s.group gid with
        | some t, some g => s.bytesAt pa 4 (Nat.max (Nat.max t g.born) (if s.paKind pa = .hearth then (s.line (lineOf pa)).topTime else 0))
        | _, _ => s.bytes pa 4
      (s, .word (BitVec.ofNat 32 (leNat b)))

end Sys2Proof.Machine
end

