-- ==== Sys2Proof/Machine/Scopes.lean ====
section
/-!
DEFINITION. Logical times of threads (R250 to R257, R262): Table 10.1, the times of a thread and of a whole group, the
instances of scopes (R15, R16), and what an access at a narrow scope is to the observers within it and outside it (R254).
-/
namespace Sys2Proof.Machine
open Sys2Proof

/-! ## Table 10.1 -/

/-- The times of a thread, or the greatest of all the group's threads (R262). -/
def Group.tmOf (g : Group) (w : Nat) : Times :=
  if w = whole then (List.range 128).foldl (fun a L => a.sup (g.tm L)) ⟨0, 0, 0, 0⟩ else g.tm w

/-- The times of a thread, or of every thread, changed. -/
def Group.updTm (g : Group) (w : Nat) (f : Times → Times) : Group :=
  if w = whole then { g with times := g.times.map f } else g.setTm w (f (g.tm w))

/-- Key of a thread's last time on a line. -/
def seenKey (w line : Nat) : Nat := w * 2 ^ 44 + line

/-- The greatest time a thread has taken on a line (R251). -/
def Group.seenOf (g : Group) (w line : Nat) : Nat :=
  if w = whole then (List.range 129).foldl (fun a L => Nat.max a (Assoc.getD g.seen (seenKey L line) 0)) 0
  else Nat.max (Assoc.getD g.seen (seenKey w line) 0) (Assoc.getD g.seen (seenKey whole line) 0)

/-- A thread has taken a time on a line. -/
def Group.sees (g : Group) (w line t : Nat) : Group :=
  { g with seen := Assoc.put g.seen (seenKey w line) (Nat.max (Assoc.getD g.seen (seenKey w line) 0) t) }

/-- What a load at a time leaves in a thread's times (R250, Table 10.1). -/
def Times.load (x : Times) (o : Order) (t : Nat) : Times :=
  { x with f := (match o with | .acquire => Nat.max x.f t | .sc => Nat.max x.f t | _ => x.f), h := Nat.max x.h t, l := Nat.max x.l t }

/-- What a store at a time leaves in a thread's times (R250, Table 10.1). -/
def Times.store (x : Times) (o : Order) (t : Nat) : Times :=
  { x with f := (match o with | .sc => Nat.max x.f t | _ => x.f), h := Nat.max x.h t }

/-- What an atomic at a time leaves in a thread's times; it returns a value unless noret (R250, Table 10.1). A noret
atomic leaves l as it is (DESIGN CHOICE, log entry 101). -/
def Times.atomic (x : Times) (o : Order) (noret : Bool) (t : Nat) : Times :=
  { x with f := (match o with | .acquire => Nat.max x.f t | .acqRel => Nat.max x.f t | .sc => Nat.max x.f t | _ => x.f),
           h := Nat.max x.h t, l := if noret then x.l else Nat.max x.l t }

/-- The least time that Table 10.1 lets a load take. -/
def Times.loadFloor (x : Times) (o : Order) : Nat := match o with | .sc => x.h | _ => x.f

/-- The time that Table 10.1 makes a store or an atomic exceed. -/
def Times.storeFloor (x : Times) (o : Order) : Nat :=
  match o with
  | .relaxed => Nat.max x.f (Nat.max x.s x.l)
  | .acquire => Nat.max x.f (Nat.max x.s x.l)
  | _ => x.h

/-- A FENCE of a thread (Table 10.1). -/
def Times.fence (x : Times) (o : Order) : Times :=
  match o with
  | .acquire => { x with f := Nat.max x.f x.l }
  | .release => { x with s := Nat.max x.s x.h }
  | .acqRel => { x with f := Nat.max x.f x.l, s := Nat.max x.s x.h }
  | .sc => { x with f := Nat.max x.f x.h, s := Nat.max x.s x.h }
  | .relaxed => x

/-- What an atomic performed at a time adds to a thread's times through a FENCE that came after it (R250). -/
def Times.fenced (x : Times) (o : Order) (noret : Bool) (t : Nat) : Times :=
  match o with
  | .acquire => if noret then x else { x with f := Nat.max x.f t }
  | .release => { x with s := Nat.max x.s t }
  | .acqRel => { x with f := if noret then x.f else Nat.max x.f t, s := Nat.max x.s t }
  | .sc => { x with f := Nat.max x.f t, s := Nat.max x.s t }
  | .relaxed => x

/-- The order of an instruction: its prefix's, or sc (R253). -/
def Ix.order (x : Ix) : Order := (x.pre.map Prefix.order).getD .sc

/-- The scope code of an instruction: its prefix's, or system (R253). -/
def Ix.scope (x : Ix) : Nat := (x.pre.map Prefix.scope).getD 9

/-! ## Instances of scopes (R15, R16, R255) -/

/-- What is listed for the instances that hold every agent of one. -/
def overTag (l : List (Inst × Nat)) (i : Inst) : Nat := topTag (l.filter (fun x => x.1.isPrefixOf i))

/-- The time of a write to the observers within an instance. -/
def Version.timeAt (v : Version) (i : Inst) : Nat := Nat.max v.time (overTag v.tags i)

/-- The instances to whose observers the accesses of a line differ from what all see. -/
def Line.insts (l : Line) : List Inst := (l.versions.flatMap (fun v => v.tags.map Prod.fst)) ++ l.rnear.map Prod.fst

/-- The times of a thread, or the greatest of the group's, to the observers within an instance. -/
def Group.tmAt (g : Group) (w : Nat) (i : Inst) : Times :=
  (g.near.filter (fun n => n.concerns w && n.inst.isPrefixOf i)).foldl
    (fun a n => a.sup n.times) (g.tmOf w)

/-- The instances that an access of a thread to a line concerns beside all observers: those its scope names, those the
thread's times already tell apart, and those the line's accesses do. -/
def viewsOf (g : Group) (w : Nat) (l : Line) (scope : Option Inst) : List Inst :=
  (scope.toList ++ ((g.near.filter (fun n => n.concerns w)).map Near.inst) ++ l.insts).eraseDups

/-- The order that an access has to the observers within an instance, or, with none, to all: its own within its scope,
relaxed outside it (R254). -/
def orderAt (o : Order) (scope : Option Inst) : Option Inst → Order
  | none => if scope = none then o else .relaxed
  | some i => if holdsInst scope i then o else .relaxed

/-- One thread's times to the observers within an instance replaced. -/
def Group.putNear (g : Group) (w : Nat) (i : Inst) (t : Times) : Group :=
  { g with near := g.near.filter (fun n => !decide (n.lane = w ∧ n.inst = i)) ++ [{ lane := w, inst := i, times := t }] }

/-- The times of a thread, or of every thread, to the observers within some instances changed; those of all observers
stand as they are. -/
def Group.updNear (g : Group) (w : Nat) (views : List Inst) (f : Inst → Times → Times) : Group :=
  let lanes := if w = whole then List.range 128 else [w]
  lanes.foldl (fun y L => views.foldl (fun y i => y.putNear L i (f i (g.tmAt L i))) y) g

/-- The write of a line that a load at a time reads last, and the one after it. -/
def versionAt (t : Nat) : List Version → Option Version × Option Version
  | [] => (none, none)
  | v :: r => if v.time ≤ t then (some v, none) else
    let (a, b) := versionAt t r
    (a, some (b.getD v))

/-- A load at a time would, to some observers, come after the write that follows. -/
def loadBlocked (l : Line) (floor : Inst → Nat) (views : List Inst) (t : Nat) : Bool :=
  match (versionAt t l.versions).2 with
  | none => false
  | some v => views.any (fun i => decide (v.timeAt i ≤ floor i))

/-- The least time from `t` on that a load may take toward every observer: `t`, or that of a later write. -/
def loadTime (l : Line) (floor : Inst → Nat) (views : List Inst) (t : Nat) : Nat :=
  ((t :: ((l.versions.map Version.time).filter (fun u => decide (t < u))).reverse).find? (fun u => !loadBlocked l floor views u)).getD
    (Nat.max t l.wtime)

/-- The time that a load has to the observers within an instance. -/
def loadTimeAt (l : Line) (floor : Inst → Nat) (t : Nat) (i : Inst) : Nat :=
  Nat.max (Nat.max t (floor i)) ((((versionAt t l.versions).1).map (fun v => v.timeAt i)).getD 0)

/-- The least time that a write at `t` may have to the observers within an instance: above what its order lets it exceed,
above every read and above the write before it. -/
def storeTimeAt (l : Line) (floor : Inst → Nat) (t : Nat) (i : Inst) : Nat :=
  let before := ((l.versions.filter (fun v => decide (v.time < t))).map (fun v => v.timeAt i)).foldl Nat.max 0
  Nat.max t (Nat.max (floor i) (Nat.max (overTag l.rnear i) before) + 1)

/-- A write at a time may stand before the later writes of its line toward every observer. -/
def storeFits (l : Line) (floor : Inst → Nat) (views : List Inst) (t : Nat) : Bool :=
  l.versions.all (fun v => decide (v.time < t) || views.all (fun i => decide (storeTimeAt l floor t i < v.timeAt i)))

/-- A line's greatest read times to the observers within some instances raised. -/
def Line.readAtViews (l : Line) (views : List Inst) (f : Inst → Nat) : Line :=
  { l with rnear := views.foldl (fun m i => m.filter (fun x => decide (x.1 ≠ i)) ++ [(i, Nat.max (overTag l.rnear i) (f i))]) l.rnear }

/-- The write of a time takes its times to the observers within some instances. -/
def Line.tagVersion (l : Line) (t : Nat) (tags : List (Inst × Nat)) : Line :=
  { l with versions := l.versions.map (fun v => if v.time = t then { v with tags := tags } else v) }

/-- A FENCE of the whole group at a scope: its update is made toward the observers within the scope, and toward all where
the scope is the system's (R254 to R256). It comes after the group's atomics that are still in flight, which take their times
later. -/
def State.fence (s : State) (gid : Nat) (o : Order) (scope : Nat) : State :=
  match s.group gid with
  | none => s
  | some g =>
    let nears := (List.range 128).foldl (fun y L =>
      let sc := s.instOf gid g L scope
      (viewsOf g L Line.fresh sc).foldl (fun y i =>
        if holdsInst sc i then y.putNear L i ((g.tmAt L i).fence o) else y) y) g
    let due := s.atoms.any (fun a => decide (a.gid = gid))
    let nears := if due then { nears with fences := nears.fences ++ [{ op := s.uid, order := o, scope := scope }] } else nears
    s.setGroup gid (fun _ => if (s.instOf gid g 0 scope).isNone then { nears with times := g.times.map (fun x => x.fence o) } else nears)

end Sys2Proof.Machine
end

