-- ==== Sys2Proof/Machine/Access.lean ====
section
/-!
DEFINITION. Accesses to global memory: the way to the memory system (R18, R223), the L1 (R197, R224, R225), loads and stores
performed at a logical time (R249, R254), combining buffers (R240, R257), DV and SO accesses (R258, R259), snapshot loads
(R260, R372), the lanes of one instruction through translation (R243, R385, R434), whole-group accesses (R242).
-/
namespace Sys2Proof.Machine
open Sys2Proof

/-! ## The memory system's part -/

/-- What the instruction reads at an address comes after its bank's refresh (R235). -/
def State.holdBank (s : State) (pa : Nat) : State :=
  match s.bankWait pa with
  | some t => { s with cur := s.cur.map (fun c => { c with bank := Nat.max c.bank t }) }
  | none => s

/-- An operation's completion, after every bank in refresh that it reads (R219, R235). -/
def State.postLand (s : State) (gid op : Nat) : State :=
  let t := (s.cur.map Cur.bank).getD 0
  if t = 0 then s.post (.registerResultLand gid op) else s.postRef t (.registerResultLand gid op)

/-! ## The banks of a slice (R227, R228) -/

/-- A set of the slice has a fill in flight. -/
def Slice.filling (x : Slice) (set : Nat) : Bool := x.misses.any (fun n => decide (setOf n = set))

/-- A bank of a slice. -/
def Slice.bank (x : Slice) (b : Nat) : Bank := Vector.at0 x.banks b { setWait := [], bypass := [] }
/-- A slice with a bank changed. -/
def Slice.setBank (x : Slice) (b : Nat) (f : Bank → Bank) : Slice := { x with banks := Vector.put x.banks b (f (x.bank b)) }

/-- A line is present in the slice. -/
def Slice.has (x : Slice) (line : Nat) : Bool := x.present.any (fun p => decide (p.1 = line))

/-- Requests of a set wait: for its fill, or for a way. -/
def Slice.waiting (x : Slice) (set : Nat) : Bool := (x.bank (set % 4)).setWait.any (fun r => decide (setOf r.line = set))

/-- The bank of a line can take a request now (R228). -/
def Slice.takes (x : Slice) (r : L2Req) : Bool :=
  let b := x.bank (bankOf r.line)
  if x.filling (setOf r.line) || x.waiting (setOf r.line) then decide (b.setWait.length < 16)
  else decide (b.bypass.length < 32) && (x.has r.line || decide (x.misses.length < 64))

/-- A line is on its way from its home slice, or from backing memory to it. -/
def State.lineDue (s : State) (n : Nat) : Bool :=
  let x := s.slice (s.homeSlice (n * 256))
  let b := x.bank (bankOf n)
  x.misses.contains n || (x.reqs ++ b.setWait ++ b.bypass).any (fun r => decide (r.line = n))
    || s.agenda.any (fun d => match d.ev with | .l2Request r => decide (r.line = n) | _ => false)

/-- A line of HBM4E, of an expander or of the host window that its home slice does not hold: it is still to come from what backs it, and with it an
error that it may have (R227, R233). -/
def State.lineToCome (s : State) (pa : Nat) : Bool :=
  decide (s.paKind pa = .hbm ∨ s.paKind pa = .cxl ∨ s.paKind pa = .host) && (s.regionOf pa).isNone && !(s.slice (s.homeSlice pa)).has (lineOf pa)

/-- A Hearth read sees the contents as they stand: they change only while no team may read them (R237, R264). -/
def State.hearthTime (s : State) (pa : Nat) : Nat := if s.paKind pa = .hearth then (s.line (lineOf pa)).topTime else 0

/-- An access to a line from a port of a die goes to what backs it: the home slice, the Hearth's bank or the pool unit (R223,
R234, R362). -/
def State.routeVia (s : State) (die own pa : Nat) (write : Bool) : State :=
  match s.paKind pa with
  | .hearth => s.postOnce (.hearthBankRead (s.homeDie pa) ((pa - hearthBase) % hearthDie))
  | .none => s
  | _ => if (s.regionOf pa).isSome then s.touch pa else s.ask (portVia die (s.homeDie pa) own) (lineOf pa) write

/-- A core's access to a line. -/
def State.route (s : State) (core pa : Nat) (write : Bool := false) : State :=
  s.routeVia (dieOfCore core) ((core % 64) / 4) pa write

/-- An access of a die's copy and collective engines (Table 1.5). -/
def State.routeEngine (s : State) (core pa : Nat) (write : Bool := false) : State :=
  s.routeVia (dieOfCore core) enginePort pa write

/-! ## The L1 (R197, R224, R225) -/

/-- Lines that a core's L1 holds: 1 MiB less 16 KiB for each scratch unit allotted (R197). -/
def State.l1Room (s : State) (core : Nat) : Nat := 4096 - 64 * (48 - s.freeScratch core)

/-- A line cache with a line the most recently used one and its lease no shorter than `t`, kept to a number of lines. -/
def leaseLine (room : Nat) (l : List Leased) (n t : Nat) : List Leased :=
  let old := (l.find? (fun x => decide (x.line = n))).map Leased.lease
  let l := l.filter (fun x => decide (x.line ≠ n)) ++ [{ line := n, lease := Nat.max t (old.getD 0) }]
  l.drop (l.length - room)

/-- A line cache serves a read at a time (R225). -/
def leased (l : List Leased) (n t : Nat) : Bool := l.any (fun x => decide (x.line = n) && decide (t ≤ x.lease))

/-- The L1 of a core takes a line with a lease, or uses it (R225). -/
def State.l1Fill (s : State) (core n t : Nat) : State := s.setCore core (fun c => { c with l1 := leaseLine (s.l1Room core) c.l1 n t })

/-- A line leaves the L1 of a core (R224, R261). -/
def State.l1Drop (s : State) (core n : Nat) : State :=
  s.setCore core (fun c => { c with l1 := c.l1.filter (fun x => decide (x.line ≠ n)) })

/-- An allotment of scratch has grown: the lines that its units take leave the L1 (R197). -/
def State.l1Evict (s : State) (core : Nat) : State :=
  s.setCore core (fun c => { c with l1 := c.l1.drop (c.l1.length - s.l1Room core) })

/-- The function of a group. -/
def State.fnOf (s : State) (gid : Nat) : Nat := ((s.teamOf gid).map Team.func).getD 0

/-! ## Combining buffers (R240, R257) -/

/-- Store operations that no combining buffer holds any more may finish. -/
def State.finishStores (s : State) (gid : Nat) (ops : List Nat) : State :=
  ops.foldl (fun s o => s.postOnce (.registerResultLand gid o)) s

/-- Written bytes of a line on their way from a port of a die to its home slice as a write-back (R230), or to its pool unit. -/
def State.writeBackVia (s : State) (die own line : Nat) (data : List (Nat × Byte)) : State :=
  if (s.regionOf (line * 256)).isSome then s.touch (line * 256)
  else
    let k := s.homeSlice (line * 256)
    let w : WriteBack := { line := line, port := portVia die (s.homeDie (line * 256)) own, data := data }
    (s.setSlice k (fun x => { x with wbs := x.wbs ++ [w] })).askGrant k true

/-- A core's write-back. -/
def State.writeBack (s : State) (core line : Nat) (data : List (Nat × Byte)) : State :=
  s.writeBackVia (dieOfCore core) ((core % 64) / 4) line data

/-- A buffer is flushed as one write-back at one time above h of every thread of its group (R240, R257). `raise` is what the
flush does to the group's times: nothing, raise h (R257), or come before every later access (R247). -/
def State.flushOne (s : State) (core : Nat) (b : Combine) (raise : Group → Nat → Group := fun g _ => g) : State :=
  let s := s.setCore core (fun c => { c with combine := c.combine.filter (fun x => decide (x ≠ b)) })
  let h := ((s.thread b.gid).map Group.time).getD 0
  let t := Nat.max (s.line b.line).nextTime (h + 1)
  let s := s.storeLine b.line t (b.data.map (fun (p : Nat × Byte) => ((b.line * 256 + p.1, p.2) : Host.Cell)))
  let s := (s.writeBack core b.line b.data).gridOrders b.team t
  let s := s.setGroup b.gid (fun g =>
    { raise (b.ops.foldl (fun g o => g.performedAt o t) g) t with wcTime := Nat.max g.wcTime t, ownTime := Nat.max g.ownTime t })
  let s := s.finishStores b.gid b.ops
  if (s.group b.gid).isSome then s else s.forget b.gid

/-- Every combining buffer of a group is flushed (R240, R246, R256). -/
def State.flushGroup (s : State) (gid : Nat) (raise : Group → Nat → Group := fun g _ => g) : State :=
  match s.group gid with
  | none => s
  | some g => ((s.core g.core).combine.filter (fun b => decide (b.gid = gid))).foldl (fun s b => s.flushOne g.core b raise) s

/-- A line on which a flush would wait for an engine's write (R261). -/
def State.flushBlocked (s : State) (gid : Nat) : Bool :=
  match s.group gid with
  | none => false
  | some g => (s.core g.core).combine.any (fun b => decide (b.gid = gid) && decide ((s.line b.line).owners ≠ []))

/-- A buffer that a store lane needs, and that a shortage or its full mask flushes, lies on a line that an engine owns: the lane waits
(R188, R261). -/
def State.combineBlocked (s : State) (core gid pa : Nat) (data : List Byte) : Bool :=
  let line := lineOf pa
  let bufs := (s.core core).combine
  let mine := bufs.find? (fun b => decide (b.gid = gid ∧ b.line = line))
  let filled := ((cellsAt (pa % 256) data).foldl (fun (m : Assoc Byte) (x : Host.Cell) => Assoc.put m x.1 x.2) ((mine.map Combine.data).getD [])).length
  (decide (filled = 256) && decide ((s.line line).owners ≠ []))
    || (mine.isNone && decide (16 ≤ bufs.length) && (bufs.head?).any (fun b => decide ((s.line b.line).owners ≠ [])))

/-- A store lane to a WC page writes into its group's buffer of the line (R240). -/
def State.combineStore (s : State) (core gid op pa : Nat) (data : List Byte) : State :=
  let line := lineOf pa
  let bufs := (s.core core).combine
  let has := bufs.any (fun b => decide (b.gid = gid ∧ b.line = line))
  let s := if has ∨ bufs.length < 16 then s
    else match bufs with
      | b :: _ => s.flushOne core b
      | [] => s
  let s := s.setCore core (fun c =>
    let l := if has then c.combine else c.combine ++ [{ gid := gid, team := ((s.group gid).map Group.team).getD 0, line := line, data := [], ops := [] }]
    { c with combine := l.map (fun b =>
        if b.gid = gid ∧ b.line = line then
          { b with data := (cellsAt (pa % 256) data).foldl (fun (m : Assoc Byte) (x : Host.Cell) => Assoc.put m x.1 x.2) b.data,
                   ops := if b.ops.contains op then b.ops else b.ops ++ [op] }
        else b) })
  match (s.core core).combine.find? (fun b => decide (b.gid = gid ∧ b.line = line ∧ b.data.length = 256)) with
  | some b => s.flushOne core b
  | none => s

/-- The group's own combined bytes over the bytes of memory (R240). -/
def State.forward (s : State) (core gid pa : Nat) (data : List Byte) : List Byte :=
  match (s.core core).combine.find? (fun b => decide (b.gid = gid ∧ b.line = lineOf pa)) with
  | none => data
  | some b => (cellsAt (pa % 256) data).map (fun (x : Host.Cell) => Assoc.getD b.data x.1 x.2)

/-- An instruction that orders every store its group has issued (R98, R106, R285, R286, R308): the group's combining buffers are flushed,
so that their stores have their times, and `k` is given a time at or above which no store of the group, nor any other access of it but
its atomics in flight, lies (DESIGN CHOICE, log entry 78). It cannot issue while a flush must wait for an engine's write (R261). -/
def Ix.release (x : Ix) (s : State) (k : State → Nat → Done) : Done :=
  if s.flushBlocked x.gid then .stall
  else
    let s := s.flushGroup x.gid
    k s (Nat.max x.g.time (((s.group x.gid).map Group.ownTime).getD 0))

/-! ## One lane's access -/

/-- How a lane's access ends: with a value and its poison mark; with a lane fault; it cannot be made yet, for what must come before
it; or it waits at the home slice for an engine that owns its line, whose write time it then exceeds (R261). -/
inductive LaneRes where
  | ok (val : Nat) (bad : Bool)
  | fault (code : Nat) (info : Dword)
  | wait
  | owned (tw : Nat)
  deriving DecidableEq, Repr

/-- The greatest write time that the engines which own a line have fixed. -/
def Line.ownedTo (l : Line) : Nat := l.owners.foldl (fun a o => Nat.max a o.tw) 0

/-- The write time that a lane's access exceeds because it has waited for the engine (R261). -/
def Ix.lowOf (x : Ix) (L : Nat) : Nat :=
  match x.g.held, x.again with
  | some r, true => Assoc.getD r.low L 0
  | _, _ => 0

/-- A lane that has passed translation: thread, address, physical address, memory type. -/
structure Target where
  lane : Nat
  va : Dword
  pa : Nat
  typ : Nat
  deriving DecidableEq, Repr

/-- An SO access acts as a fence before and after itself (R259). -/
def State.soFence (s : State) (gid : Nat) (typ : Nat) : State :=
  if typ = 3 then (s.flushGroup gid Group.raiseH).fence gid .sc 9 else s

/-- What an access asks of the times of the atomics before it (Table 10.1): a load of the sc order and a store of the release
and sc orders follow the thread's greatest time, any other load its floor, any other store its floors and its loads. -/
def followsAtom (store : Bool) (o : Order) (a : AtomLane) : Bool :=
  let raisesF := match a.order with | .acquire => true | .acqRel => true | .sc => true | _ => false
  match store, o with
  | _, .sc => true
  | true, .release => true
  | true, .acqRel => true
  | true, _ => raisesF || !a.noret
  | false, _ => raisesF

/-- A FENCE after an atomic puts it before the thread's later loads, or stores (Table 10.1). -/
def Fenced.follows (f : Fenced) (store : Bool) (a : AtomLane) : Bool :=
  decide (a.op < f.op) && (match f.order with
    | .sc => true
    | .acquire => !a.noret
    | .release => store
    | .acqRel => store || !a.noret
    | .relaxed => false)

/-- A thread's access must wait for an atomic before it that has not been performed: one of its own, or of the group that
created its group (R98, R106), whose time Table 10.1 puts before it, a FENCE between them included, or that addresses its line
(R251). -/
def State.afterAtoms (s : State) (x : Ix) (w line : Nat) (store : Bool) (o : Order := x.order) : Bool :=
  s.atoms.any (fun a => decide (a.op ≠ x.op) && (x.g.after.contains a.op
    || (decide (a.gid = x.gid) && (decide (w = whole) || decide (a.lane = w))
        && (followsAtom store o a || x.g.fences.any (fun f => f.follows store a) || decide (lineOf a.pa = line)))))

/-- A DV or SO access must wait for atomics before it that have not been performed: those of the group that created its group, those
that a FENCE of package scope or wider puts before it, and an SO access, as a fence itself, for every one of its group (R98, R256,
R258, R259). -/
def State.deviceAfter (s : State) (x : Ix) (typ : Nat) : Bool :=
  s.atoms.any (fun a => decide (a.op ≠ x.op) && (x.g.after.contains a.op
    || (decide (a.gid = x.gid) && (decide (typ = 3) || x.g.fences.any (fun f => decide (6 ≤ f.scope) && decide (a.op < f.op))))))

/-- A load lane's line comes from its home slice where that does not hold it: an uncorrectable error of its fill poisons the
lane's result (R233). -/
def State.awaitFill (s : State) (gid op lane pa : Nat) : State :=
  if !s.lineToCome pa then s
  else s.setGroup gid (fun g => { g with fills := g.fills ++ [{ op := op, lane := lane, line := lineOf pa }] })

/-- A load of a group bound to a snapshot, at the snapshot's id: it goes to the pool unit whatever the L1 holds, and changes none of
the thread's times (R260, R372). An SO page has its fences as well (R259). -/
def State.boundLoad (s : State) (x : Ix) (z id : Nat) (tg : Target) : State × LaneRes :=
  let n := lineOf tg.pa
  let l := s.line n
  if tg.typ = 3 ∧ s.flushBlocked x.gid then (s, .wait)
  else if l.owners ≠ [] then (s, .owned l.ownedTo)
  else
    let s := s.soFence x.gid tg.typ
    let s := (s.touch tg.pa).setLine n (fun l => { l with rtime := Nat.max l.rtime id })
    ((s.soFence x.gid tg.typ).poisonRead tg.pa, .ok (leNat (s.bytesAt tg.pa z id)) l.bad)

/-- A load of a DV or SO page (R239, R258, R259). -/
def State.deviceLoad (s : State) (x : Ix) (z : Nat) (tg : Target) : State × LaneRes :=
  let l := s.line (lineOf tg.pa)
  if s.deviceAfter x tg.typ ∨ (tg.typ = 3 ∧ s.flushBlocked x.gid) then (s, .wait)
  else if l.owners ≠ [] then (s, .owned l.ownedTo)
  else
    let s := s.soFence x.gid tg.typ
    let v := leNat (s.bytes tg.pa z)
    ((((s.soFence x.gid tg.typ).touch tg.pa).holdBank tg.pa).poisonRead tg.pa, .ok v l.bad)

/-- A thread has loaded from a line at a time, as of an order toward all observers and toward those of some instances (R250,
R254). -/
def State.tookLoad (s : State) (gid lane n t : Nat) (views : List Inst) (o : Option Inst → Order) (floor : Inst → Nat) : State :=
  let l := s.line n
  let s := s.setLine n (fun y => ({ y with rtime := Nat.max y.rtime t } : Line).readAtViews views (loadTimeAt l floor t))
  s.setGroup gid (fun g =>
    ((g.updNear lane views (fun i y => y.load (o (some i)) (loadTimeAt l floor t i))).updTm lane (fun y => y.load (o none) t)).sees
      lane n t)

/-- A load of an N or WC page at a time that Table 10.1 lets it take, toward every observer (R249 to R251, R254): the time
asked for, or that of the newest write. The L1 serves it where its lease reaches; else it goes to the source, where an engine
that owns the line is waited for, and the L1 takes the line with a lease to that time (R225, R261). -/
def State.timedLoad (s : State) (x : Ix) (z : Nat) (tg : Target) (g : Group) : State × LaneRes :=
  let core := x.g.core
  let n := lineOf tg.pa
  let l := s.line n
  let sc := s.instOf x.gid g tg.lane x.scope
  let views := viewsOf g tg.lane l sc
  let o := orderAt x.order sc
  let floor := fun (i : Inst) => (g.tmAt tg.lane i).loadFloor (o (some i))
  let low := Nat.max (Nat.max ((g.tmOf tg.lane).loadFloor (o none)) (g.seenOf tg.lane n)) (x.lowOf tg.lane)
  let t := loadTime l floor views (Nat.max (Nat.max low (s.hearthTime tg.pa)) (x.time.getD l.wtime))
  let hit := leased (s.core core).l1 n t
  if l.owners ≠ [] ∧ !hit then (s, .owned l.ownedTo)
  else
    let s := (if hit then s else ((s.route core tg.pa).holdBank tg.pa).awaitFill x.gid x.op tg.lane tg.pa).l1Fill core n t
    let s := s.tookLoad x.gid tg.lane n t views o floor
    (s.poisonRead tg.pa, .ok (leNat (s.forward core x.gid tg.pa (s.bytesAt tg.pa z t))) l.bad)

/-- A load of `z` bytes by a thread (R239, R241, R249, R260). -/
def State.loadLane (s : State) (x : Ix) (z _last : Nat) (tg : Target) : State × LaneRes :=
  match s.group x.gid with
  | none => (s, .wait)
  | some g =>
    if tg.typ < 2 ∧ s.afterAtoms x tg.lane (lineOf tg.pa) false then (s, .wait)
    else
      let bound := match g.snap, s.regionOf tg.pa with
        | some (id, r), some (r', rg) => if r = r' then some (id, rg.snaps.contains id) else none
        | _, _ => none
      match bound with
      | some (id, true) => s.boundLoad x z id tg
      | some (_, false) => (s, .fault 0x43 0)
      | none => if 2 ≤ tg.typ then s.deviceLoad x z tg else s.timedLoad x z tg g

/-- The least time a store of a thread may take on a line, above the last time its instruction took there; a pool line
takes its writes in order, above the ids of the open snapshots (R225, R249, R250, R251, R370). -/
def State.storeTime (s : State) (g : Group) (w pa : Nat) (o : Order) (asked : Option Nat) (last : Nat) : Nat :=
  let n := lineOf pa
  let l := s.line n
  let low := Nat.max (Nat.max ((g.tmOf w).storeFloor o) (g.seenOf w n)) (Nat.max l.rtime last)
  match s.regionOf pa with
  | some (_, r) => Nat.max (Nat.max (low + 1) l.nextTime) (r.snaps.foldl Nat.max 0 + 1)
  | none => l.freeTime (Nat.max (low + 1) (asked.getD l.nextTime)) (l.versions.length + 1)

/-- The time of a store or atomic toward all observers, and toward those within some instances (R254): the time above, or
one above every write of the line where some observers could not see it stand before the later ones. -/
def State.storeTimes (s : State) (gid : Nat) (g : Group) (w pa : Nat) (o : Order) (scope : Nat) (asked : Option Nat) (last : Nat) :
    Nat × List (Inst × Nat) :=
  let l := s.line (lineOf pa)
  let sc := s.instOf gid g w scope
  let views := viewsOf g w l sc
  let floor := fun (i : Inst) => (g.tmAt w i).storeFloor (orderAt o sc (some i))
  let t := s.storeTime g w pa (orderAt o sc none) asked last
  let t := if storeFits l floor views t then t else Nat.max t l.nextTime
  (t, views.map (fun i => (i, storeTimeAt l floor t i)))

/-- A store of bytes by a thread (R239, R241, R249, R254, R257, R258). `last` is the last time the instruction took on the
line; the answer's value is the time taken. -/
def State.storeLane (s : State) (x : Ix) (data : List Byte) (last : Nat) (tg : Target) : State × LaneRes :=
  let core := x.g.core
  let n := lineOf tg.pa
  match s.group x.gid with
  | none => (s, .wait)
  | some g =>
    let l := s.line n
    if tg.typ < 2 ∧ s.afterAtoms x tg.lane n true then (s, .wait)
    else if tg.typ = 1 then
      if s.combineBlocked core x.gid tg.pa data then (s, .wait)
      else ((s.combineStore core x.gid x.op tg.pa data).l1Drop core n, .ok 0 false)
    else if 2 ≤ tg.typ ∧ (s.deviceAfter x tg.typ ∨ (tg.typ = 3 ∧ s.flushBlocked x.gid)) then (s, .wait)
    else if l.owners ≠ [] then (s, .owned l.ownedTo)
    else if 2 ≤ tg.typ then
      let s := s.soFence x.gid tg.typ
      let t := (s.line n).nextTime
      let s := (s.storeLine n t (cellsAt tg.pa data)).setGroup x.gid (fun g => { g with ownTime := Nat.max g.ownTime t })
      ((s.soFence x.gid tg.typ).touch tg.pa, .ok 0 false)
    else
      let sc := s.instOf x.gid g tg.lane x.scope
      let (t, tags) := s.storeTimes x.gid g tg.lane tg.pa x.order x.scope x.time (Nat.max last (x.lowOf tg.lane))
      let s := s.storeLine n t (cellsAt tg.pa data) tags
      let s := s.setGroup x.gid (fun g =>
        (((g.updNear tg.lane (tags.map Prod.fst) (fun i y => y.store (orderAt x.order sc (some i)) (overTag tags i))).updTm tg.lane
          (fun y => y.store (orderAt x.order sc none) t)).sees tg.lane n t).performedAt x.op (Nat.max t (topTag tags)))
      ((s.route core tg.pa true).l1Drop core n, .ok t false)

/-! ## The lanes of one instruction (R243, R434) -/

/-- What translation has made of lanes: those that passed, faults, waits, and the answers that did not pass by page, as its address
and size, which the other lanes of the page share (R434). -/
structure Lanes where
  ok : List Target
  faults : List (Nat × Nat × Dword)
  waits : List (Nat × Option Nat)
  pages : List (Nat × Nat × XRes)
  deriving DecidableEq, Repr

/-- The lanes are translated in ascending order. -/
def State.translateLanes (s : State) (c : Xc) (acc : Acc) (l : List (Nat × Dword)) : State × Lanes :=
  l.foldl (fun (s, r) p =>
    let (s, a, new) := match r.pages.find? (fun q => decide (p.2.toNat >>> q.2.1 = q.1 >>> q.2.1)) with
      | some q => (s, q.2.2, [])
      | none =>
        let (s, a) := s.translate c p.2 acc
        (s, a, match a with | .ok _ _ => [] | _ => [(p.2.toNat, (if p.2.toNat / 2 ^ 56 ≠ 0 then 16 else s.pageSize c p.2.toNat acc), a)])
    match a with
    | .ok pa typ => (s, { r with ok := r.ok ++ [{ lane := p.1, va := p.2, pa := pa, typ := typ }] })
    | .fault code info => (s, { r with faults := r.faults ++ [(p.1, code, info)], pages := r.pages ++ new })
    | .wait n => (s, { r with waits := r.waits ++ [(p.1, n)], pages := r.pages ++ new }))
    (s, { ok := [], faults := [], waits := [], pages := [] })

/-- What a pass over lanes' accesses leaves: values with their poison marks, faults, lanes that an engine holds up with its write
time, and whether some lane cannot be made yet. -/
structure Pass where
  vals : List (Nat × Nat × Bool)
  faults : List (Nat × Nat × Dword)
  owned : List (Nat × Nat)
  wait : Bool
  deriving DecidableEq, Repr

/-- The lanes' accesses made, in ascending lane order. `lasts` holds, by line, the value the instruction's last lane there gave: for a store
its time, which the next lane's exceeds (R251). -/
def performLanes (perform : State → Nat → Target → State × LaneRes) :
    List Target → Assoc Nat → State → State × Pass
  | [], _, s => (s, { vals := [], faults := [], owned := [], wait := false })
  | tg :: r, lasts, s =>
    let (s, a) := perform s (Assoc.getD lasts (lineOf tg.pa) 0) tg
    let lasts := match a with | .ok v _ => Assoc.put lasts (lineOf tg.pa) v | _ => lasts
    let (s, p) := performLanes perform r lasts s
    match a with
    | .ok v b => (s, { p with vals := (tg.lane, v, b) :: p.vals })
    | .fault c i => (s, { p with faults := (tg.lane, c, i) :: p.faults })
    | .wait => (s, { p with wait := true })
    | .owned tw => (s, { p with owned := (tg.lane, tw) :: p.owned })

/-- The effective addresses of a vector access, formed at issue (R241). -/
def Ix.eas (x : Ix) (a b : Reg) : Vector Dword 128 :=
  match x.g.held, x.again with
  | some r, true => r.ea
  | _, _ => tab 128 (fun L => x.g.sr a.toNat + ((x.g.vr b.toNat).lane L).zeroExtend 64)

/-- The data registers of an access, captured at issue. -/
def Ix.captured (x : Ix) (rs : List Nat) : List VReg :=
  match x.g.held, x.again with
  | some r, true => r.data
  | _, _ => rs.map x.g.vr

/-- The MR of an access, captured at issue (R38). -/
def Ix.heldMr (x : Ix) : Word :=
  match x.g.held, x.again with
  | some r, true => r.mr
  | _, _ => x.g.mr

/-- The instruction's operation is counted on a path, unless it already is (R219). -/
def Ix.raise (x : Ix) (s : State) (path tw : Nat) : State :=
  if x.again then s else s.setGroup x.gid (fun g => g.raisePath path x.op tw)

/-- The mask of listed lanes. -/
def maskOf (l : List Nat) : Mask := Mask.of (fun L => l.contains L)

/-- Vector results that an operation has formed in some lanes: word `j` of each value goes to register `d + j` (R136). -/
def Group.results (g : Group) (op d n : Nat) (vals : List (Nat × Nat × Bool)) : Group :=
  let m := maskOf (vals.map Prod.fst)
  let bad := maskOf ((vals.filter (fun p => p.2.2)).map Prod.fst)
  if m = 0 then g
  else (List.range n).foldl (fun g j =>
    g.pendWith { op := op, kind := .vec, reg := d + j, lanes := m,
                 vec := some (tab 128 (fun L => match vals.find? (fun p => decide (p.1 = L)) with
                   | some p => BitVec.ofNat 32 (p.2.1 >>> (32 * j))
                   | none => 0)),
                 num := none, bad := bad }) g

/-- The end of a vector access's pass over its lanes: it waits on page requests, the Hearth's window or engines that own its lines,
or raises the lane trap of the lowest faulting lane, or is done (R243, R261, R385). -/
def Ix.settle (x : Ix) (s : State) (ea : Vector Dword 128) (data : List VReg) (live done : Mask)
    (faults : List (Nat × Nat × Dword)) (waits : List (Nat × Option Nat)) (owned : List (Nat × Nat) := []) : Done :=
  let r : Replay := { pc := x.g.pc.toNat, op := x.op, ea := ea, data := data, live := live, done := done, mr := x.heldMr,
                      faults := faults, waits := waits, faulted := decide (waits = [] ∧ owned = []), instr := none, regs := [], vregs := [],
                      low := owned }
  if waits ≠ [] ∨ owned ≠ [] then
    .stay (s.setGroup x.gid (fun g =>
      { g.setHeld (some r) with park := some (if waits.any (fun w => w.2.isSome) then .translation else if waits = [] then .access x.op else .hearth) }))
  else
    let s := s.postLand x.gid x.op
    match live.lanes.findSome? (fun L => faults.find? (fun f => decide (f.1 = L))) with
    | some f =>
      .trap (s.setGroup x.gid (fun g => g.setHeld (some { r with faults := [] })))
        { code := f.2.1, addr := Vector.at0 ea f.1 0, info := f.2.2, done := some done, defer := false, next := 0 }
    | none => .next (s.setGroup x.gid (fun g => g.setHeld none))

/-- A VECTOR ACCESS (R241, R243, R268): alignment, the lanes through translation, each lane's access, the results, the
waits and the lane trap. `n` registers from `d` receive the values where `n` is not 0. -/
def Ix.access (x : Ix) (s : State) (acc : Acc) (path z : Nat) (a b : Reg) (data : List VReg) (d n : Nat)
    (perform : State → Nat → Target → State × LaneRes) : Done :=
  let ea := x.eas a b
  let held := match x.g.held, x.again with | some r, true => some r | _, _ => none
  let live := (held.map Replay.live).getD x.live
  let done0 := match held with
    | some r => r.live &&& x.g.skip.getD r.done
    | none => 0
  match (if x.again then [] else x.live.lanes).find? (fun L => decide ((Vector.at0 ea L 0).toNat % z ≠ 0)) with
  | some L => .trap s (trapPA 0x28 (Vector.at0 ea L 0) 0)
  | none =>
    let s := x.raise s path 0
    let c := s.groupXc x.gid
    let faults0 := if x.g.skip.isSome then [] else (held.map Replay.faults).getD []
    let still := ((held.map Replay.waits).getD []).filter (fun w => w.2.isSome)
    let todo := x.live.lanes.filter (fun L =>
      !(faults0.any (fun f => decide (f.1 = L))) && !(still.any (fun w => decide (w.1 = L))))
    let (s, t) := s.translateLanes c acc (todo.map (fun L => (L, Vector.at0 ea L 0)))
    let (s, q) := performLanes perform t.ok [] s
    if q.wait then .stall
    else
      let s := s.setGroup x.gid (fun g => g.results x.op d n q.vals)
      x.settle s ea data live (done0 ||| maskOf (q.vals.map Prod.fst)) (faults0 ++ t.faults ++ q.faults) (still ++ t.waits) q.owned

/-! ## Whole-group accesses (R242, R262) -/

/-- A whole-group instruction waits, with what it holds, and issues again (R242). `kept` is what it has read once and keeps, `low` a
write time that its access exceeds. -/
def Ix.waitWhole (x : Ix) (s : State) (park : Park) (kept : List VReg) (low : List (Nat × Nat)) : Done :=
  let live := match x.g.held, x.again with | some r, true => r.live | _, _ => x.live
  let r : Replay := { pc := x.g.pc.toNat, op := x.op, ea := Vector.replicate 128 0, data := kept, live := live, done := 0,
                      mr := x.heldMr, faults := [], waits := [], faulted := false, instr := none, regs := [], vregs := [], low := low }
  .stay (s.setGroup x.gid (fun g => { g.setHeld (some r) with park := some park }))

/-- A whole-group instruction waits for its translation. -/
def Ix.parkWhole (x : Ix) (s : State) (granule : Option Nat) (kept : List VReg := []) : Done :=
  x.waitWhole s (if granule.isSome then .translation else .hearth) kept []

/-- A whole-group instruction that has gone through its waits. -/
def Ix.unheld (x : Ix) (s : State) : State :=
  if x.again then s.setGroup x.gid (fun g => g.setHeld none) else s

/-- A precise trap of a whole-group instruction; an operation already counted has ended (R242). -/
def Ix.fail (x : Ix) (s : State) (t : TrapInfo) : Done :=
  .trap (if x.again then (x.unheld s).finishOp x.gid x.op else s) t

/-- A WHOLE-GROUP LOAD OR STORE (R242). -/
def Ix.accessWhole (x : Ix) (s : State) (acc : Acc) (path z : Nat) (a b : Reg)
    (perform : State → Nat → Target → State × LaneRes) (result : Group → Nat → Bool → Group) : Done :=
  let ea := x.g.sr a.toNat + x.g.sr b.toNat
  if ea.toNat % z ≠ 0 then .trap s (trapPA 0x28 ea 0)
  else
    let (s, r) := s.translate (s.groupXc x.gid) ea acc
    match r with
    | .wait n => x.parkWhole (x.raise s path 0) n
    | .fault c i => x.fail s (trapPA c ea i)
    | .ok pa typ =>
      let s := x.raise s path 0
      let (s, a) := perform s 0 { lane := whole, va := ea, pa := pa, typ := typ }
      match a with
      | .wait => .stall
      | .owned tw => x.waitWhole s (.access x.op) [] [(whole, tw)]
      | .fault c i => x.fail s (trapPA c ea i)
      | .ok v bad =>
        .next ((x.unheld (s.setGroup x.gid (fun g => result g v bad))).postLand x.gid x.op)

/-- How a whole-group read of a descriptor ends. -/
inductive ReadRes where
  | ok (data : List Byte)
  | fault (code : Nat) (at_ info : Dword)
  | wait (granule : Option Nat)
  /-- It waits for the engine that owns a line, whose write time it then exceeds (R261). -/
  | owned (line tw : Nat)
  /-- It waits for a Hearth bank in refresh (R235). -/
  | busy
  deriving DecidableEq, Repr

/-- The number that stands for a line in what a whole-group instruction holds of its waits for owners. -/
def lowKey (line : Nat) : Nat := whole + 1 + line

/-- A core's read of a line of a page of a type: a DV or SO page's goes to its target, by no cache (R239). -/
def State.routeTyped (s : State) (core pa typ : Nat) : State := if 2 ≤ typ then s.touch pa else s.route core pa

/-- A whole-group read of a format block, a descriptor or a program: each line at one time not below the group time, and
no thread's times change (R262). An engine owner's line is read only when written, above its write time, which `low` gives by line
(R261), and a line of a Hearth bank in refresh when the window ends (R235); the group's own combined bytes are seen (R175, R240). A
poisoned line is read as it stands, with its event: the spec gives a descriptor's read no other effect of poison (R233; DESIGN
CHOICE, log entry 77). -/
def State.readLines (s : State) (c : Xc) (time : Nat) (low : Nat → Nat) (va : Dword) (n : Nat) : State × ReadRes :=
  (vaLines va.toNat n).foldl (fun (s, r) a =>
    match r with
    | .ok data =>
      let start := Nat.max a va.toNat
      let len := Nat.min (a + 256) (va.toNat + n) - start
      let (s, t) := s.translate c (BitVec.ofNat 64 start) .read
      (match t with
       | .fault code info => (s, .fault code (BitVec.ofNat 64 start) info)
       | .wait g => (s, .wait g)
       | .ok pa typ =>
         let l := s.line (lineOf pa)
         if l.owners ≠ [] then (s, .owned (lineOf pa) l.ownedTo)
         else if (s.bankWait pa).isSome then (s, .busy)
         else
           let t := Nat.max (Nat.max (Nat.max time (low (lineOf pa))) (s.hearthTime pa)) ((s.cur.bind Cur.time).getD l.topTime)
           let s := (s.routeTyped c.core pa typ).setLine (lineOf pa) (fun l => { l with rtime := Nat.max l.rtime t })
           (s.poisonRead pa, .ok (data ++ s.forward c.core c.gid pa (s.bytesAt pa len t))))
    | _ => (s, r)) (s, .ok [])

/-- The write times that a whole-group instruction exceeds on the lines it has waited for. -/
def Ix.lows (x : Ix) : List (Nat × Nat) := match x.g.held, x.again with | some r, true => r.low | _, _ => []

/-- A whole-group read at issue, at a time no less than `time`: its bytes, or how the instruction ends. -/
def Ix.readFrom (x : Ix) (s : State) (time : Nat) (va : Dword) (n : Nat) (k : State → List Byte → Done) : Done :=
  let (s, r) := s.readLines (s.groupXc x.gid) time (fun l => x.lowOf (lowKey l)) va n
  match r with
  | .ok data => k (x.unheld s) data
  | .fault c a i => x.fail s (trapPA c a i)
  | .wait g => x.waitWhole s (if g.isSome then .translation else .hearth) [] x.lows
  | .owned line tw => x.waitWhole s (.access x.op) [] (Assoc.put x.lows (lowKey line) tw)
  | .busy => .stall

/-- A whole-group read at issue (R262). -/
def Ix.read (x : Ix) (s : State) (va : Dword) (n : Nat) (k : State → List Byte → Done) : Done := x.readFrom s x.g.time va n k

end Sys2Proof.Machine
end

