-- ==== Sys2Proof/Machine/Numbers.lean ====
section
/-!
DEFINITION. Number formats and exact arithmetic (R59 to R69): element types, fitting, rounding of exact values to the
floating formats, plane-nested integers and quantisation. An exact value is a sign, a magnitude and a power of two.
-/
namespace Sys2Proof.Machine
open Sys2Proof

/-! ## Elements -/

/-- Width of an element of a type code (Table 3.1). -/
def elemWidth (t : Nat) : Nat := 32 / elemsPerLane t

/-- The type is signed (Table 3.1). -/
def elemSigned (t : Nat) : Bool := decide (t = 0 ∨ t = 5 ∨ t = 7)

/-- Element `k` of a lane word, as a number (R59). -/
def elem (t : Nat) (x : Word) (k : Nat) : Nat := (x.toNat >>> (elemWidth t * k)) % 2 ^ elemWidth t

/-- A number of `w` bits as a two's-complement integer. -/
def toSigned (w x : Nat) : Int := if 2 ^ (w - 1) ≤ x then (x : Int) - 2 ^ w else (x : Int)

/-- Element `k` as the integer its type makes it (06, element notation). -/
def elemVal (t : Nat) (x : Word) (k : Nat) : Int :=
  if elemSigned t then toSigned (elemWidth t) (elem t x k) else (elem t x k : Int)

/-- A lane word from its elements, element 0 in the low bits (R59); each element keeps its low bits. -/
def packElems (t : Nat) (f : Nat → Nat) : Word :=
  BitVec.ofNat 32 ((List.range (elemsPerLane t)).foldl
    (fun acc k => acc + (f k % 2 ^ elemWidth t) <<< (elemWidth t * k)) 0)

/-- The low `w` bits of an integer. -/
def lowBits (w : Nat) (x : Int) : Nat := (x % 2 ^ w).toNat

/-- Range of an integer element type (Table 3.1). -/
def elemMin (t : Nat) : Int := if elemSigned t then -2 ^ (elemWidth t - 1) else 0
def elemMax (t : Nat) : Int := if elemSigned t then 2 ^ (elemWidth t - 1) - 1 else 2 ^ elemWidth t - 1

/-- An integer clamped to a range. -/
def clampInt (lo hi x : Int) : Int := if x < lo then lo else if hi < x then hi else x

/-- The fitting of an exact integer to an element type (R64). -/
def fit (t : Nat) (sat : Bool) (x : Int) : Nat :=
  lowBits (elemWidth t) (if sat then clampInt (elemMin t) (elemMax t) x else x)

/-! ## Floating formats -/

/-- A floating format: widths of the exponent and of the fraction (Table 3.2). -/
structure Fp where
  ew : Nat
  fw : Nat
  deriving DecidableEq, Repr

/-- binary32, binary16 and bfloat16. -/
def Fp.f32 : Fp := ⟨8, 23⟩
def Fp.f16 : Fp := ⟨5, 10⟩
def Fp.bf16 : Fp := ⟨8, 7⟩

/-- The format of a floating element type code (Table 2.5). -/
def fpOf (t : Nat) : Fp := if t = 3 then .bf16 else if t = 4 then .f16 else .f32

/-- Exponent bias. -/
def Fp.bias (f : Fp) : Nat := 2 ^ (f.ew - 1) - 1
/-- The sign bit's weight. -/
def Fp.signBit (f : Fp) : Nat := 2 ^ (f.ew + f.fw)
/-- The exponent field of all ones, in place. -/
def Fp.expMask (f : Fp) : Nat := (2 ^ f.ew - 1) <<< f.fw
/-- The canonical NaN (Table 3.2). -/
def Fp.nan (f : Fp) : Nat := f.expMask + 2 ^ (f.fw - 1)
/-- An infinity. -/
def Fp.inf (f : Fp) (neg : Bool) : Nat := (if neg then f.signBit else 0) + f.expMask
/-- The largest finite value. -/
def Fp.maxFin (f : Fp) (neg : Bool) : Nat := (if neg then f.signBit else 0) + f.expMask - 1
/-- A zero. -/
def Fp.zero (f : Fp) (neg : Bool) : Nat := if neg then f.signBit else 0

/-- An exact value: (−1)^neg × m × 2^e. -/
structure Exact where
  neg : Bool
  m : Nat
  e : Int
  deriving DecidableEq, Repr

/-- What a floating element holds (R60, R61). -/
inductive FVal where
  | nan
  | inf (neg : Bool)
  | num (x : Exact)
  deriving DecidableEq, Repr

/-- Sign of an encoding. -/
def Fp.sign (f : Fp) (x : Nat) : Bool := x.testBit (f.ew + f.fw)
/-- Exponent field. -/
def Fp.expo (f : Fp) (x : Nat) : Nat := (x >>> f.fw) % 2 ^ f.ew
/-- Fraction field. -/
def Fp.frac (f : Fp) (x : Nat) : Nat := x % 2 ^ f.fw

/-- The value of an encoding. -/
def Fp.decode (f : Fp) (x : Nat) : FVal :=
  if f.expo x = 2 ^ f.ew - 1 then (if f.frac x = 0 then .inf (f.sign x) else .nan)
  else if f.expo x = 0 then .num ⟨f.sign x, f.frac x, 1 - (f.bias : Int) - f.fw⟩
  else .num ⟨f.sign x, 2 ^ f.fw + f.frac x, (f.expo x : Int) - f.bias - f.fw⟩

/-- The encoding is a NaN (R61). -/
def Fp.isNan (f : Fp) (x : Nat) : Bool := decide (f.decode x = .nan)

/-- The encoding is subnormal. -/
def Fp.isSub (f : Fp) (x : Nat) : Bool := decide (f.expo x = 0) && decide (f.frac x ≠ 0)

/-- R63's replacement of a subnormal by a zero of its sign. -/
def Fp.flush (f : Fp) (ftz : Bool) (x : Nat) : Nat := if ftz && f.isSub x then f.zero (f.sign x) else x

/-- A magnitude with `sh` low bits dropped: whether the mode rounds it up (Table 2.6). -/
def roundsUp (mode : Nat) (neg : Bool) (k rem sh : Nat) : Bool :=
  if rem = 0 then false
  else match mode with
    | 0 => decide (2 ^ sh < 2 * rem) || (decide (2 * rem = 2 ^ sh) && decide (k % 2 = 1))
    | 1 => false
    | 2 => neg
    | 3 => !neg
    | _ => decide (2 ^ sh ≤ 2 * rem)

/-- The result of overflow (Table 3.3). -/
def Fp.overflow (f : Fp) (mode : Nat) (neg : Bool) : Nat :=
  match mode with
  | 1 => f.maxFin neg
  | 2 => if neg then f.inf true else f.maxFin false
  | 3 => if neg then f.maxFin true else f.inf false
  | _ => f.inf neg

/-- The magnitude m × 2^e in units of 2^q, rounded by the mode. -/
def roundTo (mode : Nat) (x : Exact) (q : Int) : Nat :=
  if q ≤ x.e then x.m <<< (x.e - q).toNat
  else
    let sh := (q - x.e).toNat
    let k := x.m >>> sh
    if roundsUp mode x.neg k (x.m % 2 ^ sh) sh then k + 1 else k

/-- round(fmt, x, mode) for an exact non-zero x, or a zero that keeps its sign (R62). -/
def Fp.round (f : Fp) (mode : Nat) (x : Exact) : Nat :=
  if x.m = 0 then f.zero x.neg
  else
    let top : Int := x.e + Nat.log2 x.m
    let emin : Int := 1 - (f.bias : Int)
    let q : Int := (if top < emin then emin else top) - f.fw
    let k := roundTo mode x q
    let s := if x.neg then f.signBit else 0
    if k < 2 ^ f.fw then s + k
    else
      let up := decide (k = 2 ^ (f.fw + 1))
      let ex : Int := q + f.fw + (if up then 1 else 0)
      if (f.bias : Int) < ex then f.overflow mode x.neg
      else s + ((ex + f.bias).toNat <<< f.fw) + (if up then 0 else k - 2 ^ f.fw)

/-- round(integer, x, mode), with no bound on its size (R62). -/
def roundInt (mode : Nat) (x : Exact) : Int :=
  let k := roundTo mode x 0
  if x.neg then -(k : Int) else (k : Int)

/-- An integer as an exact value. -/
def Exact.ofInt (x : Int) : Exact := ⟨decide (x < 0), x.natAbs, 0⟩

/-- The signed magnitude at a common exponent. -/
def Exact.at (x : Exact) (e : Int) : Int :=
  let k : Int := (x.m <<< (x.e - e).toNat : Nat)
  if x.neg then -k else k

/-- The exact sum; a zero sum takes the sign of R62 under the mode. -/
def Exact.add (mode : Nat) (x y : Exact) : Exact :=
  if x.m = 0 ∧ y.m = 0 then ⟨if x.neg = y.neg then x.neg else decide (mode = 2), 0, 0⟩
  else if x.m = 0 then y
  else if y.m = 0 then x
  else
    let e := if x.e < y.e then x.e else y.e
    let t := x.at e + y.at e
    if t = 0 then ⟨decide (mode = 2), 0, 0⟩ else ⟨decide (t < 0), t.natAbs, e⟩

/-- The exact product. -/
def Exact.mul (x y : Exact) : Exact := ⟨x.neg != y.neg, x.m * y.m, x.e + y.e⟩

/-- The negation. -/
def Exact.negate (x : Exact) : Exact := { x with neg := !x.neg }

/-- x < y. -/
def Exact.lt (x y : Exact) : Bool :=
  let e := if x.e < y.e then x.e else y.e
  decide (x.at e < y.at e)

/-- x = y as values; the zeros are equal. -/
def Exact.eq (x y : Exact) : Bool :=
  let e := if x.e < y.e then x.e else y.e
  decide (x.at e = y.at e)

/-- A quotient a / b with `n` fraction bits and a sticky bit below them. -/
def stickyDiv (a b n : Nat) : Exact :=
  let q := (a <<< n) / b
  ⟨false, 2 * q + (if (a <<< n) % b = 0 then 0 else 1), -(n : Int) - 1⟩

/-- Integer square root, by bits from the top. -/
def isqrtAux : Nat → Nat → Nat → Nat
  | 0, _, r => r
  | k + 1, x, r => isqrtAux k x (if (r + 2 ^ k) * (r + 2 ^ k) ≤ x then r + 2 ^ k else r)

/-- Integer square root. -/
def isqrt (x : Nat) : Nat := isqrtAux (Nat.log2 x / 2 + 1) x 0

/-- The square root of a positive exact value, with enough bits and a sticky bit to round it correctly. -/
def Exact.sqrt (x : Exact) : Exact :=
  let e2 := x.e - 120
  let odd := e2 % 2 ≠ 0
  let m := x.m <<< (if odd then 121 else 120)
  let e := (if odd then e2 - 1 else e2) / 2
  let r := isqrt m
  ⟨false, 2 * r + (if r * r = m then 0 else 1), e - 1⟩

/-- The reciprocal of a non-zero exact value, with a sticky bit. -/
def Exact.recip (x : Exact) : Exact :=
  let q := stickyDiv 1 x.m (Nat.log2 x.m + 80)
  ⟨x.neg, q.m, q.e - x.e⟩

/-! ## Plane-nested integers (R66, R67) -/

/-- Bit j of Table 3.4: plane j of an 8-bit element is its bit 7 − j. -/
def planeBit (x : Nat) (j : Nat) : Bool := x.testBit (7 - j)

/-- An 8-bit two's-complement element. -/
def pni (x : Nat) : Int := toSigned 8 (x % 256)

/-- Twice the value of an element read at `k` planes: the half-unit value h (R67). `x` holds the element with the
planes from `k` on as zero or as they are. -/
def pniHalf (x k : Nat) : Int :=
  let t := pni ((x % 256) >>> (8 - k) <<< (8 - k))
  2 * t + (if k < 8 then 2 ^ (8 - k) else 0)

/-! ## Quantisation (R72) -/

/-- The smallest e with M / 2^e ≤ 127 for M = m × 2^x > 0. -/
def quantExp (m : Nat) (x : Int) : Int :=
  let n : Int := Nat.log2 m
  -- M lies from 2^(n+x) up; 127 = 1111111b takes seven bits
  let e := n + x - 6
  -- M / 2^e has 7 integer bits: it exceeds 127 when any bit below the top seven is set above 127
  if 127 * 2 ^ (e - x).toNat < m * 2 ^ (x - e).toNat then e + 1 else e

/-- Largest magnitude of a list of exact values, as a value. -/
def maxMag (xs : List Exact) : Exact :=
  xs.foldl (fun a x => if ({ a with neg := false } : Exact).lt { x with neg := false } then { x with neg := false }
    else a) ⟨false, 0, 0⟩

/-- The finite value of an f32 encoding, or zero. -/
def f32Exact (x : Nat) : Exact :=
  match Fp.f32.decode x with
  | .num v => v
  | _ => ⟨false, 0, 0⟩

/-- x / 2^e. -/
def Exact.scale (x : Exact) (e : Int) : Exact := { x with e := x.e - e }

/-- The result of quantising a block: elements, scale code, and the flags QCLIP, QUNDER, QSPEC as bits 2, 1, 0. -/
structure Quant where
  q : List Int
  c : Nat
  flags : Nat
  deriving DecidableEq, Repr

/-- Steps 3 and 4 of R72 on exact values. -/
def quantFinite (mode : Nat) (xs : List Exact) : Quant :=
  let M := maxMag xs
  if M.m = 0 then ⟨xs.map (fun _ => 0), 0, 0⟩
  else
    let e := quantExp M.m M.e
    if e < -126 then ⟨xs.map (fun _ => 0), 0, 2⟩
    else if 127 < e then ⟨xs.map (fun x => clampInt (-127) 127 (roundInt mode (x.scale 127))), 0xFE, 4⟩
    else ⟨xs.map (fun x => roundInt mode (x.scale e)), (e + 127).toNat, 0⟩

/-- The quantisation of a block of f32 encodings (R72). -/
def quantise (mode : Nat) (ftz : Bool) (xs : List Nat) : Quant :=
  if xs.any (fun x => decide (Fp.f32.expo x = 255)) then ⟨xs.map (fun _ => 0), 0xFF, 1⟩
  else quantFinite mode (xs.map (fun x => f32Exact (Fp.f32.flush ftz x)))

/-- The value of a PNI element of a block with scale code `c`, in half units `h`, rounded to f32 (R69, R156, R340). -/
def pniValue (mode : Nat) (h : Int) (c : Nat) : Nat :=
  if c = 0 then 0
  else if c = 0xFF then Fp.f32.nan
  else Fp.f32.round mode ⟨decide (h < 0), h.natAbs, (c : Int) - 127 - 1⟩

end Sys2Proof.Machine
end

