-- ==== Sys2Proof/Machine/Functions.lean ====
section
/-!
DEFINITION. The functions of Table 6.5 (R150, R151). FSQRT is rounded correctly; the others return the value that
`Config.funcValue` names where it lies within the bound of Table 6.5, and the nearest value to the exact result where it
does not (log entry 5). The exact result is known here to more than 75 bits, from series in fixed point, and lies on its true
side of every value of a format that stands a bound of Table 6.5 away from it.
-/
namespace Sys2Proof.Machine
open Sys2Proof

/-- Fraction bits of the fixed-point numbers below. -/
def fxBits : Nat := 200
/-- ln 2 and pi / 2, in fixed point with 200 and 512 fraction bits. -/
def fxLn2 : Nat := 0xb17217f7d1cf79abc9e3b39803f2f6af40f343267298b62d8a
def fxHalfPi : Nat := 0x1921fb54442d18469898cc51701b839a252049c1114cf98e804177d4c76273644a29410f31c6809bbdf2a33679a748636605614dbe4be286e9fc26adadaa3848b

/-- A fixed-point number as an exact value. -/
def fxExact (neg : Bool) (x : Nat) : Exact := ⟨neg, x, -(fxBits : Int)⟩

/-- A non-negative exact value in fixed point with `n` fraction bits, truncated. -/
def Exact.fx (x : Exact) (n : Nat) : Nat :=
  let s := x.e + n
  if 0 ≤ s then x.m <<< s.toNat else x.m >>> (-s).toNat

/-- The terms of e^y for a fixed-point y below 1, from the k-th on. -/
def fxExpTerms (y : Nat) : Nat → Nat → Nat → Nat
  | 0, _, _ => 0
  | n + 1, k, t => t + fxExpTerms y n (k + 1) (((t * y) >>> fxBits) / (k + 1))

/-- e^y in fixed point for a fixed-point y below 1. -/
def fxExp (y : Nat) : Nat := fxExpTerms y 60 0 (2 ^ fxBits)

/-- The terms z^k / k of the inverse hyperbolic tangent, k odd. -/
def fxAtanhTerms (z2 : Nat) : Nat → Nat → Nat → Nat
  | 0, _, _ => 0
  | n + 1, k, t => t / k + fxAtanhTerms z2 n (k + 2) ((t * z2) >>> fxBits)

/-- The alternating terms y^k / k! of a sine (k odd) or a cosine (k even): the sums of those added and subtracted. -/
def fxTrigTerms (y2 : Nat) : Nat → Nat → Nat → Nat × Nat
  | 0, _, _ => (0, 0)
  | n + 1, k, t =>
    let (a, b) := fxTrigTerms y2 n (k + 2) (((t * y2) >>> fxBits) / ((k + 1) * (k + 2)))
    (t + b, a)

/-- The sine and the cosine of a fixed-point angle from 0 to pi / 2. -/
def fxSin (y : Nat) : Nat := let p := fxTrigTerms ((y * y) >>> fxBits) 40 1 y; p.1 - p.2
def fxCos (y : Nat) : Nat := let p := fxTrigTerms ((y * y) >>> fxBits) 40 0 (2 ^ fxBits); p.1 - p.2

/-- A value just below x in magnitude: sin x and tanh x for a small x. -/
def Exact.justBelow (x : Exact) : Exact := ⟨x.neg, x.m <<< 100 - 1, x.e - 100⟩

/-- sin |x| for a quarter turn count added: 0 the sine, 1 the cosine, with exact reduction (R150). A cosine that fixed point
takes for 1 is just below it. -/
def exactTurn (x : Exact) (quarter : Nat) : Exact :=
  let t := ({ x with neg := false } : Exact).fx 512
  let q := (t / fxHalfPi + quarter) % 4
  let r := (t % fxHalfPi) >>> 312
  let v := if q % 2 = 0 then fxSin r else fxCos r
  if x.e + Nat.log2 x.m < -60 ∧ quarter = 0 then ({ x with neg := false } : Exact).justBelow
  else fxExact (decide (2 ≤ q)) (if v = 2 ^ fxBits then v - 1 else v)

/-- 2^x. -/
def exactExp2 (x : Exact) : Exact :=
  let n : Int := if 0 ≤ x.e then (if x.neg then -(x.m <<< x.e.toNat : Nat) else (x.m <<< x.e.toNat : Nat))
    else (if x.neg then -(x.m : Int) else (x.m : Int)) / 2 ^ (-x.e).toNat
  let f := (Exact.add 0 x (Exact.ofInt (-n))).fx fxBits
  ⟨false, fxExp ((f * fxLn2) >>> fxBits), n - fxBits⟩

/-- log2 x for a positive x that is no power of two. -/
def exactLog2 (x : Exact) : Exact :=
  let n := Nat.log2 x.m
  -- the mantissa lies from 1 to 2; above 1.5 it is halved
  let up := decide (3 <<< n ≤ 2 * x.m)
  let e : Int := x.e + n + (if up then 1 else 0)
  let one := if up then 2 <<< n else 1 <<< n
  let less := decide (x.m < one)
  let num := if less then one - x.m else x.m - one
  let z := (num <<< fxBits) / (x.m + one)
  let l := 2 * fxAtanhTerms ((z * z) >>> fxBits) 80 1 z
  let y := (l <<< fxBits) / fxLn2
  Exact.add 0 (Exact.ofInt e) (fxExact less y)

/-- tanh x for |x| below 10. -/
def exactTanh (x : Exact) : Exact :=
  if x.e + Nat.log2 x.m < -40 then x.justBelow
  else
    let y := 2 * ({ x with neg := false } : Exact).fx fxBits
    let n := y / fxLn2
    let e := fxExp (y % fxLn2) <<< n
    fxExact x.neg (((e - 2 ^ fxBits) <<< fxBits) / (e + 2 ^ fxBits))

/-- 1 / √x for a positive x. -/
def exactRsqrt (x : Exact) : Exact := (x.sqrt).recip

/-- The spacing of a format at a value, as a power of two, with the subnormal spacing below the smallest normal (R150). -/
def Fp.ulpExp (f : Fp) (v : Exact) : Int :=
  let top : Int := v.e + Nat.log2 v.m
  let emin : Int := 1 - (f.bias : Int)
  (if top < emin then emin else top) - f.fw

/-- The distance of two exact values is at most 2^e times `b`. -/
def near (x y : Exact) (b : Nat) (e : Int) : Bool :=
  let d := Exact.add 0 x y.negate
  !(Exact.lt ⟨false, b, e⟩ { d with neg := false })

/-- The result of a function at a finite input with exact result `v`: `free` where it is a finite value within the bound,
else the nearest; below the smallest subnormal a zero of v's sign, and an infinity where v overflows (R151). Between 1/2 and 1
the bf16 values lie 2^-8 apart, so that for many inputs none lies within the 2^-10 that Table 6.5 gives FSIN and FCOS: there
the model's result is the nearest bf16 value, outside the bound (DESIGN CHOICE, log entry 5). -/
def Fp.within (f : Fp) (v : Exact) (free b : Nat) (e : Int) : Nat :=
  if Exact.lt { v with neg := false } ⟨false, 1, 1 - (f.bias : Int) - f.fw⟩ then f.zero v.neg
  else if f.round 0 v = f.inf v.neg then f.inf v.neg
  else
    match f.decode (free % 2 ^ (f.ew + f.fw + 1)) with
    | .num c => if near c v b e then free % 2 ^ (f.ew + f.fw + 1) else f.round 0 v
    | _ => f.round 0 v

/-- The functions of Table 6.5 by number: FRCP 0, FRSQ 1, FEXP2 2, FLOG2 3, FSIN 4, FCOS 5, FTANH 6. FEXP2 at integers and FLOG2 at
exact powers of two are exact for bf16 and f16 too, where Table 6.5 states 1 ulp (DESIGN CHOICE, log entry 5). -/
def funcAt (fn t : Nat) (ftz : Bool) (x0 : Nat) : Nat :=
  let f := fpOf t
  let wide := decide (t = 2)
  let x := f.flush ftz x0
  let free := Config.funcValue fn t ftz x0
  let one := (2 ^ (f.ew - 1) - 1) <<< f.fw
  let r := match f.decode x with
    | .nan => f.nan
    | .inf neg =>
      (match fn with
       | 0 => f.zero neg
       | 1 => if neg then f.nan else f.zero false
       | 2 => if neg then f.zero false else f.inf false
       | 3 => if neg then f.nan else f.inf false
       | 6 => one + f.zero neg
       | _ => f.nan)
    | .num v =>
      if v.m = 0 then
        (match fn with
         | 0 => f.inf v.neg
         | 1 => f.inf v.neg
         | 2 => one
         | 3 => f.inf true
         | 5 => one
         | _ => f.zero v.neg)
      else
        (match fn with
         | 0 => let y := v.recip; if wide then f.within y free 1 (f.ulpExp y) else f.round 0 y
         | 1 => if v.neg then f.nan else (let y := exactRsqrt v; if wide then f.within y free 1 (f.ulpExp y) else f.round 0 y)
         | 2 =>
           if 10 ≤ v.e + Nat.log2 v.m then (if v.neg then f.zero false else f.inf false)
           else
             let y := exactExp2 v
             if y.m = 2 ^ fxBits then f.round 0 y else f.within y free (if wide then 2 else 1) (f.ulpExp y)
         | 3 =>
           if v.neg then f.nan
           else if v.m = 2 ^ Nat.log2 v.m then f.round 0 (Exact.ofInt (v.e + Nat.log2 v.m))
           else (let y := exactLog2 v; f.within y free (if wide then 2 else 1) (f.ulpExp y))
         | 4 => let y := exactTurn v 0; f.within { y with neg := y.neg != v.neg } free 1 (if wide then -22 else -10)
         | 5 => f.within (exactTurn v 1) free 1 (if wide then -22 else -10)
         | _ =>
           let big := if wide then ⟨false, 19, -1⟩ else ⟨false, 9, -1⟩
           if !(Exact.lt { v with neg := false } big) then one + f.zero v.neg
           else (let y := exactTanh v; f.within y free (if wide then 2 else 1) (f.ulpExp y)))
  f.flush ftz r

/-- FSQRT of an element (R150, R151). -/
def sqrtAt (t mode : Nat) (ftz : Bool) (x0 : Nat) : Nat :=
  let f := fpOf t
  f.flush ftz (match f.decode (f.flush ftz x0) with
    | .nan => f.nan
    | .inf neg => if neg then f.nan else f.inf false
    | .num v => if v.m = 0 then f.zero v.neg else if v.neg then f.nan else f.round mode v.sqrt)

end Sys2Proof.Machine
end

