-- ==== Sys2Proof/Machine/VecInt.lean ====
section
/-!
DEFINITION. Class 2: vector integer arithmetic, bit fields, selection and compares (R139 to R145).
-/
namespace Sys2Proof.Machine
open Sys2Proof

/-- A vector result written in the lanes the instruction acts in (R43). -/
def Ix.lanes (x : Ix) (s : State) (d : Reg) (f : Nat → Word) : Done := x.upd s (fun g => g.setV d.toNat x.live f)

/-- A predicate result written in the lanes the instruction acts in. -/
def Ix.preds (x : Ix) (s : State) (d : Reg) (f : Nat → Bool) : Done := x.upd s (fun g => g.setPLanes d.toNat x.live (Mask.of f))

/-- Lane `L` of a vector register as it stood at issue. -/
def Ix.vl (x : Ix) (r : Reg) (L : Nat) : Word := (x.g.vr r.toNat).lane L

/-- The element type, the rounding mode, and the saturation and flush bits of MR at issue (R38). -/
def Ix.et (x : Ix) : Nat := mrEtype x.g.mr
def Ix.rm (x : Ix) : Nat := mrRound x.g.mr
def Ix.sat (x : Ix) : Bool := mrSat x.g.mr
def Ix.ftz (x : Ix) : Bool := mrFtz x.g.mr

/-- An element-wise result formed exactly and fitted (R64, R140). -/
def Ix.arith (x : Ix) (s : State) (d a b : Reg) (f : Int → Int → Int → Int) : Done :=
  let t := x.et
  x.lanes s d (fun L => packElems t (fun k =>
    fit t x.sat (f (elemVal t (x.vl a L) k) (elemVal t (x.vl b L) k) (elemVal t (x.vl d L) k))))

/-- An element-wise result on bits, by element width: x from v[a], c from v[b], z from v[d]. -/
def Ix.bitwise (x : Ix) (s : State) (d a b : Reg) (f : Nat → Nat → Nat → Nat → Nat) : Done :=
  let t := x.et
  x.lanes s d (fun L => packElems t (fun k =>
    f (elemWidth t) (elem t (x.vl a L) k) (elem t (x.vl b L) k) (elem t (x.vl d L) k)))

/-- A compare that must hold for every element (R145). -/
def Ix.compare (x : Ix) (s : State) (d a b : Reg) (f : Int → Int → Bool) : Done :=
  let t := x.et
  x.preds s d (fun L => (List.range (elemsPerLane t)).all (fun k => f (elemVal t (x.vl a L) k) (elemVal t (x.vl b L) k)))

/-- The high half of an exact product: floor(p / 2^w) (R140). -/
def mulHigh (t : Nat) (p : Int) : Int := p / 2 ^ elemWidth t

/-- Shifts of a w-bit element by an unsigned count (R141). -/
def shiftLeft (w x c : Nat) : Nat := if w ≤ c then 0 else x <<< c
def shiftRight (_w x c : Nat) : Nat := if _w ≤ c then 0 else x >>> c
def shiftArith (w x c : Nat) : Nat := lowBits w (toSigned w x / 2 ^ (if w ≤ c then w else c))

/-- Leading zeros of a w-bit element, and its one bits (R142). -/
def leadingZeros (w x : Nat) : Nat := if x = 0 then w else w - 1 - Nat.log2 x
def oneBits (w x : Nat) : Nat := ((List.range w).filter (fun i => x.testBit i)).length

/-- Position and length of a bit field from a control element (R143). -/
def fieldPos (w c : Nat) : Nat := c % 2 ^ (w / 2)
def fieldLen (w c : Nat) : Nat := Nat.min (c / 2 ^ (w / 2) % 2 ^ (w / 2)) w

/-- BFX on one element (R143). -/
def bitExtract (signed : Bool) (w x c : Nat) : Nat :=
  let len := fieldLen w c
  let pos := fieldPos w c
  if len = 0 ∨ w ≤ pos then 0
  else
    let v : Int := if signed then toSigned w x else x
    let f := lowBits len (v / 2 ^ pos)
    if signed then lowBits w (toSigned len f) else f

/-- BINS on one element (R143). -/
def bitInsert (w x c z : Nat) : Nat :=
  let len := fieldLen w c
  let pos := fieldPos w c
  if len = 0 ∨ w ≤ pos then z
  else
    let m := ((2 ^ len - 1) <<< pos) % 2 ^ w
    (z &&& (2 ^ w - 1 - m)) ||| (((x <<< pos) % 2 ^ w) &&& m)

/-- ADD (R140). -/
def execAdd (d : Reg) (a : Reg) (b : Reg) (s : State) : Host.Outcome State Fault Refusal :=
  issue (.add d a b) s (fun x s => x.arith s d a b (fun u v _ => u + v))

/-- SUB (R140). -/
def execSub (d : Reg) (a : Reg) (b : Reg) (s : State) : Host.Outcome State Fault Refusal :=
  issue (.sub d a b) s (fun x s => x.arith s d a b (fun u v _ => u - v))

/-- MUL (R140). -/
def execMul (d : Reg) (a : Reg) (b : Reg) (s : State) : Host.Outcome State Fault Refusal :=
  issue (.mul d a b) s (fun x s => x.arith s d a b (fun u v _ => u * v))

/-- MULH (R140). -/
def execMulh (d : Reg) (a : Reg) (b : Reg) (s : State) : Host.Outcome State Fault Refusal :=
  issue (.mulh d a b) s (fun x s => x.arith s d a b (fun u v _ => mulHigh x.et (u * v)))

/-- MAD (R140). -/
def execMad (d : Reg) (a : Reg) (b : Reg) (s : State) : Host.Outcome State Fault Refusal :=
  issue (.mad d a b) s (fun x s => x.arith s d a b (fun u v z => u * v + z))

/-- MIN (R140). -/
def execMin (d : Reg) (a : Reg) (b : Reg) (s : State) : Host.Outcome State Fault Refusal :=
  issue (.min d a b) s (fun x s => x.arith s d a b (fun u v _ => if u ≤ v then u else v))

/-- MAX (R140). -/
def execMax (d : Reg) (a : Reg) (b : Reg) (s : State) : Host.Outcome State Fault Refusal :=
  issue (.max d a b) s (fun x s => x.arith s d a b (fun u v _ => if u ≤ v then v else u))

/-- ABS (R140). -/
def execAbs (d : Reg) (a : Reg) (s : State) : Host.Outcome State Fault Refusal :=
  issue (.abs d a) s (fun x s => x.arith s d a a (fun u _ _ => (u.natAbs : Int)))

/-- NEG (R140). -/
def execNeg (d : Reg) (a : Reg) (s : State) : Host.Outcome State Fault Refusal :=
  issue (.neg d a) s (fun x s => x.arith s d a a (fun u _ _ => -u))

/-- AND (R141). -/
def execAnd (d : Reg) (a : Reg) (b : Reg) (s : State) : Host.Outcome State Fault Refusal :=
  issue (.and d a b) s (fun x s => x.lanes s d (fun L => x.vl a L &&& x.vl b L))

/-- OR (R141). -/
def execOr (d : Reg) (a : Reg) (b : Reg) (s : State) : Host.Outcome State Fault Refusal :=
  issue (.or d a b) s (fun x s => x.lanes s d (fun L => x.vl a L ||| x.vl b L))

/-- XOR (R141). -/
def execXor (d : Reg) (a : Reg) (b : Reg) (s : State) : Host.Outcome State Fault Refusal :=
  issue (.xor d a b) s (fun x s => x.lanes s d (fun L => x.vl a L ^^^ x.vl b L))

/-- NOT (R141). -/
def execNot (d : Reg) (a : Reg) (s : State) : Host.Outcome State Fault Refusal :=
  issue (.not d a) s (fun x s => x.lanes s d (fun L => ~~~ x.vl a L))

/-- SHL (R141). -/
def execShl (d : Reg) (a : Reg) (b : Reg) (s : State) : Host.Outcome State Fault Refusal :=
  issue (.shl d a b) s (fun x s => x.bitwise s d a b (fun w u c _ => shiftLeft w u c))

/-- SHR (R141). -/
def execShr (d : Reg) (a : Reg) (b : Reg) (s : State) : Host.Outcome State Fault Refusal :=
  issue (.shr d a b) s (fun x s => x.bitwise s d a b (fun w u c _ => shiftRight w u c))

/-- SAR (R141). -/
def execSar (d : Reg) (a : Reg) (b : Reg) (s : State) : Host.Outcome State Fault Refusal :=
  issue (.sar d a b) s (fun x s => x.bitwise s d a b (fun w u c _ => shiftArith w u c))

/-- CLZ (R142). -/
def execClz (d : Reg) (a : Reg) (s : State) : Host.Outcome State Fault Refusal :=
  issue (.clz d a) s (fun x s => x.bitwise s d a a (fun w u _ _ => leadingZeros w u))

/-- POPC (R142). -/
def execPopc (d : Reg) (a : Reg) (s : State) : Host.Outcome State Fault Refusal :=
  issue (.popc d a) s (fun x s => x.bitwise s d a a (fun w u _ _ => oneBits w u))

/-- BFX (R143). -/
def execBfx (d : Reg) (a : Reg) (b : Reg) (s : State) : Host.Outcome State Fault Refusal :=
  issue (.bfx d a b) s (fun x s => x.bitwise s d a b (fun w u c _ => bitExtract (elemSigned x.et) w u c))

/-- BINS (R143). -/
def execBins (d : Reg) (a : Reg) (b : Reg) (s : State) : Host.Outcome State Fault Refusal :=
  issue (.bins d a b) s (fun x s => x.bitwise s d a b bitInsert)

/-- SEL (R144). -/
def execSel (d : Reg) (a : Reg) (b : Reg) (s : State) : Host.Outcome State Fault Refusal :=
  issue (.sel d a b) s (fun x s => x.lanes s d (fun L => if (x.g.pr 0).has L then x.vl a L else x.vl b L))

/-- CMPEQ (R145). -/
def execCmpeq (d : Reg) (a : Reg) (b : Reg) (s : State) : Host.Outcome State Fault Refusal :=
  issue (.cmpeq d a b) s (fun x s => x.compare s d a b (fun u v => decide (u = v)))

/-- CMPNE (R145). -/
def execCmpne (d : Reg) (a : Reg) (b : Reg) (s : State) : Host.Outcome State Fault Refusal :=
  issue (.cmpne d a b) s (fun x s => x.compare s d a b (fun u v => decide (u ≠ v)))

/-- CMPLT (R145). -/
def execCmplt (d : Reg) (a : Reg) (b : Reg) (s : State) : Host.Outcome State Fault Refusal :=
  issue (.cmplt d a b) s (fun x s => x.compare s d a b (fun u v => decide (u < v)))

/-- CMPLE (R145). -/
def execCmple (d : Reg) (a : Reg) (b : Reg) (s : State) : Host.Outcome State Fault Refusal :=
  issue (.cmple d a b) s (fun x s => x.compare s d a b (fun u v => decide (u ≤ v)))

/-- CMPGT (R145). -/
def execCmpgt (d : Reg) (a : Reg) (b : Reg) (s : State) : Host.Outcome State Fault Refusal :=
  issue (.cmpgt d a b) s (fun x s => x.compare s d a b (fun u v => decide (v < u)))

/-- CMPGE (R145). -/
def execCmpge (d : Reg) (a : Reg) (b : Reg) (s : State) : Host.Outcome State Fault Refusal :=
  issue (.cmpge d a b) s (fun x s => x.compare s d a b (fun u v => decide (v ≤ u)))

/-- MOV (R144). -/
def execMov (d : Reg) (a : Reg) (s : State) : Host.Outcome State Fault Refusal :=
  issue (.mov d a) s (fun x s => x.lanes s d (x.vl a))

/-- MOVS (R144). -/
def execMovs (d : Reg) (a : Reg) (s : State) : Host.Outcome State Fault Refusal :=
  issue (.movs d a) s (fun x s => x.lanes s d (fun _ => (x.g.sr a.toNat).extractLsb' 0 32))

/-- MOVI (R144). -/
def execMovi (d : Reg) (lit : Word) (s : State) : Host.Outcome State Fault Refusal :=
  issue (.movi d lit) s (fun x s => x.lanes s d (fun _ => lit))

/-- LANEID (R144). -/
def execLaneid (d : Reg) (s : State) : Host.Outcome State Fault Refusal :=
  issue (.laneid d) s (fun x s => x.lanes s d (fun L => BitVec.ofNat 32 L))

end Sys2Proof.Machine
end

