-- ==== Sys2Proof/Machine/VecFloat.lean ====
section
/-!
DEFINITION. Class 3: vector floating arithmetic, compares and functions (R146 to R152).
-/
namespace Sys2Proof.Machine
open Sys2Proof

/-- The sum of two values of a format (R62, R147). -/
def Fp.sum (f : Fp) (mode : Nat) : FVal → FVal → Nat
  | .nan, _ => f.nan
  | _, .nan => f.nan
  | .inf p, .inf q => if p = q then f.inf p else f.nan
  | .inf p, .num _ => f.inf p
  | .num _, .inf q => f.inf q
  | .num u, .num v => f.round mode (Exact.add mode u v)

/-- The negation of a value. -/
def FVal.negate : FVal → FVal
  | .nan => .nan
  | .inf p => .inf !p
  | .num u => .num u.negate

/-- The exact product of two values: 0 × Inf is a NaN (R147). -/
def FVal.times : FVal → FVal → FVal
  | .nan, _ => .nan
  | _, .nan => .nan
  | .inf p, .inf q => .inf (p != q)
  | .inf p, .num v => if v.m = 0 then .nan else .inf (p != v.neg)
  | .num u, .inf q => if u.m = 0 then .nan else .inf (u.neg != q)
  | .num u, .num v => .num (u.mul v)

/-- A value rounded to a format. -/
def Fp.ofVal (f : Fp) (mode : Nat) : FVal → Nat
  | .nan => f.nan
  | .inf p => f.inf p
  | .num u => f.round mode u

/-- The order of encodings that are no NaN, with −0 below +0 (R148). -/
def Fp.key (f : Fp) (x : Nat) : Int := if f.sign x then -((x % f.signBit : Nat) : Int) - 1 else (x : Int)

/-- FMIN and FMAX on encodings (R148). -/
def Fp.least (f : Fp) (x y : Nat) : Nat :=
  if f.isNan x then (if f.isNan y then f.nan else y) else if f.isNan y then x else if f.key x ≤ f.key y then x else y
def Fp.greatest (f : Fp) (x y : Nat) : Nat :=
  if f.isNan x then (if f.isNan y then f.nan else y) else if f.isNan y then x else if f.key x ≤ f.key y then y else x

/-- a < b and a = b of values; both are false of a NaN. -/
def FVal.lt : FVal → FVal → Bool
  | .nan, _ => false
  | _, .nan => false
  | .inf p, .inf q => p && !q
  | .inf p, .num _ => p
  | .num _, .inf q => !q
  | .num u, .num v => u.lt v
def FVal.eq : FVal → FVal → Bool
  | .inf p, .inf q => p == q
  | .num u, .num v => u.eq v
  | _, _ => false

/-- The one-hot class word of an element (R152). -/
def Fp.classOf (f : Fp) (x : Nat) : Nat :=
  let n := f.sign x
  match f.decode x with
  | .nan => 256
  | .inf _ => if n then 1 else 128
  | .num v => if v.m = 0 then (if n then 8 else 16) else if f.isSub x then (if n then 4 else 32) else (if n then 2 else 64)

/-- An element-wise floating result: inputs and result flushed under MR.ftz (R63, R65). -/
def Ix.float (x : Ix) (s : State) (d a b : Reg) (f : Fp → Nat → Nat → Nat → Nat) : Done :=
  let t := x.et
  let p := fpOf t
  x.lanes s d (fun L => packElems t (fun k =>
    p.flush x.ftz (f p (p.flush x.ftz (elem t (x.vl a L) k)) (p.flush x.ftz (elem t (x.vl b L) k)) (p.flush x.ftz (elem t (x.vl d L) k)))))

/-- An element-wise result on encodings that no flush applies to (R63). -/
def Ix.floatBits (x : Ix) (s : State) (d a : Reg) (f : Fp → Nat → Nat) : Done :=
  let t := x.et
  x.lanes s d (fun L => packElems t (fun k => f (fpOf t) (elem t (x.vl a L) k)))

/-- A floating compare that must hold for every element, on flushed inputs (R149). -/
def Ix.floatCompare (x : Ix) (s : State) (d a b : Reg) (f : FVal → FVal → Bool) : Done :=
  let t := x.et
  let p := fpOf t
  x.preds s d (fun L => (List.range (elemsPerLane t)).all (fun k =>
    f (p.decode (p.flush x.ftz (elem t (x.vl a L) k))) (p.decode (p.flush x.ftz (elem t (x.vl b L) k)))))

/-- A function of Table 6.5 by number (R150). -/
def Ix.function (x : Ix) (s : State) (d a : Reg) (fn : Nat) : Done :=
  let t := x.et
  x.lanes s d (fun L => packElems t (fun k => funcAt fn t x.ftz (elem t (x.vl a L) k)))

/-- FADD (R147). -/
def execFadd (d : Reg) (a : Reg) (b : Reg) (s : State) : Host.Outcome State Fault Refusal :=
  issue (.fadd d a b) s (fun x s => x.float s d a b (fun p u v _ => p.sum x.rm (p.decode u) (p.decode v)))

/-- FSUB (R147). -/
def execFsub (d : Reg) (a : Reg) (b : Reg) (s : State) : Host.Outcome State Fault Refusal :=
  issue (.fsub d a b) s (fun x s => x.float s d a b (fun p u v _ => p.sum x.rm (p.decode u) (p.decode v).negate))

/-- FMUL (R147). -/
def execFmul (d : Reg) (a : Reg) (b : Reg) (s : State) : Host.Outcome State Fault Refusal :=
  issue (.fmul d a b) s (fun x s => x.float s d a b (fun p u v _ => p.ofVal x.rm ((p.decode u).times (p.decode v))))

/-- FMA (R147). -/
def execFma (d : Reg) (a : Reg) (b : Reg) (s : State) : Host.Outcome State Fault Refusal :=
  issue (.fma d a b) s (fun x s => x.float s d a b (fun p u v z => p.sum x.rm ((p.decode u).times (p.decode v)) (p.decode z)))

/-- FMIN (R148). -/
def execFmin (d : Reg) (a : Reg) (b : Reg) (s : State) : Host.Outcome State Fault Refusal :=
  issue (.fmin d a b) s (fun x s => x.float s d a b (fun p u v _ => p.least u v))

/-- FMAX (R148). -/
def execFmax (d : Reg) (a : Reg) (b : Reg) (s : State) : Host.Outcome State Fault Refusal :=
  issue (.fmax d a b) s (fun x s => x.float s d a b (fun p u v _ => p.greatest u v))

/-- FABS (R148). -/
def execFabs (d : Reg) (a : Reg) (s : State) : Host.Outcome State Fault Refusal :=
  issue (.fabs d a) s (fun x s => x.floatBits s d a (fun p u => u % p.signBit))

/-- FNEG (R148). -/
def execFneg (d : Reg) (a : Reg) (s : State) : Host.Outcome State Fault Refusal :=
  issue (.fneg d a) s (fun x s => x.floatBits s d a (fun p u => u ^^^ p.signBit))

/-- FCMPEQ (R149). -/
def execFcmpeq (d : Reg) (a : Reg) (b : Reg) (s : State) : Host.Outcome State Fault Refusal :=
  issue (.fcmpeq d a b) s (fun x s => x.floatCompare s d a b (fun u v => u.eq v))

/-- FCMPNE (R149). -/
def execFcmpne (d : Reg) (a : Reg) (b : Reg) (s : State) : Host.Outcome State Fault Refusal :=
  issue (.fcmpne d a b) s (fun x s => x.floatCompare s d a b (fun u v => !(u.eq v)))

/-- FCMPLT (R149). -/
def execFcmplt (d : Reg) (a : Reg) (b : Reg) (s : State) : Host.Outcome State Fault Refusal :=
  issue (.fcmplt d a b) s (fun x s => x.floatCompare s d a b (fun u v => u.lt v))

/-- FCMPLE (R149). -/
def execFcmple (d : Reg) (a : Reg) (b : Reg) (s : State) : Host.Outcome State Fault Refusal :=
  issue (.fcmple d a b) s (fun x s => x.floatCompare s d a b (fun u v => u.lt v || u.eq v))

/-- FCMPGT (R149). -/
def execFcmpgt (d : Reg) (a : Reg) (b : Reg) (s : State) : Host.Outcome State Fault Refusal :=
  issue (.fcmpgt d a b) s (fun x s => x.floatCompare s d a b (fun u v => v.lt u))

/-- FCMPGE (R149). -/
def execFcmpge (d : Reg) (a : Reg) (b : Reg) (s : State) : Host.Outcome State Fault Refusal :=
  issue (.fcmpge d a b) s (fun x s => x.floatCompare s d a b (fun u v => v.lt u || u.eq v))

/-- FCMPUN (R149). -/
def execFcmpun (d : Reg) (a : Reg) (b : Reg) (s : State) : Host.Outcome State Fault Refusal :=
  issue (.fcmpun d a b) s (fun x s => x.floatCompare s d a b (fun u v => decide (u = .nan ∨ v = .nan)))

/-- FRCP (R150, R151). -/
def execFrcp (d : Reg) (a : Reg) (s : State) : Host.Outcome State Fault Refusal :=
  issue (.frcp d a) s (fun x s => x.function s d a 0)

/-- FRSQ (R150, R151). -/
def execFrsq (d : Reg) (a : Reg) (s : State) : Host.Outcome State Fault Refusal :=
  issue (.frsq d a) s (fun x s => x.function s d a 1)

/-- FSQRT (R150, R151). -/
def execFsqrt (d : Reg) (a : Reg) (s : State) : Host.Outcome State Fault Refusal :=
  issue (.fsqrt d a) s (fun x s => x.floatBits s d a (fun _ u => sqrtAt x.et x.rm x.ftz u))

/-- FEXP2 (R150, R151). -/
def execFexp2 (d : Reg) (a : Reg) (s : State) : Host.Outcome State Fault Refusal :=
  issue (.fexp2 d a) s (fun x s => x.function s d a 2)

/-- FLOG2 (R150, R151). -/
def execFlog2 (d : Reg) (a : Reg) (s : State) : Host.Outcome State Fault Refusal :=
  issue (.flog2 d a) s (fun x s => x.function s d a 3)

/-- FSIN (R150, R151). -/
def execFsin (d : Reg) (a : Reg) (s : State) : Host.Outcome State Fault Refusal :=
  issue (.fsin d a) s (fun x s => x.function s d a 4)

/-- FCOS (R150, R151). -/
def execFcos (d : Reg) (a : Reg) (s : State) : Host.Outcome State Fault Refusal :=
  issue (.fcos d a) s (fun x s => x.function s d a 5)

/-- FTANH (R150, R151). -/
def execFtanh (d : Reg) (a : Reg) (s : State) : Host.Outcome State Fault Refusal :=
  issue (.ftanh d a) s (fun x s => x.function s d a 6)

/-- FCLASS (R152). -/
def execFclass (d : Reg) (a : Reg) (s : State) : Host.Outcome State Fault Refusal :=
  issue (.fclass d a) s (fun x s => x.floatBits s d a Fp.classOf)

end Sys2Proof.Machine
end

