-- ==== Sys2Proof/Machine/Convert.lean ====
section
/-!
DEFINITION. Class 4: conversion, quantisation and ranked entries (R153 to R160).
-/
namespace Sys2Proof.Machine
open Sys2Proof

/-- The element type is an integer type (Table 3.1). -/
def isIntType (t : Nat) : Bool := decide (t ≤ 1 ∨ 5 ≤ t)

/-- The integer that an element of an integer type holds. -/
def elemInt (t e : Nat) : Int := if elemSigned t then toSigned (elemWidth t) e else (e : Int)

/-- One element converted from type `src` to type `dst` (Table 6.8). -/
def convert (src dst mode : Nat) (sat ftz : Bool) (e : Nat) : Nat :=
  let p := fpOf src
  let q := fpOf dst
  if isIntType src then
    if isIntType dst then fit dst sat (elemInt src e) else q.flush ftz (q.round mode (Exact.ofInt (elemInt src e)))
  else
    let v := p.decode (p.flush ftz e)
    if isIntType dst then
      match v with
      | .nan => 0
      | .inf neg => lowBits (elemWidth dst) (if neg then elemMin dst else elemMax dst)
      | .num u => lowBits (elemWidth dst) (clampInt (elemMin dst) (elemMax dst) (roundInt mode u))
    else q.flush ftz (q.ofVal mode v)

/-- CVT (R153, R154): element `k` of register `v[d + j]` comes from element `j × d_n + k` of the source range. -/
def execCvt (d a b : Reg) (s : State) : Host.Outcome State Fault Refusal :=
  issue (.cvt d a b) s (fun x s =>
    let src := b.toNat
    let dst := x.et
    let sn := elemsPerLane src
    let dn := elemsPerLane dst
    x.upd s (fun g => (List.range (cvtDst src dst)).foldl (fun g j =>
      g.setV (d.toNat + j) x.live (fun L => packElems dst (fun k =>
        let n := j * dn + k
        convert src dst x.rm x.sat x.ftz (elem src ((x.g.vr (a.toNat + n / sn)).lane L) (n % sn))))) g))

/-- Plane word `p` of 32 elements: element `i` at bit `i` (R66, R155). -/
def planeWord (q : List Int) (p : Nat) : Word :=
  BitVec.ofNat 32 ((List.range 32).foldl (fun w i => w + b2n (planeBit (lowBits 8 (q.getD i 0)) p) <<< i) 0)

/-- The quantised block of a lane (R155). -/
def Ix.block (x : Ix) (a : Reg) (L : Nat) : Quant :=
  quantise x.rm x.ftz ((List.range 32).map (fun i => ((x.g.vr (a.toNat + i)).lane L).toNat))

/-- PQ (R155): planes, then the scale word; QFLAGS takes the flags of the live lanes (R73). -/
def execPq (d a b : Reg) (s : State) : Host.Outcome State Fault Refusal :=
  issue (.pq d a b) s (fun x s =>
    let qs := tab 128 (fun L => if x.live.has L then x.block a L else ⟨[], 0, 0⟩)
    let at0 := fun (L : Nat) => Vector.at0 qs L ⟨[], 0, 0⟩
    x.upd s (fun g =>
      let g := (List.range (mrPlanes x.g.mr)).foldl (fun g p => g.setV (d.toNat + p) x.live (fun L => planeWord (at0 L).q p)) g
      let g := g.setV b.toNat x.live (fun L => BitVec.ofNat 32 (at0 L).c)
      { g with qflags := x.live.lanes.foldl (fun f L => f ||| BitVec.ofNat 3 (at0 L).flags) g.qflags }))

/-- The PNI element `i` of plane words, planes not read as zero (R66). -/
def planeElem (ws : List Word) (i : Nat) : Nat :=
  (List.range ws.length).foldl (fun e p => e + b2n ((ws.getD p 0).getLsbD i) <<< (7 - p)) 0

/-- PX (R156). -/
def execPx (d a b : Reg) (s : State) : Host.Outcome State Fault Refusal :=
  issue (.px d a b) s (fun x s =>
    let k := mrPlanes x.g.mr
    x.upd s (fun g => (List.range 32).foldl (fun g i =>
      g.setV (d.toNat + i) x.live (fun L =>
        let ws := (List.range k).map (fun p => (x.g.vr (a.toNat + p)).lane L)
        BitVec.ofNat 32 (pniValue x.rm (pniHalf (planeElem ws i) k) ((x.vl b L).toNat % 256)))) g))

/-- An entry ranks above another (R158). -/
def ranksAbove (u v : Word) : Bool :=
  decide (v.toNat / 256 < u.toNat / 256) || (decide (u.toNat / 256 = v.toNat / 256) && decide (u.toNat % 256 < v.toNat % 256))

/-- Two entries in rank order. -/
def ranked (u v : Word) : Word × Word := if ranksAbove v u then (v, u) else (u, v)

/-- Three entries in rank order (R158). -/
def ranked3 (u v w : Word) : Word × Word × Word :=
  let (a, b) := ranked u v
  let (b, c) := ranked b w
  let (a, b) := ranked a b
  (a, b, c)

/-- TOPKINS (R158). -/
def execTopkins (d a b : Reg) (s : State) : Host.Outcome State Fault Refusal :=
  issue (.topkins d a b) s (fun x s =>
    let r := fun (L : Nat) => ranked3 (x.vl d L) (x.vl a L) (x.vl b L)
    x.upd s (fun g => ((g.setV d.toNat x.live (fun L => (r L).1)).setV a.toNat x.live (fun L => (r L).2.1)).setV b.toNat x.live
      (fun L => (r L).2.2)))

/-- The 24-bit key of a value (Table 6.9). -/
def rankKey (t : Nat) (u : Word) : Nat :=
  if t = 0 then (u ^^^ 0x80000000#32).toNat / 256
  else if t = 1 then u.toNat / 256
  else if Fp.f32.isNan u.toNat then 0
  else if u.toNat % 0x80000000 = 0 then 0x800000
  else if u.getLsbD 31 then (~~~ u).toNat / 256
  else (u ^^^ 0x80000000#32).toNat / 256

/-- KEEPK (R157). -/
def execKeepk (d a b : Reg) (s : State) : Host.Outcome State Fault Refusal :=
  issue (.keepk d a b) s (fun x s =>
    x.lanes s d (fun L => BitVec.ofNat 32 (rankKey x.et (x.vl a L) * 256 + (x.vl b L).toNat % 256)))

/-- round(fmt, a × 2^n, mode) (R159). A scale beyond 2^±1000 is out of every format's range, as 2^±1000 is. -/
def Fp.loadExp (f : Fp) (mode w a n : Nat) : Nat :=
  match f.decode a with
  | .nan => f.nan
  | .inf neg => f.inf neg
  | .num v => f.round mode { v with e := v.e + clampInt (-1000) 1000 (toSigned w n) }

/-- FLDEXP (R159). -/
def execFldexp (d a b : Reg) (s : State) : Host.Outcome State Fault Refusal :=
  issue (.fldexp d a b) s (fun x s => x.bitwise s d a b (fun w u c _ => (fpOf x.et).loadExp x.rm w u c))

/-- Fraction and exponent of an element (R160). -/
def Fp.splitExp (f : Fp) (w a : Nat) : Nat × Nat :=
  match f.decode a with
  | .nan => (f.nan, 0)
  | .inf neg => (f.inf neg, 0)
  | .num v =>
    if v.m = 0 then (f.zero v.neg, 0)
    else (f.round 0 { v with e := -(Nat.log2 v.m : Int) - 1 }, lowBits w (v.e + Nat.log2 v.m + 1))

/-- FFREXP (R160). -/
def execFfrexp (d a b : Reg) (s : State) : Host.Outcome State Fault Refusal :=
  issue (.ffrexp d a b) s (fun x s =>
    let t := x.et
    let r := fun (L k : Nat) => (fpOf t).splitExp (elemWidth t) (elem t (x.vl a L) k)
    x.upd s (fun g => (g.setV d.toNat x.live (fun L => packElems t (fun k => (r L k).1))).setV b.toNat x.live
      (fun L => packElems t (fun k => (r L k).2))))

end Sys2Proof.Machine
end

