-- ==== Sys2Proof/Machine/Pattern.lean ====
section
/-!
DEFINITION. Class 9: pattern programs, fibres and gathers (R318 to R342), and the end of a fibre's count.
-/
namespace Sys2Proof.Machine
open Sys2Proof

/-! ## Pattern programs (R318 to R324) -/

/-- A pattern program as the set it builds: a space, then what each word makes of it (Table 13.1). -/
inductive Pat where
  | space (rows cols : Nat)
  | band (p : Pat) (lo hi : Int)
  | dil (p : Pat) (stride phase : Nat)
  | bdiag (p : Pat) (size : Nat)
  | hash (p : Pat) (thr seed : Nat)
  | offs (p : Pat) (dr dc : Int)
  | perm (p : Pat) (blk : Nat) (table : List Nat)
  | kron (p a b : Pat)
  deriving DecidableEq, Repr

/-- Rows and columns of a pattern's space (R319). -/
def Pat.rows : Pat → Nat
  | .space r _ => r
  | .band p _ _ => p.rows
  | .dil p _ _ => p.rows
  | .bdiag p _ => p.rows
  | .hash p _ _ => p.rows
  | .offs p _ _ => p.rows
  | .perm p _ _ => p.rows
  | .kron p _ _ => p.rows
def Pat.cols : Pat → Nat
  | .space _ c => c
  | .band p _ _ => p.cols
  | .dil p _ _ => p.cols
  | .bdiag p _ => p.cols
  | .hash p _ _ => p.cols
  | .offs p _ _ => p.cols
  | .perm p _ _ => p.cols
  | .kron p _ _ => p.cols

/-- PHASH's hash (R320). -/
def patHash (seed r c : Nat) : Nat :=
  let x : Word := BitVec.ofNat 32 (r * 0x9E3779B1 + c * 0x7F4A7C15 + seed)
  let x := (x ^^^ (x >>> 16)) * 0x85EBCA6B#32
  (x ^^^ (x >>> 13)).toNat

/-- The rows that PPERM maps to row `r` (R318). -/
def permSources (blk : Nat) (table : List Nat) (r : Nat) : List Nat :=
  if table.length * blk ≤ r then [r]
  else ((List.range table.length).filter (fun i => decide (table.getD i 0 = r / blk))).map (fun i => i * blk + r % blk)

/-- A coordinate is in the pattern (R319): what each word moves is sought at its source. -/
def Pat.has : Pat → Nat → Nat → Bool
  | .space rows cols, r, c => decide (r < rows) && decide (c < cols)
  | .band p lo hi, r, c => p.has r c && decide (lo ≤ (c : Int) - r) && decide ((c : Int) - r ≤ hi)
  | .dil p stride phase, r, c => p.has r c && decide (((c : Int) - r - phase) % stride = 0)
  | .bdiag p size, r, c => p.has r c && decide (r / size = c / size)
  | .hash p thr seed, r, c => p.has r c && decide (patHash seed r c / 65536 < thr)
  | .offs p dr dc, r, c =>
    decide (r < p.rows) && decide (c < p.cols) && decide (dr ≤ r) && decide (dc ≤ c) && p.has ((r : Int) - dr).toNat ((c : Int) - dc).toNat
  | .perm p blk table, r, c =>
    decide (r < p.rows) && decide (c < p.cols) && (permSources blk table r).any (fun r' => p.has r' c)
  | .kron p a b, r, c => p.has r c && a.has (r / b.rows) (c / b.cols) && b.has (r % b.rows) (c % b.cols)

/-- A program is invertible (R323). -/
def Pat.inv : Pat → Bool
  | .space _ _ => true
  | .band p _ _ => p.inv
  | .dil p _ _ => p.inv
  | .bdiag p _ => p.inv
  | .hash _ _ _ => false
  | .offs p _ _ => p.inv
  | .perm p _ table => p.inv && decide table.Nodup
  | .kron p a b => p.inv && a.inv && b.inv

/-- How the reading of a program's words ends: whole, with the index after its PEND; at the first word at fault; or it
needs a word more. -/
inductive Parse where
  | ok (p : Pat) (rest : List Word) (idx : Nat)
  | bad (idx sub : Nat)
  | more
  deriving DecidableEq, Repr

/-- A 16-bit half of a word as a signed number. -/
def half16 (x : Nat) : Int := toSigned 16 (x % 65536)

/-- PPERM's table from its data words: the first word at fault, by index and subcause, or the entries. -/
def permTable : Nat → Nat → List Word → Nat → Except (Option (Nat × Nat)) (List Nat × List Word)
  | 0, _, ws, _ => .ok ([], ws)
  | _ + 1, _, [], _ => .error none
  | 1, n, w :: ws, idx =>
    if n ≤ w.toNat % 65536 then .error (some (idx, 5))
    else if w.toNat / 65536 ≠ 0 then .error (some (idx, 0))
    else .ok ([w.toNat % 65536], ws)
  | k + 2, n, w :: ws, idx =>
    if n ≤ w.toNat % 65536 ∨ n ≤ w.toNat / 65536 then .error (some (idx, 5))
    else
      match permTable k n ws (idx + 1) with
      | .ok (l, rest) => .ok (w.toNat % 65536 :: w.toNat / 65536 :: l, rest)
      | .error e => .error e

/-- A program or subprogram from its PCLIP on (`start`), or its words after that; `lim` is the size of PKRON's first
subprogram, which bounds the second's (R322). The fuel exceeds the words of any program. -/
def parsePat : Nat → Nat → Option (Nat × Nat) → Option Pat → List Word → Nat → Parse
  | 0, _, _, _, _, _ => .more
  | _ + 1, _, _, _, [], _ => .more
  | fuel + 1, depth, lim, p?, w :: ws, idx =>
    let x := w.toNat
    let op := x / 2 ^ 25
    let f := x % 2 ^ 25
    let used := if op = 3 then 2 ^ 24 else if op = 4 then 2 ^ 16 else if op = 5 then 2 ^ 17 else if op = 7 then 2 ^ 23 else 1
    if 8 < op ∨ used ≤ f then .bad idx 0
    else
      match p? with
      | none =>
        if op ≠ 1 then .bad idx 1
        else (match ws with
          | [] => .more
          | v :: rest =>
            let r := v.toNat % 65536 + 1
            let c := v.toNat / 65536 + 1
            if (match lim with | some (a, b) => decide (65536 < a * r ∨ 65536 < b * c) | none => false) then .bad (idx + 1) 3
            else parsePat fuel depth none (some (.space r c)) rest (idx + 2))
      | some p =>
        match op, ws with
        | 0, _ => .ok p ws (idx + 1)
        | 1, _ => .bad idx 1
        | 3, _ =>
          if f / 4096 + 1 ≤ f % 4096 then .bad idx 4
          else parsePat fuel depth none (some (.dil p (f / 4096 + 1) (f % 4096))) ws (idx + 1)
        | 4, _ => parsePat fuel depth none (some (.bdiag p (f + 1))) ws (idx + 1)
        | 2, v :: rest =>
          let lo := half16 v.toNat
          let hi := half16 (v.toNat / 65536)
          if hi < lo then .bad (idx + 1) 4 else parsePat fuel depth none (some (.band p lo hi)) rest (idx + 2)
        | 5, _ =>
          if 65536 < f then .bad idx 4
          else (match ws with
            | [] => .more
            | v :: rest => parsePat fuel depth none (some (.hash p f v.toNat)) rest (idx + 2))
        | 6, v :: rest => parsePat fuel depth none (some (.offs p (half16 v.toNat) (half16 (v.toNat / 65536)))) rest (idx + 2)
        | 7, _ =>
          let n := f / 65536 + 1
          let blk := f % 65536 + 1
          if 65536 < n * blk then .bad idx 5
          else (match permTable n n ws (idx + 1) with
            | .error none => .more
            | .error (some (i, sub)) => .bad i sub
            | .ok (l, rest) => parsePat fuel depth none (some (.perm p blk l)) rest (idx + 1 + (n + 1) / 2))
        | 8, _ =>
          if 3 ≤ depth then .bad idx 3
          else (match parsePat fuel (depth + 1) none none ws (idx + 1) with
            | .ok a rest i =>
              (match parsePat fuel (depth + 1) (some (a.rows, a.cols)) none rest i with
               | .ok b rest j => parsePat fuel depth none (some (.kron p a b)) rest j
               | e => e)
            | e => e)
        | _, _ => .more

/-- A whole program from its words. -/
def parseProgram (ws : List Word) : Parse := parsePat 130 0 none none ws 0

/-- The pattern of a loaded program's words. -/
def patOf (ws : List Word) : Pat := match parseProgram ws with | .ok p _ _ => p | _ => .space 0 0

/-- The columns of a row that a pattern holds within a range. -/
def Pat.rowCols (p : Pat) (r c0 n : Nat) : List Nat := ((List.range n).map (c0 + ·)).filter (p.has r)

/-- The rank of a coordinate (R324). -/
def Pat.rank (p : Pat) (r c : Nat) : Nat :=
  (List.range r).foldl (fun a i => a + (p.rowCols i 0 p.cols).length) 0 + (p.rowCols r 0 c).length

/-- Coordinates of a window in order, by row or by column (R331). -/
def Pat.window (p : Pat) (trans : Bool) (r0 nr c0 nc : Nat) : List (Nat × Nat) :=
  if trans then (List.range nc).flatMap (fun j => ((List.range nr).filter (fun i => p.has (r0 + i) (c0 + j))).map (fun i => (r0 + i, c0 + j)))
  else (List.range nr).flatMap (fun i => (p.rowCols (r0 + i) c0 nc).map (fun c => (r0 + i, c)))

/-! ## Reads of the Tongs and the Swage -/

/-- How a sequence of reads ends: with a value, a fault at an address, a page wait at an address, or the wait for a Hearth bank
in refresh or for the thread's atomics that come before. -/
inductive RdOut (α : Type) where
  | ok (a : α)
  | fault (at_ code : Nat) (info : Dword)
  | wait (at_ : Nat) (granule : Option Nat)
  | busy

/-- A sequence of reads: what it makes of the state, and how it ends. -/
abbrev Rd (α : Type) := State → State × RdOut α

/-- Reads that follow one another. -/
def Rd.bind (m : Rd α) (k : α → Rd β) : Rd β := fun s =>
  let (s, r) := m s
  match r with
  | .ok a => k a s
  | .fault at_ code info => (s, .fault at_ code info)
  | .wait a g => (s, .wait a g)
  | .busy => (s, .busy)

/-- No read. -/
def Rd.pure (a : α) : Rd α := fun s => (s, .ok a)

/-- Lines of a cluster's Tongs cache (R336). -/
def tongsRoom : Nat := 2048

/-- The Tongs' line cache of a core's cluster. -/
def State.tongsOf (s : State) (core : Nat) : List Leased := Assoc.getD s.tongs (core / 4) []

/-- The Tongs of a core use a line at a time: from their cache where its lease reaches, else from its source, and they lease it
(R225, R336). -/
def State.tongsUse (s : State) (core pa t : Nat) : State :=
  let k := lineOf pa
  let s := if leased (s.tongsOf core) k t then s else s.route core pa
  { s with tongs := Assoc.put s.tongs (core / 4) (leaseLine tongsRoom (s.tongsOf core) k t) }

/-- A whole-group read of bytes within one line by the Tongs, each line at one time not below the group time (R262): a pattern
program's, or, with `cached`, a handle descriptor's, which their cache holds (R336). DV and SO lines go by no cache (R239). It waits
for no owner (R263), and for a Hearth bank in refresh (R235); the group's own combined bytes are seen (R240). -/
def State.tongsWhole (s : State) (x : Ix) (cached : Bool) (pa typ n : Nat) : State × RdOut (List Byte × Bool) :=
  let core := x.g.core
  let k := lineOf pa
  let l := s.line k
  let t := Nat.max (Nat.max x.g.time (s.hearthTime pa)) (x.time.getD l.topTime)
  let keep := cached && decide (typ < 2) && (s.regionOf pa).isNone
  if (s.bankWait pa).isSome && !(keep && leased (s.tongsOf core) k t) then (s, .busy)
  else
    let s := s.poisonRead pa
    let s := (if keep then s.tongsUse core pa t else s.routeTyped core pa typ).setLine k (fun l => { l with rtime := Nat.max l.rtime t })
    (s, .ok (s.forward core x.gid pa (s.bytesAt pa n t), l.bad))

/-- A read of a handle descriptor, which lies in one line (R262, R337, R338). -/
def handleRead (x : Ix) (va : Nat) : Rd (List Byte) := fun s =>
  let (s, r) := s.translate (s.groupXc x.gid) (BitVec.ofNat 64 va) .read
  match r with
  | .fault code info => (s, .fault va code info)
  | .wait g => (s, .wait va g)
  | .ok pa typ =>
    match s.tongsWhole x true pa typ 64 with
    | (s, .ok (b, _)) => (s, .ok b)
    | (s, .busy) => (s, .busy)
    | (s, .fault a code info) => (s, .fault a code info)
    | (s, .wait a g) => (s, .wait a g)

/-- A read of bytes within one line: by a lane of a gather, or by the whole group. DV, SO and pool pages raise GATHER_TYPE
(R326, R340). A lane's read is a relaxed load at a time not below its thread's h at the issue (R341), from the Tongs' cache
where its lease reaches (R336); it waits for no owner (R263). -/
def tongsLine (x : Ix) (lane va n : Nat) : Rd (List Byte × Bool) := fun s =>
  let c := s.groupXc x.gid
  let (s, r) := s.translate c (BitVec.ofNat 64 va) .read
  match r with
  | .fault code info => (s, .fault va code info)
  | .wait g => (s, .wait va g)
  | .ok pa typ =>
    if 2 ≤ typ ∨ (s.regionOf pa).isSome then (s, .fault va 0x3D 0)
    else
      if lane = whole then s.tongsWhole x false pa typ n
      else if s.afterAtoms x lane (lineOf pa) false .relaxed then (s, .busy)
      else
        let k := lineOf pa
        let l := s.line k
        let views := viewsOf x.g lane l none
        let floor := fun (i : Inst) => (x.g.tmAt lane i).h
        let seen := ((s.group x.gid).map (fun g => g.seenOf lane k)).getD 0
        let t := loadTime l floor views (Nat.max (Nat.max (x.g.tm lane).h (Nat.max seen (s.hearthTime pa))) (x.time.getD l.topTime))
        let s := (if leased (s.tongsOf c.core) k t then s else (s.holdBank pa).awaitFill x.gid x.op lane pa).tongsUse c.core pa t
        let s := s.tookLoad x.gid lane k t views (fun _ => .relaxed) floor
        (s.poisonRead pa, .ok (s.forward c.core x.gid pa (s.bytesAt pa n t), l.bad))

/-- A read of a range, line by line. -/
def rdRange (line : Nat → Nat → Rd (List Byte × Bool)) (va n : Nat) : Rd (List Byte × Bool) :=
  (vaLines va n).foldl (fun m a =>
    let start := Nat.max a va
    Rd.bind m (fun p => Rd.bind (line start (Nat.min (a + 256) (va + n) - start)) (fun q => Rd.pure (p.1 ++ q.1, p.2 || q.2))))
    (Rd.pure ([], false))

/-- A read of a fibre's index as of the time fixed at its FOPEN (R335), of any page that a load reads (R333): the contents of the Hearth
as the read finds them (R237, R264), and those of a DV or SO page from their target (R239). It waits for no owner (R263), and for a
Hearth bank in refresh (R235). -/
def swageLine (x : Ix) (time va n : Nat) : Rd (List Byte × Bool) := fun s =>
  let c := s.groupXc x.gid
  let (s, r) := s.translate c (BitVec.ofNat 64 va) .read
  match r with
  | .fault code info => (s, .fault va code info)
  | .wait g => (s, .wait va g)
  | .ok pa typ =>
    if (s.bankWait pa).isSome then (s, .busy)
    else
      let time := Nat.max time (s.hearthTime pa)
      let s := (s.routeTyped c.core pa typ).setLine (lineOf pa) (fun l => { l with rtime := Nat.max l.rtime time })
      (s.poisonRead pa, .ok (s.bytesAt pa n time, (s.line (lineOf pa)).bad))

/-- A little-endian number read. -/
def rdNum (line : Nat → Nat → Rd (List Byte × Bool)) (va n : Nat) : Rd (Nat × Bool) :=
  Rd.bind (rdRange line va n) (fun p => Rd.pure (leNat p.1, p.2))

/-! ## PGLD, PGFREE (R325 to R327) -/

/-- Slots of a core's pattern store in use. -/
def State.patternSlots (s : State) (home : Nat) : Nat :=
  (s.teams.filter (fun p => decide (p.2.home = home))).foldl (fun a p => a + p.2.patterns.length) 0

/-- The words of a program, read one at a time until they are whole, at fault or cannot be read (R326). -/
def readProgram (x : Ix) (va : Nat) : Nat → List Word → Rd (List Word × Parse)
  | 0, ws => Rd.pure (ws, .bad 0 2)
  | n + 1, ws =>
    Rd.bind (rdNum (tongsLine x whole) (va + 4 * ws.length) 4) (fun v =>
      let ws := ws ++ [BitVec.ofNat 32 v.1]
      match parseProgram ws with
      | .more => readProgram x va n ws
      | r => Rd.pure (ws, r))

/-- The word of a pattern handle (Table 13.3). -/
def patHandle (inv : Bool) (gen pnum : Nat) : Dword := BitVec.ofNat 64 (place 1 63 + place (b2n inv) 62 + place gen 16 + pnum)

/-- A pattern handle that is valid in a team (R325): its number and slot. -/
def Team.handle (t : Team) (h : Dword) : Option (Nat × PatSlot) :=
  let n := h.toNat
  let k := n % 16
  match Assoc.get t.patterns k with
  | none => none
  | some p =>
    if bit n 63 && decide (bits n 61 32 = 0) && decide (bits n 15 4 = 0) && decide (bits n 31 16 = Assoc.getD t.gens k 0)
        && (bit n 62 == p.inv) then some (k, p) else none

/-- A precise trap of an instruction that has raised its path: its operation ends with it. -/
def Ix.abandon (x : Ix) (s : State) (t : TrapInfo) : Done := .trap ((x.unheld s).finishOp x.gid x.op) t

/-- PGLD (R326): GATHER rises at its issue and falls when s[d] is written, behind the operations before it (R219). -/
def execPgld (d a : Reg) (s : State) : Host.Outcome State Fault Refusal :=
  issue (.pgld d a) s (fun x s =>
    let va := x.g.sr a.toNat
    match s.team x.g.team with
    | none => .next s
    | some t =>
      if va.toNat % 4 ≠ 0 then x.fail s (trapPA 0x28 va 0)
      else
        let s := x.raise s 4 0
        let full := Done.next (((x.unheld s).setGroup x.gid (fun g => g.setS d.toNat 0)).finishOp x.gid x.op)
        match Assoc.lowestFree t.patterns 0 16 with
        | none => full
        | some k =>
          if 16 ≤ s.patternSlots t.home then full
          else
            let (s, r) := readProgram x va.toNat 64 [] s
            match r with
            | .wait _ g => x.parkWhole s g
            | .busy => .stall
            | .fault at_ code info => x.abandon s (trapPA code (BitVec.ofNat 64 at_) info)
            | .ok (ws, .ok p _ _) =>
              let s := (x.unheld s).finishOp x.gid x.op
              let s := s.setTeam x.g.team (fun t => { t with patterns := Assoc.put t.patterns k { words := ws, inv := p.inv } })
              x.upd s (fun g => g.setS d.toNat (patHandle p.inv (Assoc.getD t.gens k 0) k))
            | .ok (_, .bad i sub) => x.abandon s (trapPA 0x38 (va + BitVec.ofNat 64 (4 * i)) (BitVec.ofNat 64 (place sub 60)))
            | .ok (_, .more) => x.abandon s (trapPA 0x38 va (BitVec.ofNat 64 (place 2 60))))

/-- PGFREE (R327). -/
def execPgfree (a : Reg) (s : State) : Host.Outcome State Fault Refusal :=
  issue (.pgfree a) s (fun x s =>
    match (s.team x.g.team).bind (fun t => t.handle (x.g.sr a.toNat)) with
    | none => .next s
    | some (k, _) => .next (s.setTeam x.g.team (fun t =>
        { t with patterns := Assoc.del t.patterns k, gens := Assoc.put t.gens k ((Assoc.getD t.gens k 0 + 1) % 65536) })))

/-! ## Handle descriptors (R337 to R339) -/

/-- The fields of a descriptor (Table 13.7). -/
def Handle.ofBytes (b : List Byte) : Handle :=
  let n := leNat b
  { pstride := bits n 319 288, pitch := bits n 287 256, cols := bits n 255 240 + 1, rows := bits n 239 224 + 1,
    blen := bits n 203 202, planes := bits n 201 198, sgn := bit n 197, esize := bits n 196 195, fmt := bits n 194 192,
    idx := bits n 183 128, aux := bits n 119 64, base := bits n 55 0 }

/-- Element width in bytes. -/
def Handle.width (h : Handle) : Nat := 2 ^ h.esize

/-- The subcause with which a descriptor is rejected (R337, R338). -/
def handleFault (b : List Byte) : Option Nat :=
  let n := leNat b
  let h := Handle.ofBytes b
  let pni := h.fmt = 1
  let pitched := h.fmt = 0 ∨ h.fmt = 2
  let indexed := h.fmt = 3 ∨ h.fmt = 4
  if bits n 511 320 ≠ 0 ∨ bits n 223 204 ≠ 0 ∨ bits n 191 184 ≠ 0 ∨ bits n 127 120 ≠ 0 ∨ bits n 63 56 ≠ 0 then some 0
  else if 4 < h.fmt ∨ h.esize = 3 ∨ (pni ∧ (h.esize ≠ 0 ∨ h.sgn ∨ h.planes < 2 ∨ 8 < h.planes ∨ h.blen = 3))
      ∨ (¬ pni ∧ (h.planes ≠ 0 ∨ h.blen ≠ 0 ∨ h.pstride ≠ 0)) ∨ (¬ pitched ∧ h.pitch ≠ 0) ∨ (¬ indexed ∧ h.idx ≠ 0)
      ∨ (h.fmt = 0 ∧ h.aux ≠ 0) then some 1
  else if (pni ∧ (h.cols % 64 ≠ 0 ∨ h.pstride % 256 ≠ 0 ∨ h.pstride * 8 < h.rows * h.cols))
      ∨ (pitched ∧ (h.pitch % 16 ≠ 0 ∨ h.pitch < (if h.fmt = 0 then h.cols * h.width else 64 * h.width * ((h.cols + 63) / 64)))) then some 2
  else if h.base % 16 ≠ 0 ∨ h.aux % 16 ≠ 0 ∨ h.idx % 16 ≠ 0 then some 3
  else none

/-- HANDLE_INVALID with its descriptor's address and subcause. -/
def badHandle (va : Dword) (sub : Nat) : TrapInfo := trapPA 0x3B va (BitVec.ofNat 64 (place sub 60))

/-- A value found in a stored index: its position, or none (R339). -/
def findIndex (line : Nat → Nat → Rd (List Byte × Bool)) (idx c : Nat) : Nat → Nat → Bool → Rd (Option Nat × Bool)
  | 0, _, bad => Rd.pure (none, bad)
  | n + 1, j, bad => Rd.bind (rdNum line (idx + 2 * j) 2) (fun v =>
      if v.1 = c then Rd.pure (some j, bad || v.2) else findIndex line idx c n (j + 1) (bad || v.2))

/-- An element's bits, extended by `sgn` (R340). -/
def Handle.extend (h : Handle) (v : Nat) : Nat := if h.sgn then lowBits 32 (toSigned (8 * h.width) v) else v

/-- The element at a coordinate (R339, R340): the lane word and its poison mark. -/
def Handle.element (h : Handle) (mode : Nat) (line : Nat → Nat → Rd (List Byte × Bool)) (r c : Nat) : Rd (Nat × Bool) :=
  let w := h.width
  match h.fmt with
  | 0 => Rd.bind (rdNum line (h.base + r * h.pitch + w * c) w) (fun v => Rd.pure (h.extend v.1, v.2))
  | 1 =>
    let ls := 16 * 2 ^ h.blen
    let at_ := r * h.cols / 8 + c / 8
    -- the planes of a zero-block are not read (R69)
    Rd.bind (rdNum line (h.aux + r * ((h.cols + ls - 1) / ls) + c / ls) 1) (fun k =>
      let planes : Rd (Nat × Bool) := (List.range (if k.1 = 0 then 0 else h.planes)).foldl (fun m p =>
        Rd.bind m (fun a => Rd.bind (rdNum line (h.base + p * h.pstride + at_) 1) (fun v =>
          Rd.pure (a.1 + b2n (bit v.1 (c % 8)) <<< (7 - p), a.2 || v.2)))) (Rd.pure (0, false))
      Rd.bind planes (fun e => Rd.pure (pniValue mode (pniHalf e.1 h.planes) k.1, e.2 || k.2)))
  | 2 =>
    Rd.bind (rdNum line (h.aux + 4 * (r * ((h.cols + 63) / 64) + c / 64)) 4) (fun bw =>
      if bit bw.1 31 then Rd.pure (0, bw.2)
      else Rd.bind (rdRange line (h.base + 16 * bw.1) (64 * w)) (fun b =>
        Rd.pure (h.extend (leNat ((b.1.drop (w * (c % 64))).take w)), bw.2 || b.2)))
  | _ =>
    let major := if h.fmt = 3 then r else c
    let minor := if h.fmt = 3 then c else r
    Rd.bind (rdNum line (h.aux + 4 * major) 4) (fun p0 => Rd.bind (rdNum line (h.aux + 4 * (major + 1)) 4) (fun p1 =>
      Rd.bind (findIndex line h.idx minor (p1.1 - p0.1) p0.1 (p0.2 || p1.2)) (fun j =>
        match j.1 with
        | none => Rd.pure (0, j.2)
        | some k => Rd.bind (rdNum line (h.base + w * k) w) (fun v => Rd.pure (h.extend v.1, j.2 || v.2)))))

/-! ## GATH, GATHQ (R340, R341) -/

/-- A descriptor's bytes kept in a vector register's place, four to a word, and read back from it. -/
def packBytes (b : List Byte) : VReg := tab 128 (fun i => BitVec.ofNat 32 (leNat ((b.drop (4 * i)).take 4)))
def unpackBytes (v : VReg) (n : Nat) : List Byte := (List.range n).flatMap (fun i => natLe (v.lane i).toNat 4)

/-- What the lanes of a gather have come to. -/
structure Gathered where
  s : State
  vals : List (Nat × Nat × Bool)
  faults : List (Nat × Nat × Dword)
  addrs : List (Nat × Dword)
  waits : List (Nat × Option Nat)
  busy : Bool
  /-- The answers of translation that did not pass, by page, as its address and size, which the later lanes share (R434). -/
  pages : List (Nat × Nat × RdOut (List Byte × Bool))

/-- A lane's reads: an address of a page for which an earlier lane has had no translation takes that lane's answer (R434). -/
def Gathered.line (q : Gathered) (x : Ix) (L va n : Nat) : Rd (List Byte × Bool) :=
  match q.pages.find? (fun p => decide (va >>> p.2.1 = p.1 >>> p.2.1)) with
  | some (_, _, .fault _ code info) => fun s => (s, .fault va code info)
  | some (_, _, .wait _ g) => fun s => (s, .wait va g)
  | _ => tongsLine x L va n

/-- One lane of a gather. -/
def Ix.gatherLane (x : Ix) (h : Handle) (vb : VReg) (q : Gathered) (L : Nat) : Gathered :=
  let k := (vb.lane L).toNat
  let r := k % 65536
  let c := k / 65536
  if h.rows ≤ r ∨ h.cols ≤ c then { q with vals := q.vals ++ [(L, 0, false)] }
  else
    let (s, a) := h.element (mrRound x.heldMr) (q.line x L) r c q.s
    let size := fun (at_ : Nat) => if at_ / 2 ^ 56 ≠ 0 then 16 else s.pageSize (s.groupXc x.gid) at_ .read
    match a with
    | .ok v => { q with s := s, vals := q.vals ++ [(L, v.1, v.2)] }
    | .fault at_ code info =>
      { q with s := s, faults := q.faults ++ [(L, code, info)], addrs := q.addrs ++ [(L, BitVec.ofNat 64 at_)],
               pages := if code = 0x3D then q.pages else q.pages ++ [(at_, size at_, .fault at_ code info)] }
    | .wait at_ g => { q with s := s, waits := q.waits ++ [(L, g)], pages := q.pages ++ [(at_, size at_, .wait at_ g)] }
    | .busy => { q with s := s, busy := true }

/-- A GATHER (R340): the descriptor, the range of the coordinates where `strict`, then the lanes. -/
def Ix.gather (x : Ix) (s : State) (strict : Bool) (d a b : Reg) : Done :=
  let va := x.g.sr a.toNat
  let held := match x.g.held, x.again with | some r, true => some r | _, _ => none
  let vb := (x.captured [b.toNat]).getD 0 VReg.zero
  let lanes := fun (s : State) (desc : List Byte) =>
    let h := Handle.ofBytes desc
    match (if strict then x.live.lanes else []).find? (fun L =>
        decide (h.rows ≤ (vb.lane L).toNat % 65536 ∨ h.cols ≤ (vb.lane L).toNat / 65536)) with
    | some L => x.fail s (trapPA 0x3C ((vb.lane L).zeroExtend 64) 0)
    | none =>
      let s := x.raise s 4 0
      let faults0 := if x.g.skip.isSome then [] else (held.map Replay.faults).getD []
      let still := ((held.map Replay.waits).getD []).filter (fun w => w.2.isSome)
      let todo := x.live.lanes.filter (fun L =>
        !(faults0.any (fun f => decide (f.1 = L))) && !(still.any (fun w => decide (w.1 = L))))
      let q := todo.foldl (x.gatherLane h vb) { s := s, vals := [], faults := [], addrs := [], waits := [], busy := false, pages := [] }
      if q.busy then .stall
      else
        let s := q.s.setGroup x.gid (fun g => g.results x.op d.toNat 1 q.vals)
        let ea0 := (held.map Replay.ea).getD (Vector.replicate 128 0)
        let ea := tab 128 (fun L => match q.addrs.find? (fun p => decide (p.1 = L)) with
          | some p => p.2
          | none => Vector.at0 ea0 L 0)
        let live := (held.map Replay.live).getD x.live
        let done0 := match held with | some r => r.live &&& x.g.skip.getD r.done | none => 0
        x.settle s ea [vb, packBytes desc] live (done0 ||| maskOf (q.vals.map Prod.fst)) (faults0 ++ q.faults) (still ++ q.waits)
  match (held.map Replay.data).getD [] with
  | _ :: desc :: _ => lanes s (unpackBytes desc 16)
  | _ =>
    if va.toNat % 64 ≠ 0 then x.fail s (badHandle va 3)
    else
      let (s, r) := handleRead x va.toNat s
      match r with
      | .wait _ g => x.parkWhole (x.raise s 4 0) g [vb]
      | .busy => .stall
      | .fault at_ code info => x.fail s (trapPA code (BitVec.ofNat 64 at_) info)
      | .ok desc =>
        match handleFault desc with
        | some sub => x.fail s (badHandle va sub)
        | none => lanes s desc

/-- GATH (R340). -/
def execGath (d a b : Reg) (s : State) : Host.Outcome State Fault Refusal := issue (.gath d a b) s (fun x s => x.gather s true d a b)

/-- GATHQ (R340). -/
def execGathq (d a b : Reg) (s : State) : Host.Outcome State Fault Refusal := issue (.gathq d a b) s (fun x s => x.gather s false d a b)

/-! ## Fibres (R328 to R335) -/

/-- Swage contexts of a core in use (R328). -/
def State.swageContexts (s : State) (home : Nat) : Nat :=
  (s.teams.filter (fun p => decide (p.2.home = home))).foldl (fun a p => a + p.2.fibres.length) 0

/-- A fibre is opened: every group's end mask for it is cleared, and a non-invertible program's count begins (R330,
R334). -/
def State.openFibre (s : State) (tid f : Nat) (src : FibSrc) (mode time : Nat) : State :=
  let counting := match src with | .pattern _ inv => !inv | .stored _ => false
  let y : Fibre :=
    { src := src, trans := bit mode 63, row0 := bits mode 15 0, col0 := bits mode 31 16, rspan := bits mode 41 32,
      cspan := bits mode 51 42, count := 0, major := 0, row := none, exhausted := false, counting := counting, time := time }
  let s := s.setTeam tid (fun t => { t with fibres := Assoc.put t.fibres f y })
  let s := { s with groups := s.groups.map (fun (p : Nat × Group) =>
    if p.2.team = tid then (p.1, { p.2 with ends := Vector.put p.2.ends f 0 }) else p) }
  if counting then s.post (.swageCountComplete tid f) else s

/-- The fibre whose order an instruction joins (R332). -/
def fibreNamed : Instr → Option Nat
  | .fopen d _ _ => some d.toNat
  | .fadv _ a => some a.toNat
  | .fclose a => some a.toNat
  | .fpos _ a => some a.toNat
  | _ => none

/-- A group holds a place in a fibre's order: an FOPEN or FADV of it waits for a page or an engine, and is to issue again (R332). -/
def Group.awaitsFibre (g : Group) (f : Nat) : Bool :=
  let waits := fun (r : Option Replay) (pc : Va) => r.any (fun (r : Replay) =>
    !r.faulted && decide (r.pc = pc.toNat) && r.instr.any (fun i => decide (fibreNamed i.1 = some f)))
  waits g.replay (if g.trap.inh then g.trap.tpc else g.pc) || (g.trap.inh && waits g.hreplay g.pc)

/-- An instruction of another group of the team, which came before, is still to be applied to a fibre: a later one waits for it, as the
order is that of arrival (R332; DEDUCED, log entry 98). -/
def Ix.behind (x : Ix) (s : State) (f : Nat) : Bool :=
  (s.teamGroups x.g.team).any (fun p => decide (p.1 ≠ x.gid) && p.2.awaitsFibre f)

/-- FOPEN (R330): it cannot issue while it needs a context and none is free (R328). -/
def execFopen (d a b : Reg) (s : State) : Host.Outcome State Fault Refusal :=
  issue (.fopen d a b) s (fun x s =>
    match s.team x.g.team with
    | none => .next s
    | some t =>
      let h := x.g.sr a.toNat
      let mode := (x.g.sr b.toNat).toNat
      let open_ := fun (s : State) (src : FibSrc) => Done.next (s.openFibre x.g.team d.toNat src mode (Nat.max x.g.time (x.time.getD 0)))
      if x.behind s d.toNat || (!Assoc.has t.fibres d.toNat && decide (8 ≤ s.swageContexts t.home)) then .stall
      else if bits mode 62 52 ≠ 0 then .trap s (trapP 0x02)
      else if bit h.toNat 63 then
        match t.handle h with
        | none => .trap s (badHandle 0 0)
        | some (_, p) =>
          if bit mode 63 && !p.inv then .trap s (trapP 0x39) else open_ s (.pattern p.words p.inv)
      else if h.toNat % 64 ≠ 0 then x.fail s (badHandle h 3)
      else
        let (s, r) := handleRead x h.toNat s
        match r with
        | .wait _ g => x.parkWhole s g
        | .busy => .stall
        | .fault at_ code info => x.fail s (trapPA code (BitVec.ofNat 64 at_) info)
        | .ok desc =>
          let s := x.unheld s
          match handleFault desc with
          | some sub => .trap s (badHandle h sub)
          | none =>
            let y := Handle.ofBytes desc
            if y.fmt ≠ 3 ∧ y.fmt ≠ 4 then .trap s (badHandle h 1)
            else if bit mode 63 ≠ decide (y.fmt = 4) then .trap s (trapP 0x39)
            else open_ s (.stored y))

/-- SWAGE_COUNT_COMPLETE (R334). -/
def execSwageCountComplete (tid fib : Nat) (s : State) : Host.Outcome State Fault Refusal :=
  .next (s.setTeam tid (fun t => { t with fibres := Assoc.upd t.fibres fib (fun f => { f with counting := false }) }))

/-- Rows or columns of a window: those from an origin that lie in the space (R329). -/
def windowLen (origin span size : Nat) : Nat := Nat.min (origin + 64 * (span + 1)) size - origin

/-- The entries of a stored row from position `j` on whose minor coordinate lies in the window: minor and position. -/
def entries (line : Nat → Nat → Rd (List Byte × Bool)) (idx lo n : Nat) : Nat → Nat → List (Nat × Nat) → Rd (List (Nat × Nat))
  | 0, _, acc => Rd.pure acc
  | k + 1, j, acc => Rd.bind (rdNum line (idx + 2 * j) 2) (fun v =>
      entries line idx lo n k (j + 1) (if lo ≤ v.1 ∧ v.1 < lo + n then acc ++ [(v.1, j)] else acc))

/-- The entries of stored rows in order, until `want` of them are known (R331): major, minor and position. -/
def storedRows (line : Nat → Nat → Rd (List Byte × Bool)) (h : Handle) (lo n want : Nat) :
    List Nat → List (Nat × Nat × Nat) → Rd (List (Nat × Nat × Nat))
  | [], acc => Rd.pure acc
  | r :: rest, acc =>
    if want ≤ acc.length then Rd.pure acc
    else Rd.bind (rdNum line (h.aux + 4 * r) 4) (fun p0 => Rd.bind (rdNum line (h.aux + 4 * (r + 1)) 4) (fun p1 =>
      Rd.bind (entries line h.idx lo n (p1.1 - p0.1) p0.1 []) (fun l =>
        storedRows line h lo n want rest (acc ++ l.map (fun e => (r, e.1, e.2))))))

/-- The entries of a stored row from position `j` on, `n` of them left, whose minor coordinate lies in the window: at most
`want` of them, and the position after the last one looked at. -/
def entriesUpTo (line : Nat → Nat → Rd (List Byte × Bool)) (idx lo n want : Nat) :
    Nat → Nat → List (Nat × Nat) → Rd (List (Nat × Nat) × Nat)
  | 0, j, acc => Rd.pure (acc, j)
  | k + 1, j, acc =>
    if want ≤ acc.length then Rd.pure (acc, j)
    else Rd.bind (rdNum line (idx + 2 * j) 2) (fun v =>
      entriesUpTo line idx lo n want k (j + 1) (if lo ≤ v.1 ∧ v.1 < lo + n then acc ++ [(v.1, j)] else acc))

/-- The next entries of a stored index, at most `want` of them, from a cursor on (R331, R333): `l` lists the rows from the
cursor's, and `row` its place in that row. The answer: row, minor and position of each entry, and the cursor after them. -/
def storedNext (line : Nat → Nat → Rd (List Byte × Bool)) (h : Handle) (m0 lo n want : Nat) :
    List Nat → Option (Nat × Nat) → List (Nat × Nat × Nat) → Rd (List (Nat × Nat × Nat) × Nat × Option (Nat × Nat))
  | [], _, acc => fun s => (s, .ok (acc, n, none))
  | i :: rest, row, acc =>
    let r := m0 + i
    Rd.bind (match row with
      | some p => Rd.pure p
      | none => Rd.bind (rdNum line (h.aux + 4 * r) 4) (fun p0 => Rd.bind (rdNum line (h.aux + 4 * (r + 1)) 4) (fun p1 => Rd.pure (p0.1, p1.1))))
      (fun p => Rd.bind (entriesUpTo line h.idx lo n (want - acc.length) (p.2 - p.1) p.1 []) (fun q =>
        let acc := acc ++ q.1.map (fun e => (r, e.1, e.2))
        if want ≤ acc.length then Rd.pure (acc, i, some (q.2, p.2)) else storedNext line h m0 lo n want rest none acc))

/-- The next `k` coordinates of a fibre with their ranks (R331): row, column, rank; and its cursor after them. No more of a
stored index is read than they need (R333). -/
def Fibre.next (f : Fibre) (x : Ix) (k : Nat) : Rd (List (Nat × Nat × Nat) × Nat × Option (Nat × Nat)) :=
  match f.src with
  | .pattern ws _ =>
    let p := patOf ws
    let l := p.window f.trans f.row0 (windowLen f.row0 f.rspan p.rows) f.col0 (windowLen f.col0 f.cspan p.cols)
    Rd.pure (((l.drop f.count).take k).map (fun q => (q.1, q.2, p.rank q.1 q.2)), 0, none)
  | .stored h =>
    let nr := windowLen f.row0 f.rspan h.rows
    let nc := windowLen f.col0 f.cspan h.cols
    let (m0, mn, lo, n) := if f.trans then (f.col0, nc, f.row0, nr) else (f.row0, nr, f.col0, nc)
    Rd.bind (storedNext (swageLine x f.time) h m0 lo n k ((List.range mn).drop f.major) f.row []) (fun l =>
      Rd.pure (l.1.map (fun q => if f.trans then (q.2.1, q.1, q.2.2) else q), if l.1.length < k then mn else l.2.1, l.2.2))

/-- FADV (R333); with LIVE empty, a step of the fibre's order without effect (R44). -/
def execFadv (d a : Reg) (s : State) : Host.Outcome State Fault Refusal :=
  issue (.fadv d a) s (fun x s =>
    if x.behind s a.toNat then .stall
    else match (s.team x.g.team).bind (fun t => Assoc.get t.fibres a.toNat) with
    | none => x.fail s (trapP 0x3A)
    | some f =>
      if f.counting then .stall
      else if x.live = 0 then .next (x.unheld s)
      else
        let lanes := x.live.lanes
        let (s, r) := f.next x lanes.length s
        match r with
        | .wait _ g => x.parkWhole s g
        | .busy => .stall
        | .fault at_ code info => x.fail s (trapPA code (BitVec.ofNat 64 at_) info)
        | .ok (l, major, row) =>
          let s := x.unheld s
          let got := lanes.zip l
          let m := maskOf (got.map Prod.fst)
          let val := fun (L : Nat) => ((got.find? (fun p => decide (p.1 = L))).map Prod.snd).getD (0, 0, 0)
          let s := s.setTeam x.g.team (fun t => { t with fibres := Assoc.upd t.fibres a.toNat (fun f =>
            { f with count := f.count + l.length, major := major, row := row, exhausted := f.exhausted || decide (l.length < lanes.length) }) })
          x.upd s (fun g =>
            let g := g.setV d.toNat m (fun L => BitVec.ofNat 32 (place (val L).2.1 16 + (val L).1 % 65536))
            let g := g.setV (d.toNat + 1) m (fun L => BitVec.ofNat 32 (val L).2.2)
            { g with ends := Vector.put g.ends a.toNat ((Vector.at0 g.ends a.toNat 0 ||| x.live) &&& ~~~ m) }))

/-- FEND (R335). -/
def execFend (d a : Reg) (s : State) : Host.Outcome State Fault Refusal :=
  issue (.fend d a) s (fun x s =>
    match (s.team x.g.team).bind (fun t => Assoc.get t.fibres a.toNat) with
    | none => .trap s (trapP 0x3A)
    | some _ => x.upd s (fun g => g.setP d.toNat (Vector.at0 g.ends a.toNat 0)))

/-- FCLOSE (R335). -/
def execFclose (a : Reg) (s : State) : Host.Outcome State Fault Refusal :=
  issue (.fclose a) s (fun x s => if x.behind s a.toNat then .stall else .next (s.setTeam x.g.team (fun t => { t with fibres := Assoc.del t.fibres a.toNat })))

/-- FPOS (R335). -/
def execFpos (d a : Reg) (s : State) : Host.Outcome State Fault Refusal :=
  issue (.fpos d a) s (fun x s =>
    if x.behind s a.toNat then .stall
    else match (s.team x.g.team).bind (fun t => Assoc.get t.fibres a.toNat) with
    | none => .trap s (trapP 0x3A)
    | some f => x.upd s (fun g => g.setS d.toNat (BitVec.ofNat 64 (place (b2n f.exhausted) 32 + f.count % 2 ^ 32))))

end Sys2Proof.Machine
end

