-- ==== Sys2Proof/Machine/Anvil.lean ====
section
/-!
DEFINITION. Class 10: Anvil ownership, tile operations, batches (R165 to R194), and the steps of the tile-operation
queue: start, line fetch, completion. The arithmetic is that of R66 to R78.
-/
namespace Sys2Proof.Machine
open Sys2Proof

/-! ## Ownership (R165 to R168) -/

/-- The home core of a group's team, whose Anvil and tiles the group uses (R165). -/
def State.anvilOf (s : State) (g : Group) : Nat := ((s.team g.team).map Team.home).getD g.core

/-- MXACQ (R166): it cannot issue while the ownership line holds 16 groups. -/
def execMxacq (s : State) : Host.Outcome State Fault Refusal :=
  issue .mxacq s (fun x s =>
    let h := s.anvilOf x.g
    let c := s.core h
    let parked := s.setGroup x.gid (fun g => { g with park := some .anvil })
    if c.owner = some x.gid then .next s
    else if c.line.contains x.gid then .stay parked
    else if c.owner = none ∧ c.line = [] then .next (s.setCore h (fun c => { c with owner := some x.gid }))
    else if 16 ≤ c.line.length then .stall
    else .stay (parked.setCore h (fun c => { c with line := c.line ++ [x.gid] })))

/-- MXTRY (R166). -/
def execMxtry (d : Reg) (s : State) : Host.Outcome State Fault Refusal :=
  issue (.mxtry d) s (fun x s =>
    let h := s.anvilOf x.g
    let c := s.core h
    let ok := decide (c.owner = some x.gid) || (decide (c.owner = none) && decide (c.line = []))
    x.upd (if ok then s.setCore h (fun c => { c with owner := some x.gid }) else s) (fun g => g.setP d.toNat (Mask.all ok)))

/-- MXREL (R166): the front of the line becomes the owner in the next cycle. -/
def execMxrel (s : State) : Host.Outcome State Fault Refusal :=
  issue .mxrel s (fun x s =>
    let h := s.anvilOf x.g
    if (s.core h).owner ≠ some x.gid then .next s
    else
      let s := s.setCore h (fun c => { c with owner := none })
      .next (if (s.core h).line = [] then s else s.postAt (s.clk + 1) (.anvilOwnershipGrant h)))

/-- ANVIL_OWNERSHIP_GRANT (R166): the PC of a parked group that is granted advances past its MXACQ. -/
def execAnvilOwnershipGrant (core : Nat) (s : State) : Host.Outcome State Fault Refusal :=
  match (s.core core).owner, (s.core core).line with
  | none, f :: rest =>
    let s := s.setCore core (fun c => { c with owner := some f, line := rest })
    .next (s.setGroup f (fun g => if g.park = some .anvil then g.unpark else g))
  | _, _ => .next s

/-! ## Format blocks (R70, R71) -/

/-- The fields of a format block (Table 3.6). -/
def Fmt.ofBytes (b : List Byte) : Fmt :=
  let n := leNat b
  { trans := bit n 243, fibre := bits n 242 240, imode := bit n 235, wide := bit n 234, bplanes := bits n 233 230,
    blen := bits n 229 228, kblocks := bits n 227 224 + 1, bsstride := bits n 223 208, asstride := bits n 207 192,
    bpstride := bits n 191 160, apstride := bits n 159 128, bscales := bits n 119 64, ascales := bits n 55 0 }

/-- Scale block length, and scale blocks of a K-block and of a row. -/
def Fmt.ls (f : Fmt) : Nat := 16 * 2 ^ f.blen
def Fmt.perK (f : Fmt) : Nat := 64 / f.ls
def Fmt.nb (f : Fmt) : Nat := 64 * f.kblocks / f.ls

/-- A format block passes R71; `sparse`: it is an MMAS's. -/
def fmtValid (b : List Byte) (sparse : Bool) : Bool :=
  let n := leNat b
  let f := Fmt.ofBytes b
  decide (bits n 511 244 = 0) && decide (bits n 239 236 = 0) && decide (bits n 127 120 = 0) && decide (bits n 63 56 = 0)
    && decide (f.blen ≠ 3) && decide (2 ≤ f.bplanes) && decide (f.bplanes ≤ 8)
    && decide (f.apstride % 256 = 0) && decide (1024 * f.kblocks ≤ f.apstride)
    && decide (f.bpstride % 256 = 0) && decide (2048 * f.kblocks ≤ f.bpstride)
    && (if f.imode then decide (f.ascales = 0 ∧ f.bscales = 0 ∧ f.asstride = 0 ∧ f.bsstride = 0)
        else decide (f.nb ≤ f.asstride) && decide (f.nb ≤ f.bsstride))
    && (sparse || (decide (f.fibre = 0) && !f.trans))

/-! ## Entering the queue (R172 to R174, R182) -/

/-- A tile operation takes an entry of the queue; all but ACCRD raise TILE and join the open batch. One of a group on another
core of a spanning team enters in the cycle of its issue too: the spec gives no time for its way through the cluster switch, and
promises no order that depends on it (R173; DESIGN CHOICE, log entry 81). -/
def Ix.enqueue (x : Ix) (s : State) (d : Nat) (kind : TileKind) (tw : Nat) (owned : List Nat) : State :=
  let h := s.anvilOf x.g
  let o : TileOp :=
    { id := x.op, gid := x.gid, team := x.g.team, tile := d, live := x.live, mr := x.heldMr, kind := kind, batch := x.g.batch,
      opc := x.g.pc.toNat, time := x.g.time, tw := tw, started := false, todo := [], got := [], phase := 0, fetched := 0, eaten := 0, eats := none,
      due := [], stuck := false, pins := [], owned := owned }
  let s := s.setGroup x.gid (fun g => match kind with
    | .accrd _ _ => { g with others := g.others ++ [x.op] }
    | _ => g.raisePath 3 x.op tw)
  (s.setCore h (fun c => { c with tileq := c.tileq ++ [o] })).post (.tileOpStart h x.op)

/-- The checks that every tile operation makes at issue: room in the queue, and the tile's range (R170, R172). -/
def Ix.tileOp (x : Ix) (s : State) (d : Nat) (k : Team → Done) : Done :=
  match s.team x.g.team with
  | none => .next s
  | some t =>
    if 32 ≤ (s.core t.home).tileq.length then .stall
    else if t.ntiles ≤ d then x.fail s (trapP 0x19)
    else k t

/-- The column base of ACCRD and ACCWR (R185). -/
def Ix.column (x : Ix) (b : Reg) : Nat := 8 * bits (x.g.sr b.toNat).toNat 7 3

/-- ACCZ (R185). -/
def execAccz (d : Reg) (s : State) : Host.Outcome State Fault Refusal :=
  issue (.accz d) s (fun x s => x.tileOp s d.toNat (fun _ => .next (x.enqueue s d.toNat .accz 0 [])))

/-- ACCRD (R185): its registers are due. -/
def execAccrd (d a b : Reg) (s : State) : Host.Outcome State Fault Refusal :=
  issue (.accrd d a b) s (fun x s => x.tileOp s a.toNat (fun _ =>
    let s := x.enqueue s a.toNat (.accrd d.toNat (x.column b)) 0 []
    if x.live = 0 then .next s
    else x.upd s (fun g => (List.range 8).foldl (fun g j =>
      g.pendWith { op := x.op, kind := .vec, reg := d.toNat + j, lanes := x.live, vec := none, num := none, bad := 0 }) g)))

/-- ACCWR (R185). -/
def execAccwr (d a b : Reg) (s : State) : Host.Outcome State Fault Refusal :=
  issue (.accwr d a b) s (fun x s => x.tileOp s d.toNat (fun _ =>
    .next (x.enqueue s d.toNat (.accwr ((List.range 8).map (fun j => x.g.vr (a.toNat + j))) (x.column b)) 0 [])))

/-! ## MMA and MMAS (R175 to R177) -/

/-- The rows and columns of the pattern that a format's mode makes B rows 0 to 255 and K indices below 64 × kblocks. -/
structure Area where
  r0 : Nat
  rn : Nat
  c0 : Nat
  cn : Nat

/-- The region of the pattern that an MMAS looks at (R176). -/
def regionFor (f : Fmt) (y : Fibre) : Area :=
  if f.trans then ⟨y.row0, 64 * f.kblocks, y.col0, 256⟩ else ⟨y.row0, 256, y.col0, 64 * f.kblocks⟩

/-- The K-blocks for which a coordinate of the pattern lies in the region (R176). -/
def presentOf (f : Fmt) (y : Fibre) (x : Ix) : Rd (List Nat) :=
  let q := regionFor f y
  match y.src with
  | .pattern ws _ =>
    let p := patOf ws
    Rd.pure ((List.range f.kblocks).filter (fun j =>
      if f.trans then (List.range 64).any (fun i => (List.range 256).any (fun n => p.has (q.r0 + 64 * j + i) (q.c0 + n)))
      else (List.range 256).any (fun n => (List.range 64).any (fun i => p.has (q.r0 + n) (q.c0 + 64 * j + i)))))
  | .stored h =>
    let (m0, mn, lo, n) := if h.fmt = 4 then (q.c0, Nat.min q.cn (h.cols - q.c0), q.r0, q.rn)
      else (q.r0, Nat.min q.rn (h.rows - q.r0), q.c0, q.cn)
    Rd.bind (storedRows (swageLine x y.time) h lo n (2 ^ 32) ((List.range mn).map (m0 + ·)) []) (fun l =>
      let ks := l.map (fun e => if f.trans = decide (h.fmt = 4) then e.2.1 - lo else e.1 - m0)
      Rd.pure ((List.range f.kblocks).filter (fun j => ks.any (fun k => decide (k / 64 = j)))))

/-- The pattern of a fibre can be enumerated column by column (R323, R330). -/
def Fibre.invertible (y : Fibre) : Bool := match y.src with | .pattern _ inv => inv | .stored h => decide (h.fmt = 4)

/-- MMA and MMAS at issue: the queue's room (R172), then R175's checks in order, with R176's and the limit
of reduced service (R422). The format block is read once: a wait on a stored index keeps it (R70). -/
def Ix.mma (x : Ix) (s : State) (sparse : Bool) (d a b : Reg) : Done :=
  match s.team x.g.team with
  | none => .next s
  | some t =>
    let fa : Dword := BitVec.ofNat 64 ((x.g.sr a.toNat).toNat % 2 ^ 56)
    let abase := (x.g.sr b.toNat).toNat % 2 ^ 56
    let bbase := (x.g.sr (b.toNat + 1)).toNat % 2 ^ 56
    let bad := trapPA 0x1A fa 0
    if 32 ≤ (s.core t.home).tileq.length then .stall
    else if (s.core t.home).owner ≠ some x.gid then x.fail s (trapP 0x18)
    else if t.ntiles ≤ d.toNat then x.fail s (trapP 0x19)
    else if fa.toNat % 64 ≠ 0 then x.fail s bad
    else
      let with_ := fun (s : State) (data : List Byte) =>
        let f := Fmt.ofBytes data
        let refused := !fmtValid data sparse || (s.dev.reduced && decide (4 < f.bplanes)) || decide (abase % 256 ≠ 0 ∨ bbase % 256 ≠ 0)
        let enter := fun (s : State) (present : List Nat) => Done.next (x.enqueue s d.toNat (.mma f abase bbase present) 0 [])
        if sparse then
          match Assoc.get t.fibres f.fibre with
          | none => .trap s (trapP 0x3A)
          | some y =>
            if f.trans && !y.invertible then .trap s (trapP 0x39)
            else if refused then .trap s bad
            else
              let (s, r) := presentOf f y x s
              match r with
              | .ok l => enter s l
              | .fault at_ code info => .trap s (trapPA code (BitVec.ofNat 64 at_) info)
              | .wait _ g => x.parkWhole s g [packBytes data]
              | .busy => .stall
        else if refused then .trap s bad
        else enter s (List.range f.kblocks)
      match x.captured [] with
      | v :: _ => with_ (x.unheld s) (unpackBytes v 16)
      | [] => x.readFrom s (Nat.max x.g.time x.g.ownTime) fa 64 with_

/-- MMA (R175). -/
def execMma (d a b : Reg) (s : State) : Host.Outcome State Fault Refusal := issue (.mma d a b) s (fun x s => x.mma s false d a b)

/-- MMAS (R176). -/
def execMmas (d a b : Reg) (s : State) : Host.Outcome State Fault Refusal := issue (.mmas d a b) s (fun x s => x.mma s true d a b)

/-! ## Batches and the restart label (R182 to R184, R192) -/

/-- MFENCE (R183). -/
def execMfence (d : Reg) (s : State) : Host.Outcome State Fault Refusal :=
  issue (.mfence d) s (fun x s =>
    x.upd s (fun g => { g.setS d.toNat (BitVec.ofNat 64 g.batch) with batch := (g.batch + 1) % 2 ^ 64 }))

/-- A closed batch of a group up to a number (R184). -/
def Group.covers (g : Group) (n b : Nat) : Bool := decide (b ≤ n) && decide (b < g.batch)

/-- The lines that the ACCSTs of a group's closed batches up to a number wrote, with the times: each comes before the group's later
accesses as a store of its threads in program order would (R184, R251). -/
def Group.sawBatches (g : Group) (n : Nat) : Group :=
  ((g.batchLines.filter (fun (p : Nat × List (Nat × Nat)) => g.covers n p.1)).flatMap Prod.snd).foldl (fun g q => g.sees whole q.1 q.2) g

/-- MWAITB (R184): it cannot issue while a tile operation of a closed batch up to the number given is unfinished; then h
rises to the write times of those batches' ACCSTs (R261), which come before the group's later accesses to their lines. -/
def execMwaitb (a : Reg) (s : State) : Host.Outcome State Fault Refusal :=
  issue (.mwaitb a) s (fun x s =>
    let n := (x.g.sr a.toNat).toNat
    let joins := fun (o : TileOp) => match o.kind with | .accrd _ _ => false | _ => decide (o.gid = x.gid)
    if (s.core (s.anvilOf x.g)).tileq.any (fun o => joins o && x.g.covers n o.batch) then .stall
    else x.upd s (fun g =>
      (g.sawBatches n).raiseH ((g.batchTw.filter (fun (p : Nat × Nat) => g.covers n p.1)).foldl (fun m p => Nat.max m p.2) 0)))

/-- SETRST (R192). -/
def execSetrst (lit : Word) (s : State) : Host.Outcome State Fault Refusal :=
  issue (.setrst lit) s (fun x s =>
    let label : Va := x.g.pc + (lit.signExtend 56 <<< 2)
    x.upd s (fun g => { g with rstpc := if lit = 0 then 0 else label.zeroExtend 64 ||| 1 }))

/-! ## ACCST (R186 to R188) -/

/-- Bytes of a row that ACCST stores. -/
def rowBytes (cvt : Nat) : Nat := if cvt = 0 then 1024 else 512

/-- The rows that an ACCST writes: lane and address. -/
def accRows (live : Mask) (dst stride : Nat) : List (Nat × Nat) := live.lanes.map (fun m => (m, (dst + m * stride) % 2 ^ 64))

/-- The lines of those rows, by virtual address, each once. -/
def accLines (live : Mask) (dst stride cvt : Nat) : List Nat :=
  ((accRows live dst stride).flatMap (fun r => vaLines r.2 (rowBytes cvt))).eraseDups

/-- The physical line that an ACCST may own: one of a Normal or WC page outside the pool (R179, R188). -/
def State.ownable (s : State) (c : Xc) (va : Nat) : State × Option Nat :=
  let (s, r) := s.translate c (BitVec.ofNat 64 va) .write
  match r with
  | .ok pa typ => (s, if 2 ≤ typ ∨ (s.regionOf pa).isSome then none else some (lineOf pa))
  | _ => (s, none)

/-- An ACCST that has waited for a page owns the destination lines that it can translate now, each above the write time of the
operation and every lease (R188, R261). -/
def State.ownMore (s : State) (core : Nat) (o : TileOp) : State :=
  match o.stuck, o.kind with
  | false, .accst dst stride cvt =>
    let c := s.engineXc o.team o.gid o.id
    (accLines o.live dst stride cvt).foldl (fun s va =>
      let (s, r) := s.ownable c va
      match r with
      | none => s
      | some n =>
        if (s.line n).owners.any (fun w => decide (w.op = o.id)) then s
        else
          let tw := Nat.max o.tw (s.line n).nextTime
          ((s.setLine n (fun l => { l with owners := l.owners ++ [{ op := o.id, tw := tw, core := c.core }] })).l1Drop c.core n).setCore core
            (fun y => { y with tileq := y.tileq.map (fun q => if q.id = o.id then { q with owned := q.owned ++ [n] } else q) })) s
  | _, _ => s

/-- ACCST at issue (R186, R188, R261): it owns the destination lines that it can translate, at one write time above the
group time and every lease; a line that it cannot translate yet it takes when its page comes. -/
def execAccst (d a b : Reg) (s : State) : Host.Outcome State Fault Refusal :=
  issue (.accst d a b) s (fun x s => x.tileOp s d.toNat (fun _ =>
    let dst := (x.g.sr a.toNat).toNat
    let w := (x.g.sr b.toNat).toNat
    let cvt := bits w 33 32
    let stride := bits w 31 0
    if bits w 63 34 ≠ 0 ∨ cvt = 3 ∨ stride % 64 ≠ 0 ∨ stride < rowBytes cvt ∨ dst % 64 ≠ 0 then .trap s (trapP 0x1A)
    else
      let c := s.engineXc x.g.team x.gid x.op
      let (s, lines) := (accLines x.live dst stride cvt).foldl (fun ((s, l) : State × List Nat) va =>
        let (s, r) := s.ownable c va
        (s, match r with | some n => l ++ [n] | none => l)) (s, [])
      let tw := lines.foldl (fun t n => Nat.max t (s.line n).nextTime) (x.g.time + 1)
      let s := lines.foldl (fun s n =>
        (s.setLine n (fun l => { l with owners := l.owners ++ [{ op := x.op, tw := tw, core := x.g.core }] })).l1Drop x.g.core n) s
      .next (x.enqueue s d.toNat (.accst dst stride cvt) tw lines)))

/-! ## Faults (R190) -/

/-- Subcause of Table 7.5 for a fault of translation. -/
def anvilSub (code : Nat) : Nat := if code = 0x2A then 1 else if code = 0x2B then 4 else 0

/-- A tile operation of a core's queue, and one changed. -/
def State.tileOf (s : State) (core op : Nat) : Option TileOp := (s.core core).tileq.find? (fun o => decide (o.id = op))
def State.setTileOp (s : State) (core op : Nat) (f : TileOp → TileOp) : State :=
  s.setCore core (fun c => { c with tileq := c.tileq.map (fun o => if o.id = op then f o else o) })

/-- A tile operation meets a fault: it gives up its pins and its lines, and its group is to receive ANVIL_FAULT, upon
which it is discarded. -/
def State.tileFault (s : State) (core : Nat) (o : TileOp) (sub va : Nat) : State :=
  let s := (s.setTileOp core o.id (fun o => { o with stuck := true, started := true, pins := [], owned := [] })).disown o.id o.owned
  s.raiseDeferred o.team
    { gid := o.gid, cat := 1, addr := BitVec.ofNat 64 va, op := o.id,
      info := BitVec.ofNat 64 (place sub 60 + place o.tile 56 + o.opc) }

/-! ## Start (R172) -/

/-- Some scale block of a K-block, by its number in the row. -/
def Fmt.scaleBlocks (f : Fmt) (present : List Nat) : List Nat :=
  present.flatMap (fun j => (List.range f.perK).map (fun i => j * f.perK + i))

/-- The lines of the scale bytes that K-blocks use. -/
def Fmt.scaleLines (f : Fmt) (present : List Nat) : List Nat :=
  ((f.scaleBlocks present).flatMap (fun j =>
    (List.range 128).map (fun m => (f.ascales + m * f.asstride + j) / 256 * 256)
      ++ (List.range 256).map (fun n => (f.bscales + n * f.bsstride + j) / 256 * 256))).eraseDups

/-- TILE_OP_START (R172): an operation starts when no earlier one names its tile; those of the array start in order. -/
def execTileOpStart (core op : Nat) (s : State) : Host.Outcome State Fault Refusal :=
  match s.tileOf core op with
  | none => .next s
  | some o =>
    let before := (s.core core).tileq.takeWhile (fun y => decide (y.id ≠ op))
    let isMma := fun (y : TileOp) => match y.kind with | .mma _ _ _ _ => true | _ => false
    if o.started || before.any (fun y => decide (y.team = o.team ∧ y.tile = o.tile) || (isMma o && isMma y)) then .next s
    else
      let s := s.setTileOp core op (fun o => { o with started := true })
      match o.kind with
      | .mma f _ _ present =>
        if o.live = 0 ∨ present = [] then .next (s.postAt (s.clk + (f.kblocks - present.length)) (.tileOpComplete core op))
        else
          .next (s.post (.tileLineFetch core op))
      | _ => .next (s.post (.tileOpComplete core op))

/-! ## Line fetch (R179 to R181) -/

/-- A byte that the fetch has read. -/
def gotByte (got : Assoc (List Byte)) (a : Nat) : Nat := (((Assoc.getD got (a / 256 * 256) []).getD (a % 256) 0)).toNat

/-- Scale codes of A's row `m` and of B's row `n` (R70). -/
def TileOp.codeA (o : TileOp) (f : Fmt) (m j : Nat) : Nat := gotByte o.got (f.ascales + m * f.asstride + j)
def TileOp.codeB (o : TileOp) (f : Fmt) (n j : Nat) : Nat := gotByte o.got (f.bscales + n * f.bsstride + j)

/-- Planes of A that are read. -/
def Fmt.aplanes (f : Fmt) : Nat := if f.wide then 16 else 8

/-- The lines of an operand's planes that hold bytes of a K-block in the rows where some scale block of it is no zero-block
(R69): a row's bytes of a K-block lie in one line. -/
def planeLines (f : Fmt) (base pstride planes rows j : Nat) (nonzero : Nat → Bool) : List Nat :=
  let lines := (((List.range rows).filter nonzero).map (fun q => (q * (8 * f.kblocks) + 8 * j) / 256 * 256)).eraseDups
  (List.range planes).flatMap (fun p => lines.map (fun i => base + p * pstride + i))

/-- The lines of the planes of both operands that hold a K-block: those its scale codes call for, or all. -/
def TileOp.blockLines (o : TileOp) (f : Fmt) (abase bbase j : Nat) (all : Bool) : List Nat :=
  let blocks := f.scaleBlocks [j]
  planeLines f abase f.apstride f.aplanes 128 j (fun m => all || f.imode || blocks.any (fun i => decide (o.codeA f m i ≠ 0)))
    ++ planeLines f bbase f.bpstride f.bplanes 256 j (fun n => all || f.imode || blocks.any (fun i => decide (o.codeB f n i ≠ 0)))

/-- The lines that hold some byte of K-blocks. -/
def TileOp.linesFor (o : TileOp) (f : Fmt) (abase bbase : Nat) (blocks : List Nat) : List Nat :=
  (if f.imode then [] else f.scaleLines blocks) ++ blocks.flatMap (fun j => o.blockLines f abase bbase j true)

/-- The pins in a slice: those of the shared pool in use, and those reserved for a core in use (R181). -/
def State.sharedPins (s : State) (slice : Nat) : Nat :=
  s.cores.foldl (fun a p => a + (p.2.tileq.flatMap TileOp.pins).countP (fun q => !q.own && decide (s.homeSlice (q.line * 256) = slice))) 0
def State.ownPins (s : State) (core slice : Nat) : Nat :=
  ((s.core core).tileq.flatMap TileOp.pins).countP (fun q => q.own && decide (s.homeSlice (q.line * 256) = slice))

/-- A line is pinned (R181). -/
def State.pinned (s : State) (line : Nat) : Bool := s.cores.any (fun p => p.2.tileq.any (fun o => o.pins.any (fun q => decide (q.line = line))))

/-- The ways of a set of a slice: 16 less those that the die's Crucibles take (R302). The spec does not say which lines of a
slice these are: the model takes them one from each set in turn (DESIGN CHOICE, log entry 84). -/
def State.ways (s : State) (slice set : Nat) : Nat := 16 - (128 * (s.die (slice / 32)).crucible + 767 - set) / 768

/-- A fill of a line can have a way: one is free, or holds a line that is not pinned (R229). -/
def State.wayFor (s : State) (line : Nat) : Bool :=
  let k := s.homeSlice (line * 256)
  let l := (s.slice k).present.filter (fun p => decide (setOf p.1 = setOf line))
  decide (l.length < s.ways k (setOf line)) || l.any (fun p => !s.pinned p.1)

/-- A line that has been read is still on its way to its home slice: its error, if it has one, is still to come (R233). -/
def State.comes (s : State) (line : Nat) : Bool := s.lineDue line && ((s.slice (s.homeSlice (line * 256))).misses.contains line || s.wayFor line)

/-- The pin that a fetch takes: none for a Hearth line, a shared one when free, else one reserved; or it waits. -/
def State.takePin (s : State) (core va pa : Nat) : Option (List Pin) :=
  if s.paKind pa = .hearth then some []
  else
    let k := s.homeSlice pa
    if s.sharedPins k < 512 then some [{ va := va, line := lineOf pa, own := false }]
    else if s.ownPins core k < 4 then some [{ va := va, line := lineOf pa, own := true }]
    else none

/-- The lines of an operation that have come, or that come with an error (R233): the operation meets ANVIL_FAULT. -/
def State.tileArrivals (s : State) (core : Nat) (o : TileOp) : Option State :=
  let come := o.due.filter (fun p => !s.comes p.2)
  match come.find? (fun p => (s.line p.2).bad) with
  | some p => some ((s.poisonEvent (p.2 * 256)).tileFault core o 3 p.1)
  | none => none

/-- The array's work on an operation (R178, R181): a K-block that it has consumed releases the pins of the lines that no later
one uses; it takes up the next one once its operands are fetched; after the last, the absent K-blocks pass. -/
def State.arrayStep (s : State) (core : Nat) (o : TileOp) (f : Fmt) (abase bbase : Nat) (present : List Nat) : State :=
  let done := o.eats.any (fun t => decide (t ≤ s.clk))
  let eaten := if done then o.eaten + 1 else o.eaten
  let busy := o.eats.isSome && !done
  let keep := o.linesFor f abase bbase (present.drop eaten)
  let starts := !busy && decide (eaten < o.fetched)
  let t := s.clk + 8 * f.bplanes * (if f.wide then 2 else 1)
  let s := s.setTileOp core o.id (fun o =>
    { o with eaten := eaten, eats := if busy then o.eats else if starts then some t else none,
             pins := if done then o.pins.filter (fun q => keep.contains q.va) else o.pins })
  let s := if starts then s.postAt t (.tileLineFetch core o.id) else s
  if done ∧ eaten = present.length then s.postAt (s.clk + (f.kblocks - present.length)) (.tileOpComplete core o.id) else s

/-- The next thing that the fetch of an operation does, when it reads no line now: it lists the lines of its K-block, waits for
those on their way, or turns to the next K-block, at most two ahead of the array (R181). -/
def State.fetchTurn (s : State) (core : Nat) (o : TileOp) (f : Fmt) (abase bbase : Nat) (present : List Nat) : State :=
  let again := fun (g : TileOp → TileOp) => (s.setTileOp core o.id g).postOnceAt s.clk (.tileLineFetch core o.id)
  let new := fun (l : List Nat) => (l.filter (fun va => !Assoc.has o.got va)).eraseDups
  match present[o.fetched]? with
  | none => s
  | some j =>
    if o.eaten + 2 < o.fetched then s
    else
      match o.phase with
      | 0 => again (fun o => { o with phase := 1, todo := if f.imode then [] else new (f.scaleLines [j]) })
      | 1 => again (fun o => { o with phase := 2, todo := new (o.blockLines f abase bbase j false) })
      | _ =>
        if o.due.any (fun p => s.comes p.2) then s.postOnceAt (s.clk + 1) (.tileLineFetch core o.id)
        else again (fun o => { o with phase := 0, fetched := o.fetched + 1, due := [] })

/-- One line of an operation is read and pinned (R179 to R181), with the group's own bytes that its combining buffers hold (R240):
R180 lets the fetch see the group's own earlier stores, and names no buffer (DESIGN CHOICE, log entry 97). -/
def State.fetchLine (s : State) (core : Nat) (o : TileOp) (va : Nat) : State :=
  let (s, r) := s.translate (s.engineXc o.team o.gid o.id) (BitVec.ofNat 64 va) .read
  match r with
  | .wait _ => s
  | .fault code _ => s.tileFault core o (anvilSub code) va
  | .ok pa typ =>
    if 2 ≤ typ ∨ (s.regionOf pa).isSome then s.tileFault core o 2 va
    else if (s.bankWait pa).isSome then s.postRef ((s.bankWait pa).getD 0) (.tileLineFetch core o.id)
    else
      match s.takePin core va pa with
      | none => s.postOnceAt (s.clk + 1) (.tileLineFetch core o.id)
      | some pin =>
        let l := s.line (lineOf pa)
        let t := Nat.max o.time l.topTime
        let s := (s.route ((s.engineXc o.team o.gid o.id).core) pa).setLine (lineOf pa) (fun l => { l with rtime := Nat.max l.rtime t })
        if l.bad then (s.poisonEvent pa).tileFault core o 3 va
        else
          (s.setTileOp core o.id (fun o =>
            { o with todo := o.todo.tail, got := Assoc.put o.got va (s.forward ((s.group o.gid).elim core Group.core) o.gid pa (s.bytes pa 256)), pins := o.pins ++ pin,
                     due := if s.lineDue (lineOf pa) then o.due ++ [(va, lineOf pa)] else o.due })).postOnceAt s.clk (.tileLineFetch core o.id)

/-- TILE_LINE_FETCH (R179 to R181): the array takes what has been fetched, and the next line of the operation is read. -/
def execTileLineFetch (core op : Nat) (s : State) : Host.Outcome State Fault Refusal :=
  match s.tileOf core op with
  | none => .next s
  | some o =>
    match o.stuck, o.kind with
    | false, .mma f abase bbase present =>
      (match s.tileArrivals core o with
       | some s => .next s
       | none =>
         let s := s.arrayStep core o f abase bbase present
         match s.tileOf core op with
         | none => .next s
         | some o => .next (match o.todo with
           | va :: _ => s.fetchLine core o va
           | [] => s.fetchTurn core o f abase bbase present))
    | _, _ => .next s

/-! ## The array (R74 to R78) -/

/-- The 64 elements of a row's K-block from the bytes of `n` planes from `p0` on: bit 7 − j from plane j. -/
def TileOp.elems (o : TileOp) (f : Fmt) (base pstride p0 n q j : Nat) : List Nat :=
  let at_ := q * (8 * f.kblocks) + 8 * j
  let planes := (List.range n).map (fun p => (List.range 8).map (fun i => gotByte o.got (base + (p0 + p) * pstride + at_ + i)))
  (List.range 64).map (fun c => (List.range n).foldl (fun e p =>
    e + b2n (bit ((planes.getD p []).getD (c / 8) 0) (c % 8)) <<< (7 - p)) 0)

/-- A row of A in a K-block as integers (R66, R76), and a row of B in half units (R67). -/
def TileOp.rowA (o : TileOp) (f : Fmt) (abase m j : Nat) : List Int :=
  let hi := (o.elems f abase f.apstride 0 8 m j).map pni
  if f.wide then List.zipWith (fun (h : Int) (l : Nat) => 256 * h + l) hi (o.elems f abase f.apstride 8 8 m j) else hi
def TileOp.rowB (o : TileOp) (f : Fmt) (bbase n j : Nat) : List Int :=
  (o.elems f bbase f.bpstride 0 f.bplanes n j).map (fun e => pniHalf e f.bplanes)

/-- The block dot products of a K-block, by scale block (R74). -/
def blockDots (ls : Nat) (a b : List Int) : List Int :=
  (List.range (64 / ls)).map (fun i =>
    (List.zipWith (· * ·) ((a.drop (ls * i)).take ls) ((b.drop (ls * i)).take ls)).foldl (· + ·) 0)

/-- One block step of float mode (R75): the accumulator, the scale codes, the block dot product. A contribution of 0 under two
codes from 0x01 to 0xFE is added as +0: the spec calls it an exact real and gives it no sign (DESIGN CHOICE, log entry 82). -/
def floatStep (mr : Word) (acc ca cb : Nat) (D : Int) : Nat :=
  let f := Fp.f32
  if ca = 255 ∨ cb = 255 then f.nan
  else
    let c : Exact := if ca = 0 ∨ cb = 0 then ⟨false, 0, 0⟩ else ⟨decide (D < 0), D.natAbs, (ca : Int) + cb - 255⟩
    f.flush (mrFtz mr) (f.sum (mrRound mr) (f.decode (f.flush (mrFtz mr) acc)) (.num c))

/-- One block step of integer mode (R78). -/
def intStep (mr : Word) (acc : Word) (D : Int) : Word :=
  let t := acc.toInt + D / 2
  BitVec.ofInt 32 (if mrSat mr then clampInt (-2 ^ 31) (2 ^ 31 - 1) t else t)

/-- The word of an accumulator element after the present K-blocks in ascending K (R75, R77, R78). `a` and `b` hold the
operand rows by K-block. -/
def TileOp.element (o : TileOp) (f : Fmt) (acc : Word) (m n : Nat) (a b : List (Nat × List Int)) : Word :=
  (List.zip a b).foldl (fun acc p =>
    (blockDots f.ls p.1.2 p.2.2).zipIdx.foldl (fun (acc : Word) d =>
      if f.imode then intStep o.mr acc d.1
      else
        let j := p.1.1 * f.perK + d.2
        BitVec.ofNat 32 (floatStep o.mr acc.toNat (o.codeA f m j) (o.codeB f n j) d.1)) acc) acc

/-- The words of a tile after an MMA or MMAS. -/
def TileOp.product (o : TileOp) (f : Fmt) (abase bbase : Nat) (present : List Nat) (words : Assoc Word) : Assoc Word :=
  let bs := (List.range 256).map (fun n => (n, present.map (fun j => (j, o.rowB f bbase n j))))
  o.live.lanes.foldl (fun w m =>
    let a := present.map (fun j => (j, o.rowA f abase m j))
    bs.foldl (fun w b => putWord w (m * 256 + b.1) (o.element f (Assoc.getD w (m * 256 + b.1) 0) m b.1 a b.2)) w) words

/-! ## Completion (R182, R185, R187) -/

/-- A word of a tile lies in an operation's tile, in the rows of LIVE, in `n` columns from `c`. -/
def TileOp.covers (o : TileOp) (c n : Nat) (q : Nat × Nat) : Bool :=
  decide (q.1 = o.tile) && o.live.has (q.2 / 256) && decide (c ≤ q.2 % 256) && decide (q.2 % 256 < c + n)

/-- Words written over in a tile: the rows of LIVE, `n` columns from `c`; their poison is cleared (R185, R191). -/
def Team.putTile (t : Team) (o : TileOp) (c n : Nat) (f : Nat → Nat → Word) : Team :=
  { t with tiles := Vector.put t.tiles o.tile (o.live.lanes.foldl (fun w m =>
             (List.range n).foldl (fun w j => putWord w (m * 256 + c + j) (f m j)) w) (Vector.at0 t.tiles o.tile [])),
           tbad := t.tbad.filter (fun q => !o.covers c n q), tsoft := t.tsoft.filter (fun q => !o.covers c n q) }

/-- A tile operation has completed: it leaves the queue, TILE falls, and later operations may start. -/
def State.tileDone (s : State) (core : Nat) (o : TileOp) : State :=
  let s := s.setCore core (fun c => { c with tileq := c.tileq.filter (fun y => decide (y.id ≠ o.id)) })
  (s.finishOp o.gid o.id).startTiles core

/-- The bytes of a tile's row as ACCST stores them (R187). -/
def TileOp.storeRow (o : TileOp) (words : Assoc Word) (cvt m : Nat) : List Byte :=
  (List.range 256).flatMap (fun n =>
    let w := (Assoc.getD words (m * 256 + n) 0).toNat
    if cvt = 0 then natLe w 4
    else
      let q := if cvt = 1 then Fp.bf16 else Fp.f16
      natLe (q.flush (mrFtz o.mr) (q.ofVal (mrRound o.mr) (Fp.f32.decode (Fp.f32.flush (mrFtz o.mr) w)))) 2)

/-- How an ACCST's look at its destination lines ends: with each line's virtual and physical address; with a fault; or it
waits for a page or for an earlier owner. -/
inductive AccRes where
  | ok (l : List (Nat × Nat))
  | fault (sub va : Nat)
  | page
  | owned

/-- The destination lines of an ACCST at its execution. -/
def State.accTargets (s : State) (o : TileOp) (lines : List Nat) : State × AccRes :=
  let c := s.engineXc o.team o.gid o.id
  lines.foldl (fun (s, r) va =>
    match r with
    | .ok l =>
      let (s, t) := s.translate c (BitVec.ofNat 64 va) .write
      (match t with
       | .wait _ => (s, .page)
       | .fault code _ => (s, .fault (anvilSub code) va)
       | .ok pa typ =>
         if 2 ≤ typ ∨ (s.regionOf pa).isSome then (s, .fault 2 va)
         else
           match (s.line (lineOf pa)).owners with
           | w :: _ => if w.op = o.id then (s, .ok (l ++ [(va, pa)])) else (s, .owned)
           | [] => (s, .ok (l ++ [(va, pa)])))
    | _ => (s, r)) (s, .ok [])

/-- The time at which an ACCST writes a line: that fixed when it took the line, or one above every access of it (R188, R261). -/
def State.rowTime (s : State) (o : TileOp) (n : Nat) : Nat :=
  match (s.line n).owners.find? (fun w => decide (w.op = o.id)) with
  | some w => w.tw
  | none => Nat.max o.tw (s.line n).nextTime

/-- An ACCST writes its rows, each line at one time (R188, R261); where its group has exited they come before the end of the grids
that its team belongs to (R105). -/
def State.writeRows (s : State) (o : TileOp) (dst stride cvt : Nat) (words : Assoc Word) (lines : List (Nat × Nat)) : State :=
  let rows := (accRows o.live dst stride).map (fun r => (r.2, o.storeRow words cvt r.1))
  let times := lines.map (fun p => (lineOf p.2, s.rowTime o (lineOf p.2)))
  let tw := times.foldl (fun t p => Nat.max t p.2) o.tw
  let s := lines.foldl (fun s p =>
    let cells := rows.flatMap (fun r =>
      let start := Nat.max r.1 p.1
      let stop := Nat.min (r.1 + rowBytes cvt) (p.1 + 256)
      if start < stop then cellsAt (p.2 + (start - p.1)) ((r.2.drop (start - r.1)).take (stop - start)) else [])
    let s := s.writeBack (s.engineXc o.team o.gid o.id).core (lineOf p.2) (cells.map (fun (c : Host.Cell) => (c.1 % 256, c.2)))
    (s.storeLine (lineOf p.2) (s.rowTime o (lineOf p.2)) cells).disown o.id [lineOf p.2]) s
  let s := s.disown o.id o.owned
  if (s.group o.gid).isNone then s.gridOrders o.team tw
  else s.setGroup o.gid (fun g =>
    { g.retime o.id tw with batchTw := Assoc.put g.batchTw o.batch (Nat.max tw (Assoc.getD g.batchTw o.batch 0)),
                            batchLines := Assoc.put g.batchLines o.batch (Assoc.getD g.batchLines o.batch [] ++ times) })

/-- TILE_OP_COMPLETE (R182): the operation has its effect on the tile, the registers or memory, and completes. -/
def execTileOpComplete (core op : Nat) (s : State) : Host.Outcome State Fault Refusal :=
  match s.tileOf core op with
  | none => .next s
  | some o =>
    match s.team o.team with
    | none => .next s
    | some t =>
      let words := Vector.at0 t.tiles o.tile []
      if o.stuck || !o.started then .next s
      else
        match o.kind with
        | .mma f abase bbase present =>
          let s := if present = [] then s else s.correctTile o.gid o.team o.tile (fun w => o.live.has (w / 256))
          .next ((if o.live = 0 then s else s.setTeam o.team (fun t =>
            { t with tiles := Vector.put t.tiles o.tile (o.product f abase bbase present words) })).tileDone core o)
        | .accz => .next ((s.setTeam o.team (fun t => t.putTile o 0 256 (fun _ _ => 0))).tileDone core o)
        | .accwr data c =>
          .next ((s.setTeam o.team (fun t => t.putTile o c 8 (fun m j => (data.getD j VReg.zero).lane m))).tileDone core o)
        | .accrd vd c =>
          let s := s.correctTile o.gid o.team o.tile (fun w => o.covers c 8 (o.tile, w))
          let s := s.setGroup o.gid (fun g =>
            ({ g with pend := g.pend.map (fun (x : Pend) =>
                if x.op = op then
                  { x with vec := some (tab 128 (fun m => Assoc.getD words (m * 256 + c + (x.reg - vd)) 0)),
                           bad := Mask.of (fun m => t.tbad.contains (o.tile, m * 256 + c + (x.reg - vd))) }
                else x) }).land op)
          .next (s.tileDone core o)
        | .accst dst stride cvt =>
          let again := s.postAt (s.clk + 1) (.tileOpComplete core op)
          if (s.core core).tileq.any (fun y => decide (y.gid = o.gid) && decide (y.id < op)
              && (match y.kind with | .accst _ _ _ => true | _ => false)) then .next again
          else if o.live.lanes.any (fun m => t.tbad.any (fun q => decide (q.1 = o.tile) && decide (q.2 / 256 = m))) then
            .next (s.tileFault core o 3 0)
          else
            let (s, r) := s.accTargets o (accLines o.live dst stride cvt)
            match r with
            | .page => .next s
            | .owned => .next (s.postAt (s.clk + 1) (.tileOpComplete core op))
            | .fault sub va => .next (s.tileFault core o sub va)
            | .ok lines =>
              let s := s.correctTile o.gid o.team o.tile (fun w => o.live.has (w / 256))
              .next ((s.writeRows o dst stride cvt words lines).tileDone core o)

end Sys2Proof.Machine
end

