-- ==== Sys2Proof/Machine/Place.lean ====
section
/-!
DEFINITION. Register blocks (R109 to R116): the free ranges of a core, the cutting of ranges, a grant, the compactor's
choice; and the creation of a group (R84, R86).
-/
namespace Sys2Proof.Machine
open Sys2Proof

/-- The free ranges of the four blocks from `q`: start and size (R115). -/
def quadRanges (held : List Nat) (q : Nat) : List (Nat × Nat) :=
  let f := fun (b : Nat) => !held.contains b
  let half := fun (b : Nat) => if f b && f (b + 1) then [((b, 2) : Nat × Nat)] else (if f b then [(b, 1)] else []) ++ (if f (b + 1) then [(b + 1, 1)] else [])
  if f q && f (q + 1) && f (q + 2) && f (q + 3) then [(q, 4)] else half q ++ half (q + 2)

/-- The free ranges of a core, by rising block (R115). -/
def freeRanges (held : List Nat) : List (Nat × Nat) := (List.range 32).flatMap (fun i => quadRanges held (4 * i))

/-- The lowest block of the smallest free range of at least `n` (R115). -/
def cutRange (held : List Nat) (n : Nat) : Option Nat :=
  ((freeRanges held).foldl (fun (a : Option (Nat × Nat)) r =>
    if r.2 < n then a
    else match a with
      | some b => if r.2 < b.2 then some r else a
      | none => some r) none).map Prod.fst

/-- Physical blocks for `n` logical blocks of a grant, lowest logical block first; none while a pair must first be made
(R115, R116). -/
def cutBlocks (held : List Nat) (n : Nat) : Option (List Nat) :=
  match n with
  | 0 => some []
  | 1 => (cutRange held 1).map (fun b => [b])
  | 2 => (cutRange held 2).map (fun b => [b, b + 1])
  | _ =>
    match cutRange held 2 with
    | none => none
    | some b => (cutRange (b :: (b + 1) :: held) 1).map (fun c => [b, b + 1, c])

/-- The compactor's move: the held block of the lowest pair that holds one held and one free block, and the lowest free
block outside the pair (R116). A block in use that no group holds is neither. -/
def compactorMove (held used : List Nat) : Option (Nat × Nat) :=
  let one := fun (a b : Nat) => held.contains a && !used.contains b
  match (List.range 64).find? (fun i => one (2 * i) (2 * i + 1) || one (2 * i + 1) (2 * i)) with
  | none => none
  | some i =>
    let src := if held.contains (2 * i) then 2 * i else 2 * i + 1
    ((List.range 128).find? (fun b => !used.contains b && decide (b / 2 ≠ i))).map (fun d => (src, d))

/-- The extended blocks of a mask, as logical block numbers. -/
def wantedBlocks (m : BitVec 3) : List Nat := (List.range 3).filter (fun i => m.getLsbD i) |>.map (· + 1)

/-- The marks of registers outside a logical block. -/
def outsideBlock (l : List RegPos) (i : Nat) : List RegPos := l.filter (fun x => !(decide (x.kind = .vec) && decide (x.reg / 32 = i)))

/-- A group is given blocks: its map takes them, and every register of them is zeroed (R113). -/
def Group.giveBlocks (g : Group) (l : List (Nat × Nat)) : Group :=
  l.foldl (fun g p =>
    { g with blocks := Vector.put g.blocks p.1 (some p.2),
             v := tab 128 (fun r => if r / 32 = p.1 then VReg.zero else g.vr r),
             bad := outsideBlock g.bad p.1, soft := outsideBlock g.soft p.1 }) g

/-- Blocks leave a group with their contents, their poison and the results that have not landed in them (R113). -/
def Group.dropBlocks (g : Group) (l : List Nat) : Group :=
  l.foldl (fun g i =>
    { g with blocks := Vector.put g.blocks i none,
             v := tab 128 (fun r => if r / 32 = i then VReg.zero else g.vr r),
             bad := outsideBlock g.bad i, soft := outsideBlock g.soft i,
             pend := g.pend.filter (fun x => !(decide (x.kind = .vec) && decide (x.reg / 32 = i))) }) g

/-- A reserve of a team (R112). -/
def Team.reserve (t : Team) (c : Nat) (r : Role) : Reserve :=
  Assoc.getD t.reserves (reserveKey c r) { count := 0, cap := 0, line := [] }

/-- A reserve changed. -/
def Team.setReserve (t : Team) (c : Nat) (r : Role) (f : Reserve → Reserve) : Team :=
  { t with reserves := Assoc.put t.reserves (reserveKey c r) (f (t.reserve c r)) }

/-- Lowest-numbered free context of a core (R83). -/
def State.lowestContext (s : State) (c : Nat) : Option Nat :=
  (List.range 96).find? (fun n => !(s.coreGroups c).any (fun p => decide (p.2.ctx = n)))

/-- Lowest group number that no living group of a team holds (R84). -/
def State.lowestNumber (s : State) (tid : Nat) : Option Nat :=
  (List.range 96).find? (fun n => !(s.teamGroups tid).any (fun p => decide (p.2.num = n)))

/-- A newly created group (R36, R86, Table 4.2), every thread's times at `born` (R250). -/
def Group.made (tid core ctx num : Nat) (role : Role) (pri : Nat) (pc : Va) (args : List Dword) (sp : Dword) (block born : Nat)
    (tvec : Va) (stop : Stop) : Group :=
  { team := tid, core := core, ctx := ctx, num := num, role := role, pri := pri, pc := pc,
    s := tab 128 (fun r => if r = 127 then sp else if r < 8 then args.getD r 0 else 0),
    v := Vector.replicate 128 VReg.zero, p := Vector.replicate 12 0, exec := BitVec.allOnes 128, mr := mrReset, stack := [],
    blocks := tab 4 (fun i => if i = 0 then some block else none), bad := [], soft := [],
    regerr := { valid := false, ce := 0, latent := 0, kind := 0, reg := 0, lane := 0 }, paths := Vector.replicate 8 [],
    times := Vector.replicate 128 ⟨born, born, born, born⟩, near := [], seen := [], qflags := 0, bstatus := false, qstatus := 0,
    preq := 0, refs := 0, walks := 0, park := none, sleep := none, starve := 0, last := none, order := 0, rstpc := 0,
    restarts := 0, restarted := false, batch := 0, batchTw := [], batchLines := [], serial := 0, tickets := [], mon := none, snap := none,
    ends := Vector.replicate 8 0,
    trap := { code := 0, partialBit := false, defer := false, tpc := 0, taddr := 0, tinfo := 0, tdone := 0, orig := false,
              count := 0, tvec := tvec, hcount := 0, tmask := 0, inHandler := false, inh := false, first := 0 },
    stop := stop, replay := none, hreplay := none, skip := none, pend := [], fills := [], flushing := [], armed := none,
    skipAside := none, raised := 0, others := [], owed := [], born := born, ready := 0, after := [], fences := [],
    wcTime := 0, ownTime := 0, counts := [] }

/-- A newly placed team: function, origin, serial, lifetime, home core, core slots, scratch units, tiles, reserves, trap
vector (R22, R195, R196). -/
def Team.made (fn : Nat) (origin : Origin) (serial life home : Nat) (slots : List (Nat × Nat)) (units ntiles : Nat)
    (reserves : Assoc Reserve) (tvec : Va) : Team :=
  { func := fn, origin := origin, serial := serial, life := life, home := home, since := 0, slots := slots,
    units := units, scratch := [], sbad := [], ssoft := [], tags := [], ntiles := ntiles, tiles := Vector.replicate 12 [], tbad := [], tsoft := [],
    reserves := reserves, patterns := [], gens := [], fibres := [], hearth := 0, halt := .none,
    pending := [], held := [], attach := false, btimes := [], bafter := [], orphans := [],
    oldTickets := [], ended := none, tvec := tvec, preCount := 0 }

/-- Blocks that no range may take: those held, and in each copy of the compactor its destination and the free block of
its pair, which is for the grant (R116). -/
def State.usedBlocks (s : State) (c : Nat) : List Nat :=
  s.heldBlocks c ++ (s.core c).moving.flatMap (fun m => if 128 ≤ m.src then [] else if m.want = 0 then [m.dst] else [m.dst, m.src ^^^ 1])

/-- A group is created on a core for a team, with the next key; the state's `uid` is its key. It may issue from the next
cycle on (R97); `after` are the atomics of its creator that come before its accesses (R98, R106). In a halted team it stops at
once (R99, R393). -/
def State.createGroup (s : State) (tid core num : Nat) (role : Role) (pri : Nat) (pc : Va) (args : List Dword) (sp : Dword)
    (born : Nat) (after : List Nat := []) : State :=
  match s.team tid, s.lowestContext core, cutRange (s.usedBlocks core) 1 with
  | some t, some ctx, some b =>
    let gid := s.uid + 1
    let g := Group.made tid core ctx num role pri pc args sp b born t.tvec .running
    let g := if t.halt = .none then g else g.stopAt 0
    { s with uid := gid, groups := Assoc.put s.groups gid { g with ready := s.clk + 1, after := after } }
  | _, _, _ => s

/-- The graph run that a team belongs to. -/
def State.graphOf (s : State) (t : Team) : Nat :=
  match t.origin with
  | .stage g _ => g
  | .grid d e => ((Assoc.get (s.die d).grids e).map Grid.graph).getD 0

end Sys2Proof.Machine
end

