-- ==== Sys2Proof/Machine/Blocks.lean ====
section
/-!
DEFINITION. Extended register blocks: XACQ, XTRY, XREL, the grants of a wait line, the compactor, and register deadlock
(R113, R115 to R121).
-/
namespace Sys2Proof.Machine
open Sys2Proof

/-- The blocks of an admitted grant are given to a group, zeroed (R113, R115); none while a pair must first be made. -/
def State.cutGrant (s : State) (gid : Nat) (want : BitVec 3) : Option State :=
  match s.group gid with
  | none => some s
  | some g => (cutBlocks (s.usedBlocks g.core) (blockCount want)).map (fun phys =>
      s.setGroup gid (fun g => g.giveBlocks ((wantedBlocks want).zip phys)))

/-- A held block moves: its owner's block map changes, and the single-bit errors that the compactor reads are corrected (R116, R122,
R123). -/
def State.moveBlock (s : State) (core src dst : Nat) : State :=
  { s with groups := s.groups.map (fun (p : Nat × Group) =>
      if p.2.core = core ∧ p.2.blocks.toList.contains (some src) then
        (p.1, { p.2.correct (fun x => decide (x.kind = .vec) && decide (Vector.at0 p.2.blocks (x.reg / 32) none = some src)) with
          blocks := p.2.blocks.map (fun b => if b = some src then some dst else b) })
      else p) }

/-- The reserve of a group's role on its core falls by what it is granted (R117). -/
def State.drawReserve (s : State) (g : Group) (n : Nat) : State :=
  s.setTeam g.team (fun t => t.setReserve g.core g.role (fun r => { r with count := r.count - n }))

/-- A copy of the compactor of a core is in progress. -/
def State.copying (s : State) (core : Nat) : Bool := (s.core core).moving.any (fun m => decide (m.src < 128))

/-- A grant to a group that waits, or that must wait for the compactor, which makes one copy at a time: its PC advances when it has its
blocks. -/
def State.grantParked (s : State) (gid : Nat) (want : BitVec 3) : State :=
  match s.group gid with
  | none => s
  | some g =>
    match s.cutGrant gid want with
    | some s => s.setGroup gid (fun g => if g.park = some .blocks then g.unpark else g)
    | none =>
      let m : BlockMove := { src := 128, dst := 128, gid := gid, want := want }
      let add := fun (m : BlockMove) => s.setCore g.core (fun c => { c with moving := c.moving ++ [m] })
      match (if s.copying g.core then none else compactorMove (s.heldBlocks g.core) (s.usedBlocks g.core)) with
      | some (src, dst) => (add { m with src := src, dst := dst }).post (.compactorCopyDone g.core)
      | none => add m

/-- The compactor's copy of a core ends: the block has moved, its grant is made, and the grants that have waited for the compactor are
looked at in their order (R116). -/
def State.endCopy (s : State) (core : Nat) : State :=
  match (s.core core).moving.find? (fun m => decide (m.src < 128)) with
  | none => s
  | some m =>
    let rest := ((s.core core).moving.erase m).filter (fun w => decide (w.want ≠ 0))
    let s := (s.setCore core (fun c => { c with moving := [] })).moveBlock core m.src m.dst
    (if m.want = 0 then rest else m :: rest).foldl (fun s w => s.grantParked w.gid w.want) s

/-- The compactor of a core ends its copies, one after another. -/
def State.endCopies (s : State) (core : Nat) : Nat → State
  | 0 => s
  | n + 1 => if s.copying core then (s.endCopy core).endCopies core n else s

/-- Where a waiter stands in its line: by priority, then by arrival (R118). -/
def joinLine (w : BlockWait) : List BlockWait → List BlockWait
  | [] => [w]
  | x :: r => if x.pri < w.pri then w :: x :: r else x :: joinLine w r

/-- Every living group of a team waits in a line of register blocks (R120). -/
def State.deadlocked (s : State) (tid : Nat) : Bool :=
  match s.team tid with
  | none => false
  | some t =>
    let gs := s.teamGroups tid
    decide (gs ≠ []) && gs.all (fun p => decide (p.2.park = some .blocks)
      && (t.reserve p.2.core p.2.role).line.any (fun w => decide (w.gid = p.1)))

/-- A register deadlock that has arisen is found in the next cycle (R120). -/
def State.watchDeadlock (s : State) (tid : Nat) : State :=
  if s.deadlocked tid then s.postAt (s.clk + 1) (.registerDeadlockDetection tid) else s

/-- XACQ (R117). -/
def execXacq (m : BitVec 3) (s : State) : Host.Outcome State Fault Refusal :=
  issue (.xacq m) s (fun x s =>
    match s.team x.g.team with
    | none => .next s
    | some t =>
      let r := t.reserve x.g.core x.g.role
      let want := m &&& ~~~ x.g.xheld
      let n := blockCount want
      let parked := s.setGroup x.gid (fun g => { g with park := some .blocks })
      if (s.core x.g.core).moving.any (fun w => decide (w.gid = x.gid)) then .stay parked
      else if r.cap < n then .trap s (trapP 0x11)
      else if n = 0 then .next s
      else if r.line = [] ∧ n ≤ r.count then
        let s := s.drawReserve x.g n
        match s.cutGrant x.gid want with
        | some s => .next s
        | none => .stay ((s.setGroup x.gid (fun g => { g with park := some .blocks })).grantParked x.gid want)
      else
        let w : BlockWait := { gid := x.gid, want := want, pri := x.g.pri, cycle := s.clk }
        let s := parked.setTeam x.g.team (fun t => t.setReserve x.g.core x.g.role (fun r =>
          { r with line := if r.line.any (fun y => decide (y.gid = x.gid)) then r.line else joinLine w r.line }))
        .stay (s.watchDeadlock x.g.team))

/-- XTRY (R117). A compaction that its grant needs is made at once, after the copies in progress (R116). -/
def execXtry (d : Reg) (m : BitVec 3) (s : State) : Host.Outcome State Fault Refusal :=
  issue (.xtry d m) s (fun x s =>
    match s.team x.g.team with
    | none => .next s
    | some t =>
      let r := t.reserve x.g.core x.g.role
      let want := m &&& ~~~ x.g.xheld
      let n := blockCount want
      let write := fun (s : State) (ok : Bool) => x.upd s (fun g => g.setPLanes d.toNat x.live (Mask.all ok))
      if r.cap < n then .trap s (trapP 0x11)
      else if n = 0 then write s true
      else if r.line = [] ∧ n ≤ r.count then
        let s := s.drawReserve x.g n
        match s.cutGrant x.gid want with
        | some s => write s true
        | none =>
          let s := s.endCopies x.g.core ((s.core x.g.core).moving.length + 1)
          match s.cutGrant x.gid want with
          | some s => write s true
          | none =>
            let s := match compactorMove (s.heldBlocks x.g.core) (s.usedBlocks x.g.core) with
              | some (src, dst) => s.moveBlock x.g.core src dst
              | none => s
            write ((s.cutGrant x.gid want).getD s) true
      else write s false)

/-- XREL (R117). -/
def execXrel (m : BitVec 3) (s : State) : Host.Outcome State Fault Refusal :=
  issue (.xrel m) s (fun x s =>
    let rel := m &&& x.g.xheld
    let s := s.setGroup x.gid (fun g => g.dropBlocks (wantedBlocks rel))
    let s := s.setTeam x.g.team (fun t => t.setReserve x.g.core x.g.role (fun r => { r with count := r.count + blockCount rel }))
    .next (if rel = 0 then s else s.postOnceAt (s.clk + 1) (.xacqGrant x.g.team x.g.core x.g.role)))

/-- Grants from the front of a wait line while the front waiter's need does not exceed the reserve (R118). -/
def State.grantLine (s : State) (tid core : Nat) (role : Role) : Nat → State
  | 0 => s
  | n + 1 =>
    match (s.team tid).map (fun t => t.reserve core role) with
    | none => s
    | some r =>
      match r.line with
      | [] => s
      | w :: rest =>
        if r.count < blockCount w.want then s
        else
          let s := s.setTeam tid (fun t => t.setReserve core role (fun r =>
            { r with count := r.count - blockCount w.want, line := rest }))
          (s.grantParked w.gid w.want).grantLine tid core role n

/-- XACQ_GRANT (R118): a halted team's lines grant nothing (R121). -/
def execXacqGrant (tid core : Nat) (role : Role) (s : State) : Host.Outcome State Fault Refusal :=
  match s.team tid with
  | none => .next s
  | some t => if t.halt ≠ .none then .next s else .next (s.grantLine tid core role (t.reserve core role).line.length)

/-- COMPACTOR_COPY_DONE (R116). -/
def execCompactorCopyDone (core : Nat) (s : State) : Host.Outcome State Fault Refusal := .next (s.endCopy core)

/-! ## Errors in registers, tiles and scratch (R123, R171, R204) -/

/-- REGISTER_ERROR: a single-bit error in a register word waits for its correction at the next read; a double-bit error
poisons the word, or the predicate, EXEC or MR (R123). A predicate and EXEC have a code for each 32-lane quarter, which the mark of a
single-bit error names in its lane's place. -/
def State.registerError (s : State) (gid : Nat) (kind reg lane : Nat) (double : Bool) : State :=
  let k : RegKind := match kind with | 0 => .vec | 1 => .scalar | 2 => .pred | _ => .special
  let x : RegPos := { kind := k, reg := reg, lane := if kind = 0 then lane else 0 }
  let quarter := if kind = 2 ∨ (3 ≤ kind ∧ reg = 0) then lane % 128 / 32 else x.lane
  let y : RegPos := { x with lane := quarter }
  s.setGroup gid (fun g =>
    let there := match k with
      | .vec => decide (reg < 128) && g.holds reg && decide (lane < 128)
      | .scalar => decide (reg < 128)
      | .pred => decide (reg < 12)
      | .special => decide (reg < 2)
    if !there || g.bad.contains x then g
    else if double then
      { g with bad := g.bad ++ [x],
               soft := g.soft.filter (fun z => !decide (z.kind = k ∧ z.reg = reg ∧ (kind = 0 → z.lane = x.lane))) }
    else if g.soft.contains y then g
    else { g with soft := g.soft ++ [y] })

/-- TILE_ERROR: the same in a word of a tile, by 256 × row + column (R171, R190). -/
def State.tileError (s : State) (tid tile word : Nat) (double : Bool) : State :=
  let x := (tile, word)
  s.setTeam tid (fun t =>
    if t.ntiles ≤ tile ∨ 32768 ≤ word ∨ t.tbad.contains x then t
    else if double then { t with tbad := t.tbad ++ [x], tsoft := t.tsoft.filter (fun y => decide (y ≠ x)) }
    else if t.tsoft.contains x then t
    else { t with tsoft := t.tsoft ++ [x] })

/-- SCRATCH_ERROR: the same in a word of scratch, by its offset (R204). -/
def State.scratchError (s : State) (tid off : Nat) (double : Bool) : State :=
  s.setTeam tid (fun t =>
    if off % 4 ≠ 0 ∨ !t.inScratch off 4 ∨ t.sbad.contains off then t
    else if double then { t with sbad := t.sbad ++ [off], ssoft := t.ssoft.filter (fun y => decide (y ≠ off)) }
    else if t.ssoft.contains off then t
    else { t with ssoft := t.ssoft ++ [off] })

/-! ## Register deadlock (R120) -/

/-- The group of a team that parked earliest in a line of register blocks, the lowest number among those of one cycle. -/
def State.firstParked (s : State) (tid : Nat) : Option Nat :=
  match s.team tid with
  | none => none
  | some t =>
    let l := (s.teamGroups tid).filterMap (fun p =>
      ((t.reserve p.2.core p.2.role).line.find? (fun w => decide (w.gid = p.1))).map (fun w => ((w.cycle, p.2.num, p.1) : Nat × Nat × Nat)))
    (l.foldl (fun (a : Option (Nat × Nat × Nat)) y =>
      match a with
      | none => some y
      | some z => if y.1 < z.1 ∨ (y.1 = z.1 ∧ y.2.1 < z.2.1) then some y else a) none).map (fun z => z.2.2)

/-- REGISTER_DEADLOCK_DETECTION (R120). -/
def execRegisterDeadlockDetection (tid : Nat) (s : State) : Host.Outcome State Fault Refusal :=
  if s.deadlocked tid then
    match s.firstParked tid with
    | none => .next s
    | some gid =>
      let s := s.setTeam tid (fun t => { t with reserves := t.reserves.map (fun (p : Nat × Reserve) =>
        (p.1, { p.2 with line := p.2.line.filter (fun w => decide (w.gid ≠ gid)) })) })
      .next (s.takeTrap gid (trapP 0x12))
  else .next s

end Sys2Proof.Machine
end

