-- ==== Sys2Proof/Machine/Crypto.lean ====
section
/-!
DEFINITION. The functions that the spec names by their standards: AES-256-GCM (NIST SP 800-38D), which protects the flits of a
link (R348), and SHAKE256 (FIPS 202), the digest of save images and measurements (R410, R425).
-/
namespace Sys2Proof.Machine
open Sys2Proof

/-! ## AES-256 (FIPS 197) -/

/-- The S-box, 32 bytes to a number, byte 0 lowest. -/
def sboxWords : List Nat :=
  [ 0xc072a49cafa2d4adf04759fa7dc982ca76abd7fe2b670130c56f6bf27b777c63,
    0x75b227ebe28012079a059618c323c7041531d871f1e5a534ccf73f362693fdb7,
    0xcf584c4a39becb6a5bb1fc20ed00d153842fe329b3d63b52a05a6e1b1a2c8309,
    0xd2f3ff1021dab6bcf5389d928f40a351a89f3c507f02f94585334d43fbaaefd0,
    0xdb0b5ede14b8ee4688902a22dc4f816073195d643d7ea7c41744975fec130ccd,
    0x08ae7a65eaf4566ca94ed58d6d37c8e779e4959162acd3c25c2406490a3a32e0,
    0x9e1dc186b95735610ef6034866b53e708a8bbd4b1f74dde8c6b4a61c2e2578ba,
    0x16bb54b00f2d99416842e6bf0d89a18cdf2855cee9871e9b948ed9691198f8e1 ]

/-- A byte through the S-box. -/
def sbox (x : Nat) : Nat := (sboxWords.getD (x / 32) 0 >>> (8 * (x % 32))) % 256

/-- A byte times 2 in the field of AES. -/
def xtime (b : Nat) : Nat := (2 * b) ^^^ (if 128 ≤ b then 0x11B else 0)

/-- Two byte strings, exclusive or. -/
def xorBytes (a b : List Nat) : List Nat := List.zipWith (· ^^^ ·) a b

/-- The words of the key schedule after the first eight, newest first: `n` of them, from word `i` on. -/
def keyWords : Nat → Nat → Nat → List (List Nat) → List (List Nat)
  | 0, _, _, l => l
  | n + 1, i, rcon, l =>
    let last := l.headD []
    let step := if i % 8 = 0 then xorBytes ((last.rotateLeft 1).map sbox) [rcon, 0, 0, 0] else if i % 8 = 4 then last.map sbox else last
    keyWords n (i + 1) (if i % 8 = 0 then xtime rcon else rcon) (xorBytes (l.getD 7 []) step :: l)

/-- The 15 round keys of a 32-byte key. -/
def roundKeys (key : List Nat) : List (List Nat) :=
  let first := (List.range 8).map (fun i => (key.drop (4 * i)).take 4)
  let w := (keyWords 52 8 1 first.reverse).reverse
  (List.range 15).map (fun r => ((w.drop (4 * r)).take 4).flatten)

/-- The rows of a block shifted: byte r of column c comes from column c + r. -/
def shiftRows (b : List Nat) : List Nat := (List.range 16).map (fun i => b.getD ((i + 4 * (i % 4)) % 16) 0)

/-- One column mixed. -/
def mixColumn (b : List Nat) (c : Nat) : List Nat :=
  (List.range 4).map (fun r =>
    let x := fun (i : Nat) => b.getD (4 * c + (r + i) % 4) 0
    xtime (x 0) ^^^ xtime (x 1) ^^^ x 1 ^^^ x 2 ^^^ x 3)

/-- A block enciphered under the round keys. -/
def aesBlock (keys : List (List Nat)) (block : List Nat) : List Nat :=
  let b := xorBytes block (keys.getD 0 [])
  let b := (List.range 13).foldl (fun b r =>
    let t := shiftRows (b.map sbox)
    xorBytes ((List.range 4).flatMap (mixColumn t)) (keys.getD (r + 1) [])) b
  xorBytes (shiftRows (b.map sbox)) (keys.getD 14 [])

/-! ## GCM (NIST SP 800-38D) -/

/-- A byte string as a number, the first byte highest, and back. -/
def beNat (b : List Nat) : Nat := b.foldl (fun a x => 256 * a + x) 0
def beBytes (n x : Nat) : List Nat := (List.range n).map (fun i => (x >>> (8 * (n - 1 - i))) % 256)

/-- The product of two blocks in the field of GHASH; `n` bits of `x` are left. -/
def ghashMul (x : Nat) : Nat → Nat → Nat → Nat
  | 0, z, _ => z
  | n + 1, z, v => ghashMul x n (if x.testBit n then z ^^^ v else z) ((v >>> 1) ^^^ (if v % 2 = 1 then 0xE1 <<< 120 else 0))

/-- GHASH of blocks under a hash key. -/
def ghash (h : Nat) (l : List Nat) : Nat := l.foldl (fun y x => ghashMul (y ^^^ x) 128 0 h) 0

/-- The blocks of a byte string, the last filled up with zeros. -/
def blocks16 (b : List Nat) : List Nat :=
  (List.range ((b.length + 15) / 16)).map (fun i => let p := (b.drop (16 * i)).take 16; beNat (p ++ List.replicate (16 - p.length) 0))

/-- The bytes that GCM adds to a text of `n` bytes under a 96-bit IV. -/
def gcmStream (keys : List (List Nat)) (iv n : Nat) : List Nat :=
  ((List.range ((n + 15) / 16)).flatMap (fun i => aesBlock keys (beBytes 16 (iv * 2 ^ 32 + i + 2)))).take n

/-- The 128-bit tag of a ciphertext with additional authenticated data. -/
def gcmTag (keys : List (List Nat)) (iv : Nat) (aad text : List Nat) : List Nat :=
  let h := beNat (aesBlock keys (List.replicate 16 0))
  let y := ghash h (blocks16 aad ++ blocks16 text ++ [aad.length * 8 * 2 ^ 64 + text.length * 8])
  xorBytes (beBytes 16 y) (aesBlock keys (beBytes 16 (iv * 2 ^ 32 + 1)))

/-- A text enciphered, and its tag. -/
def gcmSeal (key : List Nat) (iv : Nat) (aad plain : List Nat) : List Nat × List Nat :=
  let keys := roundKeys key
  let c := xorBytes plain (gcmStream keys iv plain.length)
  (c, gcmTag keys iv aad c)

/-- A ciphertext deciphered, and whether its tag passes. -/
def gcmOpen (key : List Nat) (iv : Nat) (aad text tag : List Nat) : List Nat × Bool :=
  let keys := roundKeys key
  (xorBytes text (gcmStream keys iv text.length), decide (tag = gcmTag keys iv aad text))

/-! ## SHAKE256 (FIPS 202) -/

/-- The offsets of rho by lane x + 5y, and the constants of iota. -/
def rhoOffsets : List Nat := [0, 1, 62, 28, 27, 36, 44, 6, 55, 20, 3, 10, 43, 25, 39, 41, 45, 15, 21, 8, 18, 2, 61, 56, 14]
def iotaWords : List Nat :=
  [ 0x1, 0x8082, 0x800000000000808a, 0x8000000080008000,
    0x808b, 0x80000001, 0x8000000080008081, 0x8000000000008009,
    0x8a, 0x88, 0x80008009, 0x8000000a,
    0x8000808b, 0x800000000000008b, 0x8000000000008089, 0x8000000000008003,
    0x8000000000008002, 0x8000000000000080, 0x800a, 0x800000008000000a,
    0x8000000080008081, 0x8000000000008080, 0x80000001, 0x8000000080008008 ]

/-- A 64-bit lane rotated left. -/
def rotl64 (x n : Nat) : Nat := ((x <<< n) % 2 ^ 64) ||| (x >>> (64 - n))

/-- One round of Keccak-f[1600] on the 25 lanes x + 5y. -/
def keccakRound (a : List Nat) (rc : Nat) : List Nat :=
  let c := (List.range 5).map (fun x => (List.range 5).foldl (fun s y => s ^^^ a.getD (x + 5 * y) 0) 0)
  let d := (List.range 5).map (fun x => c.getD ((x + 4) % 5) 0 ^^^ rotl64 (c.getD ((x + 1) % 5) 0) 1)
  let t := List.zipWith (fun (v : Nat) (i : Nat) => rotl64 (v ^^^ d.getD (i % 5) 0) (rhoOffsets.getD i 0)) a (List.range 25)
  -- pi: lane (x, y) comes from lane (x + 3y, x)
  let b := (List.range 25).map (fun i => t.getD ((i % 5 + 3 * (i / 5)) % 5 + 5 * (i % 5)) 0)
  (List.range 25).map (fun i =>
    let at_ := fun (k : Nat) => b.getD ((i % 5 + k) % 5 + 5 * (i / 5)) 0
    at_ 0 ^^^ ((2 ^ 64 - 1 - at_ 1) &&& at_ 2) ^^^ (if i = 0 then rc else 0))

/-- Keccak-f[1600]. -/
def keccak (a : List Nat) : List Nat := iotaWords.foldl keccakRound a

/-- The 17 lanes of a 136-byte block. -/
def laneWords (b : List Byte) : List Nat := (List.range 17).map (fun i => leNat ((b.drop (8 * i)).take 8))

/-- The state after the `n` whole blocks of a padded string. -/
def absorb : Nat → List Byte → List Nat → List Nat
  | 0, _, a => a
  | n + 1, b, a => absorb n (b.drop 136) (keccak (List.zipWith (· ^^^ ·) a (laneWords (b.take 136) ++ List.replicate 8 0)))

/-- The first 64 bytes of the SHAKE256 of a byte string. -/
def shake512 (b : List Byte) : List Byte :=
  let r := b.length % 136
  let pad : List Byte := if r = 135 then [0x9F] else [0x1F] ++ List.replicate (134 - r) 0 ++ [0x80]
  let a := absorb (b.length / 136 + 1) (b ++ pad) (List.replicate 25 0)
  ((a.take 8).flatMap (fun w => natLe w 8))

end Sys2Proof.Machine
end

