-- ==== Sys2Proof/Machine/Command.lean ====
section
/-!
DEFINITION. The host port's registers and commands (R414 to R416): the command ring, completion entries, and the checks
that every command passes.
-/
namespace Sys2Proof.Machine
open Sys2Proof

/-! ## Commands (Tables 17.2 to 17.4) -/

/-- A command entry's fields (Table 17.2). -/
def cmdOfBytes (fn : Nat) (b : List Byte) : Cmd :=
  let n := leNat b
  let w := fun (i : Nat) => BitVec.ofNat 64 (bits n (127 + 64 * i) (64 + 64 * i))
  { func := fn, op := BitVec.ofNat 8 n, rsv := BitVec.ofNat 40 (bits n 47 8), tag := BitVec.ofNat 16 (bits n 63 48),
    a0 := w 0, a1 := w 1, a2 := w 2, a3 := w 3, a4 := w 4, a5 := w 5, a6 := w 6 }

/-- The argument words. -/
def cmdArgs (c : Cmd) : List Dword := [c.a0, c.a1, c.a2, c.a3, c.a4, c.a5, c.a6]

/-- Who may give a command, and how many argument words it uses (Table 17.4). -/
def cmdShape (op : Nat) : Option (Bool × Nat) :=
  match op with
  | 0x01 => some (false, 5)
  | 0x02 => some (false, 1)
  | 0x03 => some (false, 1)
  | 0x04 => some (false, 1)
  | 0x10 => some (true, 1)
  | 0x11 => some (true, 3)
  | 0x12 => some (true, 1)
  | 0x18 => some (true, 3)
  | 0x19 => some (false, 0)
  | 0x1A => some (true, 2)
  | 0x20 => some (true, 5)
  | 0x21 => some (true, 4)
  | 0x28 => some (true, 2)
  | 0x29 => some (true, 5)
  | 0x30 => some (true, 4)
  | 0x31 => some (true, 1)
  | 0x32 => some (true, 5)
  | 0x33 => some (true, 1)
  | 0x34 => some (true, 7)
  | 0x38 => some (false, 4)
  | 0x39 => some (false, 1)
  | 0x3A => some (false, 1)
  | 0x3B => some (true, 2)
  | 0x3C => some (true, 1)
  | 0x40 => some (true, 1)
  | 0x41 => some (true, 6)
  | 0x48 => some (true, 2)
  | 0x50 => some (false, 5)
  | 0x51 => some (true, 7)
  | 0x52 => some (true, 1)
  | _ => none

/-- The row that RETIRE_ROW names (Table 15.8 bits [61:27]). -/
def cmdRow (c : Cmd) : RowLoc :=
  let n := c.a0.toNat
  { stack := bits n 61 58, pc := bits n 57 51, bank := bits n 50 45, row := bits n 44 27 }

/-- A command that Table 17.4 calls signed. -/
def cmdSigned (c : Cmd) : Bool := decide (c.op = 0x34) || decide (c.op = 0x51)

/-- The signature block that a signed command locates; no bytes for another (R424). -/
def cmdBlock (c : Cmd) : Nat × Nat := if cmdSigned c then Config.sigLocator c else (0, 0)

/-- The 64 bytes of a command's entry with the locator words of Table 17.4 zeroed (R424, Table 17.2). -/
def cmdUnlocated (c : Cmd) : List Byte :=
  natLe (c.op.toNat + place c.rsv.toNat 8 + place c.tag.toNat 48) 8 ++ natLe (if c.op = 0x51 then c.a0.toNat else 0) 8 ++ List.replicate 48 0

/-- There is an owner key to check a command's signature against: one is provisioned, or the command is the transition 0→1 that
provisions it (R424). -/
def State.ownerKeyed (s : State) (c : Cmd) : Bool :=
  s.dev.keyed || (decide (s.dev.life = 0) && decide (c.op = 0x51) && decide (c.a0 = 1))

/-- The signature of a command is valid (R424): the block in memory verifies, under the owner key, for the SHAKE256 of its entry. -/
def State.signed (s : State) (c : Cmd) : Bool :=
  s.ownerKeyed c && Config.ed448 Config.ownerKey (shake512 (cmdUnlocated c)) (s.bytes (cmdBlock c).1 (cmdBlock c).2)

/-- The step that carries a command out. -/
def State.cmdEvent (s : State) (c : Cmd) : Event :=
  match c.op.toNat with
  | 0x01 => .submitGraph c
  | 0x02 => .endRun c
  | 0x03 => .sealQueue c
  | 0x04 => .restartStage c
  | 0x10 => .hearthDrain c
  | 0x11 => .hearthWrite c
  | 0x12 => .hearthOpen c
  | 0x18 => .setRoute c
  | 0x19 => .clearNames c
  | 0x1A => .setCrucible c
  | 0x20 => .setXlate c
  | 0x21 => .shootdown c
  | 0x28 => .setColl c
  | 0x29 => .setPool c
  | 0x30 => .heatRead c
  | 0x31 => .setDecay c
  | 0x32 => .migrate c
  | 0x33 => .retireRow c (Config.spareRow (cmdRow c))
  | 0x34 => .clearRetlog c (s.signed c)
  | 0x38 => if c.a1.getLsbD 3 then .preemptFunction c else .preempt c
  | 0x39 => .restore c
  | 0x3A => .terminate c
  | 0x3B => .attach c
  | 0x3C => .resume c
  | 0x40 => .linkTrain c (Config.neighbour c.a0.toNat).1 (Config.neighbour c.a0.toNat).2
  | 0x41 => .keyInstall c
  | 0x48 => .setMode c
  | 0x50 => .quote c
  | 0x51 => .lifecycle c (s.signed c)
  | 0x52 => .health c
  | _ => .unknownCommand c

/-- Completion codes (Table 17.3). -/
inductive Status where
  | ok | invalid | denied | busy | nospace | state | signature | aborted
  deriving DecidableEq, Repr

/-- The code of a status. -/
def Status.code : Status → Nat
  | .ok => 0
  | .invalid => 1
  | .denied => 2
  | .busy => 3
  | .nospace => 4
  | .state => 5
  | .signature => 6
  | .aborted => 7

/-- An engine owns a line of a range: an access of the host, or of a command, waits until it is written (R188, R261). -/
def State.owned (s : State) (pa n : Nat) : Bool :=
  decide (n ≠ 0)
    && s.lines.any (fun (p : Nat × Line) => decide (p.2.owners ≠ []) && decide (pa / 256 ≤ p.1) && decide (p.1 * 256 < pa + n))

/-- A command that reads ranges goes on where no engine owns a line of them; else it is tried again in the next cycle. -/
def State.reading (s : State) (c : Cmd) (l : List (Nat × Nat)) (next : State) : State :=
  if l.any (fun r => s.owned r.1 r.2) then s.postAt (s.clk + 1) (s.cmdEvent c) else next

/-- The next entry of a function's command ring begins, unless one is under way; a signed one with its signature block
(R415, R424). -/
def State.nextCommand (s : State) (fn : Nat) : State :=
  let f := s.func fn
  let n := ringSize f.cmdLog
  if n = 0 ∨ f.busy.isSome ∨ f.cmdRead % n = f.cmdTail % n then s
  else
    let a := f.cmdBase.toNat + 64 * (f.cmdRead % n)
    let c := cmdOfBytes fn (s.bytes a 64)
    if s.owned a 64 || s.owned (cmdBlock c).1 (cmdBlock c).2 then s.postOnceAt (s.clk + 1) (.commandFetch fn)
    else
      let s := (s.hostRead a 64).hostRead (cmdBlock c).1 (cmdBlock c).2
      (s.setFunc fn (fun f => { f with cmdRead := f.cmdRead + 1, busy := some c })).post (s.cmdEvent c)

/-- A command completes: its entry in the completion ring (Table 17.3), whose phase bit is 1 on the first pass (DESIGN CHOICE, log
entry 92), and the next command (R415). -/
def State.complete (s : State) (c : Cmd) (st : Status) (result : Nat) : State :=
  let f := s.func c.func
  let n := ringSize f.cmdLog
  let lo := place c.tag.toNat 48 + place (b2n (decide ((f.cplSent / n) % 2 = 0))) 8 + st.code
  let s := s.hostWrite (f.cplBase.toNat + 16 * (f.cplSent % n)) (natLe lo 8 ++ natLe result 8)
  (s.setFunc c.func (fun f => { f with cplSent := f.cplSent + 1, busy := none })).nextCommand c.func

/-- A command passes the checks of R416 and R421, then has its effect: BUSY during a wipe, DENIED for a function that may
not give it, INVALID for reserved bits or unused words that are not zero. -/
def State.command (s : State) (c : Cmd) (k : State → State) : Host.Outcome State Fault Refusal :=
  if s.dev.wiping then .next (s.complete c .busy 0)
  else
    match cmdShape c.op.toNat with
    | none => .next (s.complete c .invalid 0)
    | some (pf, n) =>
      if pf ∧ c.func ≠ 0 then .next (s.complete c .denied 0)
      else if c.rsv ≠ 0 ∨ ((cmdArgs c).drop n).any (fun a => decide (a ≠ 0)) then .next (s.complete c .invalid 0)
      else .next (k s)

/-- Every line of a range lies where the host's commands may write (R222): backed, and not in the Hearth. -/
def State.writable (s : State) (pa n : Nat) : Bool :=
  (linesOf pa n).all (fun m => decide (s.paKind (m * 256) ≠ .none ∧ s.paKind (m * 256) ≠ .hearth))

/-- UNKNOWN_COMMAND (R416). -/
def execUnknownCommand (c : Cmd) (s : State) : Host.Outcome State Fault Refusal :=
  .next (s.complete c (if s.dev.wiping then .busy else .invalid) 0)

/-! ## BAR0 (Table 17.1) -/

/-- What a read of BAR0 returns: the STATUS register and the registers that may be read; others read zero (R414). -/
def State.bar0 (s : State) (fn off : Nat) : Dword :=
  let f := s.func fn
  match off with
  | 0x0000 => f.cmdBase
  | 0x0008 => BitVec.ofNat 64 f.cmdLog
  | 0x0018 => f.cplBase
  | 0x0020 => f.evtBase
  | 0x0028 => BitVec.ofNat 64 f.evtLog
  | 0x0038 => BitVec.ofNat 64 (s.dev.life + 8 * b2n s.dev.reduced + 16 * b2n s.dev.wiping)
  | 0x0040 => BitVec.ofNat 64 f.prqHead
  | _ => 0

/-! ## Events (R419) -/

/-- The held events of a function are posted in order while its ring has room. -/
def State.postHeld (s : State) (fn : Nat) : Nat → State
  | 0 => s
  | k + 1 =>
    let f := s.func fn
    match f.heldEvents with
    | [] => s
    | e :: rest =>
      if f.evtSent < f.evtFreed + f.evtSize then
        let phase := decide ((f.evtSent / f.evtSize) % 2 = 0)
        let s := s.setFunc fn (fun f => { f with evtSent := f.evtSent + 1, heldEvents := rest })
        (s.hostWrite (f.evtBase.toNat + 64 * (f.evtSent % f.evtSize)) (withPhase e phase)).postHeld fn k
      else s

/-- EVENT_RING_RELEASE (R419): the host has freed entries. -/
def execEventRingRelease (func n : Nat) (s : State) : Host.Outcome State Fault Refusal :=
  let s := s.setFunc func (fun f => { f with evtFreed := Nat.min f.evtSent (f.evtFreed + n) })
  .next (s.postHeld func (s.func func).heldEvents.length)

end Sys2Proof.Machine
end

