-- ==== Sys2Proof/Machine/Scratch.lean ====
section
/-!
DEFINITION. Class 7: scratch accesses, scratch atomics, barriers, copies into scratch, waits on path counters (R195 to
R221), and the delivery of a copy's chunk.
-/
namespace Sys2Proof.Machine
open Sys2Proof

/-! ## Scratch accesses (R200 to R204) -/

/-- The offset of a lane: an unsigned sum that does not wrap (R200). -/
def Ix.scratchOff (x : Ix) (a b : Reg) (L : Nat) : Nat := (x.g.sr a.toNat).toNat + (x.vl b L).toNat

/-- The first fault of a lane's access of `z` bytes; `rd` and `wr` say whether it reads and writes (R200). -/
def Team.scratchFault (t : Team) (o z : Nat) (rd wr : Bool) : Option TrapInfo :=
  let at_ : Dword := BitVec.ofNat 64 o
  if o % (if wr && rd then 4 else z) ≠ 0 then some (trapPA 0x20 at_ 0)
  else if !t.inScratch o z then some (trapPA 0x21 at_ 0)
  else if wr && t.overlapsTag o z then some (trapPA 0x23 at_ 0)
  else none

/-- SCRATCH_POISON of a lane's read (R204). -/
def Team.scratchPoison (t : Team) (o z : Nat) : Option TrapInfo :=
  (t.poisonIn o z).map (fun w => trapPA 0x22 (BitVec.ofNat 64 w) 0)

/-- The single-bit errors in the words that a scratch access of the live lanes reads are corrected (R204). -/
def Ix.scratchRead (x : Ix) (s : State) (a b : Reg) (z : Nat) : State :=
  s.correctScratch x.gid x.g.team (x.live.lanes.map (fun L => (x.scratchOff a b L, z)))

/-- A scratch access of the live lanes, whole or with no effect (R200, R203): R200's checks of every live lane, then the reads, of which the
lowest lane's that meets poison raises SCRATCH_POISON (R204; DESIGN CHOICE, log entry 94). -/
def Ix.scratch (x : Ix) (s : State) (a b : Reg) (z : Nat) (rd wr : Bool) (k : State → Team → Done) : Done :=
  match s.team x.g.team with
  | none => .next s
  | some t =>
    match x.live.lanes.findSome? (fun L => t.scratchFault (x.scratchOff a b L) z rd wr) with
    | some f => .trap s f
    | none =>
    match (if rd then x.live.lanes else []).findSome? (fun L => t.scratchPoison (x.scratchOff a b L) z) with
    | some f => .trap s f
    | none => k (if rd then x.scratchRead s a b z else s) t

/-- A scratch load of `n` words per lane (R201). -/
def Ix.scratchLoad (x : Ix) (s : State) (d a b : Reg) (n : Nat) : Done :=
  x.scratch s a b (4 * n) true false (fun s t =>
    x.upd s (fun g => (List.range n).foldl (fun g j =>
      g.setV (d.toNat + j) x.live (fun L => BitVec.ofNat 32 (t.word32 (x.scratchOff a b L + 4 * j)))) g))

/-- A scratch store of `n` words per lane, lane after lane (R201). -/
def Ix.scratchStore (x : Ix) (s : State) (d a b : Reg) (n : Nat) : Done :=
  x.scratch s a b (4 * n) false true (fun s _ =>
    .next (s.setTeam x.g.team (fun t => x.live.lanes.foldl (fun t L =>
      t.putScratch (x.scratchOff a b L) ((List.range n).flatMap (fun j => natLe ((x.g.vr (d.toNat + j)).lane L).toNat 4))) t)))

/-- The lanes of a scratch atomic, one after another: the team, and the old word of each lane (R202). -/
def Ix.scratchSteps (x : Ix) (d a b : Reg) (f : Word → Word → Nat → Word) (t : Team) : Team × List (Nat × Word) :=
  x.live.lanes.foldl (fun (t, l) L =>
    let o := x.scratchOff a b L
    let old : Word := BitVec.ofNat 32 (t.word32 o)
    (t.putScratch o (natLe (f old (x.vl d L) L).toNat 4), l ++ [(L, old)])) (t, [])

/-- A scratch atomic (R202, Table 8.2). -/
def Ix.scratchAtomic (x : Ix) (s : State) (d a b : Reg) (f : Word → Word → Nat → Word) : Done :=
  x.scratch s a b 4 true true (fun s t =>
    let r := x.scratchSteps d a b f t
    x.upd (s.setTeam x.g.team (fun y => { r.1 with ssoft := y.ssoft })) (fun g => g.setV d.toNat x.live (fun L => Assoc.getD r.2 L 0)))

/-- LDSW (R201). -/
def execLdsw (d a b : Reg) (s : State) : Host.Outcome State Fault Refusal := issue (.ldsw d a b) s (fun x s => x.scratchLoad s d a b 1)

/-- LDSD (R201). -/
def execLdsd (d a b : Reg) (s : State) : Host.Outcome State Fault Refusal := issue (.ldsd d a b) s (fun x s => x.scratchLoad s d a b 2)

/-- LDSQ (R201). -/
def execLdsq (d a b : Reg) (s : State) : Host.Outcome State Fault Refusal := issue (.ldsq d a b) s (fun x s => x.scratchLoad s d a b 4)

/-- STSW (R201). -/
def execStsw (d a b : Reg) (s : State) : Host.Outcome State Fault Refusal := issue (.stsw d a b) s (fun x s => x.scratchStore s d a b 1)

/-- STSD (R201). -/
def execStsd (d a b : Reg) (s : State) : Host.Outcome State Fault Refusal := issue (.stsd d a b) s (fun x s => x.scratchStore s d a b 2)

/-- STSQ (R201). -/
def execStsq (d a b : Reg) (s : State) : Host.Outcome State Fault Refusal := issue (.stsq d a b) s (fun x s => x.scratchStore s d a b 4)

/-- ASADD (R202). -/
def execAsadd (d a b : Reg) (s : State) : Host.Outcome State Fault Refusal :=
  issue (.asadd d a b) s (fun x s => x.scratchAtomic s d a b (fun old v _ => old + v))

/-- ASMIN (R202). -/
def execAsmin (d a b : Reg) (s : State) : Host.Outcome State Fault Refusal :=
  issue (.asmin d a b) s (fun x s => x.scratchAtomic s d a b (fun old v _ => if (if x.et = 0 then v.slt old else v.ult old) then v else old))

/-- ASMAX (R202). -/
def execAsmax (d a b : Reg) (s : State) : Host.Outcome State Fault Refusal :=
  issue (.asmax d a b) s (fun x s => x.scratchAtomic s d a b (fun old v _ => if (if x.et = 0 then old.slt v else old.ult v) then v else old))

/-- ASAND (R202). -/
def execAsand (d a b : Reg) (s : State) : Host.Outcome State Fault Refusal :=
  issue (.asand d a b) s (fun x s => x.scratchAtomic s d a b (fun old v _ => old &&& v))

/-- ASOR (R202). -/
def execAsor (d a b : Reg) (s : State) : Host.Outcome State Fault Refusal :=
  issue (.asor d a b) s (fun x s => x.scratchAtomic s d a b (fun old v _ => old ||| v))

/-- ASXOR (R202). -/
def execAsxor (d a b : Reg) (s : State) : Host.Outcome State Fault Refusal :=
  issue (.asxor d a b) s (fun x s => x.scratchAtomic s d a b (fun old v _ => old ^^^ v))

/-- ASXCH (R202). -/
def execAsxch (d a b : Reg) (s : State) : Host.Outcome State Fault Refusal :=
  issue (.asxch d a b) s (fun x s => x.scratchAtomic s d a b (fun _ v _ => v))

/-- ASCAS (R202). -/
def execAscas (d a b : Reg) (s : State) : Host.Outcome State Fault Refusal :=
  issue (.ascas d a b) s (fun x s =>
    x.scratchAtomic s d a b (fun old v L => if old = v then (x.g.vr (d.toNat + 1)).lane L else old))

/-! ## Barriers (R205 to R212) -/

/-- The checks that every barrier instruction makes of its offset (R204, R206); `tag`: the word must be a barrier. A poisoned barrier word
raises SCRATCH_POISON where it is read, before the conditions of R207 on what it holds (DESIGN CHOICE, log entry 94). -/
def Ix.barrier (x : Ix) (s : State) (a : Reg) (tag : Bool) (k : State → Nat → Team → Barrier → Done) : Done :=
  match s.team x.g.team with
  | none => .next s
  | some t =>
    let va := x.g.sr a.toNat
    let o := va.toNat
    if o % 8 ≠ 0 then .trap s (trapPA 0x20 va 0)
    else if !t.inScratch o 8 then .trap s (trapPA 0x21 va 0)
    else if t.tagged o && (t.poisonIn o 8).isSome then .trap s (trapPA 0x22 va 0)
    else if tag && !t.tagged o then .trap s (trapPA 0x23 va 0)
    else k (s.correctScratch x.gid x.g.team [(o, 8)]) o t (t.barrier o)

/-- BINIT (R207). -/
def execBinit (a b : Reg) (s : State) : Host.Outcome State Fault Refusal :=
  issue (.binit a b) s (fun x s =>
    x.barrier s a false (fun s o _ _ =>
      let v := (x.g.sr b.toNat).toNat
      if s.waitersOn x.g.team o ≠ [] ∨ v / 2 ^ 14 ≠ 0 then .trap s (trapPA 0x23 (x.g.sr a.toNat) 0)
      else
        .next (s.setTeam x.g.team (fun t =>
          let w := if v = 0 then 0 else
            ({ phase := false, inv := false, err := false, expected := v, arrivals := 0, pending := 0 } : Barrier).word
          let others := t.tags.filter (fun y => decide (y ≠ o))
          { t.putScratch o (natLe w 8) with
            tags := if v = 0 then others else others ++ [o],
            btimes := Assoc.del (Assoc.del t.btimes (2 * o)) (2 * o + 1),
            bafter := Assoc.del (Assoc.del t.bafter (2 * o)) (2 * o + 1) }))))

/-- An arrival of a group that announces `n` bytes (R207), with what the group has done ordered before the phase's waits
(R211). -/
def Ix.arrive (x : Ix) (s : State) (o n : Nat) (w : Barrier) : State :=
  (s.phaseOrders x.g.team o (Nat.max x.g.time x.g.ownTime) (s.atomsBefore x.gid)).putBarrier x.g.team o { w with pending := w.pending + n, arrivals := w.arrivals + 1 }

/-- BARR (R207, R209). -/
def execBarr (a : Reg) (s : State) : Host.Outcome State Fault Refusal :=
  issue (.barr a) s (fun x s =>
    x.barrier s a true (fun s o _ w =>
      if w.inv then x.upd s (fun g => { g with bstatus := false })
      else if w.arrivals = w.expected then .trap s (trapPA 0x23 (x.g.sr a.toNat) 0)
      else .stay ((x.arrive s o 0 w).waitOn x.gid x.g.team o w.phase)))

/-- BARRTX (R207). On a word with inv = 0 it leaves BSTATUS as it was: R207's pseudocode sets ok for BARRTX only where inv is
1, while Table 8.4 counts BARRTX among the instructions that ok reports (DEDUCED, log entry 79). -/
def execBarrtx (a b : Reg) (s : State) : Host.Outcome State Fault Refusal :=
  issue (.barrtx a b) s (fun x s =>
    x.barrier s a true (fun s o _ w =>
      let n := (x.g.sr b.toNat).toNat
      if w.inv then x.upd s (fun g => { g with bstatus := false })
      else if n / 2 ^ 27 ≠ 0 ∨ (2 ^ 27 - 1 : Int) < w.pending + n then .trap s (trapPA 0x23 (x.g.sr a.toNat) 0)
      else if w.arrivals = w.expected then .trap s (trapPA 0x23 (x.g.sr a.toNat) 0)
      else .next (x.arrive s o n w)))

/-- BWAIT (R207, R209). -/
def execBwait (a b : Reg) (s : State) : Host.Outcome State Fault Refusal :=
  issue (.bwait a b) s (fun x s =>
    x.barrier s a true (fun s o _ _ => .stay (s.waitOn x.gid x.g.team o ((x.g.sr b.toNat).getLsbD 0))))

/-- BTEST (R207). -/
def execBtest (d a : Reg) (s : State) : Host.Outcome State Fault Refusal :=
  issue (.btest d a) s (fun x s =>
    x.barrier s a true (fun s _ _ w => x.upd s (fun g => g.setP d.toNat (Mask.all w.phase))))

/-- BINV (R207). -/
def execBinv (a : Reg) (s : State) : Host.Outcome State Fault Refusal :=
  issue (.binv a) s (fun x s =>
    x.barrier s a true (fun s o _ w => .next (if w.inv then s else s.invalidate x.g.team o w)))

/-! ## Reads by an engine -/

/-- How an engine's read of bytes within one line ends: with the bytes, whether the line is poisoned, and the time of the
read (R263); with a fault; it waits for a page; or it lies in a page that the engine does not read. -/
inductive EngRead where
  | ok (data : List Byte) (bad : Bool) (time : Nat)
  | fault (code : Nat) (info : Dword)
  | wait
  | typ
  | bank (until_ : Nat)
  deriving DecidableEq, Repr

/-- An engine's read of translated bytes of one line at one time not earlier than `time` (R263): the bytes, whether the line
is poisoned, and the time. The time is that of the line's newest write where that is later: of the times that R214 leaves
the engine the model takes the newest (DESIGN CHOICE, log entry 7). Of the two contents that R263 allows of a line that an engine owns it
gives the old one (DESIGN CHOICE, log entry 99). -/
def State.readAt (s : State) (c : Xc) (time pa n : Nat) : State × List Byte × Bool × Nat :=
  let l := s.line (lineOf pa)
  let t := Nat.max time l.topTime
  let s := (s.routeEngine c.core pa).setLine (lineOf pa) (fun l => { l with rtime := Nat.max l.rtime t })
  (s.poisonRead pa, s.bytes pa n, l.bad, t)

/-- An engine's read of bytes of one line from a Normal or WC page in HBM4E, the CXL tier, the host window or the Hearth, not
from the pool (R216, R263); a bank in refresh answers the reference cycle at which it may be read (R235). -/
def State.engineRead (s : State) (c : Xc) (time : Nat) (va n : Nat) : State × EngRead :=
  let (s, r) := s.translate c (BitVec.ofNat 64 va) .read
  match r with
  | .fault code info => (s, .fault code info)
  | .wait _ => (s, .wait)
  | .ok pa typ =>
    if 2 ≤ typ ∨ (s.regionOf pa).isSome then (s, .typ)
    else
      match s.bankWait pa with
      | some u => (s, .bank u)
      | none =>
        let (s, data, bad, t) := s.readAt c time pa n
        (s, .ok data bad t)

/-- The pieces of a range of virtual addresses by line: address and length. -/
def linePieces (va n : Nat) : List (Nat × Nat) :=
  (vaLines va n).map (fun a => let start := Nat.max a va; (start, Nat.min (a + 256) (va + n) - start))

/-- How an engine's read of a range ends; a fault names its address. -/
inductive EngRange where
  | ok (data : List Byte) (bad : List Nat) (time : Nat)
  | fault (at_ code : Nat) (info : Dword)
  | wait
  | typ (at_ : Nat)
  | bank (until_ : Nat)
  /-- Lines of it are still on their way to their home slices (R233). -/
  | fill
  deriving DecidableEq, Repr

/-- The lines of a range, up to the first that an engine may not read, that their home slices do not hold are asked for; whether
there are any (R227, R233). -/
def State.askLines (s : State) (c : Xc) (va n : Nat) : State × Bool :=
  let l := (linePieces va n).foldl (fun (x : State × List Nat × Bool) p =>
    if !x.2.2 then x
    else match x.1.translate c (BitVec.ofNat 64 p.1) .read with
      | (z, .ok pa typ) =>
        if 2 ≤ typ ∨ (s.regionOf pa).isSome then (z, x.2.1, false) else (z, if s.lineToCome pa then x.2.1 ++ [pa] else x.2.1, true)
      | (z, _) => (z, x.2.1, false)) (s, [], true)
  (l.2.1.foldl (fun s pa => if s.lineDue (lineOf pa) then s else s.routeEngine c.core pa) s, decide (l.2.1 ≠ []))

/-- An engine's read of a range, line after line; `bad` lists the addresses of the poisoned lines' first bytes read. -/
def State.engineRange (s : State) (c : Xc) (time va n : Nat) : State × EngRange :=
  let (z, come) := s.askLines c va n
  if come then (z, .fill)
  else (linePieces va n).foldl (fun (s, r) p =>
    match r with
    | .ok data bad t =>
      let (s, a) := s.engineRead c time p.1 p.2
      (match a with
       | .ok d b t' => (s, .ok (data ++ d) (if b then bad ++ [p.1] else bad) (Nat.max t t'))
       | .fault code info => (s, .fault p.1 code info)
       | .wait => (s, .wait)
       | .typ => (s, .typ p.1)
       | .bank u => (s, .bank u))
    | _ => (s, r)) (s, .ok [] [] time)

/-! ## Copies (R213 to R218) -/

/-- CPGS (R213). Its announcement is written without the completion check of R208: where it brings a negative pending to 0
with every arrival made, the phase completes at the next arrival or delivery, the steps that R208 names (DEDUCED, log entry
80). -/
def execCpgs (d a b : Reg) (s : State) : Host.Outcome State Fault Refusal :=
  issue (.cpgs d a b) s (fun x s =>
    match s.team x.g.team with
    | none => .next s
    | some t =>
      let dst := (x.g.sr d.toNat).toNat
      let src := (x.g.sr a.toNat).toNat % 2 ^ 56
      let w := (x.g.sr b.toNat).toNat
      let len := bits w 19 0
      let keep := bit w 63
      let bv := x.g.sr (b.toNat + 1)
      let bar := if bv = BitVec.allOnes 64 then none else some bv.toNat
      let barOff := bar.getD 0
      let at_ := x.g.sr d.toNat
      if dst % 16 ≠ 0 ∨ src % 16 ≠ 0 ∨ len % 16 ≠ 0 then .trap s (trapPA 0x20 at_ 0)
      else if barOff % 8 ≠ 0 then .trap s (trapPA 0x20 bv 0)
      else if len = 0 ∨ 786432 < len ∨ !t.inScratch dst len then .trap s (trapPA 0x21 at_ 0)
      else if bar.isSome ∧ !t.inScratch barOff 8 then .trap s (trapPA 0x21 bv 0)
      else if bits w 62 20 ≠ 0 then .trap s (trapPA 0x23 at_ 0)
      else if bar.isSome && t.tagged barOff && (t.poisonIn barOff 8).isSome then .trap s (trapPA 0x22 bv 0)
      else
        let y := t.barrier barOff
        let s := if bar.isSome then s.correctScratch x.gid x.g.team [(barOff, 8)] else s
        if bar.isSome ∧ (!t.tagged barOff ∨ y.inv) then .trap s (trapPA 0x23 bv 0)
        else if t.overlapsTag dst len then .trap s (trapPA 0x23 at_ 0)
        else if !keep ∧ bar.isSome ∧ (2 ^ 27 - 1 : Int) < y.pending + len then .trap s (trapPA 0x23 bv 0)
        else
          let s := if keep ∨ bar.isNone then s
            else s.setTeam x.g.team (fun t => t.putScratch barOff (natLe ({ y with pending := y.pending + len } : Barrier).word 8))
          let c : Copy := { gid := x.gid, team := x.g.team, func := t.func, dst := dst, src := src, len := len, bar := bar,
                            chunks := 0, time := x.g.time, waiting := false }
          let s := { x.raise s 2 0 with copies := Assoc.put s.copies x.op c }
          .next (s.post (.copyChunkDelivery x.op)))

/-- TINFO of a COPY_FAULT (Table 8.6). -/
def Copy.info (c : Copy) (sub : Nat) : Dword :=
  BitVec.ofNat 64 (place sub 60 + place (4096 * c.chunks) 40 + place c.dst 20 + c.bar.getD 0xFFFFF)

/-- A copy faults: its group is to receive COPY_FAULT, and the copy ends (R217). -/
def State.copyFault (s : State) (op : Nat) (c : Copy) (sub at_ : Nat) : State :=
  let s := s.raiseDeferred c.team { gid := c.gid, cat := 0, addr := BitVec.ofNat 64 at_, info := c.info sub, op := op }
  ({ s with copies := Assoc.del s.copies op }).finishOp c.gid op

/-- The subcause of Table 8.6 for a fault of translation. -/
def copySub (code : Nat) : Nat := if code = 0x2A then 1 else if code = 0x2B then 5 else 0

/-- Bytes delivered into a team's scratch against a barrier; a poisoned barrier word is left and raises SCRATCH_POISON in
the group that issued the operation (R204, R214): the bytes are written all the same, the copy goes on, and the trap is delivered as
deferred traps are, unmasked and with defer 0, to the lowest-numbered living group where the issuer has left (DESIGN CHOICE, log
entry 94). -/
def State.deliver (s : State) (gid tid op dst : Nat) (data : List Byte) (bar : Option Nat) (n t : Nat) : State :=
  let s := s.setTeam tid (fun y => y.putScratch dst data)
  match bar, s.team tid with
  | some off, some y =>
    if y.tagged off && (y.poisonIn off 8).isSome then
      s.raiseDeferred tid { gid := gid, cat := 4, addr := BitVec.ofNat 64 off, info := 0, op := op }
    else (s.correctScratch gid tid [(off, 8)]).subtract tid bar n t
  | _, _ => s

/-- COPY_CHUNK_DELIVERY (R214 to R217). Where several conditions of Table 8.5 hold for one chunk, the first of these decides: a page or
a type that stops the reading of a line, in the order of the lines; a poisoned line; a tagged destination (DESIGN CHOICE, log entry 95). -/
def execCopyChunkDelivery (op : Nat) (s : State) : Host.Outcome State Fault Refusal :=
  match Assoc.get s.copies op with
  | none => .next s
  | some c =>
    let done := 4096 * c.chunks
    let n := Nat.min 4096 (c.len - done)
    let from_ := c.src + done
    let dst := c.dst + done
    let (s, r) := s.engineRange (s.engineXc c.team c.gid op) c.time from_ n
    match r with
    | .wait => .next { s with copies := Assoc.upd s.copies op (fun c => { c with waiting := true }) }
    | .fault _ code _ => .next (s.copyFault op c (copySub code) from_)
    | .typ _ => .next (s.copyFault op c 2 from_)
    | .bank u => .next (s.postRef u (.copyChunkDelivery op))
    | .fill => .next (s.postAt (s.clk + 1) (.copyChunkDelivery op))
    | .ok data bad t =>
      if bad ≠ [] then .next (s.copyFault op c 3 from_)
      else if ((s.team c.team).map (fun y => y.overlapsTag dst n)).getD false then .next (s.copyFault op c 4 from_)
      else
        let s := s.deliver c.gid c.team op dst data c.bar n t
        if done + n = c.len then .next (({ s with copies := Assoc.del s.copies op }).finishOp c.gid op)
        else .next (({ s with copies := Assoc.upd s.copies op (fun c => { c with chunks := c.chunks + 1, waiting := false }) }).post
          (.copyChunkDelivery op))

/-! ## Waits on path counters (R220) -/

/-- WAITC (R220): it cannot issue until the four counters have fallen to its thresholds, nor in the skid of a halt that met its group
waiting there (R397). -/
def execWaitc (l st c : BitVec 5) (t : BitVec 6) (s : State) : Host.Outcome State Fault Refusal :=
  issue (.waitc l st c t) s (fun x s =>
    let n := [l.toNat, st.toNat, c.toNat, t.toNat]
    if x.g.stoodAt ((List.range 4).map (fun i => (i, n.getD i 0))) then .stall
    else if (List.range 4).all (fun i => decide (x.g.counter i ≤ n.getD i 0)) then
      x.upd s (fun g => (List.range 4).foldl (fun g i => g.coverPath i (n.getD i 0)) g)
    else .stall)

/-- WAITP (R220), with the same wait. -/
def execWaitp (a b : Reg) (s : State) : Host.Outcome State Fault Refusal :=
  issue (.waitp a b) s (fun x s =>
    let n := (x.g.sr b.toNat).toNat
    if x.g.stoodAt [(a.toNat, n)] then .stall
    else if x.g.counter a.toNat ≤ n then x.upd s (fun g => g.coverPath a.toNat n) else .stall)

end Sys2Proof.Machine
end

