-- ==== Sys2Proof/Machine/Names.lean ====
section
/-!
DEFINITION. Class 12: named tiles. Names, routing, pending interests, the registry and its Crucibles, delivery and expiry
(R294 to R317).
-/
namespace Sys2Proof.Machine
open Sys2Proof

/-! ## Routing (R295, R296) -/

/-- The direction of a tensor on a die (R296): the longest matching prefix, the lower entry where they tie. -/
def State.nameDir (s : State) (d tensor : Nat) : Option Nat :=
  ((s.die d).routes.foldl (fun (a : Option (Nat × Nat)) (p : Nat × Dword) =>
    let w := p.2.toNat
    let n := bits w 62 58
    if bit w 63 && decide (bits w 57 34 >>> (24 - n) = tensor >>> (24 - n)) then
      (match a with
       | some b => if b.1 < n then some (n, bits w 3 0) else a
       | none => some (n, bits w 3 0))
    else a) none).map Prod.snd

/-- The tensor is homed on the die. -/
def State.homed (s : State) (d tensor : Nat) : Bool := decide (s.nameDir d tensor = some 0)

/-- A flit's content waits for a link cycle of a port. -/
def State.queueOut (s : State) (p typ arg : Nat) (payload : List Byte) : State :=
  if (s.port p).up then (s.setPort p (fun x => { x with out := x.out ++ [(typ, arg, payload)] })).postOnce (.portForwardDecision p)
  else s

/-- An interest or an answer leaves through a port in NAME flits. -/
def State.sendName (s : State) (p : Nat) (m : Sum Interest Answer) : State :=
  (Config.namePayloads m).foldl (fun s b => s.queueOut p 0x02 0 b) s

/-- What travels in a direction of Table 12.2 from a die: to the die across a bridge, or through a link port. -/
def State.sendDir (s : State) (d dir : Nat) (m : Sum Interest Answer) : State :=
  if dir < 8 then s.post (match m with | .inl i => .interestArrival i | .inr a => .tileAnswerArrival a)
  else s.sendName (4 * d + (dir - 8)) m

/-- The die that a direction leads to: across a bridge, or, through a link port, the die of the message in its package. -/
def dirDie (dir : Nat) : Nat := if dir < 8 then dir - 4 else 0

/-- An entry of a die's pending-interest table set, and one freed. -/
def Die.putPit (d : Die) (e : Nat) (p : PitEntry) : Die := { d with pit := Assoc.put d.pit e p }
def Die.freePit (d : Die) (e : Nat) : Die := { d with pit := Assoc.del d.pit e }

/-! ## Tickets (R297) -/

/-- The ticket that a value addresses in a group; none where it is stale. -/
def Group.ticketOf (g : Group) (v : Nat) : Option Ticket := (Assoc.get g.tickets (v % 64)).filter (fun t => decide (t.serial = v))

/-- A ticket changed in its slot. -/
def Group.setTicket (g : Group) (t : Ticket) : Group := { g with tickets := Assoc.put g.tickets (t.serial % 64) t }

/-- Where a group's ticket is: in the group, or among those of the exited groups of a team; the team, and the ticket. -/
def State.findTicket (s : State) (gid serial : Nat) : Option (Nat × Ticket) :=
  match s.group gid with
  | some g => (g.ticketOf serial).map (fun t => (g.team, t))
  | none => s.teams.findSome? (fun (p : Nat × Team) =>
      (p.2.oldTickets.find? (fun q => decide (q.1 = gid ∧ q.2.serial = serial))).map (fun q => (p.1, q.2)))

/-- The requester slots that hold a ticket leave their entries, and an entry without slots is freed (R299, R315). -/
def State.dropSlot (s : State) (gid serial : Nat) : State :=
  { s with dies := s.dies.map (fun d => { d with pit := d.pit.filterMap (fun (p : Nat × PitEntry) =>
      let keep := p.2.slots.filter (fun x => decide (x.2.1 ≠ .ticket gid (BitVec.ofNat 32 serial)))
      if keep = [] ∧ p.2.slots ≠ [] then none else some (p.1, { p.2 with slots := keep })) }) }

/-- A pending ticket resolves with a status, a length delivered and the time it orders: its path operation has ended. -/
def State.resolve (s : State) (gid tid : Nat) (t : Ticket) (status got time : Nat) : State :=
  let s := s.dropSlot gid t.serial
  match s.group gid with
  | some _ =>
    (s.setGroup gid (fun g => (g.setTicket { t with status := status, got := got, time := time }).retime t.op time)).finishOp gid t.op
  | none =>
    let s := s.setTeam tid (fun y =>
      { y with oldTickets := y.oldTickets.filter (fun q => decide (q.1 ≠ gid ∨ q.2.serial ≠ t.serial)) })
    s

/-- TINFO after NEVER_PRODUCED (Table 12.7). -/
def Ticket.info (t : Ticket) : Dword := BitVec.ofNat 64 (place (t.bar.getD 0xFFFFF) 44 + t.serial)

/-- An empty delivery: L leaves the bound barrier's pending, and nothing is ordered (R307, R308). -/
def State.emptyDelivery (s : State) (gid tid : Nat) (t : Ticket) : State := s.deliver gid tid t.op 0 [] t.bar t.len 0

/-- An answer reaches a pending ticket (R304 to R307, R317). -/
def State.answerTicket (s : State) (gid tid : Nat) (t : Ticket) (m : Answer) : State :=
  match m.status with
  | 1 =>
    let w := Nat.min m.tile.length t.len
    if 0 < w && ((s.team tid).map (fun y => y.overlapsTag t.off w)).getD false then
      (s.emptyDelivery gid tid t).resolve gid tid t 8 0 0
    else
      let s := s.deliver gid tid t.op t.off (m.tile.take w) t.bar t.len m.time
      let words := (List.range (w / 4)).filterMap (fun j => if m.bad.contains (4 * j / 256) then some (t.off + 4 * j) else none)
      let s := if words = [] then s else s.setTeam tid (fun y => { y with sbad := y.sbad ++ words })
      s.resolve gid tid t 1 m.tile.length m.time
  | 4 =>
    (s.raiseDeferred tid { gid := gid, cat := 2, addr := t.dest, info := t.info, op := t.op }).resolve gid tid t 4 0 0
  | n => (s.emptyDelivery gid tid t).resolve gid tid t n 0 0

/-- NAMED_TILE_DELIVERY (R307): what reaches a ticket that is no longer pending has no effect. -/
def execNamedTileDelivery (gid : Nat) (ticket : Word) (m : Answer) (s : State) : Host.Outcome State Fault Refusal :=
  match s.findTicket gid ticket.toNat with
  | none => .next s
  | some (tid, t) => if t.status = 0 then .next (s.answerTicket gid tid t m) else .next s

/-- The first reference cycle of a tick. -/
def State.tickStart (s : State) (k : Nat) : Nat := k * s.tickLen

/-- The group of a saved team. -/
def State.isSaved (s : State) (gid : Nat) : Bool :=
  s.saved.any (fun (p : Nat × Saved) => Assoc.has p.2.groups gid || p.2.team.oldTickets.any (fun q => decide (q.1 = gid)))

/-- The place among the events that resolve one ticket in one cycle (R309): DELIVERED or BLOCKED, NEVER_PRODUCED, NOROUTE,
RETIRED, EXPIRED. -/
def Event.ticketRank (gid : Nat) (ticket : Word) : Event → Option Nat
  | .namedTileDelivery g t m =>
    if g = gid ∧ t = ticket then some (match m.status with | 1 => 0 | 4 => 1 | 5 => 2 | _ => 3) else none
  | .ticketExpiry g t => if g = gid ∧ t = ticket then some 4 else none
  | _ => none

/-- An event in flight that resolves a ticket in this cycle takes effect before what has place `rank` among them (R309). -/
def State.ticketFirst (s : State) (gid : Nat) (ticket : Word) (rank : Nat) : Bool :=
  s.agenda.any (fun d => d.ready s && (d.ev.ticketRank gid ticket).any (fun r => decide (r < rank)))

/-- The status of an answer held for a ticket of a saved team, in its die's entry or, where it had left that, on its way (R310). -/
def State.heldAnswer (s : State) (gid serial : Nat) : Option Nat :=
  (s.dies.toList.findSome? (fun d => d.pit.findSome? (fun (p : Nat × PitEntry) =>
    (p.2.slots.find? (fun x => decide (x.2.1 = .ticket gid (BitVec.ofNat 32 serial)))).bind (fun x => Assoc.get p.2.held x.1)))).orElse (fun _ =>
  s.agenda.findSome? (fun d => match d.ev with
    | .namedTileDelivery g t m => if g = gid ∧ t = BitVec.ofNat 32 serial ∧ m.status ≠ 1 then some m.status else none
    | _ => none))

/-- TICKET_EXPIRY (R309). The ticket of a saved team expires too: an answer that comes later does not reach it (R310). -/
def execTicketExpiry (gid : Nat) (ticket : Word) (s : State) : Host.Outcome State Fault Refusal :=
  match s.findTicket gid ticket.toNat with
  | none => .next (if s.isSaved gid ∧ s.heldAnswer gid ticket.toNat = none then s.dropSlot gid ticket.toNat else s)
  | some (tid, t) =>
    if t.status = 0 ∧ t.expiry.any (fun k => decide (k ≤ s.tick)) then .next ((s.emptyDelivery gid tid t).resolve gid tid t 2 0 0)
    else .next s

/-! ## Pending interests (R298 to R301) -/

/-- An expiry is later than another; none never expires. -/
def later (a b : Option Nat) : Bool :=
  match a, b with
  | _, none => false
  | none, some _ => true
  | some x, some y => decide (y < x)

/-- An answer leaves a die for one requester. -/
def State.answerOne (s : State) (d : Nat) (who : Requester) (m : Answer) : State :=
  match who with
  | .ticket gid t => s.post (.namedTileDelivery gid t m)
  | .upstream dir e => s.sendDir d dir (.inr { m with die := dirDie dir, entry := e })

/-- An entry is answered: every slot receives the answer and the entry is freed; an answer for a saved team's ticket is held,
but for a tile, which its re-issue asks for again (R310). A slot that holds an answer is answered no more (R297, R305). -/
def State.answerEntry (s : State) (d e : Nat) (m : Answer) : State :=
  match Assoc.get (s.die d).pit e with
  | none => s
  | some p =>
    let away := fun (w : Requester) => match w with | .ticket gid _ => s.isSaved gid | _ => false
    let open_ := p.slots.filter (fun x => !Assoc.has p.held x.1)
    let hold := open_.filter (fun x => away x.2.1 && decide (m.status ≠ 1))
    let keep := p.slots.filter (fun x => Assoc.has p.held x.1 || hold.contains x)
    let s := s.setDie d (fun y =>
      if keep = [] then y.freePit e
      else y.putPit e { p with slots := keep, held := hold.foldl (fun (h : Assoc Nat) x => Assoc.put h x.1 m.status) p.held })
    (open_.filter (fun x => !away x.2.1)).foldl (fun s x => s.answerOne d x.2.1 m) s

/-- A plain answer of a die for a key. -/
def plainAnswer (d e : Nat) (k : NameKey) (status : Nat) : Answer :=
  { die := d, entry := e, key := k, status := status, tile := [], bad := [], time := 0, via := none }

/-- The horizons of a key's tensor on a die. -/
def State.horizon (s : State) (d : Nat) (k : NameKey) : Option Nat × Option Nat :=
  match (s.die d).horizons.find? (fun h => decide (h.func = k.func ∧ h.tensor = k.tensor)) with
  | some h => (h.sealTo, h.retireTo)
  | none => (none, none)

/-- The registered tile of a key. -/
def State.regOf (s : State) (d : Nat) (k : NameKey) : Option RegTile := (s.die d).registry.find? (fun t => decide (t.key = k))

/-- What the home die's registry answers to an interest: RETIRED, a tile that is there, NEVER_PRODUCED, or nothing yet
(R304 to R306). -/
def State.registryAnswer (s : State) (d : Nat) (k : NameKey) : Option Answer :=
  let (h, rt) := s.horizon d k
  if rt.any (fun j => decide (k.iter ≤ j)) then some (plainAnswer d 0 k 6)
  else
    match s.regOf d k with
    | some t => if t.ready then some { plainAnswer d 0 k 1 with tile := t.bytes, bad := t.bad, time := t.time } else none
    | none => if h.any (fun i => decide (k.iter ≤ i)) then some (plainAnswer d 0 k 4) else none

/-- The pending interests of a tensor on its home die are tested (R304 to R306). -/
def State.testPending (s : State) (d func tensor : Nat) : State :=
  ((s.die d).pit.filter (fun (p : Nat × PitEntry) => decide (p.2.key.func = func ∧ p.2.key.tensor = tensor))).foldl (fun s p =>
    match s.registryAnswer d p.2.key with
    | some m => s.answerEntry d p.1 m
    | none => s) s

/-- The direction back to an interest's sender. -/
def backOf : Requester → Option Nat
  | .upstream dir _ => some dir
  | _ => none

/-- The slot of an upstream requester is to be removed at its expiry (R299). -/
def State.watchSlot (s : State) (d e slot : Nat) (who : Requester) (expiry : Option Nat) : State :=
  match who, expiry with
  | .upstream _ _, some k => s.postRef (s.tickStart k) (.interestSlotExpiry d e slot)
  | _, _ => s

/-- An entry forwards its interest, or a refresh (R298, R299): none where no route leads on (R301). -/
def State.forward1 (s : State) (d e : Nat) (k : NameKey) (expiry : Option Nat) (refresh : Bool) : Option State :=
  match s.nameDir d k.tensor with
  | none => none
  | some 0 => some s
  | some dir =>
    if 8 ≤ dir ∧ !(s.port (4 * d + (dir - 8))).up then none
    else
      let back := if dir < 8 then 4 + d else 8
      some (s.sendDir d dir (.inl { die := dirDie dir, key := k, who := .upstream back e, expiry := expiry, refresh := refresh }))

/-- A ticket's interest met BUSY once more (R300). -/
def State.countRetry (s : State) (gid serial : Nat) : State :=
  s.setGroup gid (fun g => match g.ticketOf serial with
    | some t => g.setTicket { t with retries := satAdd t.retries 1 255 }
    | none => g)

/-- Cycles from a BUSY to retry `j` (R300). -/
def retryDelay (j : Nat) : Nat := 64 * 2 ^ Nat.min j 10

/-- A new entry on a die, forwarded where the die is not the key's home; BUSY where the table is full; NOROUTE where no route
leads on (R298, R300, R301). `n` counts the retries before. The retries of an entry that had its number before are over. -/
def State.newEntry (s : State) (m : Interest) (n : Nat) : State :=
  let d := m.die
  match Assoc.lowestFree (s.die d).pit 0 16384 with
  | none =>
    (match m.who with
     | .ticket gid t => (s.countRetry gid t.toNat).postAt (s.clk + retryDelay n) (.interestRetry m (n + 1))
     | .upstream _ e => s.answerOne d m.who (plainAnswer d e m.key 9))
  | some e =>
    let p : PitEntry := { key := m.key, born := s.clk, slots := [(0, m.who, m.expiry)], sent := m.expiry, tries := 0, held := [] }
    match s.forward1 d e m.key m.expiry false with
    | none => s.answerOne d m.who (plainAnswer d e m.key 5)
    | some s =>
      let stale := fun (x : Due) => match x.ev with
        | .interestRetry i _ => decide (i.die = d ∧ i.who = .upstream 0 e)
        | _ => false
      ({ s with agenda := s.agenda.filter (fun x => !stale x) }.setDie d (fun y => y.putPit e p)).watchSlot d e 0 m.who m.expiry

/-- A slot's expiry may move the forwarded expiry: the entry sends a refresh, and so it does for a slot that joins with no expiry (R299);
or it is answered NOROUTE where no route leads on (R301; DEDUCED, log entry 102). -/
def State.refreshEntry (s : State) (d e : Nat) (expiry : Option Nat) (joins : Bool := false) : State :=
  match Assoc.get (s.die d).pit e with
  | none => s
  | some p =>
    if later expiry p.sent || (joins && expiry.isNone) then
      let s := s.setDie d (fun y => y.putPit e { p with sent := expiry })
      (s.forward1 d e p.key expiry true).getD (s.answerEntry d e (plainAnswer d e p.key 5))
    else s

/-- The oldest entry of a key with a free slot. -/
def State.joinable (s : State) (d : Nat) (k : NameKey) : Option (Nat × PitEntry) :=
  ((s.die d).pit.filter (fun (p : Nat × PitEntry) =>
      decide (p.2.key = k) && decide (p.2.slots.length < 8) && decide (p.2.held = []))).foldl
    (fun (a : Option (Nat × PitEntry)) p => match a with
      | some b => if p.2.born < b.2.born then some p else a
      | none => some p) none

/-- An interest arrives at a die (R298 to R301). -/
def State.interest (s : State) (m : Interest) (n : Nat) : State :=
  let d := m.die
  let live := match m.who with
    | .ticket gid t => (s.findTicket gid t.toNat).any (fun x => decide (x.2.status = 0))
    | _ => true
  if !live then s
  else if m.refresh then
    match (s.die d).pit.find? (fun (p : Nat × PitEntry) => decide (p.2.key = m.key) && p.2.slots.any (fun x => decide (x.2.1 = m.who))) with
    | none => s
    | some (e, p) =>
      let s := s.setDie d (fun y => y.putPit e
        { p with slots := p.slots.map (fun x => if x.2.1 = m.who then (x.1, m.who, m.expiry) else x) })
      let slot := ((p.slots.find? (fun x => decide (x.2.1 = m.who))).map Prod.fst).getD 0
      (s.watchSlot d e slot m.who m.expiry).refreshEntry d e m.expiry
  else
    let home := s.homed d m.key.tensor
    match (if home then s.registryAnswer d m.key else none) with
    | some a => s.answerOne d m.who a
    | none =>
      if !home ∧ (backOf m.who).isSome ∧ s.nameDir d m.key.tensor = (backOf m.who) then s.answerOne d m.who (plainAnswer d 0 m.key 5)
      else
        match s.joinable d m.key with
        | some (e, p) =>
          let slot := (Assoc.lowestFree p.slots 0 8).getD 0
          let s := s.setDie d (fun y => y.putPit e { p with slots := Assoc.put p.slots slot (m.who, m.expiry) })
          let s := s.watchSlot d e slot m.who m.expiry
          if home then s else s.refreshEntry d e m.expiry true
        | none => s.newEntry m n

/-- INTEREST_ARRIVAL (R298). -/
def execInterestArrival (m : Interest) (s : State) : Host.Outcome State Fault Refusal := .next (s.interest m 0)

/-- INTEREST_RETRY (R300): the sender offers its interest again; `n` retries have gone before. A forwarding die's entry must
still be there. -/
def execInterestRetry (m : Interest) (n : Nat) (s : State) : Host.Outcome State Fault Refusal :=
  match m.who with
  | .ticket _ _ => .next (s.interest m n)
  | .upstream dir e =>
    -- a die that forwards keeps the interest in its entry `e`; `m.die` is that die
    (match Assoc.get (s.die m.die).pit e with
     | none => .next s
     | some p =>
       if p.key ≠ m.key ∨ dir ≠ 0 then .next s
       else match s.forward1 m.die e p.key p.sent false with
         | some s => .next s
         | none => .next (s.answerEntry m.die e (plainAnswer m.die e p.key 5)))

/-- INTEREST_SLOT_EXPIRY (R299): an upstream slot whose expiry has come is removed. -/
def execInterestSlotExpiry (die entry slot : Nat) (s : State) : Host.Outcome State Fault Refusal :=
  match Assoc.get (s.die die).pit entry with
  | none => .next s
  | some p =>
    match Assoc.get p.slots slot with
    | some (.upstream _ _, some k) =>
      if s.tick < k then .next s
      else
        let rest := Assoc.del p.slots slot
        .next (s.setDie die (fun y => if rest = [] then y.freePit entry else y.putPit entry { p with slots := rest }))
    | _ => .next s

/-- TILE_ANSWER_ARRIVAL (R298 to R301): it fans out to the slots of its entry; BUSY has the die try again later; without an
entry of the key it is discarded. -/
def execTileAnswerArrival (m : Answer) (s : State) : Host.Outcome State Fault Refusal :=
  match Assoc.get (s.die m.die).pit m.entry with
  | none => .next s
  | some p =>
    if p.key ≠ m.key then .next s
    else if m.status = 9 then
      let s := s.setDie m.die (fun y => y.putPit m.entry { p with tries := p.tries + 1 })
      .next (s.postAt (s.clk + retryDelay p.tries) (.interestRetry
        { die := m.die, key := p.key, who := .upstream 0 m.entry, expiry := p.sent, refresh := false } (p.tries + 1)))
    else .next (s.answerEntry m.die m.entry m)

/-! ## NINT, NDROP, NSTAT (R312, R315, R316) -/

/-- A NAME_INVALID trap. -/
def nameInvalid (sub : Nat) : TrapInfo := trapPA 0x34 0 (BitVec.ofNat 64 (place sub 60))

/-- The key that a pair of name words gives (Table 12.1). -/
def nameKey (fn : Nat) (w0 w1 : Dword) : NameKey :=
  { func := fn, tensor := bits w0.toNat 55 32, tile := bits w0.toNat 31 0, iter := bits w1.toNat 15 0 }

/-- A length that a tile may have. -/
def tileLength (n : Nat) : Bool := decide (n ≠ 0) && decide (n ≤ 65536) && decide (n % 16 = 0)

/-- The lifetime in ticks of a team's tickets. -/
def State.expiryOf (s : State) (t : Team) : Option Nat := if t.life = 0 then none else some (s.tick + t.life)

/-- NINT (R312). -/
def execNint (d a b : Reg) (s : State) : Host.Outcome State Fault Refusal :=
  issue (.nint d a b) s (fun x s =>
    match s.team x.g.team with
    | none => .next s
    | some t =>
      let w0 := x.g.sr a.toNat
      let w1 := x.g.sr (a.toNat + 1)
      let dw := x.g.sr b.toNat
      let bv := x.g.sr (b.toNat + 1)
      let len := bits dw.toNat 48 32
      let o := bits dw.toNat 31 0
      let oAt : Dword := BitVec.ofNat 64 o
      let bar := if bv = BitVec.allOnes 64 then none else some bv.toNat
      let bo := bar.getD 0
      let y := t.barrier bo
      let die := dieOfCore x.g.core
      let key := nameKey t.func w0 w1
      if bits w0.toNat 63 56 ≠ 0 ∨ bits w1.toNat 63 16 ≠ 0 ∨ bits dw.toNat 63 49 ≠ 0 then .trap s (nameInvalid 0)
      else if !tileLength len then .trap s (nameInvalid 4)
      else if o % 16 ≠ 0 then .trap s (trapPA 0x20 oAt 0)
      else if bo % 8 ≠ 0 then .trap s (trapPA 0x20 oAt 0)
      else if !t.inScratch o len then .trap s (trapPA 0x21 oAt 0)
      else if bar.isSome && !t.inScratch bo 8 then .trap s (trapPA 0x21 oAt 0)
      else if bar.isSome && t.tagged bo && (t.poisonIn bo 8).isSome then .trap s (trapPA 0x22 bv 0)
      else if bar.isSome && (!t.tagged bo || y.inv || decide ((2 ^ 27 - 1 : Int) < y.pending + len)) then .trap s (trapPA 0x23 bv 0)
      else if t.overlapsTag o len then .trap s (trapPA 0x23 oAt 0)
      else if (s.nameDir die key.tensor).isNone then .trap s (nameInvalid 1)
      else
        let n := x.g.serial
        let k : Ticket := { serial := n, key := key, off := o, len := len, bar := bar, status := 0, got := 0,
                            expiry := s.expiryOf t, retries := 0, op := x.op, time := 0, dest := dw }
        let s := if bar.isSome then
            (s.correctScratch x.gid x.g.team [(bo, 8)]).setTeam x.g.team (fun t => t.putScratch bo (natLe ({ y with pending := y.pending + len } : Barrier).word 8))
          else s
        let s := (x.raise s 6 0).setGroup x.gid (fun g => ({ g with serial := (n + 1) % 2 ^ 32 }.setTicket k).setS d.toNat (BitVec.ofNat 64 n))
        let ticket : Word := BitVec.ofNat 32 n
        let s := match k.expiry with | some e => s.postRef (s.tickStart e) (.ticketExpiry x.gid ticket) | none => s
        .next (s.post (.interestArrival { die := die, key := key, who := .ticket x.gid ticket, expiry := k.expiry, refresh := false })))

/-- NDROP (R315): what else resolves its ticket in this cycle comes first (R309). -/
def execNdrop (a : Reg) (s : State) : Host.Outcome State Fault Refusal :=
  issue (.ndrop a) s (fun x s =>
    match x.g.ticketOf (x.g.sr a.toNat).toNat with
    | none => .next s
    | some t =>
      if t.status ≠ 0 then .next s
      else if s.ticketFirst x.gid (BitVec.ofNat 32 t.serial) 5 then .stall
      else .next ((s.emptyDelivery x.gid x.g.team t).resolve x.gid x.g.team t 3 0 0))

/-- NSTAT (R308, R316): a ticket read as DELIVERED acquires what its announcement released. -/
def execNstat (d a : Reg) (s : State) : Host.Outcome State Fault Refusal :=
  issue (.nstat d a) s (fun x s =>
    match x.g.ticketOf (x.g.sr a.toNat).toNat with
    | none => x.upd s (fun g => g.setS d.toNat 7)
    | some t =>
      let w := place t.retries 40 + place (if t.status = 1 then t.got else 0) 20 + t.status
      x.upd s (fun g =>
        let g := g.setS d.toNat (BitVec.ofNat 64 w)
        if t.status = 1 then g.acquire t.time else g))

/-! ## NANN (R303, R313) -/

/-- Lines of the Crucible that a tile takes, and those of a die that are free (R302). -/
def tileLines (n : Nat) : Nat := (n + 255) / 256
def Die.usedLines (d : Die) : Nat := d.registry.foldl (fun a t => a + tileLines t.len) 0
def Die.freeLines (d : Die) : Nat := 4096 * d.crucible - d.usedLines

/-- NAMEOCC (Table 12.4). -/
def Die.nameOcc (d : Die) : Nat :=
  place d.freeLines 45 + place (16384 - d.registry.length) 30 + place (16384 - d.pit.length) 15 + d.crucible

/-- NANN (R308, R313): the checks and the reservation, a release of what its group has done; the copy follows, and the group waits for
it. -/
def execNann (a b : Reg) (s : State) : Host.Outcome State Fault Refusal :=
  issue (.nann a b) s (fun x s =>
    let w0 := x.g.sr a.toNat
    let w1 := x.g.sr (a.toNat + 1)
    let src := x.g.sr b.toNat
    let nw := (x.g.sr (b.toNat + 1)).toNat
    let n := bits nw 16 0
    let d := dieOfCore x.g.core
    let key := nameKey (s.fnOf x.gid) w0 w1
    if bits w0.toNat 63 56 ≠ 0 ∨ bits w1.toNat 63 16 ≠ 0 ∨ bits nw 63 17 ≠ 0 then .trap s (nameInvalid 0)
    else if !tileLength n then .trap s (nameInvalid 4)
    else if src.toNat % 16 ≠ 0 then .trap s (trapPA 0x28 src 0)
    else if !s.homed d key.tensor then .trap s (nameInvalid 1)
    else if (s.regOf d key).isSome then .trap s (nameInvalid 2)
    else if (s.horizon d key).1.any (fun h => decide (key.iter ≤ h)) then .trap s (nameInvalid 3)
    else if (s.die d).freeLines < tileLines n then .trap s (trapPA 0x35 0 0)
    else if 16384 ≤ (s.die d).registry.length then .trap s (trapPA 0x35 0 (BitVec.ofNat 64 (place 1 60)))
    else x.release s (fun s t =>
      let r : RegTile := { key := key, bytes := [], len := n, bad := [], ready := false, op := x.op, time := t }
      let s := s.setDie d (fun y => { y with registry := y.registry ++ [r] })
      let s := { s with nanns := Assoc.put s.nanns x.op { gid := x.gid, die := d, key := key, src := src.toNat, len := n, time := t } }
      let s := s.setGroup x.gid (fun g => { g with others := g.others ++ [x.op], park := some (.engine x.op) })
      .stay (s.post (.nannCopyComplete x.op))))

/-- A NANN ends in a fault: its reservation is removed, pending interests are tested, and its group traps (R313). -/
def State.nannFault (s : State) (op : Nat) (n : Nann) (x : TrapInfo) : State :=
  let d := n.die
  let s := { s with nanns := Assoc.del s.nanns op }
  let s := s.setDie d (fun y => { y with registry := y.registry.filter (fun t => decide (t.op ≠ op)) })
  let s := (s.testPending d n.key.func n.key.tensor).finishOp n.gid op
  (s.setGroup n.gid (fun g => if g.park = some (.engine op) then { g with park := none } else g)).takeTrap n.gid x

/-- NANN_COPY_COMPLETE (R305, R313): the source is read into the Crucible lines; pending interests are answered and the group
goes on; a fault removes the reservation. -/
def execNannCopyComplete (op : Nat) (s : State) : Host.Outcome State Fault Refusal :=
  match Assoc.get s.nanns op with
  | none => .next s
  | some n =>
    let d := n.die
    let tid := match s.group n.gid with
      | some g => g.team
      | none => ((s.teams.find? (fun (p : Nat × Team) => p.2.orphans.contains op)).map Prod.fst).getD 0
    let (s, r) := s.engineRange (s.engineXc tid n.gid op) n.time n.src n.len
    match r with
    | .wait => .next s
    | .fault va code info => .next (s.nannFault op n (trapPA code (BitVec.ofNat 64 (lineOf va * 256)) info))
    | .typ _ => .next (s.nannFault op n (nameInvalid 6))
    | .bank u => .next (s.postRef u (.nannCopyComplete op))
    | .fill => .next (s.postAt (s.clk + 1) (.nannCopyComplete op))
    | .ok data bad _ =>
      let lines := bad.flatMap (fun va =>
        let off := va - n.src
        linesOf off (Nat.min (va / 256 * 256 + 256 - va) (n.len - off)))
      let s := { s with nanns := Assoc.del s.nanns op }
      let s := s.setDie d (fun y => { y with registry := y.registry.map (fun t =>
        if t.op = op then { t with bytes := data, bad := lines.eraseDups, ready := true, time := n.time } else t) })
      let s := s.testPending d n.key.func n.key.tensor
      .next ((s.setGroup n.gid (fun g => if g.park = some (.engine op) then g.unpark else g)).finishOp n.gid op)

/-! ## NSEAL (R314) -/

/-- The greater of a horizon and an iteration. -/
def raiseTo (h : Option Nat) (i : Nat) : Option Nat := some (Nat.max (h.getD i) i)

/-- NSEAL (R314). -/
def execNseal (a : Reg) (s : State) : Host.Outcome State Fault Refusal :=
  issue (.nseal a) s (fun x s =>
    let w0 := (x.g.sr a.toNat).toNat
    let w1 := (x.g.sr (a.toNat + 1)).toNat
    let d := dieOfCore x.g.core
    let fn := s.fnOf x.gid
    let tensor := bits w0 55 32
    let i := bits w1 15 0
    let j := bits w1 47 32
    let rt := bit w1 48
    let key : NameKey := { func := fn, tensor := tensor, tile := 0, iter := 0 }
    let h := s.horizon d key
    if bits w0 63 56 ≠ 0 ∨ bits w1 31 16 ≠ 0 ∨ bits w1 63 49 ≠ 0 then .trap s (nameInvalid 0)
    else if !s.homed d tensor then .trap s (nameInvalid 1)
    else
      let h' := raiseTo h.1 i
      if rt && h'.all (fun n => decide (n < j)) then .trap s (nameInvalid 5)
      else
        let r' := if rt then raiseTo h.2 j else h.2
        let s := s.setDie d (fun y =>
          { y with horizons := y.horizons.filter (fun z => decide (z.func ≠ fn ∨ z.tensor ≠ tensor))
                                 ++ [{ func := fn, tensor := tensor, sealTo := h', retireTo := r' }],
                   registry := y.registry.filter (fun t =>
                     !(decide (t.key.func = fn ∧ t.key.tensor = tensor) && r'.any (fun n => decide (t.key.iter ≤ n)))) })
        .next (s.testPending d fn tensor))

end Sys2Proof.Machine
end

