-- ==== Sys2Proof/Machine/Coll.lean ====
section
/-!
DEFINITION. Class 13, exact reductions: XAGREE and XSUM, the reducers, results and aborts (R79 to R82, R356 to R361, R437).
-/
namespace Sys2Proof.Machine
open Sys2Proof

/-! ## The tree (Table 14.5) -/

/-- The entry of a collective table number; 0 where none is written. -/
def State.collEntry (s : State) (cid : Nat) : Nat := Assoc.getD s.collTable cid 0
/-- The entry is in use, and its fields. -/
def State.collValid (s : State) (cid : Nat) : Bool := bit (s.collEntry cid) 63
def State.collNrm1 (s : State) (cid : Nat) : Nat := bits (s.collEntry cid) 51 40
def State.collRoot (s : State) (cid : Nat) : Bool := bit (s.collEntry cid) 39
def State.collParent (s : State) (cid : Nat) : Nat := bits (s.collEntry cid) 35 32
/-- The ports that lead to children. -/
def State.collChildren (s : State) (cid : Nat) : List Nat := (List.range 16).filter (fun i => bit (s.collEntry cid) i)
/-- The ports of the tree at this package. -/
def State.collPorts (s : State) (cid : Nat) : List Nat :=
  (if s.collRoot cid then [] else [s.collParent cid]) ++ s.collChildren cid

/-- The operation of an entry set. -/
def State.putColl (s : State) (cid : Nat) (c : Coll) : State := { s with colls := Assoc.put s.colls cid c }

/-! ## COLL flits (Table 14.7a) -/

/-- The source of the local rank's contributions. -/
def localRank : Nat := 16

/-- A payload from its head fields and its bytes from 16 on. -/
def collPayload (cid seq kind nrm1 nbm1 fmt code status block : Nat) (data : List Byte) : List Byte :=
  natLe seq 2 ++ natLe cid 1 ++ natLe kind 1 ++ natLe nrm1 2 ++ natLe nbm1 2 ++ natLe fmt 1 ++ natLe code 1 ++ natLe status 1
    ++ natLe 0 1 ++ natLe block 4 ++ data ++ List.replicate (208 - data.length) 0

/-- A little-endian field of a payload. -/
def payNum (b : List Byte) (off n : Nat) : Nat := leNat ((b.drop off).take n)

/-- The payload of a message of an operation in progress. -/
def State.collMsg (s : State) (cid : Nat) (c : Coll) (kind code block : Nat) (data : List Byte) : List Byte :=
  collPayload cid c.seq kind (s.collNrm1 cid) (if c.sum then c.nblk - 1 else 0)
    (if c.sum then b2n c.ofmt + 2 * b2n c.bcast else 0) code 0 block data

/-- A container of 40 bits as bytes, and back. -/
def containerBytes (x : Int) : List Byte := natLe (lowBits 40 x) 5
def containerOf (b : List Byte) : Int := toSigned 40 (leNat b)

/-- The 32 containers, or the 128 codes, that a contribution's payload holds. -/
def partData (kind : Nat) (b : List Byte) : List Int :=
  if kind = 0 then (List.range 128).map (fun L => (payNum b (16 + L) 1 : Int))
  else (List.range 32).map (fun i => containerOf ((b.drop (16 + 5 * i)).take 5))

/-- The bytes of a result that a payload holds: 128 codes, 128 bytes of f32, or 8 plane words and a scale byte. -/
def resultData (kind : Nat) (pni : Bool) (b : List Byte) : List Byte :=
  (b.drop 16).take (if kind = 3 ∧ pni then 33 else 128)

/-! ## Events of the links (Table 17.5) -/

/-- An event of a link port, in the management controller's log and the ring of a function (R419). -/
def State.linkEventTo (s : State) (fn port kind seq slot handle lost : Nat) : State :=
  (s.mcEvent 0x05 (port + place kind 8)).postEvent fn 0x05
    [(8, 1, port), (9, 1, kind), (10, 1, seq), (11, 1, slot), (12, 4, handle), (16, 8, lost)]

/-- An event of a link port that concerns no queue: the PF's. -/
def State.linkEvent (s : State) (port kind seq slot handle lost : Nat) : State := s.linkEventTo 0 port kind seq slot handle lost

/-! ## Ends of an operation (R359, R361) -/

/-- The values of an operation's result register are known: they land, and the operation completes. -/
def State.collFinish (s : State) (cid : Nat) (c : Coll) (codes : Nat → Nat) (status : Nat) : State :=
  let s := { s with colls := Assoc.del s.colls cid }
  let s := s.setGroup c.gid (fun g =>
    ({ g with pend := g.pend.map (fun (x : Pend) =>
        if x.op ≠ c.op then x
        else if c.sum then { x with num := some status }
        else { x with vec := some (tab 128 (fun L => BitVec.ofNat 32 (codes L))) }) }).land c.op)
  s.finishOp c.gid c.op

/-- Free bytes, and the state's count of free values past them. -/
def State.freeBytes (s : State) (n : Nat) : State × List Byte :=
  ({ s with free := s.free + n }, (List.range n).map (fun i => (Config.freeWord (s.free + i)).extractLsb' 0 8))

/-- A range of an aborted operation's destinations holds unpredictable values, where it can be translated (R361). -/
def State.scribble (s : State) (c : Coll) (va n : Nat) : State :=
  (linePieces va n).foldl (fun s p =>
    let (s', r) := s.translate (s.engineXc c.team c.gid c.op) (BitVec.ofNat 64 p.1) .write
    match r with
    | .ok pa _ =>
      let (s, data) := s'.freeBytes p.2
      s.storeLine (lineOf pa) (Nat.max (s.line (lineOf pa)).nextTime (c.time + 1)) (cellsAt pa data)
    | _ => s) s

/-- What an abort leaves in an XSUM's destinations (R361). -/
def State.scribbleAll (s : State) (c : Coll) : State :=
  if c.sum then
    let s := s.scribble c c.dst (c.nblk * (if c.ofmt then 32 else 128))
    if c.ofmt then s.scribble c c.oscale c.nblk else s
  else s

/-- An abort of the seq of an entry reaches this rank with a status (R361): it is kept, it goes on up and down the tree but
where it came from, and it ends the operation in progress. -/
def State.abortColl (s : State) (cid seq status : Nat) (source : Nat) : State :=
  let active := (Assoc.get s.colls cid).filter (fun c => decide (c.seq = seq))
  if active.isNone ∧ (Assoc.get s.aborts cid).map Prod.fst = some seq then s
  else
    let s := { s with aborts := Assoc.put s.aborts cid (seq, status),
                      collEarly := s.collEarly.filter (fun (e : Nat × Nat × List Byte) => !decide (e.1 = cid ∧ payNum e.2.2 0 2 = seq)) }
    let msg := collPayload cid seq 4 (s.collNrm1 cid) 0 0 0 status 0 []
    let s := (s.collPorts cid).foldl (fun s p => if p = source then s else s.queueOut p 0x03 0 msg) s
    match active with
    | none => s
    | some c => (s.scribbleAll c).collFinish cid c (fun _ => 0xFF) status

/-- An XSUM meets a fault of its own (R367): its group receives POOL_FAULT, and the operation aborts with status 1. -/
def State.collFault (s : State) (cid : Nat) (c : Coll) (va done : Nat) : State :=
  let s := s.raiseDeferred c.team
    { gid := c.gid, cat := 3, addr := BitVec.ofNat 64 va, op := c.op,
      info := BitVec.ofNat 64 (place 4 60 + place (done / 256 * 256) 28) }
  s.abortColl cid c.seq 1 localRank

/-! ## This rank's contribution (R80, R360) -/

/-- The container of an element at the agreed code, and the flags it sets (R360). -/
def reexpress (ftz : Bool) (code x : Nat) : Int × Nat :=
  if code = 0 ∨ code = 0xFF then (0, 0)
  else
    match Fp.f32.decode (Fp.f32.flush ftz x) with
    | .num v =>
      let t := roundInt 0 (v.scale ((code : Int) - 127))
      let q := clampInt (-127) 127 t
      (q, if q = t then 0 else 4)
    | _ => (0, 1)

/-- How an engine's read or write of a range ends. -/
inductive RangeRes where
  | ok (data : List Byte)
  | fault (va : Nat)
  | wait
  deriving DecidableEq, Repr

/-- An operation of an entry goes on later, at a core cycle or a reference cycle. -/
def State.collLater (s : State) (cid : Nat) (onRef : Option Nat) : State :=
  if s.agenda.any (fun d => decide (d.ev = .collStep cid)) then s
  else match onRef with
    | some u => s.postRef u (.collStep cid)
    | none => s.postAt (s.clk + 1) (.collStep cid)

/-- The line of an address that a collective reads, the whole of it at one time not below the group time (R263, R360): the
operation keeps it while its blocks need it. A poisoned line is a fault, and so is a DV or SO page, from which an engine does
not read (Table 9.3; DEDUCED, log entry 88). -/
def State.collLine (s : State) (cid : Nat) (c : Coll) (va : Nat) : State × Coll × RangeRes :=
  match c.kept.find? (fun x => decide (x.1 = va / 256)) with
  | some x => (s, { c with kept := c.kept.filter (fun y => decide (y.1 ≠ x.1)) ++ [x] }, .ok x.2)
  | none =>
    let x := s.engineXc c.team c.gid c.op
    let (s, a) := s.translate x (BitVec.ofNat 64 va) .read
    match a with
    | .fault _ _ => (s, c, .fault va)
    | .wait _ => (s, c, .wait)
    | .ok pa typ =>
      if 2 ≤ typ then (s, c, .fault va)
      else if (s.bankWait pa).isSome then (s.collLater cid (s.bankWait pa), c, .wait)
      else if s.lineToCome pa then
        ((if s.lineDue (lineOf pa) then s else s.routeEngine x.core pa).collLater cid none, c, .wait)
      else
        let (s, d, bad, _) := s.readAt x c.time (lineOf pa * 256) 256
        if bad then (s, c, .fault va)
        else
          let l := c.kept ++ [(va / 256, d)]
          (s, { c with kept := l.drop (l.length - 4) }, .ok d)

/-- A collective's read of a range. -/
def State.collRead (s : State) (cid : Nat) (c : Coll) (va n : Nat) : State × Coll × RangeRes :=
  (linePieces va n).foldl (fun (s, c, r) p =>
    match r with
    | .ok data =>
      let (s, c, a) := s.collLine cid c p.1
      (s, c, match a with | .ok d => .ok (data ++ (d.drop (p.1 % 256)).take p.2) | _ => a)
    | _ => (s, c, r)) (s, c, .ok [])

/-- A collective's write of a range: ownership of each line is taken as it is written, at a time above every one that the
line holds and above the group time; a line that another engine write owns is waited for, and the issuing core's L1 loses the
line (R261, R360). -/
def State.collWrite (s : State) (cid : Nat) (c : Coll) (va : Nat) (bytes : List Byte) : State × RangeRes :=
  let x := s.engineXc c.team c.gid c.op
  (linePieces va bytes.length).foldl (fun (s, r) p =>
    match r with
    | .ok _ =>
      let (s, a) := s.translate x (BitVec.ofNat 64 p.1) .write
      (match a with
       | .fault _ _ => (s, .fault p.1)
       | .wait _ => (s, .wait)
       | .ok pa typ =>
         let n := lineOf pa
         if 2 ≤ typ then (s, .fault p.1)
         else if (s.line n).owners ≠ [] then (s.collLater cid none, .wait)
         else
         let t := Nat.max (s.line n).nextTime (c.time + 1)
         let cells := cellsAt pa ((bytes.drop (p.1 - va)).take p.2)
         let s := s.writeBackVia (dieOfCore x.core) enginePort n (cells.map (fun (y : Host.Cell) => (y.1 % 256, y.2)))
         let s := (s.storeLine n t cells).l1Drop x.core n
         (s.setGroup c.gid (fun g =>
           let old := (g.path 7).foldl (fun a (o : PathOp) => if o.op = c.op then Nat.max a o.tw else a) 0
           g.retime c.op (Nat.max t old)), .ok []))
    | _ => (s, r)) (s, .ok [])

/-- How a round of work on an operation ends: with more to do, waiting for something, or with the operation at an end. -/
inductive Round where
  | more | blocked | gone
  deriving DecidableEq, Repr

/-- The next block of this rank's contribution is formed (R360). -/
def State.collForm (s : State) (cid : Nat) (c : Coll) : State × Round :=
  let j := c.formed
  let (s, c, code) := s.collRead cid c (c.codes + j) 1
  match code with
  | .wait => (s.putColl cid c, .blocked)
  | .fault va => (s.collFault cid c va (128 * j), .gone)
  | .ok cb =>
    let (s, c, data) := s.collRead cid c (c.src + 128 * j) 128
    match data with
    | .wait => (s.putColl cid c, .blocked)
    | .fault va => (s.collFault cid c va (128 * j), .gone)
    | .ok b =>
      let code := leNat cb
      let qs := (List.range 32).map (fun i => reexpress c.ftz code (payNum b (4 * i) 4))
      let s := s.setGroup c.gid (fun g => { g with qflags := qs.foldl (fun f q => f ||| BitVec.ofNat 3 q.2) g.qflags })
      (s.putColl cid { c with formed := j + 1, parts := c.parts ++ [(localRank, j, code, qs.map Prod.fst)] }, .more)

/-! ## Reducers and root (R81, R82, R359, R360) -/

/-- The contributions to a block, one for each source, where all have arrived. -/
def Coll.ready (c : Coll) (sources : List Nat) : Option (List (Nat × List Int)) :=
  sources.mapM (fun p =>
    (c.parts.find? (fun (x : Nat × Nat × Nat × List Int) => decide (x.1 = p ∧ x.2.1 = c.reduced))).map (fun x => x.2.2))

/-- Elementwise sum, or maximum, of contributions. -/
def combineParts (sum : Bool) (l : List (Nat × List Int)) : List Int :=
  match l with
  | [] => []
  | a :: r => r.foldl (fun acc x => acc.zipWith (fun u v => if sum then u + v else if u < v then v else u) x.2) a.2

/-- The root's conversion of a block: its bytes in the form of Table 14.7a, and QFLAGS (R82). The planes of a PNI block that
is a NaN-block are 0: R82 says no more of it than that it is one (DESIGN CHOICE, log entry 83). -/
def rootBlock (pni : Bool) (code : Nat) (sums : List Int) : List Byte × Nat :=
  let nan := decide (code = 0xFF)
  let ys := sums.map (fun x => ((Exact.ofInt x).scale (127 - (code : Int))))
  if pni then
    let q : Quant := if nan then ⟨sums.map (fun _ => 0), 0xFF, 1⟩
      else if code = 0 then ⟨sums.map (fun _ => 0), 0, 0⟩ else quantFinite 0 ys
    ((List.range 8).flatMap (fun p => natLe (planeWord q.q p).toNat 4) ++ natLe q.c 1, q.flags)
  else
    (ys.flatMap (fun y => natLe (if nan then Fp.f32.nan else if code = 0 then 0 else Fp.f32.round 0 y) 4), b2n nan)

/-- A result goes down the tree, with C of its block for a sum (Table 14.7a). -/
def State.sendDown (s : State) (cid : Nat) (c : Coll) (code block : Nat) (data : List Byte) : State :=
  (s.collChildren cid).foldl (fun s p => s.queueOut p 0x03 0 (s.collMsg cid c (if c.sum then 3 else 1) code block data)) s

/-- The next block is reduced where every contribution to it has arrived: its sums go up, or the root converts them. -/
def State.collReduce (s : State) (cid : Nat) (c : Coll) : State × Round :=
  match c.ready (localRank :: s.collChildren cid) with
  | none => (s, .blocked)
  | some parts =>
    let code := ((parts.head?).map Prod.fst).getD 0
    if parts.any (fun p => decide (p.1 ≠ code)) then (s.abortColl cid c.seq 2 localRank, .gone)
    else
      let r := combineParts c.sum parts
      let c' := { c with reduced := c.reduced + 1,
                         parts := c.parts.filter (fun (x : Nat × Nat × Nat × List Int) => decide (x.2.1 ≠ c.reduced)) }
      if s.collRoot cid then
        let (data, flags) := if c.sum then rootBlock c.ofmt code r else (r.flatMap (fun x => natLe x.toNat 1), 0)
        let s := s.setGroup c.gid (fun g => { g with qflags := g.qflags ||| BitVec.ofNat 3 flags })
        let s := if c.bcast then s.sendDown cid c (if c.sum then code else 0) c.reduced data else s
        (s.putColl cid { c' with results := Assoc.put c.results c.reduced data }, .more)
      else
        let s := s.queueOut (s.collParent cid) 0x03 0
          (s.collMsg cid c (if c.sum then 2 else 0) code c.reduced
            (if c.sum then r.flatMap containerBytes else r.flatMap (fun x => natLe x.toNat 1)))
        (s.putColl cid c', .more)

/-- The bytes of a result block in dst, and the pieces of dst and of the scale bytes that lie in one line each (R360). -/
def Coll.blockBytes (c : Coll) : Nat := if c.ofmt then 32 else 128
def Coll.dstPieces (c : Coll) : List (Nat × Nat) := linePieces c.dst (c.nblk * c.blockBytes)
def Coll.scalePieces (c : Coll) : List (Nat × Nat) := if c.ofmt then linePieces c.oscale c.nblk else []

/-- The bytes of a piece of dst, and of the scale bytes, once every result that it takes has come. -/
def Coll.dstData (c : Coll) (va n : Nat) : Option (List Byte) :=
  let z := c.blockBytes
  let b := (va - c.dst) / z
  ((List.range ((va + n - 1 - c.dst) / z + 1 - b)).mapM (fun i => (Assoc.get c.results (b + i)).map (fun d => d.take z))).map
    (fun l => (l.flatten.drop ((va - c.dst) % z)).take n)
def Coll.scaleData (c : Coll) (va n : Nat) : Option (List Byte) :=
  ((List.range n).mapM (fun i => (Assoc.get c.results (va - c.oscale + i)).map (fun d => (d.drop 32).take 1))).map List.flatten

/-- The next line to write, with its bytes: the next of dst where its results have come (with `true`), else the next of the scale bytes. -/
def Coll.nextLine (c : Coll) : Option (Bool × Nat × List Byte) :=
  match (c.dstPieces[c.landed]?).bind (fun p => (c.dstData p.1 p.2).map (fun d => (true, p.1, d))) with
  | some x => some x
  | none => (c.scalePieces[c.scaled]?).bind (fun p => (c.scaleData p.1 p.2).map (fun d => (false, p.1, d)))

/-- A line of this rank's destinations is written, once, with all the results that it takes (R261, R360). -/
def State.collLand (s : State) (cid : Nat) (c : Coll) (dst : Bool) (va : Nat) (data : List Byte) : State × Round :=
  let (s, r) := s.collWrite cid c va data
  match r with
  | .wait => (s, .blocked)
  | .fault va => (s.collFault cid c va ((c.dstPieces.take c.landed).foldl (fun n p => n + p.2) 0), .gone)
  | .ok _ => (s.putColl cid (if dst then { c with landed := c.landed + 1 } else { c with scaled := c.scaled + 1 }), .more)

/-- A COLL flit of an entry waits or is not acknowledged at a port. -/
def State.collInFlight (s : State) (cid p : Nat) : Bool :=
  (s.port p).out.any (fun (x : Nat × Nat × List Byte) => decide (x.1 = 0x03 ∧ payNum x.2.2 2 1 = cid))
    || (s.port p).retry.any (fun f => decide (f.typ = 0x03 ∧ payNum f.payload 2 1 = cid))

/-- One piece of work on an operation: form, reduce, write a result, or complete (R359, R360). -/
def State.collRound (s : State) (cid : Nat) (c : Coll) : State × Round :=
  if c.formed < c.nblk then s.collForm cid c
  else if c.reduced < c.nblk then s.collReduce cid c
  else if !c.sum then
    match Assoc.get c.results 0 with
    | some data => (s.collFinish cid c (fun L => (data.getD L 0).toNat) 0, .gone)
    | none => (s, .blocked)
  else if c.bcast || s.collRoot cid then
    if c.landed = c.dstPieces.length ∧ c.scaled = c.scalePieces.length then (s.collFinish cid c (fun _ => 0) 0, .gone)
    else
      match c.nextLine with
      | some l => s.collLand cid c l.1 l.2.1 l.2.2
      | none => (s, .blocked)
  else if s.collInFlight cid (s.collParent cid) then (s, .blocked)
  else (s.collFinish cid c (fun _ => 0) 0, .gone)

/-- An operation goes as far as it can. -/
def State.advance (s : State) (cid : Nat) : Nat → State
  | 0 => s
  | n + 1 =>
    match Assoc.get s.colls cid with
    | none => s
    | some c =>
      match s.collRound cid c with
      | (s, .more) => s.advance cid n
      | (s, _) => s

/-- Rounds that an operation can take at most. -/
def Coll.rounds (c : Coll) : Nat := 3 * c.nblk + 5

/-- The operation of an entry goes on. -/
def State.collGo (s : State) (cid : Nat) : State :=
  match Assoc.get s.colls cid with
  | none => s
  | some c => s.advance cid c.rounds

/-- The operation of a key goes on, its page having been answered (R243). -/
def State.collWake (s : State) (op : Nat) : State :=
  match s.colls.find? (fun (p : Nat × Coll) => decide (p.2.op = op)) with
  | none => s
  | some p => s.collGo p.1

/-! ## Arrivals (R356, R437) -/

/-- A contribution or a result of an operation in progress (R356, R361). -/
def State.collTake (s : State) (cid : Nat) (c : Coll) (port : Nat) (b : List Byte) : State :=
  let kind := payNum b 3 1
  let up := decide (kind = 0 ∨ kind = 2)
  let block := payNum b 12 4
  let agrees := decide (payNum b 0 2 = c.seq) && decide (payNum b 4 2 = s.collNrm1 cid)
    && decide (c.sum = decide (2 ≤ kind))
    && (!c.sum || (decide (payNum b 6 2 = c.nblk - 1) && decide (payNum b 8 1 = b2n c.ofmt + 2 * b2n c.bcast) && decide (block < c.nblk)))
    && (if up then (s.collChildren cid).contains port else !s.collRoot cid && decide (port = s.collParent cid))
  if !agrees then s.abortColl cid c.seq 2 localRank
  else if up then
    (s.putColl cid { c with parts := c.parts ++ [(port, if c.sum then block else 0, payNum b 9 1, partData kind b)] }).collGo cid
  else
    let data := resultData kind c.ofmt b
    let block := if c.sum then block else 0
    ((s.putColl cid { c with results := Assoc.put c.results block data }).sendDown cid c (if c.sum then payNum b 9 1 else 0) block data).collGo cid

/-- COLL_FLIT_ARRIVAL (R437): a message of a reserved kind or of no valid entry is logged and discarded; one before this
package's own operation is kept for it; a contribution of an aborted seq is discarded. -/
def execCollFlitArrival (port : Nat) (payload : List Byte) (s : State) : Host.Outcome State Fault Refusal :=
  let cid := payNum payload 2 1
  let seq := payNum payload 0 2
  let kind := payNum payload 3 1
  if 4 < kind ∨ 64 ≤ cid ∨ !s.collValid cid then .next (s.linkEvent port 0 0 0 0 0)
  else if kind = 4 then .next (s.abortColl cid seq (payNum payload 10 1) port)
  else
    match Assoc.get s.colls cid with
    | some c => .next (s.collTake cid c port payload)
    | none =>
      if (Assoc.get s.aborts cid).map Prod.fst = some seq ∨ kind = 1 ∨ kind = 3 then .next s
      else .next { s with collEarly := s.collEarly ++ [(cid, port, payload)] }

/-- COLLECTIVE_TIMEOUT (R361). -/
def execCollectiveTimeout (cid : Nat) (s : State) : Host.Outcome State Fault Refusal :=
  match Assoc.get s.colls cid with
  | none => .next s
  | some c => if c.issued + 2 ^ 26 ≤ s.clk then .next (s.abortColl cid c.seq 3 localRank) else .next s

/-! ## Issue (R357, R358) -/

/-- A collective descriptor is valid for an operation (R358). -/
def collLegal (s : State) (sum : Bool) (b : List Byte) : Bool :=
  let n := leNat b
  decide (bits n 511 306 = 0) && decide (bits n 271 262 = 0) && decide (bits n 255 248 = 0) && decide (bits n 191 184 = 0)
    && decide (bits n 127 120 = 0) && decide (bits n 63 56 = 0) && s.collValid (bits n 261 256)
    && (if sum then decide (bits n 55 0 % 16 = 0) && decide (bits n 119 64 % 16 = 0) && decide (bits n 183 128 % 16 = 0)
          && !(bit n 304 && decide (bits n 247 192 = 0))
        else decide (bits n 247 0 = 0) && decide (bits n 287 272 = 0) && decide (bits n 305 304 = 0))

/-- The operation that a descriptor asks of a group. -/
def Ix.collOf (x : Ix) (s : State) (sum : Bool) (d : Reg) (b : List Byte) : Coll :=
  let n := leNat b
  { gid := x.gid, team := x.g.team, op := x.op, sum := sum, seq := bits n 303 288, dest := d.toNat, live := x.live,
    ftz := mrFtz x.heldMr, src := bits n 55 0, codes := bits n 119 64, dst := bits n 183 128, oscale := bits n 247 192,
    nblk := bits n 287 272 + 1, ofmt := bit n 304, bcast := if sum then bit n 305 else true,
    formed := if sum then 0 else 1, reduced := 0,
    parts := if sum then [] else [(localRank, 0, 0, (List.range 128).map (fun L => if x.live.has L then ((x.vl d L).toNat % 256 : Int) else 0))],
    results := [], landed := 0, scaled := 0, kept := [], time := x.g.time, issued := s.clk }

/-- The result register of a collective is due. -/
def Ix.collPend (x : Ix) (s : State) (c : Coll) : State :=
  if c.sum then
    s.setGroup x.gid (fun g => g.pendWith
      { op := x.op, kind := .scalar, reg := c.dest, lanes := BitVec.allOnes 128, vec := none, num := none, bad := 0 })
  else if c.live = 0 then s
  else s.setGroup x.gid (fun g => g.pendWith
      { op := x.op, kind := .vec, reg := c.dest, lanes := c.live, vec := none, num := none, bad := 0 })

/-- An operation enters: one of the seq that an abort is kept for ends at once with its status; one that names a down port, or
runs under reduced service, aborts with status 1 (R361, R422); else it starts, with the contributions that came early. -/
def State.collStart (s : State) (cid : Nat) (c : Coll) : State :=
  match (Assoc.get s.aborts cid).filter (fun a => decide (a.1 = c.seq)) with
  | some a => (s.scribbleAll c).collFinish cid c (fun _ => 0xFF) a.2
  | none =>
    let s := { s.putColl cid c with aborts := Assoc.del s.aborts cid }
    let s := s.postAt (s.clk + 2 ^ 26) (.collectiveTimeout cid)
    if s.dev.reduced ∨ (s.collPorts cid).any (fun p => !(s.port p).up) then s.abortColl cid c.seq 1 localRank
    else
      let early := s.collEarly.filter (fun (e : Nat × Nat × List Byte) => decide (e.1 = cid))
      let s := { s with collEarly := s.collEarly.filter (fun (e : Nat × Nat × List Byte) => decide (e.1 ≠ cid)) }
      let s := early.foldl (fun s e =>
        match Assoc.get s.colls cid with
        | some c => s.collTake cid c e.2.1 e.2.2
        | none => s) s
      s.collGo cid

/-- XAGREE and XSUM at issue (R358): the descriptor, then readiness, then the operation. -/
def Ix.collective (x : Ix) (s : State) (sum : Bool) (d a : Reg) : Done :=
  let va := x.g.sr a.toNat
  let bad := trapPA 0x40 va 0
  if va.toNat % 64 ≠ 0 then x.fail s bad
  else x.read s va 64 (fun s b =>
    if !collLegal s sum b then .trap s bad
    else
      let cid := bits (leNat b) 261 256
      if Assoc.has s.colls cid then .stall
      else
        let c := x.collOf s sum d b
        let s := s.setGroup x.gid (fun g => g.raisePath 7 x.op 0)
        .next ((x.collPend s c).collStart cid c))

/-- XAGREE (R359). -/
def execXagree (d a : Reg) (s : State) : Host.Outcome State Fault Refusal :=
  issue (.xagree d a) s (fun x s => x.collective s false d a)

/-- XSUM (R360). -/
def execXsum (d a : Reg) (s : State) : Host.Outcome State Fault Refusal :=
  issue (.xsum d a) s (fun x s => x.collective s true d a)

end Sys2Proof.Machine
end

