-- ==== Sys2Proof/Machine/Queues.lean ====
section
/-!
DEFINITION. Class 11: queues (R273 to R287), and the steps of a home slice: enqueue, dequeue, reply, refill.
-/
namespace Sys2Proof.Machine
open Sys2Proof

/-! ## Queue parts (R278 to R280) -/

/-- Bytes of a record by its size code (Table 11.1). -/
def recBytes (rsize : Nat) : Nat := 64 * 2 ^ rsize

/-- Records that the ring and the spill region hold at most. -/
def Queue.cap (q : Queue) : Nat := 2 ^ q.lcap
def Queue.spillCap (q : Queue) : Nat := q.spillu * 65536 / recBytes q.rsize

/-- The backlog B. -/
def Queue.backlog (q : Queue) : Nat := q.ring.length + q.spill.length

/-- The part is hard full, or drained. -/
def Queue.hardFull (q : Queue) : Bool := decide (q.cap ≤ q.ring.length) && decide (q.spillCap ≤ q.spill.length)
def Queue.drained (q : Queue) : Bool := q.sealed && decide (q.backlog = 0)

/-- A port of the package holds records on their way to the part (R355). -/
def State.portHolds (s : State) (k : Nat) : Bool :=
  s.ports.toList.any (fun p => p.heldRecs.any (fun h => decide (h.1 = k)) || p.half.any (fun h => decide (h.1 = k)))

/-- The part is drained for the package (R280, R355). -/
def State.isDrained (s : State) (k : Nat) (q : Queue) : Bool := q.drained && !s.portHolds k

/-- A record placed in the part; none where it is refused (R278). -/
def Queue.place (q : Queue) (r : Rec) : Option Queue :=
  if q.spill = [] ∧ q.ring.length < q.cap then some { q with ring := q.ring ++ [r] }
  else if q.spill.length < q.spillCap then some { q with spill := q.spill ++ [r] }
  else none

/-- The address of the spill region's slot for the spilled record `i` places behind the oldest: the slots are used in turn
(DESIGN CHOICE, log entry 25). -/
def Queue.spillAt (q : Queue) (i : Nat) : Nat := q.spillbase + (q.spillHead + i) % q.spillCap * recBytes q.rsize

/-- The bytes of a record (R277). -/
def Rec.bytes (r : Rec) : List Byte := r.words.flatMap (fun w => natLe w.toNat 4)

/-- A spilled record written to its slot by the home slice (R274, R277). -/
def State.spillWrite (s : State) (q : Queue) (i : Nat) : State :=
  let pa := q.spillAt i
  (s.touch pa).storeLine (lineOf pa) (s.line (lineOf pa)).nextTime (cellsAt pa (((q.spill[i]?).map Rec.bytes).getD []))

/-- A part has taken records: those that went to its spill region are written there. -/
def State.accepted (s : State) (k : Nat) (q : Queue) : State :=
  let n := ((Assoc.get s.queues k).map (fun o => o.spill.length)).getD 0
  (List.range (q.spill.length - n)).foldl (fun s j => s.spillWrite q (n + j)) (s.setQueue k (fun _ => q))

/-- The refill engine takes the oldest spilled records on their way to the ring while it has room (R279). -/
def State.refill (s : State) (k : Nat) : State :=
  match Assoc.get s.queues k with
  | none => s
  | some q =>
    let n := Nat.min (q.spill.length - q.transit) (q.cap - q.ring.length - q.transit)
    if n = 0 then s
    else (s.setQueue k (fun q => { q with transit := q.transit + n })).post (.spillRefillLanding k n)

/-- One dequeue takes the oldest ring records for its lowest lanes, and its reply leaves (R284). One that a sealed part hands nothing is the
acquire that matches the release of the QSEAL (R286; DESIGN CHOICE, log entry 96). -/
def State.takeRecords (s : State) (k : Nat) (q : Queue) (r : DeqReq) : State :=
  let got := r.live.lanes.zip q.ring
  let s := s.setQueue k (fun q => { q with ring := q.ring.drop got.length, waiting := q.waiting.filter (fun w => decide (w.op ≠ r.op)) })
  s.post (.queueReply (.deq r.gid r.op r.pb r.live r.dest (got.map (fun p => (p.1, p.2.words, p.2.bad)))
    (if got = [] ∧ q.sealed then q.sealTime else got.foldl (fun t p => Nat.max t p.2.time) 0)))

/-- The waiting dequeues are served, oldest first, while the ring holds records or the part is drained (R284). -/
def State.serve (s : State) (k : Nat) : Nat → State
  | 0 => s
  | n + 1 =>
    match Assoc.get s.queues k with
    | none => s
    | some q =>
      match q.waiting with
      | [] => s
      | r :: _ => if q.ring = [] ∧ !s.isDrained k q then s else (s.takeRecords k q r).serve k n

/-- A part that may have been drained may end a graph run (R418). -/
def State.watchDrain (s : State) (k : Nat) : State :=
  if ((Assoc.get s.queues k).map (s.isDrained k)).getD false then
    ((s.stages.filter (fun (p : Nat × Stage) => decide (p.2.inq = k))).map (fun p => p.2.graph)).eraseDups.foldl
      (fun s g => s.postOnce (.graphRunEnd g)) s
  else s

/-- After a step of the acceptance order: waiting dequeues, refill, and the end of the graph run. -/
def State.settleQueue (s : State) (k : Nat) : State :=
  let n := ((Assoc.get s.queues k).map (fun q => q.waiting.length)).getD 0
  ((s.serve k n).refill k).watchDrain k

/-- A part is sealed (R280), what lies at or below a time ordered before it (R286). -/
def State.seal (s : State) (k : Nat) (t : Nat := 0) : State :=
  (s.setQueue k (fun q => { q with sealed := true, sealTime := Nat.max q.sealTime t })).settleQueue k

/-! ## Handles (R273) -/

/-- The part that a handle names, for a team's function; none where the handle is not valid. -/
def State.handleOf (s : State) (fn : Nat) (h : Dword) : Option (Nat × Queue) :=
  let n := h.toNat
  if bits n 63 32 ≠ 0 ∨ bits n 5 4 ≠ 0 ∨ bits n 1 0 = 3 ∨ (!bit n 2 ∧ bits n 31 20 ≠ s.dev.pkg) then none
  else
    let k := bits n 19 18 * 4096 + bits n 17 6
    match Assoc.get s.queues k with
    | some q => if q.rsize = bits n 1 0 ∧ q.func = fn then some (k, q) else none
    | none => none

/-- An instruction's handle, or QUEUE_INVALID. -/
def Ix.queue (x : Ix) (s : State) (a : Reg) (k : Nat → Queue → Done) : Done :=
  match s.handleOf (s.fnOf x.gid) (x.g.sr a.toNat) with
  | none => .trap s (trapP 0x30)
  | some (n, q) => k n q

/-- The scratch fault of the live lanes of QENQM and QDEQM (R281), and after every lane's checks the poison that the read of
QENQM meets (R204, R282). -/
def Ix.recFault (x : Ix) (t : Team) (base z : Nat) (rd : Bool) : Option TrapInfo :=
  let checks := x.live.lanes.findSome? (fun L =>
    let o := base + L * z
    let at_ : Dword := BitVec.ofNat 64 o
    if base % 16 ≠ 0 then some (trapPA 0x20 at_ 0)
    else if !t.inScratch o z then some (trapPA 0x21 at_ 0)
    else if !rd && t.overlapsTag o z then some (trapPA 0x23 at_ 0)
    else none)
  match checks with
  | some f => some f
  | none =>
    if rd then x.live.lanes.findSome? (fun L => (t.poisonIn (base + L * z) z).map (fun w => trapPA 0x22 (BitVec.ofNat 64 w) 0))
    else none

/-! ## Enqueues (R282) -/

/-- An enqueue of records by lane, a release of what its group has done (R285). -/
def Ix.enq (x : Ix) (s : State) (k : Nat) (d : Reg) (words : Nat → List Word) : Done :=
  if x.live = 0 then .next (((x.raise s 5 0).setGroup x.gid (fun g => { g with qstatus := 0 })).finishOp x.gid x.op)
  else x.release s (fun s time =>
    let r : EnqReq := { gid := x.gid, op := x.op, queue := k, pd := d, live := x.live,
                        recs := x.live.lanes.map (fun L => (L, words L)), time := time }
    let s := (x.raise s 5 0).setGroup x.gid (fun g => g.pendWith
      { op := x.op, kind := .pred, reg := d.toNat, lanes := x.live, vec := none, num := none, bad := 0 })
    .next (s.post (.queueEnqueueStep r)))

/-- QENQ (R282). -/
def execQenq (d a b : Reg) (s : State) : Host.Outcome State Fault Refusal :=
  issue (.qenq d a b) s (fun x s =>
    x.queue s a (fun k q => x.enq s k d (fun L => (List.range (recBytes q.rsize / 4)).map (fun j => (x.g.vr (b.toNat + j)).lane L))))

/-- QENQM (R282). -/
def execQenqm (d a b : Reg) (s : State) : Host.Outcome State Fault Refusal :=
  issue (.qenqm d a b) s (fun x s =>
    x.queue s a (fun k q =>
      match s.team x.g.team with
      | none => .next s
      | some t =>
        let z := recBytes q.rsize
        let base := (x.g.sr b.toNat).toNat
        match x.recFault t base z true with
        | some f => .trap s f
        | none =>
          let s := s.correctScratch x.gid x.g.team (x.live.lanes.map (fun L => (base + L * z, z)))
          x.enq s k d (fun L => (List.range (z / 4)).map (fun j => BitVec.ofNat 32 (t.word32 (base + L * z + 4 * j))))))

/-- The lanes of an enqueue offered in ascending order: the part, the mask accepted, and why the rest were refused. -/
def Queue.offer (tick time : Nat) : List (Nat × List Word) → Queue → Mask → Queue × Mask × Option Bool
  | [], q, ok => (q, ok, none)
  | (L, w) :: r, q, ok =>
    if q.sealed then (q, ok, some true)
    else
      match q.place { words := w, bad := false, tick := tick, time := time } with
      | none => (q, ok, some false)
      | some q => Queue.offer tick time r q (ok ||| (1#128 <<< L))

/-- QUEUE_ENQUEUE_STEP (R282): one step of the acceptance order; a group's enqueues to a part keep their issue order. -/
def execQueueEnqueueStep (r : EnqReq) (s : State) : Host.Outcome State Fault Refusal :=
  let earlier := s.agenda.any (fun d => match d.ev with
    | .queueEnqueueStep e => decide (e.gid = r.gid ∧ e.queue = r.queue ∧ e.op < r.op)
    | _ => false)
  if earlier then .next (s.post (.queueEnqueueStep r))
  else
    match Assoc.get s.queues r.queue with
    | none => .next (s.post (.queueReply (.enq r.gid r.op r.pd r.live 0 false true)))
    | some q =>
      let (q, ok, why) := Queue.offer s.tick r.time r.recs q 0
      let s := (s.accepted r.queue q).settleQueue r.queue
      .next (s.post (.queueReply (.enq r.gid r.op r.pd r.live ok (decide (why = some false)) (decide (why = some true)))))

/-! ## Dequeues (R284) -/

/-- A dequeue leaves for the home slice, and the group waits for its reply. -/
def Ix.deq (x : Ix) (s : State) (k : Nat) (a b : Reg) (dest : DeqDest) : Done :=
  if x.live = 0 then .next ((x.raise s 5 0).finishOp x.gid x.op)
  else
    let r : DeqReq := { gid := x.gid, op := x.op, queue := k, pb := b, live := x.live, dest := dest,
                        nowait := (x.g.sr a.toNat).getLsbD 3 }
    let s := (x.raise s 5 0).setGroup x.gid (fun g => { g with park := some (.dequeue x.op) })
    .stay (s.post (.queueDequeueStep r))

/-- QDEQ (R284). -/
def execQdeq (d a b : Reg) (s : State) : Host.Outcome State Fault Refusal :=
  issue (.qdeq d a b) s (fun x s => x.queue s a (fun k _ => x.deq s k a b (.regs d)))

/-- QDEQM (R284). -/
def execQdeqm (d a b : Reg) (s : State) : Host.Outcome State Fault Refusal :=
  issue (.qdeqm d a b) s (fun x s =>
    x.queue s a (fun k q =>
      match s.team x.g.team with
      | none => .next s
      | some t =>
        let base := (x.g.sr d.toNat).toNat
        match x.recFault t base (recBytes q.rsize) false with
        | some f => .trap s f
        | none => x.deq s k a b (.scratch base)))

/-- QUEUE_DEQUEUE_STEP (R284): it takes what the ring holds, or waits in line. -/
def execQueueDequeueStep (r : DeqReq) (s : State) : Host.Outcome State Fault Refusal :=
  match Assoc.get s.queues r.queue with
  | none => .next (s.post (.queueReply (.deq r.gid r.op r.pb r.live r.dest [] 0)))
  | some q =>
    if q.ring = [] ∧ !s.isDrained r.queue q ∧ !r.nowait then
      .next (s.setQueue r.queue (fun q => { q with waiting := q.waiting ++ [r] }))
    else .next ((s.takeRecords r.queue q r).settleQueue r.queue)

/-- A record delivered into scratch, and nothing of it where it would write a tagged word (R284). -/
def Team.putRecord (t : Team) (off : Nat) (words : List Word) (bad : Bool) : Team :=
  let data := words.flatMap (fun w => natLe w.toNat 4)
  if t.overlapsTag off data.length then t
  else
    let t := t.putScratch off data
    if bad then { t with sbad := t.sbad ++ (List.range words.length).map (fun j => off + 4 * j) } else t

/-- QUEUE_REPLY (R282, R284, R285). -/
def execQueueReply (r : QReply) (s : State) : Host.Outcome State Fault Refusal :=
  match r with
  | .enq gid op _ _ ok full closed =>
    let s := s.setGroup gid (fun g =>
      { ({ g with pend := g.pend.map (fun (x : Pend) => if x.op = op then { x with num := some ok.toNat } else x) } : Group).land op with
        qstatus := BitVec.ofNat 2 (b2n full + 2 * b2n closed) })
    .next (s.finishOp gid op)
  | .deq gid op pb live dest recs time =>
    match s.group gid with
    | none => .next (s.finishOp gid op)
    | some g =>
      let m := maskOf (recs.map Prod.fst)
      let wordOf := fun (L j : Nat) => (((recs.find? (fun p => decide (p.1 = L))).map (fun p => p.2.1)).getD []).getD j 0
      let n := ((recs.head?).map (fun p => p.2.1.length)).getD 0
      let s : State := match dest with
        | .regs d => s.setGroup gid (fun (g : Group) =>
            let g := (List.range n).foldl (fun (g : Group) j => g.setV (d.toNat + j) m (fun L => wordOf L j)) g
            { g with bad := g.bad ++ (recs.filter (fun p => p.2.2)).flatMap (fun p =>
                (List.range n).map (fun j => { kind := .vec, reg := d.toNat + j, lane := p.1 })) })
        | .scratch off => s.setTeam g.team (fun t => recs.foldl (fun t p => t.putRecord (off + p.1 * (4 * n)) p.2.1 p.2.2) t)
      let s := s.setGroup gid (fun (g : Group) =>
        let g := (g.setPLanes pb.toNat live m).acquire time
        if g.park = some (.dequeue op) then g.unpark else g)
      .next (s.finishOp gid op)

/-- The oldest `n` spilled records as they come back: poisoned where the line of their slot is (R279). -/
def State.refilled (s : State) (q : Queue) (n : Nat) : List Rec :=
  ((q.spill.take n).zipIdx).map (fun p => { p.1 with bad := (s.line (lineOf (q.spillAt p.2))).bad })

/-- Each line that a refill reads: a transfer of it, and an event where it is poisoned (R233, R387). -/
def State.refillReads (s : State) (q : Queue) (n : Nat) : State :=
  (((List.range n).map (fun i => lineOf (q.spillAt i))).eraseDups).foldl (fun s m =>
    let s := (s.touch (m * 256)).setLine m (fun l => { l with rtime := Nat.max l.rtime l.topTime })
    if (s.line m).bad then s.poisonEvent (m * 256) else s) s

/-- SPILL_REFILL_LANDING (R279). -/
def execSpillRefillLanding (queue n : Nat) (s : State) : Host.Outcome State Fault Refusal :=
  match Assoc.get s.queues queue with
  | none => .next s
  | some q =>
    .next (((s.refillReads q n).setQueue queue (fun q =>
      { q with ring := q.ring ++ s.refilled q n, spill := q.spill.drop n, transit := q.transit - n,
               spillHead := (q.spillHead + n) % q.spillCap })).settleQueue queue)

/-! ## QLEN, QSEAL, QINFO (R286) -/

/-- A scalar read at the home slice: it lands later. -/
def Ix.queueRead (x : Ix) (s : State) (d : Reg) (v : Nat) : Done :=
  let s := s.setGroup x.gid (fun g =>
    ({ g with others := g.others ++ [x.op] } : Group).pendWith
      { op := x.op, kind := .scalar, reg := d.toNat, lanes := BitVec.allOnes 128, vec := none, num := some v, bad := 0 })
  .next (s.post (.registerResultLand x.gid x.op))

/-- QLEN (R286). -/
def execQlen (d a : Reg) (s : State) : Host.Outcome State Fault Refusal :=
  issue (.qlen d a) s (fun x s => x.queue s a (fun _ q => x.queueRead s d q.backlog))

/-- The group has sent an enqueue to the part that has not been applied. -/
def State.enqueueDue (s : State) (gid k : Nat) : Bool :=
  s.agenda.any (fun d => match d.ev with | .queueEnqueueStep e => decide (e.gid = gid ∧ e.queue = k) | _ => false)

/-- QSEAL (R286): a release of what its group has done, behind the group's enqueues to the part, which reach its home slice before it
(R282). -/
def execQseal (a : Reg) (s : State) : Host.Outcome State Fault Refusal :=
  issue (.qseal a) s (fun x s => x.queue s a (fun k q =>
    if s.enqueueDue x.gid k then .stall
    else if q.sealed then .next s
    else x.release s (fun s t => .next (s.seal k t))))

/-- QINFO (R286, Table 11.7). -/
def execQinfo (d a : Reg) (s : State) : Host.Outcome State Fault Refusal :=
  issue (.qinfo d a) s (fun x s => x.queue s a (fun _ q => x.queueRead s d
    (place (b2n q.sealed) 63 + place (b2n q.hardFull) 62 + place q.lcap 57 + place q.spill.length 17 + q.ring.length)))

end Sys2Proof.Machine
end

