-- ==== Sys2Proof/Machine/Links.lean ====
section
/-!
DEFINITION. The Jenhombe Link ports: flits and retry (R344 to R347), key slots (R348 to R350), record forwarding and landing
(R351 to R355).
-/
namespace Sys2Proof.Machine
open Sys2Proof

/-! ## Link cycles (R343) -/

/-- The reference cycle at which a link cycle starts: 8 reference cycles make 5 link cycles. -/
def linkStart (n : Nat) : Nat := (8 * n + 4) / 5
/-- The link cycle of now. -/
def State.linkNow (s : State) : Nat := 5 * s.refc / 8

/-- The link cycle that a port's next flit claims is past. -/
def Port.claim (x : Port) (now n : Nat) : Port := { x with claimed := Nat.max x.claimed now + n }

/-! ## Forming flits (R344, R346, R349) -/

/-- The transmit side's current key slot. -/
def Port.txKey (x : Port) : KeySlot := Vector.at0 x.txKeys x.txSlot KeySlot.empty
/-- A receive key slot. -/
def Port.rxKey (x : Port) (n : Nat) : KeySlot := Vector.at0 x.rxKeys n KeySlot.empty

/-- The counter value that only a KEYSW may take, and the one that raises the key-wear warning. -/
def ctrLast : Nat := 2 ^ 40 - 1
def ctrWear : Nat := 2 ^ 40 - 2 ^ 24

/-- A flit of a type can be formed now: the port is up, its key may still be used, and for all but ACKs the retry buffer has
room for `n` flits. -/
def Port.canForm (x : Port) (typ n : Nat) : Bool :=
  x.up && x.txKey.live && !x.txKey.exhausted && (decide (typ = 4) || decide (x.txKey.ctr + n ≤ ctrLast))
    && (decide (typ = 5) || decide (x.retry.length + n ≤ 64))

/-- A payload filled up with zeros. -/
def padded (b : List Byte) : List Byte := (b ++ List.replicate (224 - b.length) 0).take 224

/-- A transmit side's key after one use: its counter rises; with 2^40 − 1 used it forms no further flit. -/
def KeySlot.used (k : KeySlot) : KeySlot := { k with ctr := k.ctr + 1, exhausted := decide (ctrLast ≤ k.ctr) }

/-- The header of a flit (Table 14.1). -/
def flitHeader (f : Flit) : Nat :=
  f.ctr % 2 ^ 40 + place (f.arg % 256) 64 + place (f.spkg % 4096) 72 + place (f.dpkg % 4096) 84 + place (f.slot % 2) 111
    + place (f.seq % 256) 112 + place (f.typ % 256) 120

/-- The IV of a flit under a key slot: linkid, 24 zero bits, ctr (R348). -/
def KeySlot.iv (k : KeySlot) (ctr : Nat) : Nat := k.linkid % 2 ^ 32 * 2 ^ 64 + ctr % 2 ^ 40

/-- The 32 bytes of a slot's key, and byte strings as numbers and back. The four key words of KEY_INSTALL are taken
little-endian, as R2 has every multi-byte value (DEDUCED, log entry 85). -/
def KeySlot.bytes (k : KeySlot) : List Nat := (natLe k.key 32).map BitVec.toNat
def byteNats (b : List Byte) : List Nat := b.map BitVec.toNat
def natBytes (l : List Nat) : List Byte := l.map (BitVec.ofNat 8)

/-- The 256 bytes of a flit: the header in clear, the encrypted payload, the tag (R344, R348). -/
def sealFlit (f : Flit) (k : KeySlot) : List Byte :=
  let head := natLe (flitHeader f) 16
  let r := gcmSeal k.bytes (k.iv f.ctr) (byteNats head) (byteNats f.payload)
  head ++ natBytes r.1 ++ natBytes r.2

/-- A flit from its 256 bytes: its header fields, its payload deciphered under the slot that it names, and whether its tag
passes; it fails under an empty slot (R344, R348, R350). -/
def Port.opened (x : Port) (b : List Byte) : Flit × Bool :=
  let head := b.take 16
  let n := leNat head
  let k := x.rxKey (bits n 111 111)
  let r := if k.live then gcmOpen k.bytes (k.iv (bits n 39 0)) (byteNats head) (byteNats ((b.drop 16).take 224)) (byteNats (b.drop 240))
    else ([], false)
  ({ typ := bits n 127 120, seq := bits n 119 112, slot := bits n 111 111, dpkg := bits n 95 84, spkg := bits n 83 72,
     arg := bits n 71 64, ctr := bits n 39 0, rsv := decide (bits n 110 96 ≠ 0 ∨ bits n 63 40 ≠ 0), payload := natBytes r.1,
     image := b }, r.2 && decide (b.length = 256))

/-- The transmit side after a flit has been formed: the flit is sent, and held for retry unless it is an ACK. -/
def Port.sent (x : Port) (f : Flit) (refc now : Nat) : Port :=
  let ack := decide (f.typ = 5)
  { x.claim now 1 with
    txKeys := Vector.put x.txKeys x.txSlot x.txKey.used, wire := x.wire ++ [f],
    txSeq := if ack then x.txSeq else (x.txSeq + 1) % 256,
    retry := if ack then x.retry else x.retry ++ [f],
    progress := if !ack && x.retry.isEmpty then refc else x.progress }

/-- Link cycles without progress of acknowledgement after which a transmitter resends. -/
def retryCycles : Nat := 1024

/-- The retry timer of a port runs. -/
def State.retryTimer (s : State) (p : Nat) : State :=
  if s.agenda.any (fun d => decide (d.ev = .retryTimeout p)) then s
  else s.postRef (linkStart (s.linkNow + retryCycles)) (.retryTimeout p)

/-- A flit is formed and sent (R344, R346, R349). -/
def State.formFlit (s : State) (p typ arg : Nat) (payload : List Byte) : State :=
  let x := s.port p
  let f : Flit :=
    { typ := typ, seq := if typ = 5 then 0 else x.txSeq, slot := x.txSlot, dpkg := x.nbrPkg, spkg := s.dev.pkg, arg := arg,
      ctr := x.txKey.ctr, rsv := false, payload := padded payload, image := [] }
  let f := { f with image := sealFlit f x.txKey }
  let s := s.setPort p (fun x => x.sent f s.refc s.linkNow)
  let s := if f.ctr = ctrWear then s.linkEvent p 2 f.seq f.slot 0 0 else s
  if typ = 5 then s else s.retryTimer p

/-! ## Acknowledgement (R346, R350, R354) -/

/-- An ACK is due within 64 link cycles. -/
def State.ackSoon (s : State) (p : Nat) : State :=
  if s.agenda.any (fun d => decide (d.ev = .ackSend p)) then s else s.postRef (linkStart (s.linkNow + 64)) (.ackSend p)

/-- An ACK is formed: the greatest seq accepted, and the credits landed (R345); one that cannot be formed now is due. An ACK
that covers a KEYSW starts the count that retires the old slot. -/
def State.sendAck (s : State) (p : Nat) (nak : Bool) : State :=
  let x := s.port p
  if !x.canForm 5 1 then (s.setPort p (fun x => { x with nakDue := nak || x.nakDue })).ackSoon p
  else
    let s := s.formFlit p 5 0 (natLe ((x.rxSeq + 255) % 256) 1 ++ natLe (b2n nak) 1 ++ natLe x.creditsDue 2)
    s.setPort p (fun x => { x with sinceAck := 0, creditsDue := 0, nakDue := false, keyswDue := false, retiring := if x.keyswDue then some 0 else x.retiring })

/-- ACK_SEND (R346): where flits or credits are unacknowledged; one that cannot be formed now is tried again. -/
def execAckSend (port : Nat) (s : State) : Host.Outcome State Fault Refusal :=
  let x := s.port port
  if !x.up ∨ (x.sinceAck = 0 ∧ x.creditsDue = 0 ∧ !x.nakDue) then .next s
  else .next (s.sendAck port x.nakDue)

/-- The retry buffer without the flits up to a seq; unchanged where the seq is not held. -/
def uncovered (l : List Flit) (seq : Nat) : List Flit :=
  if l.any (fun f => decide (f.seq = seq)) then (l.dropWhile (fun f => decide (f.seq ≠ seq))).drop 1 else l

/-- A held flit and all after it are sent again, unchanged (R346). -/
def State.resend (s : State) (p : Nat) : State :=
  s.setPort p (fun x => { x.claim s.linkNow x.retry.length with wire := x.wire ++ x.retry, progress := s.refc })

/-- Every collective operation goes on as far as it can. -/
def State.collsGo (s : State) : State := s.colls.foldl (fun s q => s.collGo q.1) s

/-- An ACK has passed its tag check (R346, R354). -/
def State.acked (s : State) (p : Nat) (f : Flit) : State :=
  let x := s.port p
  let left := uncovered x.retry (payNum f.payload 0 1)
  let s := s.setPort p (fun x =>
    { x with retry := left, credits := x.credits + payNum f.payload 2 2,
             progress := if left.length < x.retry.length then s.refc else x.progress })
  let s := if payNum f.payload 1 1 % 2 = 1 ∧ left ≠ [] then s.resend p else s
  s.collsGo

/-- A flit's tag passes: the tag itself, its slot holds a key, and its counter lies above every one accepted under it (R348,
R350). -/
def Port.tagPasses (x : Port) (f : Flit) (tagOk : Bool) : Bool := tagOk && (x.rxKey f.slot).live && decide ((x.rxKey f.slot).ctr ≤ f.ctr)

/-- An ACK arrives: it is discarded where its tag fails or its header is not for this port (R345, R346). -/
def State.ackIn (s : State) (p : Nat) (f : Flit) (tagOk : Bool) : State :=
  if !(s.port p).up ∨ !(s.port p).tagPasses f tagOk then s
  else if f.rsv ∨ f.dpkg ≠ s.dev.pkg then s.linkEvent p 0 f.seq f.slot 0 0
  else s.acked p f

/-! ## Landing (R352, R354) -/

/-- The part that a REC flit's handle names here: R273's checks but for the function's. -/
def State.partOf (s : State) (h : Nat) : Option (Nat × Queue) :=
  if bits h 5 4 ≠ 0 ∨ bits h 1 0 = 3 ∨ bit h 2 ∨ bits h 31 20 ≠ s.dev.pkg then none
  else
    let k := bits h 19 18 * 4096 + bits h 17 6
    (Assoc.get s.queues k).bind (fun q => if q.rsize = bits h 1 0 then some (k, q) else none)

/-- The words of a byte string. -/
def wordsOf (b : List Byte) : List Word := (List.range (b.length / 4)).map (fun i => BitVec.ofNat 32 (payNum b (4 * i) 4))

/-- Records placed in a part one after another; those that it refuses are left over. -/
def landRecords (tick : Nat) (q : Queue) : List (List Word) → Queue × List (List Word)
  | [] => (q, [])
  | r :: rest =>
    match q.place { words := r, bad := false, tick := tick, time := 0 } with
    | some q => landRecords tick q rest
    | none => (q, r :: rest)

/-- A credit is due for a forwarding unit that has landed. -/
def State.creditDue (s : State) (p : Nat) : State := (s.setPort p (fun x => { x with creditsDue := x.creditsDue + 1 })).ackSoon p

/-- The landings that a port holds for a part without the first, of which some records may be left. -/
def Port.landedFirst (x : Port) (k : Nat) (left : List (List Word)) : Port :=
  let before := x.heldRecs.takeWhile (fun h => decide (h.1 ≠ k))
  { x with heldRecs := before ++ (if left = [] then [] else [(k, left)]) ++ x.heldRecs.drop (before.length + 1) }

/-- The landings that a port holds for a part, in their order, until the part refuses one (R354). Each is held until it has landed, so
that the part does not count as drained before (R355). -/
def State.landHeld (s : State) (p k : Nat) : Nat → State
  | 0 => s
  | n + 1 =>
    match (s.port p).heldRecs.find? (fun h => decide (h.1 = k)) with
    | none => s
    | some h =>
      match Assoc.get s.queues k with
      | none => ((s.setPort p (fun x => x.landedFirst k [])).creditDue p).landHeld p k n
      | some q =>
        let (q', left) := landRecords s.tick q h.2
        let s := ((s.setPort p (fun x => x.landedFirst k left)).accepted k q').settleQueue k
        if left = [] then (s.creditDue p).landHeld p k n else s

/-- While a port holds landings they are tried again in the next cycle (R354). -/
def State.retryLanding (s : State) (p : Nat) : State :=
  if (s.port p).heldRecs = [] ∨ s.agenda.any (fun d => decide (d.ev = .recLandingRetry p)) then s
  else s.postAt (s.clk + 1) (.recLandingRetry p)

/-- A forwarding unit lands in a part behind the landings that the port holds for it; what the part refuses is held (R354). -/
def State.landUnit (s : State) (p k : Nat) (recs : List (List Word)) : State :=
  let blocked := (s.port p).heldRecs.any (fun h => decide (h.1 = k))
  let s := s.setPort p (fun x => { x with heldRecs := x.heldRecs ++ [(k, recs)] })
  (if blocked then s else s.landHeld p k 1).retryLanding p

/-- REC_LANDING_RETRY (R354): the held landings of a port, those of each part in their order, and again in the next cycle while any is
left. -/
def execRecLandingRetry (port : Nat) (s : State) : Host.Outcome State Fault Refusal :=
  let held := (s.port port).heldRecs
  .next (((held.map Prod.fst).eraseDups.foldl (fun s k => s.landHeld port k held.length) s).retryLanding port)

/-- A REC flit lands (R352, R354): the first flit of a 256-byte record waits for the second; a handle that names no part here
loses its records, with the credit returned. -/
def State.recIn (s : State) (p : Nat) (f : Flit) : State :=
  let h := payNum f.payload 0 4
  let body := (f.payload.drop 32).take 192
  let second := bit f.arg 7
  let n := f.arg % 4
  match s.partOf h with
  | none => if second then s else (s.linkEvent p 3 f.seq f.slot h n).creditDue p
  | some (k, q) =>
    if q.rsize = 2 then
      if second then
        match (s.port p).half with
        | some (k', first) =>
          let s := s.setPort p (fun x => { x with half := none })
          if k' = k then s.landUnit p k [wordsOf (first ++ body.take 64)] else s
        | none => s
      else s.setPort p (fun x => { x with half := some (k, body) })
    else
      let z := recBytes q.rsize
      s.landUnit p k ((List.range (Nat.min n (192 / z))).map (fun i => wordsOf ((body.drop (z * i)).take z)))

/-! ## Going down (R347) -/

/-- Records lost in a list of held flits, by handle. The second flit of a 256-byte record follows its first; at the head of the
list it stands alone, and its record is lost with it. -/
def lostRecords (l : List Flit) : Assoc Nat :=
  l.zipIdx.foldl (fun (m : Assoc Nat) p =>
    let n := if p.1.typ ≠ 1 then 0 else if bit p.1.arg 7 then b2n (decide (p.2 = 0)) else p.1.arg % 4
    let h := payNum p.1.payload 0 4
    if n = 0 then m else Assoc.put m h (Assoc.getD m h 0 + n)) []

/-- The function that owns the queue of which a handle names a part: that of the local part whose peer it is (R351, R419). -/
def State.queueOwner (s : State) (h : Nat) : Nat :=
  ((s.queues.find? (fun (p : Nat × Queue) => p.2.peers.contains h)).map (fun p => p.2.func)).getD 0

/-- A port goes down: a security event, one event for each handle that has lost records, and the collectives that use it
abort (R347, R361). -/
def State.portDown (s : State) (p seq slot : Nat) : State :=
  let lost := lostRecords (s.port p).retry
  let half := (s.port p).half
  let s := s.setPort p (fun x => { x with up := false, retry := [], out := [], half := none, names := [], nakDue := false })
  let s := match half with | some h => s.settleQueue h.1 | none => s
  let s := s.linkEvent p 1 seq slot 0 0
  let s := lost.foldl (fun s h => s.linkEventTo (s.queueOwner h.1) p 3 seq slot h.1 h.2) s
  s.colls.foldl (fun s q => if (s.collPorts q.1).contains p then s.abortColl q.1 q.2.seq 1 localRank else s) s

/-! ## Receiving (R345, R346, R350) -/

/-- A NAME flit's message goes to the name router once its flits are complete (R298, R345). -/
def State.nameIn (s : State) (p : Nat) (f : Flit) : State :=
  let l := (s.port p).names ++ [f.payload]
  match Config.nameMessage l with
  | none => s.setPort p (fun x => { x with names := l })
  | some m =>
    let s := s.setPort p (fun x => { x with names := [] })
    match m with
    | .inl i =>
      let e := match i.who with | .upstream _ e => e | .ticket _ _ => 0
      s.post (.interestArrival { i with die := p / 4, who := .upstream (8 + p % 4) e })
    | .inr a => s.post (.tileAnswerArrival { a with die := p / 4, via := some p })

/-- The receive side after an accepted flit. -/
def Port.accepted (x : Port) (f : Flit) : Port :=
  { x with rxSeq := (x.rxSeq + 1) % 256, fails := 0, sinceAck := x.sinceAck + 1,
           rxKeys := Vector.put x.rxKeys f.slot { x.rxKey f.slot with ctr := f.ctr + 1 }, retiring := x.retiring.map (· + 1) }

/-- An accepted flit goes to its consumer; a reserved type or header bit and a foreign dpkg are logged (R345). -/
def State.consume (s : State) (p : Nat) (f : Flit) : State :=
  if f.rsv ∨ f.dpkg ≠ s.dev.pkg then s.linkEvent p 0 f.seq f.slot 0 0
  else
    match f.typ with
    | 1 => s.recIn p f
    | 2 => s.nameIn p f
    | 3 => s.post (.collFlitArrival p f.payload)
    | 4 => s.setPort p (fun x => { x with rxSlot := f.arg % 2, keyswDue := true })
    | _ => s.linkEvent p 0 f.seq f.slot 0 0

/-- A flit other than an ACK arrives (R346, R347). -/
def State.flitIn (s : State) (p : Nat) (f : Flit) (tagOk : Bool) : State :=
  let x := s.port p
  if !x.up ∨ f.seq ≠ x.rxSeq then s
  else if x.tagPasses f tagOk && decide (f.slot = x.rxSlot) then
    let s := (s.setPort p (fun x => x.accepted f)).consume p f
    let s := if (s.port p).retiring = some 64 then s.postOnce (.keySlotRetire p) else s
    if (s.port p).sinceAck < 16 then s.ackSoon p else s.sendAck p false
  else
    let s := s.setPort p (fun x => { x with fails := x.fails + 1 })
    if x.fails + 1 < 3 then s.sendAck p true else s.portDown p f.seq f.slot

/-- The 256 bytes of a flit arrive at a port. -/
def State.receive (s : State) (p : Nat) (b : List Byte) : State :=
  let f := (s.port p).opened b
  if f.1.typ = 5 then s.ackIn p f.1 f.2 else s.flitIn p f.1 f.2

/-- FLIT_RECEIVE (R344, R346): the header and payload, and the tag behind them. -/
def execFlitReceive (port : Nat) (flit tag : List Byte) (s : State) : Host.Outcome State Fault Refusal :=
  .next (s.receive port (flit ++ tag))

/-- ACK_RECEIVE (R344, R346): the header and payload, and the tag behind them. -/
def execAckReceive (port : Nat) (flit tag : List Byte) (s : State) : Host.Outcome State Fault Refusal :=
  .next (s.receive port (flit ++ tag))

/-- RETRY_TIMEOUT (R346): with no progress of acknowledgement for 1,024 link cycles every held flit is sent again. -/
def execRetryTimeout (port : Nat) (s : State) : Host.Outcome State Fault Refusal :=
  let x := s.port port
  if !x.up ∨ x.retry = [] then .next s
  else
    let due := linkStart (5 * x.progress / 8 + retryCycles)
    if s.refc < due then .next (s.postRef due (.retryTimeout port))
    else .next ((s.resend port).retryTimer port)

/-! ## Key slots (R349, R350) -/

/-- KEY_SWITCHOVER (R350): a KEYSW under the current slot names the other, which must be live; every later flit is formed under
it, and the slot left is empty. -/
def execKeySwitchover (port : Nat) (s : State) : Host.Outcome State Fault Refusal :=
  let x := s.port port
  let other := 1 - x.txSlot
  if (Vector.at0 x.txKeys other KeySlot.empty).live && x.canForm 4 1 then
    .next ((s.formFlit port 4 other []).setPort port (fun y =>
      { y with txSlot := other, txKeys := Vector.put y.txKeys x.txSlot KeySlot.empty }))
  else .next s

/-- KEY_SLOT_RETIRE (R350): 64 flits after the ACK that covered the KEYSW, the old slot is emptied. -/
def execKeySlotRetire (port : Nat) (s : State) : Host.Outcome State Fault Refusal :=
  if (s.port port).retiring.any (fun n => decide (64 ≤ n)) then
    .next (s.setPort port (fun x => { x with rxKeys := Vector.put x.rxKeys (1 - x.rxSlot) KeySlot.empty, retiring := none }))
  else .next s

/-- A key with its linkid installed in a slot of a direction (0 transmit, 1 receive), with its counter at 0; refused into the
slot in use (R349, R350). -/
def Port.install (x : Port) (dir slot linkid key : Nat) : Option Port :=
  let k : KeySlot := { live := true, linkid := linkid, key := key, ctr := 0, exhausted := false }
  if dir = 0 then
    if slot = x.txSlot ∧ x.txKey.live then none else some { x with txKeys := Vector.put x.txKeys slot k }
  else if slot = x.rxSlot ∧ (x.rxKey slot).live then none
  else some { x with rxKeys := Vector.put x.rxKeys slot k, retiring := if slot = x.rxSlot then x.retiring else none }

/-- LINK_KEY_MANAGEMENT (R350, R423): in its hardware mode the management controller installs a key that it has negotiated. -/
def execLinkKeyManagement (port dir slot linkid key : Nat) (s : State) : Host.Outcome State Fault Refusal :=
  if s.dev.assisted.getLsbD 2 then .next s
  else
    match (s.port port).install (dir % 2) (slot % 2) linkid key with
    | some x => .next (s.setPort port (fun _ => x))
    | none => .next s

/-! ## Forwarding (R351 to R353) -/

/-- Records forwarded through a port since a tick that a condition picks. -/
def Port.forwardedSince (x : Port) (k : Nat) (f : Nat × Nat → Bool) : Nat :=
  x.forwarded.foldl (fun n r => if k ≤ r.1 ∧ f (r.2.1, r.2.2.1) then n + r.2.2.2 else n) 0

/-- The weight of a local part: that of the stage whose input it is (R351). -/
def State.partWeight (s : State) (k : Nat) : Option Nat := (s.stages.find? (fun (p : Nat × Stage) => decide (p.2.inq = k))).map (fun p => p.2.weight)

/-- The peer of a part across a port (R351). -/
def State.peerAcross (s : State) (p : Nat) (q : Queue) : Option Nat := q.peers.find? (fun h => decide (bits h 31 20 = (s.port p).nbrPkg))

/-- Records of a forwarding unit, and the flits that carry one (R352). -/
def unitRecords (rsize : Nat) : Nat := if rsize = 0 then 3 else 1
def unitFlits (rsize : Nat) : Nat := if rsize = 2 then 2 else 1

/-- A choice of a forwarding decision: the part, its peer, D and the weight. -/
structure Forward where
  part : Nat
  peer : Nat
  d : Int
  weight : Nat
  deriving DecidableEq, Repr

/-- D of a part across a port in tick `k`, where it is eligible (R353). -/
def State.eligible (s : State) (p k key : Nat) (q : Queue) : Option Forward :=
  match s.partWeight key, s.peerAcross p q with
  | some w, some h =>
    let x := s.port p
    let (pb, _, full, _) := Config.peerSample h (k - 1)
    let aq : Int := (q.sample.b : Int) - (x.forwardedSince (k - 1) (fun r => decide (r.1 = key)) : Int)
    let ap : Int := (pb : Int) + (x.forwardedSince (k - 1) (fun r => decide (r.2 = h)) : Int)
    let d := (w : Int) * (aq - ap)
    if decide (0 < d) && !full && decide (0 < x.credits)
        && (decide (unitRecords q.rsize ≤ q.ring.length) || (decide (0 < q.ring.length) && (q.sample.sealed || q.sample.lingered))) then
      some { part := key, peer := h, d := d, weight := w }
    else none
  | _, _ => none

/-- The eligible part with the greatest D; a tie goes to the greater weight, then to the lower die and number (R353). -/
def State.bestForward (s : State) (p k : Nat) : Option Forward :=
  s.queues.foldl (fun (a : Option Forward) (q : Nat × Queue) =>
    match s.eligible p k q.1 q.2 with
    | none => a
    | some f =>
      (match a with
       | none => some f
       | some b => if b.d < f.d ∨ (b.d = f.d ∧ b.weight < f.weight) then some f else some b)) none

/-- The flits of records to a handle: argument byte and payload (R345, R352). -/
def recFlits (rsize handle : Nat) (recs : List Rec) : List (Nat × List Byte) :=
  let data := recs.flatMap (fun r => r.words.flatMap (fun w => natLe w.toNat 4))
  let head := natLe handle 4 ++ List.replicate 28 0
  if rsize = 2 then [(1, head ++ data.take 192), (0x81, head ++ data.drop 192)] else [(recs.length, head ++ data)]

/-- A forwarding unit leaves the ring of a part (R353). -/
def State.forwardUnit (s : State) (p k : Nat) (f : Forward) : State :=
  match Assoc.get s.queues f.part with
  | none => s
  | some q =>
    if !(s.port p).canForm 1 (unitFlits q.rsize) then s
    else
      let recs := q.ring.take (unitRecords q.rsize)
      let s := (s.setQueue f.part (fun q => { q with ring := q.ring.drop recs.length })).settleQueue f.part
      let s := s.setPort p (fun x =>
        { x with credits := x.credits - 1,
                 forwarded := x.forwarded.filter (fun r => decide (k ≤ r.1 + 1)) ++ [(k, f.part, f.peer, recs.length)] })
      (recFlits q.rsize f.peer recs).foldl (fun s g => s.formFlit p 1 g.1 g.2) s

/-- A link cycle of a port's transmit side: a NAME or COLL flit that waits, or else a forwarding decision (R353). -/
def State.linkCycle (s : State) (p : Nat) : State :=
  match (s.port p).out with
  | (typ, arg, b) :: rest =>
    if (s.port p).canForm typ 1 then (s.setPort p (fun x => { x with out := rest })).formFlit p typ arg b else s
  | [] =>
    let k := s.tick
    if k = 0 then s
    else
      match s.bestForward p k with
      | some f => s.forwardUnit p k f
      | none => s

/-- PORT_FORWARD_DECISION (R353): a link cycle that no flit has claimed; the next follows. -/
def execPortForwardDecision (port : Nat) (s : State) : Host.Outcome State Fault Refusal :=
  if !(s.port port).up then .next s
  else
    let s' := if (s.port port).claimed ≤ s.linkNow then s.linkCycle port else s
    .next (s'.postRef (linkStart (s.linkNow + 1)) (.portForwardDecision port))

end Sys2Proof.Machine
end

