-- ==== Sys2Proof/Machine/Control.lean ====
section
/-!
DEFINITION. Class 0: control transfer, the mask stack, SPAWN, EXIT, standing in issue, LNCH (R92 to R106).
-/
namespace Sys2Proof.Machine
open Sys2Proof

/-- The target of a branch: the word's address plus four times its signed offset (R31). -/
def branchTarget (pc : Va) (off : BitVec 15) : Va := pc + (off.signExtend 56 <<< 2)

/-- A code address held in a scalar: bits [55:2] (R95). -/
def codeAddr (x : Dword) : Va := x.extractLsb' 2 54 ++ (0#2 : BitVec 2)

/-- The lanes of a set that satisfy a predicate operand (R93, R96). -/
def Ix.satisfying (x : Ix) (m : Mask) (pred : BitVec 4) (sense : Bool) : Mask :=
  m &&& (if sense then x.g.pr pred.toNat else ~~~ x.g.pr pred.toNat)

/-- Whether a branch or call is taken, or raises UNIFORMITY (R93). `all`: every live lane must satisfy (BRP). -/
def Ix.taken (x : Ix) (u : Bool) (pred : BitVec 4) (sense all : Bool) : Option Bool :=
  if pred = 15 then some true
  else
    let c := x.satisfying x.live pred sense
    if u && decide (c ≠ 0) && decide (c ≠ x.live) then none
    else if all then some (decide (x.live ≠ 0) && decide (c = x.live))
    else some (decide (c ≠ 0))

/-- ILLEGAL (R92). -/
def execIllegal (y : BitVec 21) (s : State) : Host.Outcome State Fault Refusal :=
  issue (.illegal y) s (fun _ s => .trap s (trapP 0x01))

/-- UNASSIGNED_OPCODE (R49). -/
def execUnassignedOpcode (w : Word) (s : State) : Host.Outcome State Fault Refusal :=
  issue (.unassignedOpcode w) s (fun _ s => .trap s (trapP 0x01))

/-- NOP (R92). -/
def execNop (s : State) : Host.Outcome State Fault Refusal := issue .nop s (fun _ s => .next s)

/-- BR (R93). -/
def execBr (u : Bool) (pred : BitVec 4) (sense : Bool) (off : BitVec 15) (s : State) : Host.Outcome State Fault Refusal :=
  issue (.br u pred sense off) s (fun x s =>
    match x.taken u pred sense false with
    | none => .trap s (trapP 0x04)
    | some true => .jump s (branchTarget x.g.pc off)
    | some false => .next s)

/-- BRP (R93). -/
def execBrp (u : Bool) (pred : BitVec 4) (sense : Bool) (off : BitVec 15) (s : State) : Host.Outcome State Fault Refusal :=
  issue (.brp u pred sense off) s (fun x s =>
    match x.taken u pred sense true with
    | none => .trap s (trapP 0x04)
    | some true => .jump s (branchTarget x.g.pc off)
    | some false => .next s)

/-- BREXZ (R94). -/
def execBrexz (off : BitVec 15) (s : State) : Host.Outcome State Fault Refusal :=
  issue (.brexz off) s (fun x s => if x.g.exec = 0 then .jump s (branchTarget x.g.pc off) else .next s)

/-- CALL (R93). -/
def execCall (u : Bool) (pred : BitVec 4) (sense : Bool) (off : BitVec 15) (s : State) : Host.Outcome State Fault Refusal :=
  issue (.call u pred sense off) s (fun x s =>
    match x.taken u pred sense false with
    | none => .trap s (trapP 0x04)
    | some true => .jump (s.setGroup x.gid (fun g => g.setS 126 ((x.g.pc + 4).zeroExtend 64))) (branchTarget x.g.pc off)
    | some false => .next s)

/-- CALLR (R95). -/
def execCallr (a : Reg) (s : State) : Host.Outcome State Fault Refusal :=
  issue (.callr a) s (fun x s =>
    .jump (s.setGroup x.gid (fun g => g.setS 126 ((x.g.pc + 4).zeroExtend 64))) (codeAddr (x.g.sr a.toNat)))

/-- RET (R95). -/
def execRet (s : State) : Host.Outcome State Fault Refusal := issue .ret s (fun x s => .jump s (codeAddr (x.g.sr 126)))

/-- JMPR (R95). -/
def execJmpr (a : Reg) (s : State) : Host.Outcome State Fault Refusal :=
  issue (.jmpr a) s (fun x s => .jump s (codeAddr (x.g.sr a.toNat)))

/-- IFP (R96). -/
def execIfp (u : Bool) (pred : BitVec 4) (sense : Bool) (off : BitVec 15) (s : State) : Host.Outcome State Fault Refusal :=
  issue (.ifp u pred sense off) s (fun x s =>
    let t := x.satisfying x.g.exec pred sense
    if u ∧ t ≠ 0 ∧ t ≠ x.g.exec then .trap s (trapP 0x04)
    else if 16 ≤ x.g.stack.length then .trap s (trapP 0x05)
    else
      let s := s.setGroup x.gid (fun g =>
        { g with stack := { saved := x.g.exec, other := x.g.exec &&& ~~~ t } :: x.g.stack, exec := t })
      if t = 0 then .jump s (branchTarget x.g.pc off) else .next s)

/-- ELSEP (R96). -/
def execElsep (off : BitVec 15) (s : State) : Host.Outcome State Fault Refusal :=
  issue (.elsep off) s (fun x s =>
    match x.g.stack with
    | [] => .trap s (trapP 0x05)
    | e :: r =>
      let s := s.setGroup x.gid (fun g => { g.setExec e.other with stack := { e with other := 0 } :: r })
      if e.other = 0 then .jump s (branchTarget x.g.pc off) else .next s)

/-- ENDIF (R96). -/
def execEndif (s : State) : Host.Outcome State Fault Refusal :=
  issue .endif s (fun x s =>
    match x.g.stack with
    | [] => .trap s (trapP 0x05)
    | e :: r => x.upd s (fun g => { g.setExec e.saved with stack := r }))

/-- The three conditions of SPAWN: a free context, a free block, fewer than 96 living groups (R97). -/
def State.spawnRoom (s : State) (g : Group) : Bool :=
  decide (0 < s.freeContexts g.core) && decide (0 < s.freeBlocks g.core) && decide ((s.teamGroups g.team).length < 96)

/-- A group is spawned: the new group's accesses are ordered after the spawner's, which lie at or below a time (R97, R98), and after its
atomics that have not been performed. -/
def State.spawn (s : State) (x : Ix) (d a b : Reg) (time : Nat) : State :=
  match s.lowestNumber x.g.team with
  | none => s
  | some n =>
    let args := (List.range 8).map (fun i => x.g.sr (b.toNat + i))
    let s := s.createGroup x.g.team x.g.core n x.g.role x.g.pri (codeAddr (x.g.sr a.toNat)) args 0 (time + 1)
      (s.atomsBefore x.gid)
    s.setGroup x.gid (fun g => g.setS d.toNat (BitVec.ofNat 64 n))

/-- SPAWN (R97). -/
def execSpawn (d a b : Reg) (s : State) : Host.Outcome State Fault Refusal :=
  issue (.spawn d a b) s (fun x s =>
    if s.spawnRoom x.g then x.release s (fun s t => .next (s.spawn x d a b t))
    else x.upd s (fun g => g.setS d.toNat (BitVec.allOnes 64)))

/-- SPAWNW (R97): it cannot issue while a condition is false. -/
def execSpawnw (d a b : Reg) (s : State) : Host.Outcome State Fault Refusal :=
  issue (.spawnw d a b) s (fun x s => if s.spawnRoom x.g then x.release s (fun s t => .next (s.spawn x d a b t)) else .stall)

/-- EXIT (R100): the group's combining buffers are flushed (R240), it leaves, and its team retires after its last group
once every operation has finished (R88). It cannot issue while a flush must wait for an engine's write (R261). -/
def execExit (s : State) : Host.Outcome State Fault Refusal :=
  issue .exit s (fun x s =>
    if s.flushBlocked x.gid then .stall
    else
    let s := ((s.flushGroup x.gid Group.raiseH).removeGroup x.gid).watchDeadlock x.g.team
    .stay (if s.teamGroups x.g.team = [] ∧ ((s.team x.g.team).map Team.orphans) = some [] then s.post (.teamRetirement x.g.team) else s))

/-- YIELD (R101): the issue itself makes the group the most recently issued; it leaves the active set (R122). -/
def execYield (s : State) : Host.Outcome State Fault Refusal := issue .yield s (fun x s => .next (s.leaveActive x.gid))

/-- SETPRI (R101). -/
def execSetpri (k : BitVec 4) (s : State) : Host.Outcome State Fault Refusal :=
  issue (.setpri k) s (fun x s => x.upd s (fun g => { g with pri := k.toNat }))

/-- SLEEP (R101). -/
def execSleep (k : BitVec 14) (s : State) : Host.Outcome State Fault Refusal :=
  issue (.sleep k) s (fun x s =>
    if k = 0 then .next s
    else
      let last := s.clk + 64 * k.toNat
      .next (((s.leaveActive x.gid).setGroup x.gid (fun g => { g with sleep := some last })).postAt (last + 1) (.sleepExpiry x.gid)))

/-- The fields of a launch descriptor (Table 4.8) from its bytes, for a team of a graph, function and lifetime. -/
def gridOf (data : List Byte) (graph func life time : Nat) (args : List Dword) (after : List Nat := []) : Grid :=
  let n := leNat data
  { graph := graph, func := func, clusters := bits n 319 256, doneVa := bits n 247 192, restart := bits n 179 178,
    weight := bits n 177 174, acc := bits n 173 170, scratch := bits n 169 164, cblocks := bits n 163 162,
    pblocks := bits n 161 160, cgroups := bits n 158 152, pgroups := bits n 150 144, teams := bits n 143 128,
    tvec := BitVec.ofNat 56 (bits n 119 64 / 4 * 4), entry := BitVec.ofNat 56 (bits n 55 2 * 4), args := args, life := life,
    launched := 0, living := 0, broken := false, time := time, doneTime := 0, after := after, adding := false }

/-- A launch descriptor is valid (R102). -/
def launchValid (data : List Byte) (g : Grid) : Bool :=
  let n := leNat data
  decide (bits n 511 320 = 0) && decide (bits n 255 248 = 0) && decide (bits n 191 180 = 0) && !bit n 159 && !bit n 151
    && decide (bits n 127 120 = 0) && decide (bits n 63 56 = 0)
    && decide (g.teams ≠ 0) && decide (g.pgroups + g.cgroups ≠ 0) && decide (g.pgroups + g.cgroups ≤ 96)
    && decide (g.scratch ≤ 48) && decide (g.acc ≤ 12) && decide (g.weight ≠ 0) && decide (g.restart ≤ 2)
    && decide (g.doneVa % 8 = 0) && decide (g.clusters ≠ 0)

/-- LNCH (R102 to R106). -/
def execLnch (d a b : Reg) (s : State) : Host.Outcome State Fault Refusal :=
  issue (.lnch d a b) s (fun x s =>
    let va := x.g.sr a.toNat
    let bad := trapPA 0x09 va 0
    if va.toNat % 64 ≠ 0 then x.fail s bad
    else x.read s va 64 (fun s data =>
      match s.team x.g.team with
      | none => .next s
      | some t =>
        let g := gridOf data (s.graphOf t) t.func t.life x.g.time ((List.range 8).map (fun i => x.g.sr (b.toNat + i)))
          (s.atomsBefore x.gid)
        if !launchValid data g then .trap s bad
        else
          let die := dieOfCore x.g.core
          match Assoc.lowestFree (s.die die).grids 0 256 with
          | none => x.upd s (fun y => y.setS d.toNat (BitVec.allOnes 64))
          | some e => x.release s (fun s t =>
            x.upd (s.setDie die (fun y => { y with grids := Assoc.put y.grids e { g with time := t } }))
              (fun y => y.setS d.toNat (BitVec.ofNat 64 (256 * die + e))))))

end Sys2Proof.Machine
end

