-- ==== Sys2Proof/Machine/Cross.lean ====
section
/-!
DEFINITION. The cross-lane instructions of class 6 (R132 to R135).
-/
namespace Sys2Proof.Machine
open Sys2Proof

/-- SHFL (R132). -/
def execShfl (d a b : Reg) (s : State) : Host.Outcome State Fault Refusal :=
  issue (.shfl d a b) s (fun x s => x.lanes s d (fun L => x.vl a ((x.vl b L).toNat % 128)))

/-- SHFLUP (R132). -/
def execShflup (d a b : Reg) (s : State) : Host.Outcome State Fault Refusal :=
  issue (.shflup d a b) s (fun x s =>
    let k := (x.g.sr b.toNat).toNat
    x.lanes s d (fun L => x.vl a (if k ≤ L then L - k else L)))

/-- SHFLDN (R132). -/
def execShfldn (d a b : Reg) (s : State) : Host.Outcome State Fault Refusal :=
  issue (.shfldn d a b) s (fun x s =>
    let k := (x.g.sr b.toNat).toNat
    x.lanes s d (fun L => x.vl a (if L + k ≤ 127 then L + k else L)))

/-- SHFLX (R132). -/
def execShflx (d a b : Reg) (s : State) : Host.Outcome State Fault Refusal :=
  issue (.shflx d a b) s (fun x s =>
    let k := (x.g.sr b.toNat).toNat % 128
    x.lanes s d (fun L => x.vl a (L ^^^ k)))

/-- LRD (R133). -/
def execLrd (d a b : Reg) (s : State) : Host.Outcome State Fault Refusal :=
  issue (.lrd d a b) s (fun x s =>
    x.upd s (fun g => g.setS d.toNat ((x.vl a ((x.g.sr b.toNat).toNat % 128)).zeroExtend 64)))

/-- LWR (R133). -/
def execLwr (d a b : Reg) (s : State) : Host.Outcome State Fault Refusal :=
  issue (.lwr d a b) s (fun x s =>
    let L := (x.g.sr b.toNat).toNat % 128
    x.upd s (fun g => g.setV d.toNat (Mask.of (fun n => decide (n = L))) (fun _ => (x.g.sr a.toNat).extractLsb' 0 32)))

/-- The integer of a lane word under etype i32 or n32. -/
def laneInt (t : Nat) (w : Word) : Int := if t = 0 then w.toInt else (w.toNat : Int)

/-- The exact sum of f32 values rounded once (R134). -/
def floatSum (mode : Nat) (l : List FVal) : Nat :=
  let f := Fp.f32
  let pos := l.any (fun v => decide (v = .inf false))
  let neg := l.any (fun v => decide (v = .inf true))
  if l.any (fun v => decide (v = .nan)) || (pos && neg) then f.nan
  else if pos then f.inf false
  else if neg then f.inf true
  else
    match l.filterMap (fun v => match v with | .num u => some u | _ => none) with
    | [] => 0
    | u :: r => f.round mode (r.foldl (Exact.add mode) u)

/-- RSUM's result over live words (R134). -/
def sumResult (t mode : Nat) (l : List Word) : Dword :=
  if t = 2 then BitVec.ofNat 64 (floatSum mode (l.map (fun w => Fp.f32.decode w.toNat)))
  else BitVec.ofInt 64 (l.foldl (fun a w => a + laneInt t w) 0)

/-- RMAX's result over live words (R134). -/
def maxResult (t : Nat) (l : List Word) : Dword :=
  if t = 2 then
    BitVec.ofNat 64 (if l = [] then 0xFF800000 else l.foldl (fun a w => Fp.f32.greatest a w.toNat) Fp.f32.nan)
  else BitVec.ofInt 64 (l.foldl (fun a w => if a < laneInt t w then laneInt t w else a) (if t = 0 then -2147483648 else 0))

/-- RSUM (R134). -/
def execRsum (d a : Reg) (s : State) : Host.Outcome State Fault Refusal :=
  issue (.rsum d a) s (fun x s =>
    x.upd s (fun g => g.setS d.toNat (sumResult x.et x.rm (x.live.lanes.map (x.vl a)))))

/-- RMAX (R134). -/
def execRmax (d a : Reg) (s : State) : Host.Outcome State Fault Refusal :=
  issue (.rmax d a) s (fun x s =>
    x.upd s (fun g => g.setS d.toNat (maxResult x.et (x.live.lanes.map (x.vl a)))))

/-- SCANX (R135). -/
def execScanx (d a : Reg) (s : State) : Host.Outcome State Fault Refusal :=
  issue (.scanx d a) s (fun x s =>
    let t := x.et
    x.lanes s d (fun L =>
      BitVec.ofNat 32 (fit t x.sat ((x.live.lanes.filter (fun n => decide (n < L))).foldl (fun acc n => acc + laneInt t (x.vl a n)) 0))))

end Sys2Proof.Machine
end

