-- ==== Sys2Proof/Machine/Pool.lean ====
section
/-!
DEFINITION. Class 13, pool memory: near-memory operations and snapshots (R362 to R373).
-/
namespace Sys2Proof.Machine
open Sys2Proof

/-! ## Near-memory operations at issue (R364) -/

/-- The kinds of near-memory operation. -/
def plFill : Nat := 0
def plCopy : Nat := 1
def plCmp : Nat := 2
def plRed : Nat := 3

/-- The first operand is used by all but PLRED, the second by all but PLFILL; PLFILL and PLCOPY write. -/
def plUsesDst (kind : Nat) : Bool := decide (kind ≠ plRed)
def plUsesSrc (kind : Nat) : Bool := decide (kind ≠ plFill)
def plWrites (kind : Nat) : Bool := decide (kind ≤ plCopy)

/-- The reserved fields of a pool descriptor are zero (Table 14.9). -/
def poolReserved (n : Nat) : Bool := decide (bits n 511 260 = 0) && decide (bits n 159 120 = 0) && decide (bits n 63 56 = 0)

/-- The fields of a pool descriptor suit the operation (R364, subcause 1). -/
def poolLegal (kind n : Nat) : Bool :=
  let len := bits n 191 160
  let dst := bits n 55 0
  let src := bits n 119 64
  decide (len ≠ 0) && decide (len ≤ 2 ^ 30) && decide (len % 64 = 0)
    && (if plUsesDst kind then decide (dst % 64 = 0) else decide (dst = 0))
    && (if plUsesSrc kind then decide (src % 64 = 0) else decide (src = 0))
    && (if kind = plRed then decide (bits n 259 256 ≤ 6) else decide (bits n 259 256 = 0))
    && (decide (kind = plFill) || decide (bits n 255 192 = 0))
    && (decide (kind ≠ plCopy) || (decide (dst + len ≤ src) || decide (src + len ≤ dst)))

/-- The lines of a range that an operation can take at its issue: those that translate to a page of a compute-mode region
(R261). -/
def State.ownPool (s : State) (c : Xc) (va n : Nat) : State × List Nat :=
  (linePieces va n).foldl (fun ((s, l) : State × List Nat) p =>
    let (s', r) := s.translate c (BitVec.ofNat 64 p.1) .write
    match r with
    | .ok pa _ => if s.computePool pa then (s', l ++ [lineOf pa]) else (s, l)
    | _ => (s, l)) (s, [])

/-- A near-memory operation at issue (R364 to R366): its destination lines are owned at one write time above the group time. -/
def Ix.nearMemory (x : Ix) (s : State) (kind : Nat) (d a : Reg) : Done :=
  let va := x.g.sr a.toNat
  let bad := fun (sub : Nat) => trapPA 0x41 va (BitVec.ofNat 64 (place sub 60))
  if va.toNat % 64 ≠ 0 then x.fail s (bad 0)
  else x.read s va 64 (fun s b =>
    let n := leNat b
    if !poolReserved n then .trap s (bad 0)
    else if !poolLegal kind n then .trap s (bad 1)
    else
      let len := bits n 191 160
      let (s, lines) := if plWrites kind then s.ownPool (s.engineXc x.g.team x.gid x.op) (bits n 55 0) len else (s, [])
      let tw := if plWrites kind then lines.foldl (fun t m => Nat.max t (s.line m).nextTime) (x.g.time + 1) else 0
      let s := lines.foldl (fun s m =>
        (s.setLine m (fun l => { l with owners := l.owners ++ [{ op := x.op, tw := tw, core := x.g.core }] })).l1Drop x.g.core m) s
      let p : PoolOp :=
        { gid := x.gid, team := x.g.team, func := s.fnOf x.gid, kind := kind, dst := bits n 55 0, src := bits n 119 64, len := len,
          value := bits n 255 192, rop := bits n 259 256, sd := d.toNat, done := 0, data := [], kept := none, unit := none, time := x.g.time, tw := tw,
          owned := lines, waiting := false }
      let s := s.setGroup x.gid (fun g => (g.raisePath 7 x.op tw).pendWith
        { op := x.op, kind := .scalar, reg := d.toNat, lanes := BitVec.allOnes 128, vec := none, num := none, bad := 0 })
      .next (({ s with poolOps := Assoc.put s.poolOps x.op p }).post (.poolOpLine x.op)))

/-- PLFILL (R365). -/
def execPlfill (d a : Reg) (s : State) : Host.Outcome State Fault Refusal := issue (.plfill d a) s (fun x s => x.nearMemory s plFill d a)

/-- PLCOPY (R365). -/
def execPlcopy (d a : Reg) (s : State) : Host.Outcome State Fault Refusal := issue (.plcopy d a) s (fun x s => x.nearMemory s plCopy d a)

/-- PLCMP (R365). -/
def execPlcmp (d a : Reg) (s : State) : Host.Outcome State Fault Refusal := issue (.plcmp d a) s (fun x s => x.nearMemory s plCmp d a)

/-- PLRED (R365). -/
def execPlred (d a : Reg) (s : State) : Host.Outcome State Fault Refusal := issue (.plred d a) s (fun x s => x.nearMemory s plRed d a)

/-! ## Lines (R365 to R367) -/

/-- PLRED's result over the words of its source (R365). -/
def poolReduce (rop : Nat) (b : List Byte) : Dword :=
  let ws : List Word := (List.range (b.length / 4)).map (fun i => BitVec.ofNat 32 (leNat ((b.drop (4 * i)).take 4)))
  match rop with
  | 0 => BitVec.ofInt 64 (ws.foldl (fun a w => a + w.toInt) 0)
  | 1 => BitVec.ofNat 64 (ws.foldl (fun a w => a + w.toNat) 0)
  | 2 => (ws.foldl (fun a w => if w.slt a then w else a) (ws.headD 0)).signExtend 64
  | 3 => (ws.foldl (fun a w => if a.slt w then w else a) (ws.headD 0)).signExtend 64
  | 4 => (ws.foldl (fun a w => if w.ult a then w else a) (ws.headD 0)).zeroExtend 64
  | 5 => (ws.foldl (fun a w => if a.ult w then w else a) (ws.headD 0)).zeroExtend 64
  | _ => BitVec.ofNat 64 (floatSum 0 (ws.map (fun w => Fp.f32.decode w.toNat)))

/-- The result of an operation is written: it lands with its write time owed to its readers, and the operation completes
(R357, R366). -/
def State.poolEnd (s : State) (op : Nat) (p : PoolOp) (val : Dword) : State :=
  let s := { (s.disown op p.owned) with poolOps := Assoc.del s.poolOps op }
  let s := s.setGroup p.gid (fun g =>
    if g.pend.any (fun (x : Pend) => decide (x.op = op)) then
      (let g := ({ g with pend := g.pend.map (fun (x : Pend) => if x.op = op then { x with num := some val.toNat } else x) }).land op
       { g with owed := if p.tw = 0 then g.owed else Assoc.put g.owed p.sd p.tw })
    else g)
  s.finishOp p.gid op

/-- An operation stops at a fault: its result word, and POOL_FAULT for its group (R367, Table 14.10). -/
def State.poolFault (s : State) (op : Nat) (p : PoolOp) (sub va : Nat) : State :=
  let s := s.raiseDeferred p.team
    { gid := p.gid, cat := 3, addr := BitVec.ofNat 64 va, op := op,
      info := BitVec.ofNat 64 (place sub 60 + place (p.done / 256 * 256) 28) }
  s.poolEnd op p (if plWrites p.kind then BitVec.ofNat 64 p.done else BitVec.allOnes 64)

/-- The subcause of Table 14.10 for a fault of translation. -/
def poolSub (code : Nat) : Nat := if code = 0x29 then 0 else if code = 0x2A then 1 else 2

/-- How a look at the places of an operand ends: each place with its length; a fault; a wait for a page. -/
inductive PoolRes where
  | ok (l : List (Nat × Nat))
  | fault (sub va : Nat)
  | wait
  deriving DecidableEq, Repr

/-- The places of bytes of an operand: pages of compute-mode regions of the function behind one pool unit (R365, R367). -/
def State.poolPlaces (s : State) (op : Nat) (p : PoolOp) (acc : Acc) (unit : Option Nat) (va n : Nat) : State × PoolRes :=
  (linePieces va n).foldl (fun (s, r) q =>
    match r with
    | .ok l =>
      let (s, t) := s.translate (s.engineXc p.team p.gid op) (BitVec.ofNat 64 q.1) acc
      (match t with
       | .wait _ => (s, .wait)
       | .fault code _ => (s, .fault (poolSub code) q.1)
       | .ok pa _ =>
         (match s.regionOf pa with
          | none => (s, .fault 2 q.1)
          | some (_, rg) =>
            if rg.atomic ∨ rg.func ≠ p.func ∨ unit.any (fun u => decide (u ≠ s.homeDie pa)) then (s, .fault 2 q.1)
            else (s, .ok (l ++ [(pa, q.2)]))))
    | _ => (s, r)) (s, .ok [])

/-- The bytes of places, each line read at one time not below the group time, and whether one is poisoned (R263, R366). -/
def State.poolRead (s : State) (op : Nat) (p : PoolOp) (l : List (Nat × Nat)) : State × List Byte × Option Nat :=
  let c := s.engineXc p.team p.gid op
  l.foldl (fun ((s, data, bad) : State × List Byte × Option Nat) q =>
    let (s, d, b, _) := s.readAt c p.time q.1 q.2
    (s, data ++ d, if b && bad.isNone then some data.length else bad)) (s, [], none)

/-- The bytes of a range of the source of PLCOPY or PLCMP, at the places found for it: a line is read whole at one time, and
kept for the next line of the destination, which may need the rest of it (R263, R366). -/
def State.poolSource (s : State) (op : Nat) (p : PoolOp) (va : Nat) (l : List (Nat × Nat)) : State × PoolOp × List Byte × Bool :=
  let c := s.engineXc p.team p.gid op
  let n := l.foldl (fun a q => a + q.2) 0
  ((linePieces va n).zip l).foldl (fun ((s, p, data, bad) : State × PoolOp × List Byte × Bool) q =>
    let m := q.1.1 / 256
    let (s, d, b) := match p.kept.filter (fun k => decide (k.1 = m)) with
      | some k => (s, k.2, false)
      | none =>
        let (s, d, b, _) := s.readAt c p.time (lineOf q.2.1 * 256) 256
        (s, d, b)
    (s, { p with kept := if b then p.kept else some (m, d) }, data ++ (d.drop (q.1.1 % 256)).take q.1.2, bad || b)) (s, p, [], false)

/-- A write of an operation whose group has exited comes before the end of the grids that its team belongs to (R105). -/
def State.ordered (s : State) (p : PoolOp) (t : Nat) : State :=
  if (s.group p.gid).isSome then s else s.gridOrders p.team t

/-- Bytes of one line written at the line's write time (R261, R366); the line is no longer owned. -/
def State.poolWrite (s : State) (op : Nat) (p : PoolOp) (pa : Nat) (data : List Byte) : State × Nat :=
  let n := lineOf pa
  let t := if p.owned.contains n then p.tw else Nat.max (s.line n).nextTime (p.time + 1)
  let s := s.writeBackVia (dieOfCore (s.engineXc p.team p.gid op).core) poolPort n (cellsAt (pa % 256) data)
  ((((s.storeLine n t (cellsAt pa data)).disown op [n]).ordered p t).setGroup p.gid (fun g => g.retime op (Nat.max t p.tw)), Nat.max t p.tw)

/-- The byte string of a fill at an offset (R365). -/
def fillBytes (value off n : Nat) : List Byte := (List.range n).map (fun i => BitVec.ofNat 8 (value >>> (8 * ((off + i) % 8))))

/-- The lowest index at which two byte strings differ. -/
def firstDiff : List Byte → List Byte → Option Nat
  | a :: r, b :: q => if a = b then (firstDiff r q).map (· + 1) else some 0
  | _, _ => none

/-- The next line of an operation (R365, R367). `n` bytes at `va`, the operand that the operation walks. -/
def State.poolLine (s : State) (op : Nat) (p : PoolOp) : State :=
  let va := (if plUsesDst p.kind then p.dst else p.src) + p.done
  let n := Nat.min (256 - va % 256) (p.len - p.done)
  let wait := fun (s : State) => { s with poolOps := Assoc.upd s.poolOps op (fun p => { p with waiting := true }) }
  let (s, a) := s.poolPlaces op p (if plWrites p.kind then .write else .read) p.unit va n
  match a with
  | .wait => wait s
  | .fault sub at_ => s.poolFault op p sub at_
  | .ok here =>
    let pa := ((here.head?).map Prod.fst).getD 0
    let unit := p.unit.getD (s.homeDie pa)
    let (s, b) := if p.kind = plCopy ∨ p.kind = plCmp then s.poolPlaces op p .read (some unit) (p.src + p.done) n else (s, .ok [])
    match b with
    | .wait => wait s
    | .fault sub _ => s.poolFault op p sub (p.src + p.done)
    | .ok there =>
      if plWrites p.kind ∧ ((s.line (lineOf pa)).owners.head?).any (fun w => decide (w.op ≠ op)) then
        s.postAt (s.clk + 1) (.poolOpLine op)
      else
        let (s, x, xbad) := if plWrites p.kind then (s, [], none) else s.poolRead op p here
        let (s, p, y, ybad) := s.poolSource op p (p.src + p.done) there
        match xbad, ybad with
        | some _, _ => s.poolFault op p 3 va
        | none, true => s.poolFault op p 3 (p.src + p.done)
        | none, false =>
          let (s, tw) := if p.kind = plFill then s.poolWrite op p pa (fillBytes p.value p.done n)
            else if p.kind = plCopy then s.poolWrite op p pa y else (s, p.tw)
          let p' : PoolOp := { p with done := p.done + n, unit := some unit, tw := tw, waiting := false,
                                      data := if p.kind = plRed then p.data ++ x else p.data }
          match (if p.kind = plCmp then firstDiff x y else none) with
          | some i => s.poolEnd op p' (BitVec.ofNat 64 (p.done + i))
          | none =>
            if p'.done = p.len then
              s.poolEnd op p' (if plWrites p.kind then BitVec.ofNat 64 p.len
                else if p.kind = plCmp then BitVec.allOnes 64 else poolReduce p.rop p'.data)
            else ({ s with poolOps := Assoc.put s.poolOps op p' }).post (.poolOpLine op)

/-- POOL_OP_LINE (R365, R367). -/
def execPoolOpLine (op : Nat) (s : State) : Host.Outcome State Fault Refusal :=
  match Assoc.get s.poolOps op with
  | none => .next s
  | some p => .next (s.poolLine op p)

/-! ## Snapshots (R369 to R373) -/

/-- A region by its number; absent ones are not valid. -/
def Region.none : Region :=
  { valid := false, atomic := false, base := 0, units := 0, vbase := 0, vunits := 0, func := 0, snaps := [], slots := [], top := 0 }
def State.region (s : State) (n : Nat) : Region := Assoc.getD s.regions n Region.none

/-- The region of which a snapshot is open. -/
def State.openIn (s : State) (id : Nat) : Option (Nat × Region) := s.regions.find? (fun (p : Nat × Region) => p.2.snaps.contains id)

/-- The greatest id that a snapshot of the package's regions has or has had: no id is open again (R369, R371). -/
def State.topSnap (s : State) : Nat := s.regions.foldl (fun a p => p.2.snaps.foldl Nat.max (Nat.max a p.2.top)) 0

/-- The latest time that a line of a region has been given. -/
def State.regionTime (s : State) (r : Region) : Nat :=
  s.lines.foldl (fun a p =>
    if r.base / 256 ≤ p.1 ∧ p.1 < r.base / 256 + 256 * r.units then Nat.max a (p.2.nextTime - 1) else a) 0

/-- SNOPEN (R369). -/
def execSnopen (d a : Reg) (s : State) : Host.Outcome State Fault Refusal :=
  issue (.snopen d a) s (fun x s =>
    let n := (x.g.sr a.toNat).toNat
    let r := s.region n
    if 64 ≤ n ∨ !r.valid ∨ r.func ≠ s.fnOf x.gid then .trap s (trapPA 0x41 0 (BitVec.ofNat 64 (place 2 60)))
    else if r.vunits = 0 ∨ 16 ≤ r.snaps.length then
      .next (((x.raise s 7 0).setGroup x.gid (fun g => g.setS d.toNat 0)).finishOp x.gid x.op)
    else
      let t := Nat.max (Nat.max x.g.time (s.topSnap + 1)) (Nat.max (s.regionTime r) (x.time.getD 0))
      let s := { s with regions := Assoc.put s.regions n { r with snaps := r.snaps ++ [t], top := t } }
      .next (((x.raise s 7 0).setGroup x.gid (fun g =>
        (g.setS d.toNat (BitVec.ofNat 64 t)).updTm whole (fun y => y.load .sc t))).finishOp x.gid x.op))

/-- SNCLOSE (R373). -/
def execSnclose (a : Reg) (s : State) : Host.Outcome State Fault Refusal :=
  issue (.snclose a) s (fun x s =>
    let id := (x.g.sr a.toNat).toNat
    match s.openIn id with
    | none => .next s
    | some (n, r) =>
      .next { s with regions := Assoc.put s.regions n (s.pruneSlots { r with snaps := r.snaps.filter (fun t => decide (t ≠ id)) }) })

/-- SNBIND (R372). -/
def execSnbind (a : Reg) (s : State) : Host.Outcome State Fault Refusal :=
  issue (.snbind a) s (fun x s =>
    let id := (x.g.sr a.toNat).toNat
    if id = 0 then x.upd s (fun g => { g with snap := none })
    else
      match s.openIn id with
      | some (n, r) => if r.func = s.fnOf x.gid then x.upd s (fun g => { g with snap := some (id, n) }) else .trap s (trapPA 0x43 0 (BitVec.ofNat 64 id))
      | none => .trap s (trapPA 0x43 0 (BitVec.ofNat 64 id)))

end Sys2Proof.Machine
end

