-- ==== Sys2Proof/Machine/MemOps.lean ====
section
/-!
DEFINITION. Class 8: loads and stores, the ORD pair, atomics, fences, monitors, PREF and WCFL (R241 to R246, R253 to
R272), and the steps of the units that perform atomics.
-/
namespace Sys2Proof.Machine
open Sys2Proof

/-! ## Loads and stores (R241, R242) -/

/-- A vector load of `z` bytes into `n` registers. -/
def Ix.load (x : Ix) (s : State) (z n : Nat) (d a b : Reg) : Done :=
  x.access s .read 0 z a b [] d.toNat n (fun s last tg => s.loadLane x z last tg)

/-- The bytes a store lane sends: the low `z` bytes of its registers' words, as they stood at issue. -/
def storeBytes (data : List VReg) (z L : Nat) : List Byte := (data.flatMap (fun v => natLe (v.lane L).toNat 4)).take z

/-- A vector store of `z` bytes from `n` registers. -/
def Ix.store (x : Ix) (s : State) (z n : Nat) (d a b : Reg) : Done :=
  let data := x.captured ((List.range n).map (fun j => d.toNat + j))
  x.access s .write 1 z a b data 0 0 (fun s last tg => s.storeLane x (storeBytes data z tg.lane) last tg)

/-- A scalar result of a whole-group load: it lands later (R136). -/
def Group.scalarResult (g : Group) (op d v : Nat) (bad : Bool) : Group :=
  g.pendWith
    { op := op, kind := .scalar, reg := d, lanes := BitVec.allOnes 128, vec := none, num := some v, bad := Mask.all bad }

/-- A whole-group load of `z` bytes. -/
def Ix.loadWhole (x : Ix) (s : State) (z : Nat) (d a b : Reg) : Done :=
  x.accessWhole s .read 0 z a b (fun s last tg => s.loadLane x z last tg) (fun g v bad => g.scalarResult x.op d.toNat v bad)

/-- A whole-group store of `z` bytes. -/
def Ix.storeWhole (x : Ix) (s : State) (z : Nat) (d a b : Reg) : Done :=
  x.accessWhole s .write 1 z a b (fun s last tg => s.storeLane x (natLe (x.g.sr d.toNat).toNat z) last tg) (fun g _ _ => g)

/-- LDB (R241). -/
def execLdb (d a b : Reg) (s : State) : Host.Outcome State Fault Refusal := issue (.ldb d a b) s (fun x s => x.load s 1 1 d a b)

/-- LDH (R241). -/
def execLdh (d a b : Reg) (s : State) : Host.Outcome State Fault Refusal := issue (.ldh d a b) s (fun x s => x.load s 2 1 d a b)

/-- LDW (R241). -/
def execLdw (d a b : Reg) (s : State) : Host.Outcome State Fault Refusal := issue (.ldw d a b) s (fun x s => x.load s 4 1 d a b)

/-- LDD (R241). -/
def execLdd (d a b : Reg) (s : State) : Host.Outcome State Fault Refusal := issue (.ldd d a b) s (fun x s => x.load s 8 2 d a b)

/-- LDQ (R241). -/
def execLdq (d a b : Reg) (s : State) : Host.Outcome State Fault Refusal := issue (.ldq d a b) s (fun x s => x.load s 16 4 d a b)

/-- STB (R241). -/
def execStb (d a b : Reg) (s : State) : Host.Outcome State Fault Refusal := issue (.stb d a b) s (fun x s => x.store s 1 1 d a b)

/-- STH (R241). -/
def execSth (d a b : Reg) (s : State) : Host.Outcome State Fault Refusal := issue (.sth d a b) s (fun x s => x.store s 2 1 d a b)

/-- STW (R241). -/
def execStw (d a b : Reg) (s : State) : Host.Outcome State Fault Refusal := issue (.stw d a b) s (fun x s => x.store s 4 1 d a b)

/-- STD (R241). -/
def execStd (d a b : Reg) (s : State) : Host.Outcome State Fault Refusal := issue (.std d a b) s (fun x s => x.store s 8 2 d a b)

/-- STQ (R241). -/
def execStq (d a b : Reg) (s : State) : Host.Outcome State Fault Refusal := issue (.stq d a b) s (fun x s => x.store s 16 4 d a b)

/-- SLDW (R242). -/
def execSldw (d a b : Reg) (s : State) : Host.Outcome State Fault Refusal := issue (.sldw d a b) s (fun x s => x.loadWhole s 4 d a b)

/-- SLDD (R242). -/
def execSldd (d a b : Reg) (s : State) : Host.Outcome State Fault Refusal := issue (.sldd d a b) s (fun x s => x.loadWhole s 8 d a b)

/-- SSTW (R242). -/
def execSstw (d a b : Reg) (s : State) : Host.Outcome State Fault Refusal := issue (.sstw d a b) s (fun x s => x.storeWhole s 4 d a b)

/-- SSTD (R242). -/
def execSstd (d a b : Reg) (s : State) : Host.Outcome State Fault Refusal := issue (.sstd d a b) s (fun x s => x.storeWhole s 8 d a b)

/-! ## Atomics (R266 to R269) -/

/-- The new value of an atomic (Table 10.3). -/
def atomNew (k : AtomOp) (mr old u y : Word) : Word :=
  let et := mrEtype mr
  let sat := mrSat mr
  let t := if 2 ≤ et ∧ et ≤ 4 then 1 else et
  match k with
  | .add => packElems t (fun i => fit t sat (elemVal t old i + elemVal t u i))
  | .sub => packElems t (fun i => fit t sat (elemVal t old i - elemVal t u i))
  | .min => if (if et = 0 then u.slt old else u.ult old) then u else old
  | .max => if (if et = 0 then old.slt u else old.ult u) then u else old
  | .and => old &&& u
  | .or => old ||| u
  | .xor => old ^^^ u
  | .xch => u
  | .cas => if old = u then y else old
  | .inc => if u.ule old then 0 else old + 1
  | .dec => if old = 0 ∨ u.ult old then u else old - 1
  | .fadd =>
    let f := Fp.f32
    let ftz := mrFtz mr
    BitVec.ofNat 32 (f.flush ftz (f.sum (mrRound mr) (f.decode (f.flush ftz old.toNat)) (f.decode (f.flush ftz u.toNat))))

/-- Outstanding replies of a lane of a group (R267). -/
def State.repliesDue (s : State) (gid L : Nat) : Nat :=
  (s.agenda.filter (fun d => match d.ev with
    | .serviceWarpAtomic a => decide (a.gid = gid ∧ a.lane = L ∧ a.noret = false)
    | .poolAtomic a => decide (a.gid = gid ∧ a.lane = L ∧ a.noret = false)
    | .atomicReply r => decide (r.gid = gid ∧ r.lane = L)
    | _ => false)).length

/-- A lane of an atomic is sent to its service warp, or to its region's pool unit (R266); its result is due. -/
def State.sendAtomic (s : State) (x : Ix) (k : AtomOp) (d : Reg) (data : List VReg) (tg : Target) : State × LaneRes :=
  let noret := (x.pre.map Prefix.noret).getD false
  let a : AtomLane :=
    { gid := x.gid, core := x.g.core, op := x.op, lane := tg.lane, pa := tg.pa, kind := k, x := (data.getD 0 VReg.zero).lane tg.lane,
      y := (data.getD 1 VReg.zero).lane tg.lane, mr := x.heldMr, order := x.order, scope := x.scope, noret := noret,
      seq := s.atoms.foldl (fun m b => Nat.max m b.seq) 0 + 1, vd := d }
  let s := if noret then s
    else s.setGroup x.gid (fun g => g.pendWith
      { op := x.op, kind := .vec, reg := d.toNat, lanes := 1#128 <<< tg.lane, vec := none, num := none, bad := 0 })
  (s.post (if (s.regionOf tg.pa).isSome then .poolAtomic a else .serviceWarpAtomic a), .ok 0 false)

/-- AN ATOMIC (R268): its lanes pass translation and are sent. -/
def Ix.atomic (x : Ix) (s : State) (k : AtomOp) (n : Nat) (d a b : Reg) : Done :=
  let noret := (x.pre.map Prefix.noret).getD false
  if !noret && x.live.lanes.any (fun L => decide (8 ≤ s.repliesDue x.gid L)) then .stall
  else
    let data := x.captured ((List.range n).map (fun j => d.toNat + j))
    x.access s .atomic (if noret then 1 else 0) 4 a b data 0 0 (fun s _ tg => s.sendAtomic x k d data tg)

/-- AADD (R268). -/
def execAadd (d a b : Reg) (s : State) : Host.Outcome State Fault Refusal := issue (.aadd d a b) s (fun x s => x.atomic s .add 1 d a b)

/-- ASUB (R268). -/
def execAsub (d a b : Reg) (s : State) : Host.Outcome State Fault Refusal := issue (.asub d a b) s (fun x s => x.atomic s .sub 1 d a b)

/-- AMIN (R268). -/
def execAmin (d a b : Reg) (s : State) : Host.Outcome State Fault Refusal := issue (.amin d a b) s (fun x s => x.atomic s .min 1 d a b)

/-- AMAX (R268). -/
def execAmax (d a b : Reg) (s : State) : Host.Outcome State Fault Refusal := issue (.amax d a b) s (fun x s => x.atomic s .max 1 d a b)

/-- AAND (R268). -/
def execAand (d a b : Reg) (s : State) : Host.Outcome State Fault Refusal := issue (.aand d a b) s (fun x s => x.atomic s .and 1 d a b)

/-- AOR (R268). -/
def execAor (d a b : Reg) (s : State) : Host.Outcome State Fault Refusal := issue (.aor d a b) s (fun x s => x.atomic s .or 1 d a b)

/-- AXOR (R268). -/
def execAxor (d a b : Reg) (s : State) : Host.Outcome State Fault Refusal := issue (.axor d a b) s (fun x s => x.atomic s .xor 1 d a b)

/-- AXCH (R268). -/
def execAxch (d a b : Reg) (s : State) : Host.Outcome State Fault Refusal := issue (.axch d a b) s (fun x s => x.atomic s .xch 1 d a b)

/-- ACAS (R268). -/
def execAcas (d a b : Reg) (s : State) : Host.Outcome State Fault Refusal := issue (.acas d a b) s (fun x s => x.atomic s .cas 2 d a b)

/-- AINC (R268). -/
def execAinc (d a b : Reg) (s : State) : Host.Outcome State Fault Refusal := issue (.ainc d a b) s (fun x s => x.atomic s .inc 1 d a b)

/-- ADEC (R268). -/
def execAdec (d a b : Reg) (s : State) : Host.Outcome State Fault Refusal := issue (.adec d a b) s (fun x s => x.atomic s .dec 1 d a b)

/-- AFADD (R268). -/
def execAfadd (d a b : Reg) (s : State) : Host.Outcome State Fault Refusal := issue (.afadd d a b) s (fun x s => x.atomic s .fadd 1 d a b)

/-! ## The end of an operation of class 8 (R136, R219) -/

/-- Something of an operation is still on its way: an atomic lane, its reply, bytes in a combining buffer, or lanes that a
replay still holds. -/
def State.opDue (s : State) (gid op : Nat) : Bool :=
  s.agenda.any (fun d => match d.ev with
    | .serviceWarpAtomic a => decide (a.gid = gid ∧ a.op = op)
    | .poolAtomic a => decide (a.gid = gid ∧ a.op = op)
    | .atomicReply r => decide (r.gid = gid ∧ r.op = op)
    | _ => false)
  || s.cores.any (fun p => p.2.combine.any (fun b => b.ops.contains op))
  || (match s.group gid with
      | some g => g.replay.any (fun r => decide (r.op = op)) || g.hreplay.any (fun r => decide (r.op = op))
      | none => false)

/-- The known results of an operation land, and it completes once nothing of it is on its way. -/
def State.landOp (s : State) (gid op : Nat) : State :=
  let s := s.setGroup gid (fun g => { g.land op with fills := g.fills.filter (fun f => decide (f.op ≠ op)) })
  if s.opDue gid op then s else s.finishOp gid op

/-- A line of an operation of a group is still on its way to it. -/
def State.fillDue (s : State) (gid op : Nat) : Bool :=
  ((s.group gid).map Group.fills).any (fun l => l.any (fun f => decide (f.op = op) && s.lineDue f.line))

/-- REGISTER_RESULT_LAND (R136, R137): once the lines that the operation reads have come. -/
def execRegisterResultLand (gid op : Nat) (s : State) : Host.Outcome State Fault Refusal :=
  .next (if s.fillDue gid op then s.postAt (s.clk + 1) (.registerResultLand gid op) else s.landOp gid op)

/-! ## The units that perform atomics -/

/-- A thread's group changed, in the machine or gone (R250). -/
def State.setThread (s : State) (gid : Nat) (f : Group → Group) : State :=
  if (s.group gid).isSome then s.setGroup gid f else { s with left := Assoc.upd s.left gid f }

/-- What a group has sent since its atomic, ordered after its accesses, comes after the atomic too: records (R285) and announcements
(R308). -/
def sentAfter (a : AtomLane) (t : Nat) (d : Due) : Due :=
  match d.ev with
  | .queueEnqueueStep r => if r.gid = a.gid ∧ a.op < r.op then { d with ev := .queueEnqueueStep { r with time := Nat.max r.time t } } else d
  | _ => d

/-- An atomic has been performed at a time: it comes before what its group has ordered it before since: the accesses of the groups that
it created, of the teams of a grid that it launched, and of the waits for its arrivals, its records and its announcements; and before
the end of its own grid (R98, R105, R106, R211, R285, R308). -/
def State.atomPerformed (s : State) (a : AtomLane) (t : Nat) : State :=
  let tid := ((s.thread a.gid).map Group.team).getD 0
  let s := { s with
    groups := s.groups.map (fun (p : Nat × Group) =>
      if !p.2.after.contains a.op then p
      else (p.1, if p.2.team = tid then p.2.acquireIn (s.instOf p.1 p.2 0 2) t else p.2.acquire t)),
    teams := s.teams.map (fun (p : Nat × Team) =>
      (p.1, (p.2.bafter.filter (fun (b : Nat × List Nat) => b.2.contains a.op)).foldl (fun (y : Team) (b : Nat × List Nat) =>
        { y with btimes := Assoc.put y.btimes b.1 (Nat.max (Assoc.getD y.btimes b.1 0) t) }) p.2)),
    nanns := s.nanns.map (fun (p : Nat × Nann) => if p.2.gid = a.gid ∧ a.op < p.1 then (p.1, { p.2 with time := Nat.max p.2.time t }) else p),
    agenda := s.agenda.map (sentAfter a t) }
  let raise := fun (p : Nat × Grid) => if p.2.after.contains a.op then ((p.1, { p.2 with time := Nat.max p.2.time t }) : Nat × Grid) else p
  let s := (List.range 4).foldl (fun s d => s.setDie d (fun x => { x with grids := x.grids.map raise })) s
  s.gridOrders tid t

/-- The FENCEs that its group has executed since an atomic was sent order the atomic, now that it has its time, as they order what came
before them (R250, R254, R256). -/
def State.refence (s : State) (a : AtomLane) (t : Nat) (tags : List (Inst × Nat)) : State :=
  match s.thread a.gid with
  | none => s
  | some g => s.setThread a.gid (fun _ => (g.fences.filter (fun f => decide (a.op < f.op))).foldl (fun g f =>
      let sc := s.instOf a.gid g a.lane f.scope
      let g := g.updNear a.lane ((viewsOf g a.lane Line.fresh sc).filter (holdsInst sc)) (fun i y =>
        y.fenced f.order a.noret (Nat.max t (overTag tags i)))
      if sc.isNone then g.updTm a.lane (fun y => y.fenced f.order a.noret t) else g) g)

/-- When the last lane of an atomic has been performed, nothing waits for it; when the last of a group has, its FENCEs have ordered all,
and nothing is kept of a group that has left. -/
def State.settleAtoms (s : State) (a : AtomLane) : State :=
  let s := if s.atoms.any (fun b => decide (b.op = a.op)) then s
    else
      let drop := fun (l : List Nat) => l.filter (fun o => decide (o ≠ a.op))
      let s := { s with
        groups := s.groups.map (fun (p : Nat × Group) => if p.2.after.contains a.op then (p.1, { p.2 with after := drop p.2.after }) else p),
        teams := s.teams.map (fun (p : Nat × Team) =>
          (p.1, { p.2 with bafter := (p.2.bafter.map (fun (b : Nat × List Nat) => (b.1, drop b.2))).filter (fun (b : Nat × List Nat) => decide (b.2 ≠ [])) })) }
      (List.range 4).foldl (fun s d => s.setDie d (fun x =>
        { x with grids := x.grids.map (fun (p : Nat × Grid) => if p.2.after.contains a.op then (p.1, { p.2 with after := drop p.2.after }) else p) })) s
  if s.atoms.any (fun b => decide (b.gid = a.gid)) then s
  else (s.setThread a.gid (fun g => { g with fences := [] })).forget a.gid

/-- One lane of an atomic at its unit: the time by its order, the old value, the new one, the reply (R254, R268, R269). -/
def State.performAtomic (s : State) (a : AtomLane) : State :=
  let n := lineOf a.pa
  let l := s.line n
  let old : Word := BitVec.ofNat 32 (s.num a.pa 4)
  let reply := fun (s : State) (bad : Bool) =>
    if a.noret then (s.landOp a.gid a.op)
    else s.post (.atomicReply { gid := a.gid, op := a.op, lane := a.lane, vd := a.vd, old := old, bad := bad })
  if l.bad then reply (s.poisonRead a.pa) true
  else
    let (t, tags) := match s.thread a.gid with
      | some g => s.storeTimes a.gid g a.lane a.pa a.order a.scope none 0
      | none => (l.nextTime, [])
    let top := Nat.max t (topTag tags)
    let sc := (s.thread a.gid).bind (fun g => s.instOf a.gid g a.lane a.scope)
    let s := s.storeLine n t (cellsAt a.pa (natLe (atomNew a.kind a.mr old a.x a.y).toNat 4)) tags
    let s := s.setLine n (fun l => ({ l with rtime := Nat.max l.rtime t } : Line).readAtViews (tags.map Prod.fst) (overTag tags))
    let s := s.setThread a.gid (fun g =>
      (((g.updNear a.lane (tags.map Prod.fst) (fun i y => y.atomic (orderAt a.order sc (some i)) a.noret (overTag tags i))).updTm a.lane
        (fun y => y.atomic (orderAt a.order sc none) a.noret t)).sees a.lane n t))
    let s := (if a.noret then s.setThread a.gid (fun g => g.performedAt a.op top) else s).refence a t tags
    reply (s.atomPerformed a top) false

/-- The lane of an atomic in flight to a unit, where it belongs to one operation and line. -/
def atomOf (op line : Nat) (d : Due) : Option AtomLane :=
  let pick := fun (a : AtomLane) => if a.op = op ∧ lineOf a.pa = line then some a else none
  match d.ev with
  | .serviceWarpAtomic a => pick a
  | .poolAtomic a => pick a
  | _ => none

/-- An atomic lane inserted by lane number. -/
def insertLane (a : AtomLane) : List AtomLane → List AtomLane
  | [] => [a]
  | b :: r => if a.lane < b.lane then a :: b :: r else b :: insertLane a r

/-- An earlier atomic of the lane that Table 10.1 puts before this one, or on its line, has not been performed (R250, R251). -/
def State.atomBefore (s : State) (a : AtomLane) : Bool :=
  s.atoms.any (fun b => decide (b.gid = a.gid ∧ b.lane = a.lane ∧ b.op < a.op)
    && (followsAtom true a.order b || decide (lineOf b.pa = lineOf a.pa)))

/-- The lanes of one instruction that address one line are applied one after another, in ascending lane order (R268); a
line that an engine owns is waited for (R261), and so are earlier atomics. -/
def State.unitStep (s : State) (a : AtomLane) (again : Event) : State :=
  let n := lineOf a.pa
  if (s.line n).owners ≠ [] || s.atomBefore a then s.postAt (s.clk + 1) again
  else
    let rest := s.agenda.filterMap (atomOf a.op n)
    let s := { s with agenda := s.agenda.filter (fun d => (atomOf a.op n d).isNone) }
    ((rest.foldl (fun l b => insertLane b l) [a]).foldl State.performAtomic s).settleAtoms a

/-- The service warp of a line, by its package cluster (R266), and the core next to it: the first of that cluster. -/
def warpOf (pa : Nat) : Nat := (bits pa 13 8) ^^^ (bits pa 19 14) ^^^ (bits pa 25 20)
def warpCore (pa : Nat) : Nat := 64 * (warpOf pa / 16) + 4 * (warpOf pa % 16)

/-- The lanes of a list that stand outside queues of `cap` places each, which fill in the list's order. -/
def outside (cap : Nat) (queue : AtomLane → Nat) (l : List AtomLane) : List AtomLane :=
  (l.foldl (fun (q : Assoc Nat × List AtomLane) a =>
    let n := Assoc.getD q.1 (queue a) 0
    if n < cap then (Assoc.put q.1 (queue a) (n + 1), q.2) else (q.1, q.2 ++ [a])) ([], [])).2

/-- An atomic lane inserted by the order in which it was sent. -/
def insertSent (a : AtomLane) : List AtomLane → List AtomLane
  | [] => [a]
  | b :: r => if a.seq < b.seq then a :: b :: r else b :: insertSent a r

/-- The atomic lanes that have not entered their queue: 512 places at each service warp, 256 at each die's pool unit, in the order
in which they were sent (R267, R363). -/
def State.unqueued (s : State) : List AtomLane :=
  let sent := s.atoms.foldl (fun l a => insertSent a l) []
  let pooled := fun (a : AtomLane) => (s.regionOf a.pa).isSome
  outside 512 (fun a => warpOf a.pa) (sent.filter (fun a => !pooled a)) ++ outside 256 (fun a => s.homeDie a.pa) (sent.filter pooled)

/-- A core's memory/engine pipe accepts no instruction: a lane of an atomic that it issued has not entered its queue (R267). -/
def State.pipeHeld (s : State) (core : Nat) : Bool := s.unqueued.any (fun a => decide (a.core = core))

/-- SERVICE_WARP_ATOMIC (R268): once its home slice holds the line. -/
def execServiceWarpAtomic (a : AtomLane) (s : State) : Host.Outcome State Fault Refusal :=
  if s.lineToCome a.pa then
    .next ((if s.lineDue (lineOf a.pa) then s else s.route (warpCore a.pa) a.pa).postAt (s.clk + 1) (.serviceWarpAtomic a))
  else .next ((s.route (warpCore a.pa) a.pa true).unitStep a (.serviceWarpAtomic a))

/-- POOL_ATOMIC (R363). -/
def execPoolAtomic (a : AtomLane) (s : State) : Host.Outcome State Fault Refusal :=
  .next ((s.touch a.pa).unitStep a (.poolAtomic a))

/-- ATOMIC_REPLY (R267): the lane's slot is written where it is still due, and the operation completes with its last
lane. -/
def execAtomicReply (r : AtomReply) (s : State) : Host.Outcome State Fault Refusal :=
  let m : Mask := 1#128 <<< r.lane
  let s := s.setGroup r.gid (fun g =>
    if g.pend.any (fun p => decide (p.op = r.op ∧ p.kind = .vec ∧ p.reg = r.vd.toNat) && p.lanes.has r.lane) then
      (let g' := g.setV r.vd.toNat m (fun _ => r.old)
       if r.bad then { g' with bad := g'.bad ++ [{ kind := .vec, reg := r.vd.toNat, lane := r.lane }] } else g')
    else g)
  .next (s.landOp r.gid r.op)

/-! ## FENCE, WCFL, PREF -/

/-- Lines of the combining buffers of a group. -/
def State.combinedLines (s : State) (gid : Nat) : List Nat :=
  (((s.group gid).map (fun g => (s.core g.core).combine)).getD []).filterMap (fun b => if b.gid = gid then some b.line else none)

/-- FENCE (R256): the combining buffers are flushed, then every thread's times are updated, toward the observers within the
scope (R254); the group is not ready until its home slices have accepted the flushes. Device accesses are performed as they
issue (R258). -/
def execFence (order : BitVec 3) (scope : BitVec 4) (s : State) : Host.Outcome State Fault Refusal :=
  issue (.fence order scope) s (fun x s =>
    let o : Order := match order.toNat with | 0 => .sc | 1 => .acquire | 2 => .release | 3 => .acqRel | _ => .relaxed
    if s.flushBlocked x.gid then .stall
    else x.upd ((s.flushGroup x.gid Group.raiseH).fence x.gid o scope.toNat) (fun g => { g with flushing := s.combinedLines x.gid }))

/-- WCFL (R246, R247): the group's WC stores, those whose buffers have left before it included, come before every later access; the
group is not ready until the flushes are accepted. -/
def execWcfl (s : State) : Host.Outcome State Fault Refusal :=
  issue .wcfl s (fun x s =>
    if s.flushBlocked x.gid then .stall
    else x.upd (s.flushGroup x.gid) (fun g => { g.acquire g.wcTime with flushing := s.combinedLines x.gid }))

/-- The line that a PREF lane asks for, or none: the translation must be in the core's TLB, the page N or WC in HBM4E or
the CXL tier (R245). -/
def State.prefLine (s : State) (x : Ix) (va : Dword) : Option Nat :=
  if va.toNat / 2 ^ 56 ≠ 0 then none
  else
    let fn := s.fnOf x.gid
    match (s.core x.g.core).tlb.find? (fun e => e.covers fn va.toNat) with
    | none => none
    | some e =>
      let pa := e.pa + va.toNat % 2 ^ e.log
      let k := s.paKind pa
      if strongerType e.s1.typ e.s2.typ ≤ 1 ∧ (k = .hbm ∨ k = .cxl) ∧ (s.regionOf pa).isNone then some (lineOf pa) else none

/-- PREF (R245). -/
def execPref (a b : Reg) (s : State) : Host.Outcome State Fault Refusal :=
  issue (.pref a b) s (fun x s =>
    .next (x.live.lanes.foldl (fun s L =>
      match s.prefLine x (Vector.at0 (x.eas a b) L 0) with
      | some n =>
        let k := s.homeSlice (n * 256)
        let port := portOf x.g.core (s.homeDie (n * 256))
        if (s.slice k).misses.contains n || (s.slice k).has n then s else s.ask port n false true
      | none => s) s))

/-! ## Monitors (R270 to R272) -/

/-- Lines that a slice watches: those of monitors that are not coarse, of saved groups too, each once (R271, R272). -/
def State.watched (s : State) (slice : Nat) : List Nat :=
  ((s.groups ++ s.saved.flatMap (fun (p : Nat × Saved) => p.2.groups)).filterMap (fun (p : Nat × Group) => match p.2.mon with
    | some m => if !m.coarse ∧ s.homeSlice (m.line * 256) = slice then some m.line else none
    | none => none)).eraseDups

/-- MONA (R270, R272). -/
def execMona (a b : Reg) (s : State) : Host.Outcome State Fault Refusal :=
  issue (.mona a b) s (fun x s =>
    match x.live.first with
    | none => x.upd (x.unheld s) (fun g => { g with mon := none })
    | some L =>
      let ea := x.g.sr a.toNat + (x.vl b L).zeroExtend 64
      let (s, r) := s.translate (s.groupXc x.gid) ea .read
      match r with
      | .wait n => x.parkWhole s n
      | .fault c i => x.fail s (trapPA c ea i)
      | .ok pa typ =>
        if 2 ≤ typ ∨ s.paKind pa = .hearth ∨ (s.regionOf pa).isSome then x.fail s (trapPA 0x2C ea 0)
        else
          let s := (x.unheld s).setGroup x.gid (fun g => { g with mon := none })
          let w := s.watched (s.homeSlice pa)
          let coarse := decide (256 ≤ w.length) && !w.contains (lineOf pa)
          x.upd s (fun g => { g with mon := some { line := lineOf pa, time := (g.tm L).h, coarse := coarse } }))

/-- MWT (R271). -/
def execMwt (a : Reg) (s : State) : Host.Outcome State Fault Refusal :=
  issue (.mwt a) s (fun x s =>
    let n := x.g.sr a.toNat
    match x.g.mon with
    | none => .next s
    | some m =>
      if (s.line m.line).versions.any (fun v => !v.moved && decide (m.time < v.time)) then x.upd s (fun g => { g with mon := none })
      else if n = 0 then .trap s (trapP 0x2D)
      else if n = BitVec.allOnes 64 then .stay (s.setGroup x.gid (fun g => { g with park := some (.monitor none) }))
      else
        let t := s.clk + n.toNat
        .stay ((s.setGroup x.gid (fun g => { g with park := some (.monitor (some t)) })).postAt t (.monitorTimeoutExpiry x.gid)))

/-- MONITOR_TIMEOUT_EXPIRY (R271). -/
def execMonitorTimeoutExpiry (gid : Nat) (s : State) : Host.Outcome State Fault Refusal :=
  match (s.group gid).bind Group.park with
  | some (.monitor (some t)) => if t ≤ s.clk then .next (s.takeTrap gid (trapP 0x2D)) else .next s
  | _ => .next s

/-! ## The ORD pair (R45, R46, R50) -/

/-- The second word of an ORD pair, executed with the prefix that the state's issue holds. -/
def execPaired (i : Instr) (s : State) : Option (Host.Outcome State Fault Refusal) :=
  match i with
  | .ldb d a b => some (execLdb d a b s)
  | .ldh d a b => some (execLdh d a b s)
  | .ldw d a b => some (execLdw d a b s)
  | .ldd d a b => some (execLdd d a b s)
  | .ldq d a b => some (execLdq d a b s)
  | .stb d a b => some (execStb d a b s)
  | .sth d a b => some (execSth d a b s)
  | .stw d a b => some (execStw d a b s)
  | .std d a b => some (execStd d a b s)
  | .stq d a b => some (execStq d a b s)
  | .sldw d a b => some (execSldw d a b s)
  | .sldd d a b => some (execSldd d a b s)
  | .sstw d a b => some (execSstw d a b s)
  | .sstd d a b => some (execSstd d a b s)
  | .aadd d a b => some (execAadd d a b s)
  | .asub d a b => some (execAsub d a b s)
  | .amin d a b => some (execAmin d a b s)
  | .amax d a b => some (execAmax d a b s)
  | .aand d a b => some (execAand d a b s)
  | .aor d a b => some (execAor d a b s)
  | .axor d a b => some (execAxor d a b s)
  | .axch d a b => some (execAxch d a b s)
  | .acas d a b => some (execAcas d a b s)
  | .ainc d a b => some (execAinc d a b s)
  | .adec d a b => some (execAdec d a b s)
  | .afadd d a b => some (execAfadd d a b s)
  | _ => none

/-- The prefix of an ORD word. -/
def prefixOf (noret : Bool) (order : BitVec 3) (scope : BitVec 4) : Prefix :=
  { noret := noret, scope := scope.toNat
    order := match order.toNat with | 0 => .sc | 1 => .acquire | 2 => .release | 3 => .acqRel | _ => .relaxed }

/-- ORD (R46, R50): both words are fetched, the ORD word is checked, then the second word, and the pair issues as one. -/
def execOrd (noret : Bool) (order : BitVec 3) (scope : BitVec 4) (s : State) : Host.Outcome State Fault Refusal :=
  match s.cur with
  | none => .fault .noIssuer
  | some c =>
    match s.group c.gid with
    | none => .fault .noIssuer
    | some g =>
      let (s, f) := s.fetchWord c.gid c.code (g.pc + 4)
      let trap := fun (x : TrapInfo) => Host.Outcome.next ((s.stamp c g).takeTrap c.gid x)
      match f with
      | .fault x => trap x
      | .wait => .next s
      | .busy => .next (s.stalled c)
      | .word w =>
        let op := (fOp w).toNat
        if g.trap.inh && !handlerMay 0x40E then trap (trapP 0x80)
        else if !fieldsLegal (useCtx (.ord noret order scope) g) (.ord noret order scope) then trap (trapP 0x02)
        else if !ordPairs op || !admitsOrder op noret order.toNat then trap (trapP 0x03)
        else
          match decode (bytesOfWord w) with
          | .error _ => trap (trapP 0x02)
          | .ok (i, _) =>
            (execPaired i { s with cur := some { c with pre := some (prefixOf noret order scope) } }).getD (trap (trapP 0x03))

end Sys2Proof.Machine
end

