-- ==== Sys2Proof/Machine/Sched.lean ====
section
/-!
DEFINITION. Placement of teams (R22, R112), the Bellows and the launch decision (R288 to R292), retirement (R88), and the
end of a child grid (R105).
-/
namespace Sys2Proof.Machine
open Sys2Proof

/-! ## Placement (R22, R84, R112) -/

/-- What a team needs of a core: tiles, scratch units, and its initial groups and blocks by role. -/
structure Need where
  acc : Nat
  scratch : Nat
  pgroups : Nat
  cgroups : Nat
  pblocks : Nat
  cblocks : Nat
  deriving DecidableEq, Repr

/-- The budget of a role (R112). -/
def Need.budget (n : Need) (r : Role) : Nat := match r with | .producer => n.pblocks | .consumer => n.cblocks

/-- The initial groups by number, producers first (R84). -/
def Need.roles (n : Need) : List Role := List.replicate n.pgroups .producer ++ List.replicate n.cgroups .consumer

/-- The groups placed one after another: each on the current core while it has a free context and the free blocks for it,
else on the next core. The list holds each core with its free contexts and blocks; the answer gives each group's core. -/
def placeGroups (n : Need) : Nat → List Role → List (Nat × Nat × Nat) → Option (List Nat)
  | _, [], _ => some []
  | 0, _, _ => none
  | _, _, [] => none
  | fuel + 1, r :: rest, (c, ctx, blk) :: more =>
    if 0 < ctx ∧ 1 + n.budget r ≤ blk then
      (placeGroups n fuel rest ((c, ctx - 1, blk - 1 - n.budget r) :: more)).map (fun l => c :: l)
    else placeGroups n fuel (r :: rest) more

/-- A core that runs: under reduced service cores 0 to 15 (R422). -/
def State.coreRuns (s : State) (c : Nat) : Bool := !s.dev.reduced || decide (c < 16)

/-- The cores on which a team's groups are placed, in group order, for a home core; none where the team does not fit
(R22). -/
def State.fits (s : State) (home : Nat) (n : Need) : Option (List Nat) :=
  let at_ := fun (c : Nat) => (c, s.freeContexts c, s.freeBlocks c)
  if s.freeTeamSlots home = 0 ∨ s.freeScratch home < n.scratch ∨ s.freeTiles home < n.acc then none
  else
    let others := ((List.range 4).map (fun i => home / 4 * 4 + i)).filter (fun c => decide (c ≠ home) && decide (0 < s.freeTeamSlots c))
    placeGroups n (n.roles.length + 4) n.roles (at_ home :: others.map at_)

/-- Lowest free team slot of a core. -/
def State.freeSlot (s : State) (c : Nat) : Nat :=
  ((List.range 24).find? (fun k => !s.teams.any (fun p => p.2.slots.contains (c, k)))).getD 0

/-- What a launch gives a team beside its place. -/
structure Launch where
  func : Nat
  origin : Origin
  serial : Nat
  life : Nat
  tvec : Va
  entry : Va
  args : List Dword
  stksize : Nat
  stkbase : Nat
  born : Nat
  after : List Nat
  deriving DecidableEq, Repr

/-- A team placed on the cores found for its groups (R22, R86, R112, Table 11.4). Its scratch units come from its home core's
L1 (R197); its cores have reserved in this cycle (R107). -/
def State.placeTeam (s : State) (home : Nat) (n : Need) (places : List Nat) (l : Launch) : State :=
  let cores := (home :: places).eraseDups
  let tid := s.uid + 1
  let groups := n.roles.zip places
  let count := fun (c : Nat) (r : Role) => (groups.filter (fun g => decide (g = (r, c)))).length * n.budget r
  let reserves : Assoc Reserve := cores.foldl (fun m c => [Role.consumer, Role.producer].foldl (fun m r =>
    Assoc.put m (reserveKey c r) { count := count c r, cap := count c r, line := [] }) m) []
  let slots := cores.map (fun c => (c, s.freeSlot c))
  let t := Team.made l.func l.origin l.serial l.life home slots n.scratch n.acc reserves l.tvec
  let s := { s with uid := tid, teams := Assoc.put s.teams tid { t with since := s.clk + 1 } }
  let s := cores.foldl (fun s c => s.setCore c (fun x => { x with placed := s.clk + 1 })) (s.l1Evict home)
  groups.zipIdx.foldl (fun s g =>
    let slot := ((slots.find? (fun x => decide (x.1 = g.1.2))).map Prod.snd).getD 0
    let sp := if l.stksize = 0 then 0 else l.stkbase + ((g.1.2 * 24 + slot) * 96 + g.2 + 1) * l.stksize * 1024
    s.createGroup tid g.1.2 g.2 g.1.1 (match g.1.1 with | .producer => 12 | .consumer => 8) l.entry l.args
      (BitVec.ofNat 64 sp) l.born l.after) s

/-! ## The launch decision (R290, R291) -/

/-- What a stage's team and a child grid's team need. -/
def Stage.need (x : Stage) : Need :=
  { acc := x.acc, scratch := x.scratch, pgroups := x.pgroups, cgroups := x.cgroups, pblocks := x.pblocks, cblocks := x.cblocks }
def Grid.need (x : Grid) : Need :=
  { acc := x.acc, scratch := x.scratch, pgroups := x.pgroups, cgroups := x.cgroups, pblocks := x.pblocks, cblocks := x.cblocks }

/-- The key of the queue part that a handle names. -/
def handleKey (h : Nat) : Nat := bits h 19 18 * 4096 + bits h 17 6

/-- The stage may be launched: its graph runs, and neither is stopped (R287, R418). -/
def State.stageRuns (s : State) (x : Stage) : Bool :=
  !x.stopped && (match Assoc.get s.graphs x.graph with | some g => !g.stopped && decide (g.ending = []) | none => false)

/-- The adjusted view of a part's backlog in a decision of a core (R291). -/
def State.adjusted (s : State) (core q : Nat) : Int :=
  let since := s.tickLen * (s.tick - 1)
  let b : Int := ((Assoc.get s.queues q).map (fun x => x.sample.b)).getD 0
  (s.core core).launches.foldl (fun (a : Int) l =>
    if l.1 < since then a
    else match Assoc.get s.stages l.2 with
      | none => a
      | some u =>
        let a := if u.inq = q then a - u.batch else a
        a + u.batch * (u.outs.filter (fun o => decide (o = q))).length) b

/-- What a decision may launch. -/
inductive Choice where
  | stage (n : Nat)
  | grid (die entry : Nat)
  deriving DecidableEq, Repr

/-- A candidate with its differential and weight. -/
structure Candidate where
  what : Choice
  d : Int
  w : Nat
  deriving DecidableEq, Repr

/-- The candidate that a stage makes; none where it is not eligible. -/
def State.stageCandidate (s : State) (core n : Nat) (x : Stage) : Option Candidate :=
  let a := s.adjusted core x.inq
  let flag := fun (q : Nat) (f : Sample → Bool) => ((Assoc.get s.queues q).map (fun y => f y.sample)).getD false
  if flag x.inq (fun y => y.sealed && decide (y.b = 0)) || !s.stageRuns x || !x.cores.testBit core || (s.fits core x.need).isNone then none
  else if !(decide ((x.batch : Int) ≤ a) || (decide (1 ≤ a) && (flag x.inq Sample.sealed || flag x.inq Sample.lingered))) then none
  else if x.outs.any (fun o => flag o Sample.full) then none
  else
    let out : Int := match x.outs.map (s.adjusted core) with
      | [] => 0
      | o :: r => r.foldl (fun m y => if m < y then y else m) o
    let d := x.weight * (a - out)
    if d ≤ 0 then none else some { what := .stage n, d := d, w := x.weight }

/-- The candidate that a child grid makes. -/
def State.gridCandidate (s : State) (core die e : Nat) (g : Grid) : Option Candidate :=
  if !g.clusters.testBit (core / 4) || decide (g.teams ≤ g.launched) || (s.fits core g.need).isNone then none
  else some { what := .grid die e, d := g.weight * (g.teams - g.launched), w := g.weight }

/-- The better of two candidates, the earlier where they tie (R291). -/
def better (best : Option Candidate) (c : Candidate) : Option Candidate :=
  match best with
  | none => some c
  | some b => if b.d < c.d ∨ (b.d = c.d ∧ b.w < c.w) then some c else some b

/-- The candidates of a decision, in order: stages by number, then child grids by number. -/
def State.candidates (s : State) (core : Nat) : List Candidate :=
  s.stages.filterMap (fun (p : Nat × Stage) => s.stageCandidate core p.1 p.2)
    ++ (List.range 4).flatMap (fun d => (s.die d).grids.filterMap (fun (p : Nat × Grid) => s.gridCandidate core d p.1 p.2))

/-- A decision of a core is due in a cycle, one at most, where something could be launched on it (R290). -/
def State.askDecision (s : State) (core t : Nat) : State :=
  let some_ := s.stages.any (fun (p : Nat × Stage) => p.2.cores.testBit core)
    || (List.range 4).any (fun d => (s.die d).grids.any (fun (p : Nat × Grid) => p.2.clusters.testBit (core / 4)))
  if !some_ ∨ !s.coreRuns core then s else s.postOnceAt t (.slotDecision core)

/-- The state as the decisions of a cycle see it: without what SPAWN and the reservations of the cycle itself have taken (R22,
R99, R107). -/
def State.beforeTaking (s : State) : State :=
  { s with groups := s.groups.filter (fun p => decide (p.2.ready ≤ s.clk)), teams := s.teams.filter (fun p => decide (p.2.since ≤ s.clk)) }

/-- What a candidate's team needs. -/
def State.needOf (s : State) (c : Choice) : Option Need :=
  match c with
  | .stage n => (Assoc.get s.stages n).map Stage.need
  | .grid d e => (Assoc.get (s.die d).grids e).map Grid.need

/-- The reservation of a candidate's resources finds them as the decision saw them (R22). -/
def State.reserved (s : State) (core : Nat) (c : Candidate) : Bool :=
  match s.needOf c.what with
  | none => false
  | some n => decide (s.fits core n = s.beforeTaking.fits core n)

/-- One team of a candidate is launched on a core (R22, R86, R291). -/
def State.launch (s : State) (core : Nat) (c : Candidate) : State :=
  match c.what with
  | .stage n =>
    (match Assoc.get s.stages n with
     | none => s
     | some x =>
       match s.fits core x.need with
       | none => s
       | some places =>
         let handle := fun (i : Nat) => BitVec.ofNat 64 (x.outHandles.getD i 0)
         let l : Launch :=
           { func := x.func, origin := .stage x.graph n, serial := x.launches % 2 ^ 32, life := x.life, tvec := x.tvec,
             entry := x.entry, stksize := x.stksize, stkbase := x.stkbase, born := s.hostT + 1, after := [],
             args := [BitVec.ofNat 64 x.inHandle, handle 0, handle 1, handle 2, handle 3, BitVec.ofNat 64 n,
                      BitVec.ofNat 64 x.batch, x.arg] }
         let s := s.placeTeam core x.need places l
         let s := { s with stages := Assoc.upd s.stages n (fun x => { x with launches := x.launches + 1 }) }
         let since := s.tickLen * (s.tick - 1)
         let s := s.setCore core (fun c => { c with launches := c.launches.filter (fun l => decide (since ≤ l.1)) ++ [(s.refc, n)] })
         s.askDecision core (s.clk + 1))
  | .grid d e =>
    (match Assoc.get (s.die d).grids e with
     | none => s
     | some g =>
       match s.fits core g.need with
       | none => s
       | some places =>
         let l : Launch :=
           { func := g.func, origin := .grid d e, serial := g.launched, life := g.life, tvec := g.tvec, entry := g.entry,
             stksize := 0, stkbase := 0, born := Nat.max g.time s.hostT + 1, after := g.after, args := g.args }
         let s := s.placeTeam core g.need places l
         let s := s.setDie d (fun x => { x with grids := Assoc.upd x.grids e (fun g =>
           { g with launched := g.launched + 1, living := g.living + 1 }) })
         s.askDecision core (s.clk + 1))

/-- SLOT_DECISION (R22, R291): the candidate of the greatest differential is launched. Where its reservation finds its
resources taken in this cycle, it counts as not fitting and the core decides again in the next cycle. -/
def execSlotDecision (core : Nat) (s : State) : Host.Outcome State Fault Refusal :=
  let b := s.beforeTaking
  if b.freeTeamSlots core = 0 ∨ !s.coreRuns core then .next s
  else
    let l := b.candidates core
    match l.foldl better none with
    | none => .next s
    | some c =>
      if s.reserved core c then .next (s.launch core c)
      else
        let s := s.askDecision core (s.clk + 1)
        match (l.filter (s.reserved core)).foldl better none with
        | none => .next s
        | some c => .next (s.launch core c)

/-! ## The Bellows (R288, R289) -/

/-- The sample of a part in a tick (R288). -/
def Queue.sampleAt (q : Queue) (k : Nat) : Sample :=
  let oldest := ((q.ring ++ q.spill).head?).map Rec.tick
  { b := q.backlog, sealed := q.sealed, full := q.hardFull,
    lingered := match oldest with | some a => decide (q.linger ≠ 65535) && decide (q.linger < k - a) | none => false }

/-- BELLOWS_SAMPLE (R288): the samples of the tick that begins are taken, those of the one before serve its decisions, and
every core with a free slot decides in its first cycle (R290). -/
def execBellowsSample (s : State) : Host.Outcome State Fault Refusal :=
  let k := s.tick
  let s := { s with queues := s.queues.map (fun (p : Nat × Queue) => (p.1, { p.2 with sample := p.2.taken, taken := p.2.sampleAt k })) }
  let s := s.postRef ((k + 1) * s.tickLen) .bellowsSample
  let s := (List.range 256).foldl (fun s c => s.askDecision c s.clk) s
  .next ((List.range 16).foldl (fun s p => if (s.port p).up then s.postOnce (.portForwardDecision p) else s) s)

/-! ## Retirement (R88) -/

/-- The combining buffers of groups that have left the machine are flushed, but for those whose lines an engine owns (R240, R261). -/
def State.flushDead (s : State) (core : Nat) : State :=
  ((s.core core).combine.filter (fun b => (s.group b.gid).isNone && decide ((s.line b.line).owners = []))).foldl (fun s b => s.flushOne core b) s

/-- A combining buffer of a team whose group has left is still to be flushed. -/
def State.buffersLeft (s : State) (tid : Nat) : Bool :=
  s.cores.any (fun (p : Nat × Core) => p.2.combine.any (fun b => decide (b.team = tid) && (s.group b.gid).isNone))

/-- A living team, running or saved, has a die's mark set (R237). -/
def State.hearthMarked (s : State) (d : Nat) : Bool :=
  s.teams.any (fun p => p.2.hearth.getLsbD d) || s.saved.any (fun p => p.2.team.hearth.getLsbD d)

/-- A draining Hearth on which no team holds a mark is loaded (R237). -/
def State.watchHearth (s : State) : State :=
  (List.range 4).foldl (fun s d =>
    if (s.die d).window = .draining ∧ !s.hearthMarked d then s.postOnce (.hearthWindowLoading d) else s) s

/-- The end of a child grid is due (R105). -/
def State.watchGrid (s : State) (d e : Nat) : State :=
  match Assoc.get (s.die d).grids e with
  | some g => if g.teams ≤ g.launched ∧ g.living = 0 then s.postOnce (.childGridEnd (256 * d + e)) else s
  | none => s

/-- A team's resources return to its cores, whose slot controllers decide in the next cycle (R88, R290, R409). -/
def State.freeTeam (s : State) (tid : Nat) : State :=
  match s.team tid with
  | none => s
  | some t =>
    let s := { s with teams := Assoc.del s.teams tid }
    (t.slots.foldl (fun s c => s.askDecision c.1 (s.clk + 1)) s).watchHearth

/-- TEAM_RETIREMENT (R88): after the last EXIT, or termination, once every operation has finished. -/
def execTeamRetirement (tid : Nat) (s : State) : Host.Outcome State Fault Refusal :=
  match s.team tid with
  | none => .next s
  | some t =>
    if s.teamGroups tid ≠ [] then .next s
    else
      let s := t.slots.foldl (fun s c => s.flushDead c.1) s
      if t.orphans ≠ [] ∨ t.held ≠ [] then .next s
      else if s.buffersLeft tid then .next (s.postAt (s.clk + 1) (.teamRetirement tid))
      else
        let s := s.freeTeam tid
        match t.origin with
        | .stage g _ => .next (s.postOnce (.graphRunEnd g))
        | .grid d e =>
          let s := s.setDie d (fun x => { x with grids := Assoc.upd x.grids e (fun g => { g with living := g.living - 1 }) })
          .next ((s.watchGrid d e).postOnce (.graphRunEnd (s.graphOf t)))

/-! ## The end of a child grid (R105) -/

/-- The key under which the addition of a grid waits for a page request. -/
def gridWaiter (grid : Nat) : Nat := 2 ^ 63 + grid

/-- The grid's table entry is freed (R103). -/
def State.freeGrid (s : State) (d e : Nat) : State := s.setDie d (fun x => { x with grids := Assoc.del x.grids e })

/-- The addition is dropped: event 0x09 (R105, R419). -/
def State.dropDone (s : State) (grid fn va code : Nat) (info : Dword) : State :=
  (s.freeGrid (grid / 256) (grid % 256)).postEvent fn 0x09 [(8, 2, grid), (16, 8, va), (24, 1, code), (32, 8, info.toNat)]

/-- CHILD_GRID_END (R105). -/
def execChildGridEnd (grid : Nat) (s : State) : Host.Outcome State Fault Refusal :=
  let d := grid / 256
  let e := grid % 256
  match Assoc.get (s.die d).grids e with
  | none => .next s
  | some g =>
    if g.launched < g.teams ∨ g.living ≠ 0 then .next s
    else if g.doneVa = 0 then .next (s.freeGrid d e)
    else
      let c : Xc := { fn := g.func, core := 64 * d, gid := 0, waiter := .engine (gridWaiter grid), team := 0 }
      let va : Dword := BitVec.ofNat 64 g.doneVa
      let (s, rd) := s.translate c va .read
      let (s, r) := match rd with | .ok _ _ => s.translate c va .write | _ => (s, rd)
      match r with
      | .wait _ => .next (s.setDie d (fun x => { x with grids := Assoc.upd x.grids e (fun g => { g with adding := true }) }))
      | .fault code info =>
        .next (s.dropDone grid g.func g.doneVa code (if code = 0x2A ∧ (info = protInfo 0 ∨ info = protInfo 1) then protInfo 4 else info))
      | .ok pa typ =>
        if typ ≠ 0 ∨ s.paKind pa = .hearth ∨ (s.regionOf pa).isSome then .next (s.dropDone grid g.func g.doneVa 0x2C 0)
        else
          let n := lineOf pa
          if (s.line n).owners ≠ [] then .next (s.postAt (s.clk + 1) (.childGridEnd grid))
          else if (s.line n).bad then .next ((s.poisonEvent pa).freeGrid d e)
          else
            let t := Nat.max (s.line n).nextTime (g.doneTime + 1)
            let v := (s.num pa 8 + (if g.broken then 2 ^ 32 + 1 else 1)) % 2 ^ 64
            let s := (s.storeLine n t (cellsAt pa (natLe v 8))).setLine n (fun l => { l with rtime := Nat.max l.rtime t })
            .next (s.freeGrid d e)

end Sys2Proof.Machine
end

