-- ==== Sys2Proof/Machine/Preempt.lean ====
section
/-!
DEFINITION. Pre-emption: requests, the collectors' stop and save, images, and restoration (R193, R408 to R413).
-/
namespace Sys2Proof.Machine
open Sys2Proof

/-! ## Images (R410, Table 16.8) -/

/-- What a team's image counts: groups, held register blocks, engine progress records. -/
def State.imageGroups (s : State) (tid : Nat) : Nat := (s.teamGroups tid).length
def State.imageBlocks (s : State) (tid : Nat) : Nat :=
  (s.teamGroups tid).foldl (fun a p => a + (p.2.blocks.toList.filterMap (fun b => b)).length) 0
def State.progressRecords (s : State) (tid : Nat) : Nat :=
  (s.copies.filter (fun (p : Nat × Copy) => decide (p.2.team = tid))).length
    + (s.poolOps.filter (fun (p : Nat × PoolOp) => decide (p.2.team = tid))).length

/-- Bytes of an image of a team with a number of progress records (R410). -/
def State.imageSize (s : State) (tid records : Nat) : Nat :=
  match s.team tid with
  | none => 0
  | some t =>
    128 + 4096 * s.imageGroups tid + 16384 * s.imageBlocks tid + 16384 * t.units + 256 * t.patterns.length
      + 512 * t.fibres.length + 64 * records

/-- The origin field of Table 16.8. -/
def Origin.code : Origin → Nat
  | .stage _ n => n
  | .grid d e => 0x1000 + 256 * d + e

/-- The header without its digest (Table 16.8). -/
def State.imageHeader (s : State) (tid : Nat) (t : Team) (pri records size : Nat) : Nat :=
  1 + place pri 208 + place records 216 + place (t.fibres.foldl (fun a p => a + 2 ^ p.1) 0) 224 + place t.patterns.length 232
    + place t.ntiles 237 + place t.units 241 + place (s.imageBlocks tid) 247 + place (s.imageGroups tid) 256
    + place (b2n (decide (0 < t.ntiles))) 263 + place (b2n ((s.teamGroups tid).any (fun p => p.2.trap.inh))) 264
    + place t.func 265 + place t.origin.code 272 + place s.clk 384 + place size 448

/-- An area may hold an image of a team: 64 KiB aligned, in the HBM4E of the home die, outside every pool region (R408). -/
def State.imageArea (s : State) (home pa n : Nat) : Bool :=
  decide (pa % 65536 = 0) && (linesOf pa n).all (fun m =>
    decide (s.paKind (m * 256) = .hbm) && decide (s.homeDie (m * 256) = dieOfCore home) && (s.regionOf (m * 256)).isNone)

/-! ## Requests (R408) -/

/-- The living team of a team id that a function's command may act on (R416, Table 17.4). -/
def State.teamById (s : State) (fn id : Nat) : Option (Nat × Team) :=
  s.teams.find? (fun (p : Nat × Team) => decide (p.2.id = id) && p.2.ended.isNone && (decide (fn = 0) || decide (p.2.func = fn)))

/-- A request joins its die's collector. -/
def State.enqueuePre (s : State) (die : Nat) (r : PreReq) : State :=
  (s.setDie die (fun d => { d with preQueue := d.preQueue ++ [r] })).postOnce (.collectorServe die)

/-- PREEMPT of one team (R408). -/
def execPreempt (c : Cmd) (s : State) : Host.Outcome State Fault Refusal :=
  s.command c (fun s =>
    match s.teamById c.func c.a0.toNat with
    | none => s.complete c .invalid 0
    | some (tid, t) =>
      let size := s.imageSize tid (s.progressRecords tid)
      let die := dieOfCore t.home
      if 8 ≤ c.a1.toNat ∨ !s.imageArea t.home c.a2.toNat (Nat.max 1 c.a3.toNat) then s.complete c .invalid 0
      else if c.a3.toNat < size ∨ 16 ≤ (s.die die).preQueue.length then s.complete c .busy 0
      else s.enqueuePre die
        { team := tid, func := t.func, pri := c.a1.toNat, image := c.a2.toNat, size := c.a3.toNat, cmd := c, listEntry := none })

/-- An entry of an image list: area and size. -/
def State.listArea (s : State) (list i : Nat) : Nat × Nat := (bits (s.num (list + 16 * i) 16) 51 0, bits (s.num (list + 16 * i) 16) 95 64)

/-- The word that the device writes into an entry of an image list. -/
def State.putListWord (s : State) (list i n : Nat) : State := s.hostWrite (list + 16 * i + 12) (natLe n 4)

/-- The living teams of a function, by rising team id. -/
def State.funcTeams (s : State) (fn : Nat) : List (Nat × Team) :=
  ((s.teams.filter (fun (p : Nat × Team) => decide (p.2.func = fn) && p.2.ended.isNone)).foldl
    (fun (m : Assoc (Nat × Team)) p => Assoc.put m p.2.id p) []).map Prod.snd

/-- The function-wide form of PREEMPT (R408). -/
def execPreemptFunction (c : Cmd) (s : State) : Host.Outcome State Fault Refusal :=
  s.command c (fun s =>
    let fn := c.a0.toNat
    let list := c.a2.toNat
    let n := c.a3.toNat
    let place_ := fun (m : Nat) => decide (s.paKind (m * 256) = .host ∨ s.paKind (m * 256) = .hbm)
    if 64 < fn ∨ (c.func ≠ 0 ∧ fn ≠ c.func) ∨ 16 ≤ c.a1.toNat ∨ list % 64 ≠ 0 ∨ 2 ^ 32 ≤ n ∨ !(linesOf list (16 * n)).all place_ then
      s.complete c .invalid 0
    else if s.owned list (16 * n) then s.postAt (s.clk + 1) (s.cmdEvent c)
    else
      let s := s.hostRead list (16 * n)
      let teams := (s.funcTeams fn).zipIdx
      let area := s.listArea list
      let tooSmall := teams.any (fun p =>
        let a := area p.2
        !s.imageArea p.1.2.home a.1 (Nat.max 1 a.2) || decide (a.2 < s.imageSize p.1.1 (s.progressRecords p.1.1)))
      let share := fun (d : Nat) => (teams.filter (fun p => decide (dieOfCore p.1.2.home = d))).length
      if n < teams.length ∨ tooSmall then s.complete c .nospace 0
      else if (List.range 4).any (fun d => decide (16 < (s.die d).preQueue.length + share d)) then s.complete c .busy 0
      else
        let s := ((List.range n).drop teams.length).foldl (fun s i => s.putListWord list i 0) s
        if teams = [] then s.complete c .ok 0
        else
          let s := s.setDev (fun d => { d with tally := Assoc.put d.tally c.func 0 })
          teams.foldl (fun s p => s.enqueuePre (dieOfCore p.1.2.home)
            { team := p.1.1, func := fn, pri := c.a1.toNat % 8, image := (area p.2).1, size := (area p.2).2,
              cmd := c, listEntry := some p.2 }) s)

/-- A request is over with the image bytes written, 0 where its team retired first; its command completes with it, or with the
last of a function-wide one (R408, R409). -/
def State.finishPre (s : State) (die : Nat) (r : PreReq) (bytes : Nat) : State :=
  let s := (s.setDie die (fun d => { d with serving := none })).postAt (s.clk + 1) (.collectorServe die)
  match r.listEntry with
  | none => s.complete r.cmd .ok bytes
  | some i =>
    let s := s.putListWord r.cmd.a2.toNat i bytes
    let n := Assoc.getD s.dev.tally r.cmd.func 0 + (if bytes = 0 then 0 else 1)
    let left := s.dies.toList.any (fun d => d.preQueue.any (fun q => decide (q.cmd = r.cmd))
      || (match d.serving with | some (q, _) => decide (q.cmd = r.cmd) | none => false))
    if left then s.setDev (fun d => { d with tally := Assoc.put d.tally r.cmd.func n })
    else (s.setDev (fun d => { d with tally := Assoc.del d.tally r.cmd.func })).complete r.cmd .ok n

/-- A request ends with no image: a team that has no group left, and has not retired, is halted no longer, and what it holds is
delivered, which terminates it (R88, R400, R409). -/
def State.endPre (s : State) (die : Nat) (r : PreReq) : State :=
  let s := if (s.team r.team).any (fun t => t.ended.isNone) then
      (s.setTeam r.team (fun t => { t with halt := .none })).postOnce (.deferredTrapDelivery r.team) else s
  s.finishPre die r 0

/-! ## Stop (R409, R412) -/

/-- The request that a collector takes next: the highest priority, the oldest among equals (R408). -/
def nextReq (l : List PreReq) : Option PreReq :=
  l.foldl (fun (a : Option PreReq) r => match a with | some b => if b.pri < r.pri then some r else a | none => some r) none

/-- A team is halted for a collector, unless a handler of it runs or the host holds it at a breakpoint (R409, R412). -/
def State.haltFor (s : State) (tid : Nat) : State :=
  let s := s.setTeam tid (fun t => { t with preCount := 0 })
  if ((s.team tid).map Team.halt) = some .none then
    (s.setTeam tid (fun t => { t with halt := .preempt })).broadcastHalt tid none
  else s

/-- COLLECTOR_SERVE (R408, R411): a collector that is free takes its next request and halts the team. -/
def execCollectorServe (die : Nat) (s : State) : Host.Outcome State Fault Refusal :=
  if (s.die die).serving.isSome then .next s
  else
    match nextReq (s.die die).preQueue with
    | none => .next s
    | some r =>
      let s := s.setDie die (fun d => { d with preQueue := d.preQueue.erase r, serving := some (r, .stopping) })
      if (s.team r.team).any (fun t => t.ended.isNone) then .next ((s.haltFor r.team).post (.preemptStopComplete die))
      else .next (s.finishPre die r 0)

/-- Every group of a team has stopped, none of them at a breakpoint inside its handler, no block of it is being moved, and its combining
buffers can be flushed (R412). -/
def State.allStopped (s : State) (tid : Nat) (t : Team) : Bool :=
  let gs := s.teamGroups tid
  (match t.halt with | .handler _ => false | .none => false | .breakpoint _ => gs.all (fun p => !p.2.trap.inh) | _ => true)
    && gs.all (fun p => decide (p.2.stop = .stopped) && !s.flushBlocked p.1
        && (s.core p.2.core).moving.all (fun m => decide (m.gid ≠ p.1) && !p.2.blocks.toList.contains (some m.src)))

/-- The operations that a save takes with it, or leaves in the network: copies, pool operations, tickets, and held lanes
(Table 16.7). -/
def State.mayStay (s : State) (t : Team) (op : Nat) (g : Option Group) : Bool :=
  Assoc.has s.copies op || Assoc.has s.poolOps op
    || (match g with
        | some g => g.tickets.any (fun q => decide (q.2.op = op ∧ q.2.status = 0)) || g.replay.any (fun r => decide (r.op = op))
            || g.hreplay.any (fun r => decide (r.op = op))
        | none => t.oldTickets.any (fun q => decide (q.2.op = op)))

/-- Every engine operation of a team but those has ended. -/
def State.enginesDone (s : State) (tid : Nat) (t : Team) : Bool :=
  (s.teamGroups tid).all (fun p => p.2.unfinished.all (fun o => s.mayStay t o (some p.2))
      && (match p.2.park with | some (.engine _) => false | some (.access _) => false | _ => true) && !s.atomicDue p.1)
    && t.orphans.all (fun o => s.mayStay t o none)

/-- The engines of a stopped team stop: buffers are flushed, the Anvil discards and is given up, lines of register blocks are
emptied (R121, R193, R240). -/
def State.stopEngines (s : State) (tid : Nat) (t : Team) : State :=
  let gs := s.teamGroups tid
  let s := gs.foldl (fun s p => s.flushGroup p.1) s
  let s := t.slots.foldl (fun s c => s.flushDead c.1) s
  let s := ((s.core t.home).tileq.filter (fun o => decide (o.team = tid))).foldl (fun s o => s.dropTile t.home o) s
  let s := s.setCore t.home (fun c =>
    { c with owner := c.owner.filter (fun g => !gs.any (fun p => decide (p.1 = g))),
             line := c.line.filter (fun g => !gs.any (fun p => decide (p.1 = g))) })
  let s := if (s.core t.home).owner.isNone ∧ (s.core t.home).line ≠ [] then s.postOnce (.anvilOwnershipGrant t.home) else s
  let s := s.startTiles t.home
  s.setTeam tid (fun t => { t with reserves := t.reserves.map (fun (p : Nat × Reserve) => (p.1, { p.2 with line := [] })) })

/-- Copies and pool operations leave their engines with their progress; lines that they own are given up (R218, R261, R368). -/
def State.takeProgress (s : State) (tid : Nat) : State × Assoc Copy × Assoc PoolOp :=
  let cs := s.copies.filter (fun (p : Nat × Copy) => decide (p.2.team = tid))
  let ps := s.poolOps.filter (fun (p : Nat × PoolOp) => decide (p.2.team = tid))
  let s := ps.foldl (fun s p => s.disown p.1 p.2.owned) s
  ({ s with copies := s.copies.filter (fun (p : Nat × Copy) => decide (p.2.team ≠ tid)),
            poolOps := s.poolOps.filter (fun (p : Nat × PoolOp) => decide (p.2.team ≠ tid)),
            agenda := s.agenda.filter (fun d => match d.ev with
              | .copyChunkDelivery op => !Assoc.has cs op
              | .poolOpLine op => !Assoc.has ps op
              | _ => true) }, cs, ps)

/-- PREEMPT_STOP_COMPLETE (R409): the stop is complete once every group has stopped and every engine has acknowledged; until
then it is looked at in each cycle. A team that has retired needs no image. -/
def execPreemptStopComplete (die : Nat) (s : State) : Host.Outcome State Fault Refusal :=
  match (s.die die).serving with
  | some (r, .stopping) =>
    let again := fun (s : State) => s.postAt (s.clk + 1) (.preemptStopComplete die)
    (match s.team r.team with
     | none => .next (s.finishPre die r 0)
     | some t =>
       if t.ended.isSome ∨ s.teamGroups r.team = [] then .next (s.endPre die r)
       else if !s.allStopped r.team t then .next (again s)
       else
         let s := s.stopEngines r.team t
         if !s.enginesDone r.team t then .next (again s)
         else
           let (s, cs, ps) := s.takeProgress r.team
           let sv : Saved := { id := r.team, team := t, groups := [], copies := cs, pools := ps, header := 0, size := 0, digest := [] }
           let s := { s with saved := Assoc.put s.saved r.image sv }
           .next ((s.setDie die (fun d => { d with serving := some (r, .saving) })).post (.preemptSaveComplete die)))
  | _ => .next s

/-! ## Save (R409, R410) -/

/-- The groups that a save reads: the single-bit errors of their registers are corrected and counted (R122, R123). -/
def State.savedGroups (s : State) (tid : Nat) : Assoc Group :=
  (s.teamGroups tid).map (fun p => (p.1, p.2.correct (fun _ => true)))

/-- PREEMPT_SAVE_COMPLETE (R409, R410): the image is written, and the team's resources are freed. The save reads scratch too, of which
the single-bit errors are corrected; no group reads it, and none counts them (R204). -/
def execPreemptSaveComplete (die : Nat) (s : State) : Host.Outcome State Fault Refusal :=
  match (s.die die).serving with
  | some (r, .saving) =>
    (match s.team r.team, Assoc.get s.saved r.image with
     | some t, some sv =>
       if t.ended.isSome then
         let s := { s with saved := Assoc.del s.saved r.image }
         let s := (s.setTeam r.team (fun t => { t with orphans := [] })).post (.teamRetirement r.team)
         .next (s.finishPre die r 0)
       else
         let records := sv.copies.length + sv.pools.length
         let size := s.imageSize r.team records
         let body := (List.range (size - 128)).map (fun i => Config.imageByte r.image (128 + i))
         let digest := shake512 body
         let head := s.imageHeader r.team t r.pri records size
         let s := s.hostWrite r.image (natLe head 64 ++ digest ++ body)
         let sv := { sv with team := { t with ssoft := [] }, groups := s.savedGroups r.team, header := head, size := size, digest := digest }
         let s := { s with saved := Assoc.put s.saved r.image sv,
                           groups := s.groups.filter (fun (p : Nat × Group) => decide (p.2.team ≠ r.team)) }
         .next ((s.freeTeam r.team).finishPre die r size)
     | _, _ => .next (s.finishPre die r 0))
  | _ => .next s

/-! ## Restoration (R413) -/

/-- What a saved team needs of the core that stands for one of its cores: contexts, and blocks held and in reserve. -/
def Saved.demand (sv : Saved) (c : Nat) : Nat × Nat :=
  let gs := sv.groups.filter (fun p => decide (p.2.core = c))
  (gs.length, gs.foldl (fun a p => a + (p.2.blocks.toList.filterMap (fun b => b)).length) 0
    + sv.team.reserves.foldl (fun a r => if r.1 / 2 = c then a + r.2.count else a) 0)

/-- The groups of a saved team placed core by core, as R22 places them group by group: those of one of its cores, with the reserve that
they share, which comes back unchanged (R121), go together to the current core while it has room for them, else to the next (DEDUCED, log
entry 51). The list holds each core with its free contexts and blocks. -/
def placeCores (sv : Saved) : Nat → List Nat → List (Nat × Nat × Nat) → Option (List (Nat × Nat))
  | _, [], _ => some []
  | 0, _, _ => none
  | _, _, [] => none
  | fuel + 1, o :: rest, (c, ctx, blk) :: more =>
    let d := sv.demand o
    if d.1 ≤ ctx ∧ d.2 ≤ blk then (placeCores sv fuel rest ((c, ctx - d.1, blk - d.2) :: more)).map (fun l => (o, c) :: l)
    else placeCores sv fuel (o :: rest) more

/-- New cores for a saved team with a home core (R22, R413). -/
def State.restoreOn (s : State) (sv : Saved) (home : Nat) : Option (List (Nat × Nat)) :=
  let t := sv.team
  if !s.coreRuns home ∨ s.freeTeamSlots home = 0 ∨ s.freeScratch home < t.units ∨ s.freeTiles home < t.ntiles
      ∨ 16 < s.patternSlots home + t.patterns.length ∨ 8 < s.swageContexts home + t.fibres.length then none
  else
    let at_ := fun (c : Nat) => (c, s.freeContexts c, s.freeBlocks c)
    let others := ((List.range 4).map (fun i => home / 4 * 4 + i)).filter (fun c => decide (c ≠ home) && decide (0 < s.freeTeamSlots c))
    let old := t.home :: (t.slots.map Prod.fst).filter (fun c => decide (c ≠ t.home))
    placeCores sv (old.length + 4) old (at_ home :: others.map at_)

/-- The cores that a team's stage or grid admits (R413). -/
def State.admits (s : State) (o : Origin) (c : Nat) : Bool :=
  match o with
  | .stage _ n => (Assoc.get s.stages n).any (fun x => x.cores.testBit c)
  | .grid d e => (Assoc.get (s.die d).grids e).any (fun g => g.clusters.testBit (c / 4))

/-- The lowest admitted home core on which a saved team fits, with its cores. -/
def State.findRestore (s : State) (sv : Saved) : Option (List (Nat × Nat)) :=
  (List.range 256).findSome? (fun c => if s.admits sv.team.origin c then s.restoreOn sv c else none)

/-- A group's state on resumption after the Anvil's discard (R193): its restart label, TILE 0, the next batch, RESTARTED. A
group inside its handler, or with a trap pending, goes on there, and finds the label as its TPC. -/
def Group.restart (g : Group) (handled : Bool) : Group :=
  let g := { g with paths := Vector.put g.paths 3 [], batch := (g.batch + 1) % 2 ^ 64, batchTw := [], batchLines := [], restarted := true,
                    restarts := satAdd g.restarts 1 255 }
  if g.rstpc.getLsbD 0 then
    let l := codeAddr g.rstpc
    if handled then { g with trap := { g.trap with tpc := l } } else { g with pc := l, park := none, armed := none }
  else g

/-- A held instruction whose lanes not done all walk again (R342, R386). -/
def Replay.afresh (r : Replay) : Replay := { r with waits := [], faults := [] }

/-- A saved group as it comes back: its waits issue again, but for an armed barrier wait; every lane not done walks again (R121,
R271, R342, R386). Its place has changed, and with it the instances of its scopes: what its accesses ordered toward some
observers it orders toward all (R254; DEDUCED, log entry 8). -/
def Group.resumed (g : Group) : Group :=
  { g with park := (match g.park with | some (.barrier o q) => some (.barrier o q) | _ => none), sleep := none,
           replay := g.replay.map Replay.afresh, hreplay := g.hreplay.map Replay.afresh,
           times := tab 128 (fun L => (g.near.filter (fun n => n.concerns L)).foldl (fun a n => a.sup n.times) (g.tm L)),
           near := [] }

/-- The new core of an old one. -/
def newCore (m : List (Nat × Nat)) (c : Nat) : Nat := ((m.find? (fun p => decide (p.1 = c))).map Prod.snd).getD c

/-- A saved group placed on its new core: lowest context, the same logical blocks in physical blocks that are free (R121). -/
def State.placeSaved (s : State) (m : List (Nat × Nat)) (gid : Nat) (g : Group) : State :=
  let core := newCore m g.core
  let ctx := (s.lowestContext core).getD 0
  let s := { s with groups := Assoc.put s.groups gid { g with core := core, ctx := ctx, ready := s.clk + 1, blocks := Vector.replicate 4 none } }
  (List.range 4).foldl (fun s i =>
    if (Vector.at0 g.blocks i none).isNone then s
    else match cutRange (s.usedBlocks core) 1 with
      | some b => s.setGroup gid (fun x => { x with blocks := Vector.put x.blocks i (some b) })
      | none => s) s

/-- A pending ticket of a restored team: its old die's slot and what still asks for it there go; a held answer reaches it; an
expired one expires; any other asks again from the die of its group (R310). -/
def State.reissue (s : State) (gid die : Nat) (t : Ticket) : State :=
  let w : Word := BitVec.ofNat 32 t.serial
  let held := s.heldAnswer gid t.serial
  let s := s.dropSlot gid t.serial
  let asks := fun (m : Interest) => decide (m.who = .ticket gid w)
  let s := { s with agenda := s.agenda.filter (fun d => match d.ev with
    | .interestArrival m => !asks m
    | .interestRetry m _ => !asks m
    | .ticketExpiry g x => !decide (g = gid ∧ x = w)
    | .namedTileDelivery g x _ => !decide (g = gid ∧ x = w)
    | _ => true) }
  match held with
  | some st => s.post (.namedTileDelivery gid w (plainAnswer die 0 t.key st))
  | none =>
    match t.expiry with
    | some k =>
      if k ≤ s.tick then s.post (.ticketExpiry gid w)
      else (s.postRef (s.tickStart k) (.ticketExpiry gid w)).post
        (.interestArrival { die := die, key := t.key, who := .ticket gid w, expiry := t.expiry, refresh := false })
    | none => s.post (.interestArrival { die := die, key := t.key, who := .ticket gid w, expiry := none, refresh := false })

/-- A saved team placed on its new cores goes on; a group saved inside its handler goes on there with IN_HANDLER (R412, R413). -/
def State.restoreTeam (s : State) (image : Nat) (sv : Saved) (m : List (Nat × Nat)) : State :=
  let t := sv.team
  let tid := sv.id
  let home := newCore m t.home
  let slots := ((t.slots.map (fun c => newCore m c.1)).eraseDups).map (fun c => (c, s.freeSlot c))
  let reserves : Assoc Reserve := t.reserves.foldl (fun (r : Assoc Reserve) p =>
    let k := 2 * newCore m (p.1 / 2) + p.1 % 2
    let there := Assoc.getD r k { count := 0, cap := 0, line := [] }
    Assoc.put r k { p.2 with count := there.count + p.2.count, cap := there.cap + p.2.cap }) []
  let inside := (sv.groups.find? (fun p => p.2.trap.inh)).map Prod.fst
  let t' : Team := { t with home := home, slots := slots, reserves := reserves, tiles := Vector.replicate 12 [], tbad := [],
                            tsoft := [], since := s.clk + 1,
                            halt := (match inside with | some g => .handler g | none => t.halt) }
  let s := { s with saved := Assoc.del s.saved image, teams := Assoc.put s.teams tid t' }
  let s := slots.foldl (fun s c => s.setCore c.1 (fun x => { x with placed := s.clk + 1 })) (s.l1Evict home)
  let s := sv.groups.foldl (fun s p =>
    let handled := p.2.trap.inh || t.pending.contains p.1
    let g := p.2.resumed
    s.placeSaved m p.1 (if 0 < t.ntiles then g.restart handled else g)) s
  let s := sv.copies.foldl (fun s p => ({ s with copies := Assoc.put s.copies p.1 { p.2 with waiting := false } }).post (.copyChunkDelivery p.1)) s
  let s := sv.pools.foldl (fun s p =>
    ({ s with poolOps := Assoc.put s.poolOps p.1 { p.2 with waiting := false, owned := [] } }).post (.poolOpLine p.1)) s
  let s := (t.fibres.filter (fun f => f.2.counting)).foldl (fun s f => s.postOnce (.swageCountComplete tid f.1)) s
  let s := sv.groups.foldl (fun s p => (p.2.tickets.filter (fun q => decide (q.2.status = 0))).foldl
    (fun s q => s.reissue p.1 (dieOfCore (newCore m p.2.core)) q.2) s) s
  let s := t.oldTickets.foldl (fun s q => s.reissue q.1 (dieOfCore home) q.2) s
  let s := match inside with
    | some g => s.setGroup g (fun x => { x with stop := .running, trap := { x.trap with inHandler := true } })
    | none => (match t.halt with | .breakpoint _ => s | _ => (s.setTeam tid (fun t => { t with halt := .none })).afterHandler tid)
  (s.teamGroups tid).foldl (fun s p => match p.2.park with | some (.barrier o q) => s.waitOn p.1 tid o q | _ => s) s

/-- The end of a team whose image is refused: reason 4, with no group's registers (DESIGN CHOICE, log entry 91), its restart policy,
and what counts it (R400, R410). -/
def State.refuseImage (s : State) (image : Nat) (sv : Saved) : State :=
  let t := sv.team
  let s := { s with saved := Assoc.del s.saved image }
  let s := s.postEvent t.func 0x01 [(8, 4, t.id), (13, 1, 4)]
  let s := (sv.groups.map Prod.fst ++ t.oldTickets.map Prod.fst).foldl (fun s g => s.dropInterests g) s
  let s := (s.applyRestart t.origin).watchHearth
  match t.origin with
  | .stage g _ => s.postOnce (.graphRunEnd g)
  | .grid d e =>
    let graph := s.graphOf t
    let s := s.setDie d (fun x => { x with grids := Assoc.upd x.grids e (fun g => { g with living := g.living - 1 }) })
    (s.watchGrid d e).postOnce (.graphRunEnd graph)

/-- The saved team whose image an address names, by where it was saved: that address, or, for an image that the host has copied, the one
whose header and digest stand there (R410, R413). -/
def State.imageAt (s : State) (image : Nat) : Option (Nat × Saved) :=
  match Assoc.get s.saved image with
  | some sv => some (image, sv)
  | none => s.saved.find? (fun (p : Nat × Saved) => decide (leNat (s.bytes image 64) = p.2.header) && decide (s.bytes (image + 64) 64 = p.2.digest))

/-- RESTORE (R410, R413): an image of a team that is saved, whose digest is that of its bytes; placement follows. -/
def execRestore (c : Cmd) (s : State) : Host.Outcome State Fault Refusal :=
  s.command c (fun s =>
    let at_ := c.a0.toNat
    match (s.imageAt at_).filter (fun p => decide (p.2.groups ≠ []) && (decide (c.func = 0) || decide (p.2.team.func = c.func))) with
    | none => s.complete c .invalid 0
    | some (image, sv) =>
      if s.dev.restores.any (fun r => decide (r.1 = image)) then s.complete c .invalid 0
      else if s.owned at_ sv.size then s.postAt (s.clk + 1) (s.cmdEvent c)
      else
        let s := s.hostRead at_ sv.size
        if s.bytes (at_ + 64) 64 ≠ shake512 (s.bytes (at_ + 128) (sv.size - 128)) then (s.refuseImage image sv).complete c .invalid 0
        else (s.setDev (fun d => { d with restores := d.restores ++ [(image, c)] })).post (.restorePlacement image))

/-- RESTORE_PLACEMENT (R413): the team is placed where it fits; until then it is looked at in each cycle. -/
def execRestorePlacement (image : Nat) (s : State) : Host.Outcome State Fault Refusal :=
  match s.dev.restores.find? (fun r => decide (r.1 = image)), Assoc.get s.saved image with
  | some (_, c), some sv =>
    (match s.findRestore sv with
     | none => .next (s.postAt (s.clk + 1) (.restorePlacement image))
     | some m =>
       let s := (s.setDev (fun d => { d with restores := d.restores.filter (fun r => decide (r.1 ≠ image)) })).restoreTeam image sv m
       .next (s.complete c .ok (((s.team sv.id).map Team.id).getD 0)))
  | _, _ => .next s

end Sys2Proof.Machine
end

