-- ==== Sys2Proof/Machine/Graphs.lean ====
section
/-!
DEFINITION. Graph runs by command of the host (R274, R275, R280, R287, R417, R418).
-/
namespace Sys2Proof.Machine
open Sys2Proof

/-! ## Submission (R417) -/

/-- The handles that a queue descriptor's peer list holds (R351): 4 bytes each. -/
def State.peerList (s : State) (d : Nat) : List Nat := (List.range (bits d 199 196)).map (fun i => s.num (bits d 251 200 + 4 * i) 4)

/-- At most one peer part per package, and none of the part's own package, which a handle with `local` set names too (R273,
R351). -/
def peersLegal (own : Nat) (peers : List Nat) : Bool :=
  let pkgs := peers.map (fun h => if bit h 2 then own else bits h 31 20)
  decide (pkgs.eraseDups.length = pkgs.length) && !pkgs.contains own

/-- A queue-list entry's handle and descriptor pass R273, R274, R351 and R417. -/
def State.queueLegal (s : State) (h d : Nat) : Bool :=
  let die := bits h 19 18
  let base := bits d 147 96
  let spill := bits d 175 152
  let npeer := bits d 199 196
  decide (bits d 255 252 = 0) && decide (bits d 195 192 = 0) && decide (bits d 151 148 = 0) && decide (bits d 95 41 = 0)
    && decide (bits d 28 1 = 0) && bit d 0
    && decide (bits d 35 34 ≠ 3) && decide (4 ≤ bits d 40 36) && decide (bits d 40 36 ≤ 16)
    && (decide (spill = 0) || (decide (base % 65536 = 0) && decide (die * hbmDie ≤ base)
          && decide (base + spill * 65536 ≤ (die + 1) * hbmDie) && decide (s.paKind (base + spill * 65536 - 1) = .hbm)))
    && (if npeer = 0 then decide (bits d 251 200 = 0) else decide (bits d 251 200 % 64 = 0))
    && (!s.dev.reduced || decide (die = 0))
    && decide (bits h 5 4 = 0) && !bit h 2 && decide (bits h 31 20 = s.dev.pkg) && decide (bits h 1 0 = bits d 35 34)
    && peersLegal s.dev.pkg (s.peerList d)

/-- Bytes of a part's ring. -/
def ringBytes (lcap rsize : Nat) : Nat := 2 ^ lcap * recBytes rsize

/-- Bytes of the rings of a die's valid queues (R274). -/
def State.ringsOf (s : State) (die : Nat) : Nat :=
  s.queues.foldl (fun n (p : Nat × Queue) => if p.1 / 4096 = die then n + ringBytes p.2.lcap p.2.rsize else n) 0

/-- The part that an entry defines: empty and unsealed (R417). -/
def State.newQueue (s : State) (graph fn d : Nat) : Queue :=
  let none_ : Sample := { b := 0, sealed := false, full := false, lingered := false }
  { graph := graph, func := fn, rsize := bits d 35 34, lcap := bits d 40 36, slice := bits d 33 29, linger := bits d 191 176,
    spillu := bits d 175 152, spillbase := bits d 147 96, peers := s.peerList d, ring := [], spill := [], spillHead := 0, transit := 0,
    sealed := false, sealTime := 0, waiting := [], sample := none_, taken := none_ }

/-- The queue-list entries placed one after another; none where one fails a check or names a number in use (R417). -/
def State.placeQueues (s : State) (graph fn : Nat) : List (Nat × Nat) → Option State
  | [] => some s
  | (h, d) :: rest =>
    if !s.queueLegal h d || (Assoc.get s.queues (handleKey h)).isSome then none
    else ({ s with queues := Assoc.put s.queues (handleKey h) (s.newQueue graph fn d) }).placeQueues graph fn rest

/-- A stage descriptor's output handles, absent ones included. -/
def stageOuts (d : Nat) : List Nat := (List.range 4).map (fun i => bits d (319 + 32 * i) (288 + 32 * i))

/-- A stage descriptor passes R275, its handles read against the queues of the state. -/
def State.stageLegal (s : State) (fn d : Nat) : Bool :=
  let nout := bits d 418 416
  let groups := bits d 454 448 + bits d 462 456
  decide (bits d 767 508 = 0) && !bit d 489 && !bit d 463 && !bit d 455 && decide (bits d 447 419 = 0)
    && decide (bits d 127 120 = 0) && decide (bits d 63 56 = 0)
    && decide (1 ≤ groups) && decide (groups ≤ 96)
    && decide (bits d 473 468 ≤ 48) && decide (bits d 477 474 ≤ 12) && decide (bits d 481 478 ≠ 0)
    && decide (bits d 491 490 ≠ 3) && decide (nout ≤ 4)
    && ((stageOuts d).drop nout).all (fun h => decide (h = 0))
    && ((bits d 287 256) :: (stageOuts d).take nout).all (fun h => (s.handleOf fn (BitVec.ofNat 64 h)).isSome)
    && decide (bits d 55 0 % 4 = 0) && decide (bits d 119 64 % 4 = 0) && decide (bits d 183 128 % 16 = 0)
    && decide (bits d 1023 768 ≠ 0)

/-- The stage that a descriptor defines (Table 11.3). -/
def newStage (graph fn d : Nat) : Stage :=
  { graph := graph, func := fn, cores := bits d 1023 768, life := bits d 507 492, restart := bits d 491 490,
    batch := bits d 488 482 + 1, weight := bits d 481 478, acc := bits d 477 474, scratch := bits d 473 468,
    cblocks := bits d 467 466, pblocks := bits d 465 464, cgroups := bits d 462 456, pgroups := bits d 454 448,
    outs := ((stageOuts d).take (bits d 418 416)).map handleKey, inq := handleKey (bits d 287 256),
    outHandles := stageOuts d, inHandle := bits d 287 256, arg := BitVec.ofNat 64 (bits d 255 192),
    stksize := bits d 191 184, stkbase := bits d 183 128, tvec := BitVec.ofNat 56 (bits d 119 64),
    entry := BitVec.ofNat 56 (bits d 55 0), launches := 0, stopped := false }

/-- The stages placed one after another by their numbers; none where one fails a check or its number is in use (R417). -/
def State.placeStages (s : State) (graph fn : Nat) : List (Nat × Nat) → Option State
  | [] => some s
  | (n, d) :: rest =>
    if !s.stageLegal fn d || (Assoc.get s.stages n).isSome then none
    else ({ s with stages := Assoc.put s.stages n (newStage graph fn d) }).placeStages graph fn rest

/-- The lowest graph id that no running graph holds (R417). -/
def State.freeGraph (s : State) : Nat := ((List.range (s.graphs.length + 1)).find? (fun g => (Assoc.get s.graphs g).isNone)).getD 0

/-- The state with a submission placed, and the status: the lists are read as the host would read them (R264). -/
def State.submission (s : State) (c : Cmd) : Except Status State :=
  let q := c.a0.toNat
  let nq := c.a1.toNat
  let st := c.a2.toNat
  let ns := c.a3.toNat
  let nums := c.a4.toNat
  let backed := fun (pa n : Nat) => (linesOf pa n).all (fun m => decide (s.paKind (m * 256) ≠ .none))
  if !(s.func c.func).valid then .error .state
  else if 65536 ≤ nq ∨ 256 ≤ ns ∨ !backed q (64 * nq) ∨ !backed st (128 * ns) ∨ !backed nums ns then .error .invalid
  else
    let entries := (List.range nq).map (fun i => (s.num (q + 64 * i) 4, s.num (q + 64 * i + 32) 32))
    let zeros := (List.range nq).all (fun i => decide (s.num (q + 64 * i + 4) 28 = 0))
    let stages := (List.range ns).map (fun i => (s.num (nums + i) 1, s.num (st + 128 * i) 128))
    let g := s.freeGraph
    match if zeros then s.placeQueues g c.func entries else none with
    | none => .error .invalid
    | some s1 =>
      match s1.placeStages g c.func stages with
      | none => .error .invalid
      | some s2 =>
        if (List.range 4).any (fun d => decide (2 ^ 25 < s2.ringsOf d)) then .error .nospace
        else .ok { s2 with graphs := Assoc.put s2.graphs g { func := c.func, stopped := false, ending := [] } }

/-- The host's reads of a submission's lists (R264). -/
def State.readLists (s : State) (c : Cmd) : State :=
  ((s.hostRead c.a0.toNat (64 * c.a1.toNat)).hostRead c.a2.toNat (128 * c.a3.toNat)).hostRead c.a4.toNat c.a3.toNat

/-- SUBMIT_GRAPH (R417): accepted whole or not at all. -/
def execSubmitGraph (c : Cmd) (s : State) : Host.Outcome State Fault Refusal :=
  s.command c (fun s =>
    s.reading c [(c.a0.toNat, 64 * c.a1.toNat), (c.a2.toNat, 128 * c.a3.toNat), (c.a4.toNat, c.a3.toNat)]
      (match s.submission c with
      | .error e => s.complete c e 0
      | .ok t => ((t.readLists c).complete c .ok s.freeGraph).post (.graphRunEnd s.freeGraph)))

/-! ## Ends of graph runs (R418) -/

/-- A team of a graph lives, runs or is saved, or a child grid of it has teams to launch. -/
def State.graphLives (s : State) (g : Nat) : Bool :=
  s.teams.any (fun (p : Nat × Team) => decide (s.graphOf p.2 = g))
    || s.saved.any (fun (p : Nat × Saved) => decide (s.graphOf p.2.team = g))
    || s.dies.toList.any (fun d => d.grids.any (fun (p : Nat × Grid) => decide (p.2.graph = g) && decide (p.2.launched < p.2.teams)))

/-- Every stage's input is drained. -/
def State.inputsDrained (s : State) (g : Nat) : Bool :=
  (s.stages.filter (fun (p : Nat × Stage) => decide (p.2.graph = g))).all (fun p =>
    match Assoc.get s.queues p.2.inq with
    | some q => s.isDrained p.2.inq q
    | none => false)

/-- Records that the parts of a graph hold. -/
def State.undelivered (s : State) (g : Nat) : Nat :=
  s.queues.foldl (fun n (p : Nat × Queue) => if p.2.graph = g then n + p.2.backlog else n) 0

/-- GRAPH_RUN_END (R418): where the run is over, its numbers are freed, the event is posted, and an END_RUN completes. -/
def execGraphRunEnd (graph : Nat) (s : State) : Host.Outcome State Fault Refusal :=
  match Assoc.get s.graphs graph with
  | none => .next s
  | some g =>
    if s.graphLives graph || (decide (g.ending = []) && !s.inputsDrained graph) then .next s
    else
      let lost := s.undelivered graph
      let s := { s with
        queues := s.queues.filter (fun (p : Nat × Queue) => decide (p.2.graph ≠ graph)),
        stages := s.stages.filter (fun (p : Nat × Stage) => decide (p.2.graph ≠ graph)),
        graphs := Assoc.del s.graphs graph }
      let s := s.postEvent g.func 0x02 [(8, 2, graph), (16, 8, lost)]
      .next (g.ending.foldl (fun s c => s.complete c .ok lost) s)

/-- A function's command may act on what another owns: the PF on all, a VF on its own (R416). -/
def mayAct (c : Cmd) (owner : Nat) : Bool := decide (c.func = 0) || decide (c.func = owner)

/-- END_RUN (R418): no launch follows; it completes at the run's end. -/
def execEndRun (c : Cmd) (s : State) : Host.Outcome State Fault Refusal :=
  s.command c (fun s =>
    match Assoc.get s.graphs c.a0.toNat with
    | none => s.complete c .invalid 0
    | some g =>
      if !mayAct c g.func then s.complete c .invalid 0
      else ({ s with graphs := Assoc.upd s.graphs c.a0.toNat (fun g => { g with ending := g.ending ++ [c] }) }).postOnce (.graphRunEnd c.a0.toNat))

/-- SEAL_QUEUE (R280). -/
def execSealQueue (c : Cmd) (s : State) : Host.Outcome State Fault Refusal :=
  s.command c (fun s =>
    let h := c.a0.toNat
    let owner := ((Assoc.get s.queues (handleKey h)).map Queue.func).getD 0
    match s.handleOf owner c.a0 with
    | none => s.complete c .invalid 0
    | some (k, q) =>
      if !mayAct c q.func then s.complete c .invalid 0
      else (if q.sealed then s else s.seal k).complete c .ok 0)

/-- RESTART_STAGE (R287). -/
def execRestartStage (c : Cmd) (s : State) : Host.Outcome State Fault Refusal :=
  s.command c (fun s =>
    match Assoc.get s.stages c.a0.toNat with
    | none => s.complete c .invalid 0
    | some x =>
      if !mayAct c x.func then s.complete c .invalid 0
      else ({ s with stages := Assoc.upd s.stages c.a0.toNat (fun x => { x with stopped := false }) }).complete c .ok 0)

/-! ## Teams by command (R400, R403) -/

/-- The group whose trap registers a report of the host's termination shows: the one at a breakpoint or in a handler,
else the lowest living one (DEDUCED, log entry 56). -/
def State.reported (s : State) (tid : Nat) (t : Team) : Option Nat :=
  match t.halt with
  | .breakpoint g => some g
  | .handler g => some g
  | _ => s.lowestGroup tid

/-- TERMINATE (R400): reason 3. -/
def execTerminate (c : Cmd) (s : State) : Host.Outcome State Fault Refusal :=
  s.command c (fun s =>
    match s.teamById c.func c.a0.toNat with
    | none => s.complete c .invalid 0
    | some (tid, t) =>
      let s := match (s.reported tid t).bind s.group with
        | some g => s.terminate tid 3 g.num 0 g.trap.tcause (g.trap.tpc.zeroExtend 64) g.trap.taddr g.trap.tinfo
        | none => s.terminate tid 3 0 0 0 0 0 0
      s.complete c .ok 0)

/-- ATTACH (R403, R420). -/
def execAttach (c : Cmd) (s : State) : Host.Outcome State Fault Refusal :=
  s.command c (fun s =>
    if s.dev.life = 1 ∨ s.dev.life = 2 then s.complete c .denied 0
    else if 2 ≤ c.a1.toNat then s.complete c .invalid 0
    else
      match s.teamById c.func c.a0.toNat with
      | none => s.complete c .invalid 0
      | some (tid, _) => (s.setTeam tid (fun t => { t with attach := decide (c.a1 = 1) })).complete c .ok 0)

/-- A team goes on from its breakpoint: a handler that the BRK stood in runs on; else its pending traps are taken or its
halt is released (R397, R403). -/
def State.goOn (s : State) (tid gid : Nat) : State :=
  if ((s.group gid).map (fun g => g.trap.inh)).getD false then
    (s.setTeam tid (fun t => { t with halt := .handler gid })).setGroup gid (fun g => { g with stop := .running })
  else (s.setTeam tid (fun t => { t with halt := .none })).afterHandler tid

/-- RESUME (R403). -/
def execResume (c : Cmd) (s : State) : Host.Outcome State Fault Refusal :=
  s.command c (fun s =>
    match s.teamById c.func c.a0.toNat with
    | none => s.complete c .invalid 0
    | some (tid, t) =>
      match t.halt with
      | .breakpoint gid => (s.goOn tid gid).complete c .ok 0
      | _ => s.complete c .state 0)

end Sys2Proof.Machine
end

