-- ==== Sys2Proof/Machine/MemSys.lean ====
section
/-!
DEFINITION. The memory system's own steps: crossbar and L2 (R227 to R231), the Hearth's refresh and window (R235, R237),
errors of an expander (R238), page walks, requests and replies (R380 to R386), and page heat (R387, R388).
-/
namespace Sys2Proof.Machine
open Sys2Proof

/-! ## Crossbar (R18, R228, R231) -/

/-- The request that a port's crosspoint shows: its oldest, where the bank can take it (R228). -/
def Slice.offered (x : Slice) (port : Nat) : Option L2Req := (x.reqs.find? (fun r => decide (r.port = port))).filter x.takes

/-- The requests at the crosspoints without the PREF's that stand first at theirs and that their bank would refuse (R245); `held` lists the
ports whose first request has been met. -/
def Slice.keptReqs (x : Slice) : List Nat → List L2Req → List L2Req
  | _, [] => []
  | held, r :: rest =>
    if held.contains r.port then r :: x.keptReqs held rest
    else if r.pref && !x.takes r then x.keptReqs held rest
    else r :: x.keptReqs (r.port :: held) rest

/-- The write-back that a port's crosspoint shows. -/
def Slice.offeredWb (x : Slice) (port : Nat) : Option WriteBack := x.wbs.find? (fun w => decide (w.port = port))

/-- The port that a column grants among those that assert: the one with priority over every other. Where the bits go in a
circle, which R231 lets them and does not resolve, it is the one granted least recently (DESIGN CHOICE, log entry 86). -/
def grantTo (bits_ turn asserts : List Nat) : Option Nat :=
  match asserts.find? (fun p => asserts.all (fun q => decide (q = p) || (bits_.getD p 0).testBit q)) with
  | some p => some p
  | none => turn.find? asserts.contains

/-- The priority bits after a grant: every other port that asserts gains priority over the one granted (R231). -/
def afterGrant (bits_ asserts : List Nat) (g : Nat) : List Nat :=
  bits_.zipIdx.map (fun x =>
    if x.2 = g then asserts.foldl (fun m q => if m.testBit q && decide (q ≠ g) then m - 2 ^ q else m) x.1
    else if asserts.contains x.2 && !x.1.testBit g then x.1 + 2 ^ g else x.1)

/-- A port moved behind the others by its grant. -/
def grantedLast (l : List Nat) (p : Nat) : List Nat := l.filter (fun q => decide (q ≠ p)) ++ [p]

/-- A line is used: it becomes the most recently used one, dirty where it is written. -/
def Slice.use (x : Slice) (line : Nat) (write : Bool) : Slice :=
  let dirty := write || x.present.any (fun p => decide (p.1 = line) && p.2)
  { x with present := x.present.filter (fun p => decide (p.1 ≠ line)) ++ [(line, dirty)] }

/-- An accepted write-back is written: into its line's fill in flight, or into the line, or, where the slice does not hold the
line, to backing memory, with no fill (R230; DESIGN CHOICE, log entry 87). The bytes themselves took effect at the time of
their write. -/
def State.writeOut (s : State) (k : Nat) (w : WriteBack) : State :=
  let s := s.setSlice k (fun x => { x with wbq := x.wbq.erase w })
  let x := s.slice k
  if x.misses.contains w.line then s.setSlice k (fun x => { x with wb := x.wb ++ [w] })
  else if x.has w.line then s.setSlice k (fun x => x.use w.line true)
  else s.touch (w.line * 256)

/-- A write-back arrives at its slice, which never refuses it: it merges into its line's fill in flight, or enters the queue,
where the oldest of 64 entries is written out to make room (R230). -/
def State.takeWriteback (s : State) (k : Nat) (w : WriteBack) : State :=
  if (s.slice k).misses.contains w.line then s.setSlice k (fun x => { x with wb := x.wb ++ [w] })
  else
    let s := match (s.slice k).wbq with
      | o :: r => if 64 ≤ r.length + 1 then s.writeOut k o else s
      | [] => s
    (s.setSlice k (fun x => { x with wbq := x.wbq ++ [w] })).post (.l2Writeback w)

/-- CROSSBAR_GRANT (R18, R231): one transfer of a class in a cycle, by the least-recently-granted bits of the ports that
assert. -/
def execCrossbarGrant (die slice : Nat) (writeBack : Bool) (s : State) : Host.Outcome State Fault Refusal :=
  let k := 32 * die + slice
  let x := s.slice k
  if s.clk < (if writeBack then x.grantedWb else x.granted) then .next (s.askGrant k writeBack)
  else if writeBack then
    let asserts := (List.range 23).filter (fun p => (x.offeredWb p).isSome)
    match (grantTo x.lrgWb x.turnWb asserts).bind (fun g => (x.offeredWb g).map (fun w => (g, w))) with
    | none => .next s
    | some (g, w) =>
      let s := s.setSlice k (fun x => { x with wbs := x.wbs.erase w, lrgWb := afterGrant x.lrgWb asserts g,
                                               turnWb := grantedLast x.turnWb g, grantedWb := s.clk + 1 })
      let s := s.takeWriteback k w
      .next (if (s.slice k).wbs = [] then s else s.askGrant k true)
  else
    let s := s.setSlice k (fun x => { x with reqs := x.keptReqs [] x.reqs })
    let x := s.slice k
    let asserts := (List.range 23).filter (fun p => (x.offered p).isSome)
    match (grantTo x.lrg x.turn asserts).bind (fun g => (x.offered g).map (fun r => (g, r))) with
    | none => .next s
    | some (g, r) =>
      let s := s.setSlice k (fun x => { x with reqs := x.reqs.erase r, lrg := afterGrant x.lrg asserts g,
                                               turn := grantedLast x.turn g, granted := s.clk + 1 })
      let s := s.post (.l2Request r)
      .next (if (s.slice k).reqs = [] then s else s.askGrant k false)

/-! ## L2 banks (R227 to R230) -/

/-- A fill of a line starts: a way is found, its dirty line is written to backing memory first (R229); none while every way
is pinned or filling. -/
def State.startFill (s : State) (k line : Nat) : Option State :=
  let x := s.slice k
  let set := setOf line
  let held := x.present.filter (fun p => decide (setOf p.1 = set))
  let fill := fun (s : State) =>
    ((s.setSlice k (fun x => { x with misses := x.misses ++ [line] })).touch (line * 256)).post (.l2FillComplete line false)
  if held.length < s.ways k set then some (fill s)
  else
    match held.find? (fun p => !s.pinned p.1) with
    | none => none
    | some (v, dirty) =>
      let s := s.setSlice k (fun x => { x with present := x.present.filter (fun p => decide (p.1 ≠ v)) })
      some (fill (if dirty then s.touch (v * 256) else s))

/-- A request that misses starts the fill of its line; a write merges into it. -/
def State.missFill (s : State) (k : Nat) (r : L2Req) : Option State :=
  (s.startFill k r.line).map (fun s =>
    if r.write then s.setSlice k (fun x => { x with wb := x.wb ++ [{ line := r.line, port := r.port, data := [] }] }) else s)

/-- Two requests are of one port and one line: they are served in their order (R227). -/
def sameWay (a b : L2Req) : Bool := decide (a.port = b.port ∧ a.line = b.line)

/-- A request waits in its bank's set-wait buffer: one that comes from the bypass queue, before the later ones of its port and line
(R227). -/
def State.holdInSet (s : State) (k : Nat) (r : L2Req) (early : Bool := false) : State :=
  s.setSlice k (fun x => x.setBank (bankOf r.line) (fun b =>
    { b with setWait := if early then b.setWait.takeWhile (fun y => !sameWay y r) ++ r :: b.setWait.dropWhile (fun y => !sameWay y r)
                        else b.setWait ++ [r] }))

/-- The bypass queue of a bank is served from its head: hits at once; a miss starts its fill; a head whose set is filling, or
waits for a way, waits with its set (R227, R229). -/
def State.drain (s : State) (k b : Nat) : Nat → State
  | 0 => s
  | n + 1 =>
    let x := s.slice k
    match (x.bank b).bypass with
    | [] => s
    | r :: rest =>
      let pop := fun (s : State) => s.setSlice k (fun x => x.setBank b (fun y => { y with bypass := rest }))
      let wait := fun (s : State) => if (x.bank b).setWait.length < 16 then ((pop s).holdInSet k r true).drain k b n else s
      if x.filling (setOf r.line) || x.waiting (setOf r.line) then wait s
      else if x.has r.line then ((pop s).setSlice k (fun x => x.use r.line r.write)).drain k b n
      else if 64 ≤ x.misses.length then s
      else
        match s.missFill k r with
        | some s => (pop s).drain k b n
        | none => wait (s.postOnceAt (s.clk + 1) (.wayRetry k (setOf r.line)))

/-- The requests of a set that wait are served in their order of arrival, one that has an earlier request of its port and line in the
bypass queue after that one; the first that misses starts a fill (R227). -/
def State.serveSet (s : State) (k b set : Nat) : Nat → State
  | 0 => s
  | n + 1 =>
    let x := s.slice k
    match (x.bank b).setWait.find? (fun r => decide (setOf r.line = set) && !(x.bank b).bypass.any (sameWay r)) with
    | none => s
    | some r =>
      let pop := fun (s : State) => s.setSlice k (fun x => x.setBank b (fun y => { y with setWait := y.setWait.erase r }))
      if x.filling set then s
      else if x.has r.line then ((pop s).setSlice k (fun x => x.use r.line r.write)).serveSet k b set n
      else if 64 ≤ x.misses.length then s
      else
        match s.missFill k r with
        | some s => pop s
        | none => s.postOnceAt (s.clk + 1) (.wayRetry k set)

/-- Both structures of a bank are served as far as they go. -/
def State.serveBank (s : State) (k b : Nat) : Nat → State
  | 0 => s
  | n + 1 =>
    let before := (s.slice k).bank b
    let sets := (before.setWait.map (fun r => setOf r.line)).eraseDups
    let s := (sets.foldl (fun s set => s.serveSet k b set 17) s).drain k b 33
    if (s.slice k).bank b = before then s else s.serveBank k b n

/-- Every bank of a slice is served, and what waits at its crosspoints may be granted. -/
def State.serveSlice (s : State) (k : Nat) : State :=
  let s := (List.range 4).foldl (fun s b => s.serveBank k b 48) s
  if (s.slice k).reqs = [] then s else s.askGrant k false

/-- L2_REQUEST (R227, R228): a request arrives at its bank, in the cycle of its grant and before anything else happens; one that the
bank refuses stays at its crosspoint. -/
def execL2Request (r : L2Req) (s : State) : Host.Outcome State Fault Refusal :=
  let k := s.homeSlice (r.line * 256)
  let b := bankOf r.line
  let x := s.slice k
  let set := x.filling (setOf r.line) || x.waiting (setOf r.line)
  if (if set then 16 ≤ (x.bank b).setWait.length else 32 ≤ (x.bank b).bypass.length) then
    .next ((s.setSlice k (fun x => { x with reqs := r :: x.reqs })).askGrant k false)
  else if set then .next ((s.holdInSet k r).serveSlice k)
  else .next ((s.setSlice k (fun x => x.setBank b (fun y => { y with bypass := y.bypass ++ [r] }))).serveSlice k)

/-- WAY_RETRY: the requests of a set that wait for a way are looked at again (R229). -/
def State.wayRetry (s : State) (k _set : Nat) : State := s.serveSlice k

/-- A register result on its way is poisoned in a lane, or whole. -/
def Pend.poison (x : Pend) (lane : Nat) : Pend :=
  { x with bad := if lane = whole then BitVec.allOnes 128 else x.bad ||| (1#128 <<< lane) }

/-- A line that loads wait for comes with an uncorrectable error: it is poisoned, and so are their lanes, with one event for each
instruction that waits for it (R233; DEDUCED, log entry 93). -/
def State.poisonFill (s : State) (line : Nat) : State :=
  let waits := s.groups.filter (fun (p : Nat × Group) => p.2.fills.any (fun f => decide (f.line = line)))
  let s := s.setLine line (fun l => { l with bad := true })
  waits.foldl (fun s p =>
    let l := p.2.fills.filter (fun f => decide (f.line = line))
    let s := ((l.map Fill.op).eraseDups).foldl (fun (s : State) _ => s.poisonEvent (line * 256)) s
    s.setGroup p.1 (fun g =>
      { g with pend := g.pend.map (fun (x : Pend) => l.foldl (fun (y : Pend) f => if f.op = x.op then y.poison f.lane else y) x) })) s

/-- L2_FILL_COMPLETE (R227, R229, R230, R233): the line is present, with the write-backs that merged into its fill; a line
returned with an uncorrectable error is poisoned; the requests of its set are served. -/
def execL2FillComplete (line : Nat) (bad : Bool) (s : State) : Host.Outcome State Fault Refusal :=
  let k := s.homeSlice (line * 256)
  let x := s.slice k
  if !x.misses.contains line then .next s
  else
    let dirty := x.wb.any (fun w => decide (w.line = line))
    let s := s.setSlice k (fun x =>
      { x with misses := x.misses.erase line, present := x.present.filter (fun p => decide (p.1 ≠ line)) ++ [(line, dirty)],
               wb := x.wb.filter (fun w => decide (w.line ≠ line)) })
    .next ((if bad then s.poisonFill line else s).serveSlice k)

/-- LINE_ERROR: what backs a line returns it with an uncorrectable error: the fill in flight does, or, for a line with no home
slice or not held there, its next read (R233). -/
def State.lineError (s : State) (pa : Nat) : State :=
  let n := lineOf pa
  let k := s.paKind pa
  if k ≠ .hbm ∧ k ≠ .cxl ∧ k ≠ .host then s
  else if (s.slice (s.homeSlice pa)).misses.contains n then
    { s with agenda := s.agenda.map (fun (d : Due) => if d.ev = .l2FillComplete n false then { d with ev := .l2FillComplete n true } else d) }
  else if (s.slice (s.homeSlice pa)).has n then s
  else s.setLine n (fun l => { l with bad := true })

/-- L2_WRITEBACK (R230): a write-back in the slice's queue is written into its line. -/
def execL2Writeback (w : WriteBack) (s : State) : Host.Outcome State Fault Refusal :=
  let k := s.homeSlice (w.line * 256)
  .next (if (s.slice k).wbq.contains w then s.writeOut k w else s)

/-! ## The Hearth (R235, R237) -/

/-- HEARTH_REFRESH_WINDOW (R235): the next bank's window opens; it is derived from the reference clock. -/
def execHearthRefreshWindow (s : State) : Host.Outcome State Fault Refusal :=
  .next (s.postRef ((s.refc / refreshStride + 1) * refreshStride) .hearthRefreshWindow)

/-- HEARTH_BANK_READ (R235): a read of a bank in refresh waits until the bank's window ends. -/
def execHearthBankRead (die off : Nat) (s : State) : Host.Outcome State Fault Refusal :=
  match s.bankEnd (bits off 28 23) with
  | some t => .next (s.postRef t (.hearthBankRead die off))
  | none => .next s

/-- HEARTH_WINDOW_LOADING (R237): a draining window with no mark set is loaded. -/
def execHearthWindowLoading (die : Nat) (s : State) : Host.Outcome State Fault Refusal :=
  if (s.die die).window = .draining ∧ !s.hearthMarked die then .next (s.setDie die (fun d => { d with window := .loading }))
  else .next s

/-! ## Expanders (R238) -/

/-- The bytes of one write taken out from among the writes of a line, newest first: what it had replaced stands for the
next newer write of each byte, and the cells that no newer write covers are given back. -/
def dropVersion (t : Nat) : List Version → List Version × List Host.Cell
  | [] => ([], [])
  | v :: r =>
    if v.time = t then ({ v with old := [] } :: r, v.old)
    else
      let (r', up) := dropVersion t r
      ({ v with old := v.old.map (fun (c : Host.Cell) => ((c.1, Assoc.getD up c.1 c.2) : Host.Cell)) } :: r',
        up.filter (fun (c : Host.Cell) => !Assoc.has v.old c.1))

/-- The bytes that a line's write of one time stored are dropped: they hold what they held before it. -/
def State.dropWrite (s : State) (n t : Nat) : State :=
  let (vs, now) := dropVersion t (s.line n).versions
  ({ s with mem := now.foldl (fun (m : Memory) (c : Host.Cell) => Memory.put m c.1 c.2) s.mem }).setLine n
    (fun l => { l with versions := vs })

/-- CXL_TRANSACTION_ERROR (R238): for a load the line is poisoned, with the load lanes that wait for it; for a store, the
line's write of that time, its bytes are dropped and the PA is logged. -/
def execCxlTransactionError (pa : Nat) (store : Bool) (time : Nat) (s : State) : Host.Outcome State Fault Refusal :=
  if s.paKind pa ≠ .cxl then .next s
  else if store then .next ((s.dropWrite (lineOf pa) time).mcEvent 0x10 pa)
  else .next (s.poisonFill (lineOf pa))

/-- CXL_WINDOW: the host sets the window of an expander port before any stage runs, 64 GiB aligned, within the tier, and
meeting no other (R222, R238); size 0 takes it away. Any other range is ignored. -/
def State.setWindow (s : State) (port base size : Nat) : State :=
  let others := s.dev.windows.filter (fun w => decide (w.1 ≠ port))
  let fits := decide (base % 2 ^ 36 = 0) && decide (size % 2 ^ 36 = 0) && decide (0x8000000000000 ≤ base)
    && decide (base + size ≤ 0x10000000000000) && others.all (fun w => decide (w.2.1 + w.2.2 ≤ base ∨ base + size ≤ w.2.1))
  if 7 ≤ port ∨ s.teams ≠ [] then s
  else if size = 0 then s.setDev (fun d => { d with windows := others })
  else if fits then s.setDev (fun d => { d with windows := others ++ [(port, base, size)] })
  else s

/-! ## Walks and page requests (R380 to R386) -/

/-- PAGE_WALK (R380, R381): a translation made ahead of an access of a group, with its marks, requests and cached
results. The walk's request has no waiter of its own. -/
def execPageWalk (gid : Nat) (va : Dword) (acc : Acc) (s : State) : Host.Outcome State Fault Refusal :=
  if (s.group gid).isNone then .next s else .next (s.translate { s.groupXc gid with waiter := .engine 0 } va acc).1

/-- PAGE_REQUEST_RELEASE (R383). -/
def execPageRequestRelease (die : Nat) (s : State) : Host.Outcome State Fault Refusal :=
  .next (State.releaseReqs die (s.die die).heldReqs s)

/-- The requests held on every die are looked at again. -/
def State.askRelease (s : State) : State :=
  (List.range 4).foldl (fun s d => if (s.die d).heldReqs = [] then s else s.postOnce (.pageRequestRelease d)) s

/-- An engine operation that waited for a page goes on. -/
def State.wakeEngine (s : State) (op : Nat) : State :=
  if 2 ^ 63 ≤ op then
    let grid := op - 2 ^ 63
    (s.setDie (grid / 256) (fun x => { x with grids := Assoc.upd x.grids (grid % 256) (fun g => { g with adding := false }) })).postOnce
      (.childGridEnd grid)
  else if Assoc.has s.copies op then
    ({ s with copies := Assoc.upd s.copies op (fun c => { c with waiting := false }) }).postOnce (.copyChunkDelivery op)
  else if Assoc.has s.poolOps op then
    ({ s with poolOps := Assoc.upd s.poolOps op (fun c => { c with waiting := false }) }).postOnce (.poolOpLine op)
  else if Assoc.has s.nanns op then s.postOnce (.nannCopyComplete op)
  else if s.colls.any (fun (p : Nat × Coll) => decide (p.2.op = op)) then s.collWake op
  else s.cores.foldl (fun s p => p.2.tileq.foldl (fun s o =>
    if o.id ≠ op then s
    else match o.kind with
      | .mma _ _ _ _ => s.postOnce (.tileLineFetch p.1 op)
      | _ =>
        let s := s.ownMore p.1 o
        if o.started then s.postOnce (.tileOpComplete p.1 op) else s) s) s

/-- A group in a translation wait issues again. -/
def Group.endTranslation (g : Group) : Group :=
  if g.park = some .translation then { g with park := none } else g

/-- An engine operation of a key is in progress. -/
def State.engineLives (s : State) (op : Nat) : Bool :=
  decide (2 ^ 63 ≤ op) || Assoc.has s.copies op || Assoc.has s.poolOps op || Assoc.has s.nanns op
    || s.colls.any (fun (p : Nat × Coll) => decide (p.2.op = op))
    || s.cores.any (fun (p : Nat × Core) => p.2.tileq.any (fun o => decide (o.id = op)))

/-- Every lane that waits on an answered granule walks again (R434), or, where the request is refused, has faulted (R384). -/
def Group.answerLanes (g : Group) (granule : Nat) (refuse : Bool) : Group :=
  g.setHeld (g.held.map (fun r =>
    { r with faults := if refuse then r.faults ++ (r.waits.filter (fun w => decide (w.2 = some granule))).map (fun w => (w.1, 0x29, pageInfo 3 0 true))
                       else r.faults,
             waits := r.waits.filter (fun w => decide (w.2 ≠ some granule)) }))

/-- A waiter is answered: it walks again; one that is refused takes its fault: every waiting lane of a vector access at once,
any other waiter as it translates again where it waited (R384, R386). -/
def State.answer (s : State) (granule : Nat) (refuse : Bool) (w : Waiter × Nat) : State :=
  let mark := fun (s : State) (k : Nat) => if refuse then { s with refused := s.refused ++ [(k, w.2)] } else s
  match w.1 with
  | .group gid =>
    (match s.group gid with
     | none => s
     | some g =>
       if (g.held.map Replay.waits).any (fun l => decide (l ≠ [])) then
         s.setGroup gid (fun g => (g.answerLanes granule refuse).endTranslation)
       else if g.park = some .translation then (mark s gid).setGroup gid Group.endTranslation
       else s)
  | .engine op => if s.engineLives op then (mark s op).wakeEngine op else s

/-- A reply of the hypervisor (R384): it frees its entry and answers the waiters, or is discarded and logged. -/
def State.pageReply (s : State) (word : Dword) : State :=
  let n := word.toNat
  let d := bits n 10 9
  let e := bits n 8 0
  let bad := s.mcEvent 0x11 n
  match Assoc.get (s.die d).preqs e with
  | none => bad
  | some q =>
    if q.gen ≠ bits n 15 11 ∨ q.func ≠ bits n 24 18 ∨ 2 ≤ bits n 17 16 ∨ bits n 63 25 ≠ 0 then bad
    else
      let s := s.setDie d (fun x => { x with preqs := Assoc.del x.preqs e })
      (q.waiters.foldl (fun s w => s.answer q.granule (decide (bits n 17 16 = 1)) w) s).askRelease

/-- PRQ_REPLY (R384). -/
def execPrqReply (word : Dword) (s : State) : Host.Outcome State Fault Refusal := .next (s.pageReply word)

/-- The count of records that the host has consumed (R383). -/
def State.setPrqHead (s : State) (fn : Nat) (word : Dword) : State :=
  (s.setFunc fn (fun f => { f with prqHead := word.toNat % 2 ^ 32 })).askRelease

/-- PRQ_HEAD (R383). -/
def execPrqHead (func : Nat) (word : Dword) (s : State) : Host.Outcome State Fault Refusal := .next (s.setPrqHead func word)

/-! ## Page heat (R387, R388) -/

/-- The page of an address has a heat counter: HBM4E, and the first 2 TiB of an expander window. -/
def State.heated (s : State) (pa : Nat) : Bool :=
  match s.paKind pa with
  | .hbm => true
  | .cxl => (s.dev.windows.find? (fun w => decide (w.2.1 ≤ pa) && decide (pa < w.2.1 + w.2.2))).any (fun w => decide (pa < w.2.1 + 2 ^ 41))
  | _ => false

/-- A heat counter set; a counter of 0 is not listed. -/
def Die.setHeat (d : Die) (page n : Nat) : Die :=
  { d with heat := if n = 0 then Assoc.del d.heat page else Assoc.put d.heat page n }

/-- HEAT_SAMPLE (R387): the counter of the page rises, unless the array is frozen. -/
def execHeatSample (die pa : Nat) (s : State) : Host.Outcome State Fault Refusal :=
  if s.dev.assisted.getLsbD 3 || !s.heated pa then .next s
  else .next (s.setDie die (fun d => d.setHeat (pa / 65536) (satAdd (Assoc.getD d.heat (pa / 65536) 0) 1 255)))

/-- HEAT_DECAY_SWEEP (R388): every counter is halved, and the next interval begins. -/
def execHeatDecaySweep (die : Nat) (s : State) : Host.Outcome State Fault Refusal :=
  let s := if s.dev.assisted.getLsbD 3 then s
    else s.setDie die (fun d =>
      { d with heat := (d.heat.map (fun (p : Nat × Nat) => (p.1, p.2 / 2))).filter (fun (p : Nat × Nat) => decide (p.2 ≠ 0)) })
  .next (s.postAt (s.clk + 2 ^ (20 + s.dev.decay)) (.heatDecaySweep die))

end Sys2Proof.Machine
end

