-- ==== Sys2Proof/Machine/Manage.lean ====
section
/-!
DEFINITION. Memory management by the host: translation contexts and shootdowns (R375, R382), heat commands (R388), migration
(R389), row retirement (R390 to R392).
-/
namespace Sys2Proof.Machine
open Sys2Proof

/-! ## Shootdown (R382) -/

/-- Two ranges of addresses overlap. -/
def overlaps (a n b m : Nat) : Bool := decide (a < b + m) && decide (b < a + n)

/-- TLB entries and walk-cache entries dropped everywhere (R381, R382). -/
def State.dropXlate (s : State) (tlb : Tlb → Bool) (walk : WalkEntry → Bool) : State :=
  { s with
    cores := s.cores.map (fun (p : Nat × Core) => (p.1, { p.2 with tlb := p.2.tlb.filter (fun e => !tlb e) })),
    dies := s.dies.map (fun d => { d with tlb := d.tlb.filter (fun e => !tlb e), walkCache := d.walkCache.filter (fun e => !walk e) }) }

/-- A lane of an atomic that has passed translation is on its way to its unit, for a function. -/
def State.atomicsOf (s : State) (fn : Nat) : Bool :=
  s.agenda.any (fun d => match d.ev with
    | .serviceWarpAtomic a => decide (s.fnOf a.gid = fn) || (s.group a.gid).isNone
    | .poolAtomic a => decide (s.fnOf a.gid = fn) || (s.group a.gid).isNone
    | _ => false)

/-- The combining buffers of a function's groups are flushed. -/
def State.flushFunc (s : State) (fn : Nat) : State :=
  s.groups.foldl (fun s p => if s.fnOf p.1 = fn then s.flushGroup p.1 else s) s

/-- Everything already translated for a function has been performed, but for lines that an engine's write holds up. -/
def State.quiet (s : State) (fn : Nat) : Bool :=
  !s.atomicsOf fn && !(s.groups.any (fun p => decide (s.fnOf p.1 = fn) && s.flushBlocked p.1))

/-- The whole of a function's translations dropped. -/
def State.dropFunc (s : State) (fn : Nat) : State :=
  s.dropXlate (fun e => decide (e.func = fn)) (fun e => decide (e.func = fn))

/-- SHOOTDOWN (R382): it completes once what was translated before has been performed and what matches is dropped. A table entry may
serve addresses outside the range that it was read for, through a shared table: every walk-cache entry of the function is dropped,
as R381 lets at any time. -/
def execShootdown (c : Cmd) (s : State) : Host.Outcome State Fault Refusal :=
  s.command c (fun s =>
    let fn := c.a0.toNat
    let base := c.a2.toNat
    let n := c.a3.toNat
    if 64 < fn ∨ 4 ≤ c.a1.toNat then s.complete c .invalid 0
    else if !s.quiet fn then s.postAt (s.clk + 1) (.shootdown c)
    else
      let s := s.flushFunc fn
      let s :=
        if c.a1.getLsbD 1 then s.dropFunc fn
        else if c.a1.getLsbD 0 then
          s.dropXlate (fun e => decide (e.func = fn) && overlaps (e.ipa >>> e.log <<< e.log) (2 ^ e.log) base n) (fun e => decide (e.func = fn))
        else
          s.dropXlate (fun e => decide (e.func = fn) && overlaps e.va (2 ^ e.log) base n) (fun e => decide (e.func = fn))
      s.complete c .ok 0)

/-! ## Translation contexts (R375) -/

/-- The 256 bits of an entry that a command carries in a1 to a4. -/
def entryOf (c : Cmd) : Nat := c.a1.toNat + place c.a2.toNat 64 + place c.a3.toNat 128 + place c.a4.toNat 192

/-- A translation context entry keeps Table 15.1. -/
def xlateLegal (e : Nat) : Bool :=
  decide (bits e 63 52 = 0) && decide (bits e 141 116 = 0) && decide (bits e 255 200 = 0)
    && decide (bits e 51 0 % 8192 = 0) && decide (bits e 115 64 % 8192 = 0)
    && (if bit e 142 then
          decide (bits e 199 196 ≤ 11) && decide (bits e 195 144 % 4096 = 0)
            && decide (0x4000000000000 ≤ bits e 195 144) && decide (bits e 195 144 < 0x8000000000000)
        else decide (bits e 115 64 = 0))

/-- A graph of a function runs. -/
def State.runsGraph (s : State) (fn : Nat) : Bool := s.graphs.any (fun (p : Nat × Graph) => decide (p.2.func = fn))

/-- The held requests of a function that sends none any more go, and their waiters walk again (R375). -/
def State.dropHeld (s : State) (fn : Nat) : State :=
  (List.range 4).foldl (fun s d =>
    let gone := (s.die d).heldReqs.filter (fun q => decide (q.func = fn))
    let s := s.setDie d (fun x => { x with heldReqs := x.heldReqs.filter (fun q => decide (q.func ≠ fn)) })
    gone.foldl (fun s q => q.waiters.foldl (fun s w => s.answer q.granule false w) s) s) s

/-- SET_XLATE (R375, R383): a context with one stage leaves the page-request ring as it is, and sends no request. -/
def execSetXlate (c : Cmd) (s : State) : Host.Outcome State Fault Refusal :=
  s.command c (fun s =>
    let fn := c.a0.toNat
    let e := entryOf c
    if 64 < fn ∨ !xlateLegal e then s.complete c .invalid 0
    else if !bit e 143 ∧ s.runsGraph fn then s.complete c .state 0
    else if !s.quiet fn then s.postAt (s.clk + 1) (.setXlate c)
    else
      let s := (s.flushFunc fn).setFunc fn (fun f =>
        let f := { f with s1root := bits e 51 0, s2root := bits e 115 64, s2en := bit e 142, valid := bit e 143 }
        if bit e 142 then { f with prqbase := bits e 195 144, prqlog := bits e 199 196, prqSent := 0, prqHead := 0 } else f)
      ((if bit e 142 then s.dropFunc fn else (s.dropFunc fn).dropHeld fn).askRelease).complete c .ok 0)

/-! ## Heat (R388) -/

/-- HEAT_READ (R388): a byte per page of the range; a page without a counter on the die reads 0. -/
def execHeatRead (c : Cmd) (s : State) : Host.Outcome State Fault Refusal :=
  s.command c (fun s =>
    let d := c.a0.toNat
    let n := c.a3.toNat
    if 4 ≤ d ∨ !s.writable c.a2.toNat n then s.complete c .invalid 0
    else
      let page := c.a1.toNat / 65536
      let data := (List.range n).map (fun i => BitVec.ofNat 8 (Assoc.getD (s.die d).heat (page + i) 0))
      (s.hostWrite c.a2.toNat data).complete c .ok 0)

/-- SET_DECAY (R388). -/
def execSetDecay (c : Cmd) (s : State) : Host.Outcome State Fault Refusal :=
  s.command c (fun s =>
    if 16 ≤ c.a0.toNat then s.complete c .invalid 0
    else (s.setDev (fun d => { d with decay := c.a0.toNat })).complete c .ok 0)

/-! ## Migration (R389) -/

/-- The migrations of a die that have a place. -/
def State.running (s : State) (d : Nat) : Nat := (s.migrations.filter (fun (p : Nat × Migration) => decide (p.2.die = d) && !p.2.waiting)).length

/-- Mirroring is on: a write of a source line takes a time that the destination line can take too, above everything that it holds (R249,
R389 step 1). -/
def State.mirrorOn (s : State) (m : Migration) : State :=
  (List.range 256).foldl (fun s i =>
    let t := (s.line (m.dst / 256 + i)).topTime
    s.setLine (m.src / 256 + i) (fun l => { l with rtime := Nat.max l.rtime t })) s

/-- MIGRATE (R389): mirroring is on from here, where the die has a place. -/
def execMigrate (c : Cmd) (s : State) : Host.Outcome State Fault Refusal :=
  s.command c (fun s =>
    let leaf := c.a1.toNat
    let e := c.a3.toNat
    let src := pteAddr e
    let dst := c.a4.toNat
    let stage := 1 + c.a2.toNat
    let kind := s.paKind dst
    if 64 < c.a0.toNat ∨ 2 ≤ c.a2.toNat ∨ leaf % 8 ≠ 0 ∨ s.paKind leaf = .none ∨ s.paKind leaf = .hearth ∨ (s.regionOf leaf).isSome
        ∨ !pteValid e ∨ !pteLeaf e ∨ pteMalformed 3 e ∨ (stage = 1 ∧ (s.func c.a0.toNat).s2en) ∨ s.num leaf 8 ≠ e
        ∨ dst % 65536 ≠ 0 ∨ (kind ≠ .hbm ∧ kind ≠ .cxl) ∨ (s.regionOf dst).isSome
        ∨ (s.paKind src ≠ .hbm ∧ s.paKind src ≠ .cxl) ∨ (s.regionOf src).isSome then s.complete c .invalid 0
    else
      let d := s.homeDie src
      let op := s.uid + 1
      let wait := decide (16 ≤ s.running d)
      let m : Migration := { die := d, func := c.a0.toNat, stage := stage, leaf := leaf, expected := e, src := src, dst := dst,
                             copied := 0, cmd := c, waiting := wait }
      let s := { s with uid := op, migrations := Assoc.put s.migrations op m }
      if wait then s else (s.mirrorOn m).post (.migrationLineCopy op))

/-- MIGRATION_LINE_COPY (R389): the next line with its writes and its poison; a line that an engine owns is waited for. -/
def execMigrationLineCopy (op : Nat) (s : State) : Host.Outcome State Fault Refusal :=
  match Assoc.get s.migrations op with
  | none => .next s
  | some m =>
    let a := m.src / 256 + m.copied
    let b := m.dst / 256 + m.copied
    if m.waiting ∨ 256 ≤ m.copied then .next s
    else if (s.line a).owners ≠ [] ∨ (s.line b).owners ≠ [] then .next (s.postAt (s.clk + 1) (.migrationLineCopy op))
    else
      let l := s.line a
      let move := fun (c : Host.Cell) => ((c.1 - a * 256 + b * 256, c.2) : Host.Cell)
      let s := { s with mem := Memory.write s.mem (b * 256) (s.bytes (a * 256) 256) }
      let s := s.setLine b (fun x =>
        { x with versions := l.versions.map (fun v =>
                   { v with old := v.old.map move, moved := !(x.versions.any (fun u => decide (u.time = v.time) && !u.moved)) }),
                 bad := l.bad, rtime := Nat.max x.rtime l.rtime })
      let s := (s.wantLine m.die enginePort (a * 256)).wantLine m.die enginePort (b * 256) true
      let s := { s with migrations := Assoc.upd s.migrations op (fun m => { m with copied := m.copied + 1 }) }
      .next (s.post (if m.copied = 255 then .migrationFinish op else .migrationLineCopy op))

/-- An access already translated to a page is still to be performed. -/
def State.pageBusy (s : State) (pa : Nat) : Bool :=
  let page := fun (x : Nat) => decide (x / 65536 = pa / 65536)
  s.agenda.any (fun d => match d.ev with
    | .serviceWarpAtomic a => page a.pa
    | .poolAtomic a => page a.pa
    | _ => false)
  || (List.range 256).any (fun i => decide ((s.line (pa / 256 + i)).owners ≠ []))

/-- The combining buffers that hold lines of a page are flushed. -/
def State.flushPage (s : State) (pa : Nat) : State :=
  s.cores.foldl (fun s p => (p.2.combine.filter (fun b => decide (b.line / 256 = pa / 65536))).foldl (fun s b => s.flushOne p.1 b) s) s

/-- What reads of the source page have fixed holds at the destination: the read times of its lines, and the least times that
threads may take there (R249, R251, R389). -/
def State.carryReads (s : State) (m : Migration) : State :=
  let a := m.src / 256
  let b := m.dst / 256
  let s := (List.range 256).foldl (fun s i =>
    let l := s.line (a + i)
    s.setLine (b + i) (fun x => ({ x with rtime := Nat.max x.rtime l.rtime } : Line).readAtViews (l.rnear.map Prod.fst) (overTag l.rnear))) s
  let here := fun (k : Nat) => decide (a ≤ k % 2 ^ 44) && decide (k % 2 ^ 44 < a + 256)
  let carry := fun (p : Nat × Group) =>
    ((p.1, { p.2 with seen := (p.2.seen.filter (fun (e : Nat × Nat) => here e.1)).foldl (fun (t : Assoc Nat) (e : Nat × Nat) =>
      Assoc.put t (e.1 - a + b) (Nat.max e.2 (Assoc.getD t (e.1 - a + b) 0))) p.2.seen }) : Nat × Group)
  { s with groups := s.groups.map carry, left := s.left.map carry,
           saved := s.saved.map (fun (p : Nat × Saved) => (p.1, { p.2 with groups := p.2.groups.map carry })) }

/-- A migration ends: its event, its command's completion, and the die's next one (R389, R419). -/
def State.endMigration (s : State) (op : Nat) (m : Migration) (done : Bool) : State :=
  let s := { s with migrations := Assoc.del s.migrations op }
  let s := s.postEvent m.func 0x07 [(8, 8, m.leaf), (16, 1, if done then 0 else 1)]
  let s := s.complete m.cmd (if done then .ok else .aborted) 0
  match s.migrations.find? (fun (p : Nat × Migration) => decide (p.2.die = m.die) && p.2.waiting) with
  | none => s
  | some p =>
    (({ s with migrations := Assoc.upd s.migrations p.1 (fun m => { m with waiting := false }) }).mirrorOn p.2).post (.migrationLineCopy p.1)

/-- MIGRATION_FINISH (R389 steps 3 to 5): the leaf is swapped where it holds its expected value; the page's translations are
dropped; mirroring ends and the heat moves. -/
def execMigrationFinish (op : Nat) (s : State) : Host.Outcome State Fault Refusal :=
  match Assoc.get s.migrations op with
  | none => .next s
  | some m =>
    if m.copied < 256 then .next s
    else if (s.line (lineOf m.leaf)).owners ≠ [] ∨ s.pageBusy m.src then .next (s.postAt (s.clk + 1) (.migrationFinish op))
    else
      let s := s.flushPage m.src
      if s.num m.leaf 8 ≠ m.expected ∨ (s.line (lineOf m.leaf)).bad then .next (s.endMigration op m false)
      else
        let new := m.expected - place (m.src / 8192) 13 + place (m.dst / 8192) 13
        let s := s.storeLine (lineOf m.leaf) (s.line (lineOf m.leaf)).nextTime (cellsAt m.leaf (natLe new 8))
        let s := s.dropXlate (fun e => decide (e.func = m.func) && overlaps e.pa (2 ^ e.log) m.src 65536)
          (fun e => decide (e.func = m.func) && (decide (e.stage = m.stage ∧ e.pa = m.leaf) || overlaps e.pa 8 m.src 65536))
        let heat := Assoc.getD (s.die m.die).heat (m.src / 65536) 0
        let s := s.setDie m.die (fun d => d.setHeat (m.src / 65536) 0)
        let s := s.carryReads m
        let s := if s.heated m.dst then s.setDie (s.homeDie m.dst) (fun d => d.setHeat (m.dst / 65536) heat) else s
        .next (s.endMigration op m true)

/-! ## Row retirement (R390 to R392) -/

/-- The physical addresses of a row's four lines (R232, R390), and in the layout of reduced service (R422). -/
def rowLines (reduced : Bool) (r : RowLoc) : List Nat :=
  (List.range 4).map (fun g =>
    let m := 256 * r.row + 4 * r.bank + g
    if reduced then 256 * (128 * m + r.pc) else hbmDie * (r.stack / 3) + 256 * (384 * m + 3 * r.pc + r.stack % 3))

/-- The page-retire event of a row (R391). -/
def State.reportRow (s : State) (reduced : Bool) (r : RowLoc) : State :=
  s.postEvent 0 0x06 ((rowLines reduced r).zipIdx.map (fun p => (8 + 8 * p.2, 8, p.1 / 65536 * 65536)))

/-- A row is retired: logged where the log has room, then repaired, or reported where no spare row is left (R391, R392). -/
def State.retire (s : State) (r : RowLoc) (cause : Nat) (spare : Bool) : State :=
  let s := s.setDev (fun d =>
    { d with retlog := if d.retlog.length < 4096 then d.retlog ++ [{ unrep := !spare, loc := r, cause := cause, boot := d.powerUps % 2 ^ 24 }]
                       else d.retlog })
  if spare then s else s.reportRow s.dev.reduced r

/-- The row has had an uncorrectable error before: since power-up, or one for which the log holds its retirement (R390, R392). -/
def Device.hasFailed (d : Device) (r : RowLoc) : Bool := d.failed.contains r || d.retlog.any (fun e => decide (e.loc = r ∧ e.cause = 0))

/-- ROW_RETIREMENT (R390): an error of a row: an uncorrectable one, of which the first counts, or a corrected one, of which the
sixteenth since power-up counts. Under the host-assisted policy the row is reported only. -/
def execRowRetirement (loc : RowLoc) (uncorrectable spare : Bool) (s : State) : Host.Outcome State Fault Refusal :=
  let n := ((s.dev.corrected.find? (fun p => decide (p.1 = loc))).map Prod.snd).getD 0 + 1
  let counts := if uncorrectable then !s.dev.hasFailed loc else decide (n = 16)
  let s := s.setDev (fun d => if uncorrectable then { d with failed := d.failed.filter (fun r => decide (r ≠ loc)) ++ [loc] }
    else { d with corrected := d.corrected.filter (fun p => decide (p.1 ≠ loc)) ++ [(loc, n)] })
  if !counts then .next s
  else if s.dev.assisted.getLsbD 4 then .next ((s.mcEvent 0x12 (if uncorrectable then 0 else 1)).reportRow s.dev.reduced loc)
  else .next (s.retire loc (if uncorrectable then 0 else 1) spare)

/-- RETIRE_ROW (R390). -/
def execRetireRow (c : Cmd) (spare : Bool) (s : State) : Host.Outcome State Fault Refusal :=
  s.command c (fun s =>
    let r := cmdRow c
    let n := c.a0.toNat
    if bits n 63 62 ≠ 0 ∨ bits n 26 0 ≠ 0 ∨ 12 ≤ r.stack ∨ 6144 ≤ r.row then s.complete c .invalid 0
    else (s.retire r 2 spare).complete c .ok 0)

/-- CLEAR_RETLOG (R392): only under a valid signature. -/
def execClearRetlog (c : Cmd) (sigOk : Bool) (s : State) : Host.Outcome State Fault Refusal :=
  s.command c (fun s =>
    if sigOk then (s.setDev (fun d => { d with retlog := [] })).complete c .ok 0 else s.complete c .signature 0)

end Sys2Proof.Machine
end

