-- ==== Sys2Proof/Machine/Bringup.lean ====
section
/-!
DEFINITION. The host's registers, the Hearth's window, device tables, links and modes by command, identity, life cycle, wipe and
reset, health and power, and the host's own accesses (R237, R264, R295, R302, R343, R350, R356, R362, R414, R420 to R428).
-/
namespace Sys2Proof.Machine
open Sys2Proof

/-! ## BAR0 and the host port (R264, R414) -/

/-- BAR0_WRITE (Table 17.1): what is not listed, or may not be written, is ignored. -/
def execBar0Write (func off : Nat) (val : Dword) (s : State) : Host.Outcome State Fault Refusal :=
  match off with
  | 0x0000 => .next (s.setFunc func (fun f => { f with cmdBase := val }))
  | 0x0008 => .next (s.setFunc func (fun f => { f with cmdLog := val.toNat % 16 }))
  | 0x0010 => .next ((s.setFunc func (fun f => { f with cmdTail := val.toNat })).nextCommand func)
  | 0x0018 => .next (s.setFunc func (fun f => { f with cplBase := val }))
  | 0x0020 => .next (s.setFunc func (fun f => { f with evtBase := val }))
  | 0x0028 =>
    let s := s.setFunc func (fun f => { f with evtLog := val.toNat % 16 })
    .next (s.postHeld func (s.func func).heldEvents.length)
  | 0x0030 => .next (s.pageReply val)
  | 0x0040 => .next (s.setPrqHead func val)
  | _ => .next s

/-- HOST_PORT_ACCESS (R264): the bytes at an address that the host may reach are written, or read. Either waits for the engine
that owns a line of it (R188, R261). -/
def execHostPortAccess (pa : Nat) (data : List Byte) (write : Bool) (s : State) : Host.Outcome State Fault Refusal :=
  if write && !s.writable pa data.length then .next s
  else if s.owned pa data.length then .next (s.postAt (s.clk + 1) (.hostPortAccess pa data write))
  else .next (if write then s.hostWrite pa data else s.hostRead pa data.length)

/-! ## The Hearth's write window (R237) -/

/-- Engine operations that may stand in a translation wait. -/
def State.stoppedEngines (s : State) : List Nat :=
  (s.copies.filter (fun (p : Nat × Copy) => p.2.waiting)).map Prod.fst
    ++ (s.poolOps.filter (fun (p : Nat × PoolOp) => p.2.waiting)).map Prod.fst
    ++ s.nanns.map Prod.fst ++ s.colls.map (fun (p : Nat × Coll) => p.2.op)
    ++ s.cores.flatMap (fun p => (p.2.tileq.filter (fun o => o.started && decide (o.todo ≠ []))).map TileOp.id)

/-- The window of a die opens, and the reads that wait for it go on. -/
def State.openHearth (s : State) (d : Nat) : State :=
  let s := s.setDie d (fun x => { x with window := .opened })
  let s := { s with groups := s.groups.map (fun (p : Nat × Group) =>
    (p.1, if p.2.park = some Park.hearth then { p.2 with park := none } else p.2)) }
  s.stoppedEngines.foldl (fun s op => s.wakeEngine op) s

/-- A die runs: under reduced service die 0 alone (R422). -/
def State.dieRuns (s : State) (d : Nat) : Bool := decide (d < 4) && (!s.dev.reduced || decide (d = 0))

/-- HEARTH_DRAIN (R237): an open window drains. -/
def execHearthDrain (c : Cmd) (s : State) : Host.Outcome State Fault Refusal :=
  s.command c (fun s =>
    let d := c.a0.toNat
    if !s.dieRuns d then s.complete c .invalid 0
    else if (s.die d).window ≠ .opened then s.complete c .ok 0
    else ((s.setDie d (fun x => { x with window := .draining })).watchHearth).complete c .ok 0)

/-- HEARTH_WRITE (R237): whole lines of one die whose window is loading. -/
def execHearthWrite (c : Cmd) (s : State) : Host.Outcome State Fault Refusal :=
  s.command c (fun s =>
    let src := c.a0.toNat
    let off := c.a1.toNat
    let n := c.a2.toNat
    let d := off / hearthDie
    if off % 256 ≠ 0 ∨ n % 256 ≠ 0 ∨ !s.dieRuns d ∨ (n ≠ 0 ∧ (off + n - 1) / hearthDie ≠ d)
        ∨ !((linesOf src n).all (fun m => decide (s.paKind (m * 256) ≠ .none))) then s.complete c .invalid 0
    else if (s.die d).window ≠ .loading then s.complete c .state 0
    else if s.owned src n then s.postAt (s.clk + 1) (s.cmdEvent c)
    else
      let data := s.bytes src n
      (((s.hostRead src n).hostWrite (hearthBase + off) data)).complete c .ok 0)

/-- HEARTH_OPEN (R237): the load ends, or the request is withdrawn. -/
def execHearthOpen (c : Cmd) (s : State) : Host.Outcome State Fault Refusal :=
  s.command c (fun s => if !s.dieRuns c.a0.toNat then s.complete c .invalid 0 else (s.openHearth c.a0.toNat).complete c .ok 0)

/-! ## Device tables (R295, R302, R356, R362) -/

/-- A name-routing entry keeps Table 12.2 on its die. -/
def routeLegal (die e : Nat) : Bool :=
  let dir := bits e 3 0
  decide (bits e 62 58 ≤ 24) && decide (bits e 33 4 = 0)
    && (decide (dir = 0) || (decide (4 ≤ dir) && decide (dir ≤ 7) && decide (dir ≠ 4 + die)) || (decide (8 ≤ dir) && decide (dir ≤ 11)))

/-- SET_ROUTE (R295). -/
def execSetRoute (c : Cmd) (s : State) : Host.Outcome State Fault Refusal :=
  s.command c (fun s =>
    if 4 ≤ c.a0.toNat ∨ 256 ≤ c.a1.toNat ∨ !routeLegal c.a0.toNat c.a2.toNat then s.complete c .invalid 0
    else (s.setDie c.a0.toNat (fun d => { d with routes := Assoc.put d.routes c.a1.toNat c.a2 })).complete c .ok 0)

/-- The names of a function go: its registry, its horizons and its Crucible lines (R302). -/
def State.clearNames (s : State) (func : Nat) : State :=
  { s with dies := s.dies.map (fun (d : Die) =>
      { d with registry := d.registry.filter (fun t => decide (t.key.func ≠ func)),
               horizons := d.horizons.filter (fun h => decide (h.func ≠ func)) }) }

/-- CLEAR_NAMES (R302): the function's registry, horizons and Crucible lines. -/
def execClearNames (c : Cmd) (s : State) : Host.Outcome State Fault Refusal :=
  s.command c (fun s => (s.clearNames c.func).complete c .ok 0)

/-- A slice's sets hold no more lines than they have ways left: the least recently used lines that are not pinned leave, a
dirty one after its write to backing memory (R229, R302). -/
def State.trimSlice (s : State) (k : Nat) : State :=
  (s.slice k).present.foldl (fun s p =>
    let inSet := (s.slice k).present.filter (fun q => decide (setOf q.1 = setOf p.1))
    if inSet.length ≤ s.ways k (setOf p.1) || s.pinned p.1 then s
    else
      let s := s.setSlice k (fun x => { x with present := x.present.filter (fun q => decide (q.1 ≠ p.1)) })
      if p.2 then s.touch (p.1 * 256) else s) s

/-- SET_CRUCIBLE (R302): the slices of the die cache as much less, or more, as the Crucibles grow or shrink. -/
def execSetCrucible (c : Cmd) (s : State) : Host.Outcome State Fault Refusal :=
  s.command c (fun s =>
    let d := c.a0.toNat
    let n := c.a1.toNat
    if 4 ≤ d ∨ 32 < n then s.complete c .invalid 0
    else if 4096 * n < (s.die d).usedLines then s.complete c .nospace 0
    else
      let s := s.setDie d (fun x => { x with crucible := n })
      (((s.slices.filter (fun (p : Nat × Slice) => decide (p.1 / 32 = d))).map Prod.fst).foldl State.trimSlice s).complete c .ok 0)

/-- SET_COLL (R356, Table 14.5). -/
def execSetColl (c : Cmd) (s : State) : Host.Outcome State Fault Refusal :=
  s.command c (fun s =>
    let e := c.a1.toNat
    if 64 ≤ c.a0.toNat ∨ bits e 62 52 ≠ 0 ∨ bits e 38 36 ≠ 0 ∨ bits e 31 16 ≠ 0 then s.complete c .invalid 0
    else ({ s with collTable := Assoc.put s.collTable c.a0.toNat e }).complete c .ok 0)

/-- The unit behind which a range of 64 KiB units lies: a die's HBM4E, or one expander window, by 0 to 3 and 4 upward. -/
def State.unitOf (s : State) (base units : Nat) : Option Nat :=
  let top := base + units * 65536 - 1
  match s.paKind base, s.paKind top with
  | .hbm, .hbm => if base / hbmDie = top / hbmDie then some (base / hbmDie) else none
  | .cxl, .cxl => if s.cxlPort base = s.cxlPort top then (s.cxlPort base).map (fun p => 4 + p) else none
  | _, _ => none

/-- The region that a descriptor defines (Table 14.8). -/
def regionOfEntry (c : Cmd) (e : Nat) : Region :=
  { valid := bit e 0, atomic := bit e 1, base := bits e 175 124, units := bits e 123 100, vbase := bits e 247 196,
    vunits := bits e 195 176, func := Config.poolOwner c, snaps := [], slots := [], top := 0 }

/-- Two ranges of 64 KiB units share a byte. -/
def meet (a n b m : Nat) : Bool := decide (a < b + m * 65536) && decide (b < a + n * 65536)

/-- A descriptor keeps Table 14.8 and R362, beside the other regions: aligned bases; the region within one die's HBM4E or one
window; its version area behind the same unit and outside every region. -/
def State.poolLegal (s : State) (n e : Nat) (r : Region) : Bool :=
  let others := (s.regions.filter (fun (p : Nat × Region) => decide (p.1 ≠ n) && p.2.valid)).map Prod.snd
  decide (bits e 255 248 = 0) && decide (bits e 99 2 = 0)
    && (!r.valid || (decide (r.base % 65536 = 0) && decide (r.vbase % 65536 = 0)
      && decide (r.units ≠ 0) && (s.unitOf r.base r.units).isSome
      && others.all (fun o => !meet r.base r.units o.base o.units && !meet r.base r.units o.vbase o.vunits)
      && (decide (r.vunits = 0)
        || ((s.unitOf r.vbase r.vunits).isSome && decide (s.homeDie r.vbase = s.homeDie r.base)
          && !meet r.vbase r.vunits r.base r.units && others.all (fun o => !meet r.vbase r.vunits o.base o.units)))))

/-- SET_POOL (R362). -/
def execSetPool (c : Cmd) (s : State) : Host.Outcome State Fault Refusal :=
  s.command c (fun s =>
    let n := c.a0.toNat
    let e := entryOf c
    let r := regionOfEntry c e
    if 64 ≤ n ∨ !s.poolLegal n e r then s.complete c .invalid 0
    else ({ s with regions := Assoc.put s.regions n { r with top := (s.region n).top } }).complete c .ok 0)

/-! ## Links (R343, R350) -/

/-- A port trained with its neighbour: nothing in flight, and no key yet; landings that it holds stay. -/
def Port.trained (x : Port) (pkg nbr now : Nat) : Port :=
  { Port.down with up := true, nbrPkg := pkg, nbrPort := nbr, heldRecs := x.heldRecs, progress := now, claimed := x.claimed, wire := x.wire }

/-- LINK_TRAIN (R343, R347): under reduced service every port stays down (R422). -/
def execLinkTrain (c : Cmd) (pkg port : Nat) (s : State) : Host.Outcome State Fault Refusal :=
  s.command c (fun s =>
    let p := c.a0.toNat
    if 16 ≤ p then s.complete c .invalid 0
    else if s.dev.reduced then s.complete c .state 0
    else ((s.setPort p (fun x => x.trained pkg port s.refc)).postOnce (.portForwardDecision p)).complete c .ok 0)

/-- KEY_INSTALL (R350, R423): in the host-assisted mode, into a slot that is not in use. -/
def execKeyInstall (c : Cmd) (s : State) : Host.Outcome State Fault Refusal :=
  s.command c (fun s =>
    let n := c.a0.toNat
    let key := c.a2.toNat + place c.a3.toNat 64 + place c.a4.toNat 128 + place c.a5.toNat 192
    if 64 ≤ n ∨ 2 ^ 32 ≤ c.a1.toNat then s.complete c .invalid 0
    else if !s.dev.assisted.getLsbD 2 then s.complete c .state 0
    else
      match (s.port (bits n 3 0)).install (bits n 4 4) (bits n 5 5) c.a1.toNat key with
      | some x => (s.setPort (bits n 3 0) (fun _ => x)).complete c .ok 0
      | none => s.complete c .state 0)

/-! ## Modes (R423) -/

/-- The expiry tick of a ticket: its own, or that of the slot which a saved team's ticket left behind (R309, R310). -/
def State.ticketTick (s : State) (gid : Nat) (ticket : Word) : Option Nat :=
  match s.findTicket gid ticket.toNat with
  | some (_, t) => t.expiry
  | none => s.dies.toList.findSome? (fun d => d.pit.findSome? (fun (p : Nat × PitEntry) =>
      (p.2.slots.find? (fun x => decide (x.2.1 = .ticket gid ticket))).bind (fun x => x.2.2)))

/-- The tick at whose first cycle an event is due (R289, R299, R309). -/
def State.dueTick (s : State) : Event → Option Nat
  | .bellowsSample => some (s.tick + 1)
  | .interestSlotExpiry d e slot => (Assoc.get (s.die d).pit e).bind (fun p => (Assoc.get p.slots slot).bind Prod.snd)
  | .ticketExpiry gid ticket => s.ticketTick gid ticket
  | _ => none

/-- The tick in force has changed: the Bellows' next sample, the slots' and the tickets' expiries come at its boundaries
(R289). -/
def State.realign (s : State) : State :=
  { s with agenda := s.agenda.map (fun d =>
      match s.dueTick d.ev with | some k => { d with at_ := s.tickStart k, onRef := true } | none => d) }

/-- SET_MODE (R423): only between graph runs. -/
def execSetMode (c : Cmd) (s : State) : Host.Outcome State Fault Refusal :=
  s.command c (fun s =>
    let k := c.a0.toNat
    if 6 ≤ k ∨ 2 ≤ c.a1.toNat then s.complete c .invalid 0
    else if s.graphs ≠ [] then s.complete c .state 0
    else
      let bit_ := 1#6 <<< k
      let s := s.setDev (fun d => { d with assisted := if c.a1 = 1 then d.assisted ||| bit_ else d.assisted &&& ~~~ bit_ })
      (if k = 5 then s.realign else s).complete c .ok 0)

/-! ## Wipe, reset and bring-up (R421, R422) -/

/-- What reaches the package from outside it. -/
def Event.outside : Event → Bool
  | .flitReceive .. | .ackReceive .. | .keySwitchover .. | .linkKeyManagement .. | .bar0Write .. | .prqReply .. | .prqHead ..
  | .eventRingRelease .. | .hostPortAccess .. | .reset | .firmwareVerified | .powerLimitStep .. | .thermalTrip
  | .ageingSample .. | .rowRetirement .. | .registerError .. | .tileError .. | .scratchError .. | .lineError ..
  | .cxlWindow .. | .functionReset .. => true
  | _ => false

/-- What its clocks bring on. -/
def Event.clocked : Event → Bool
  | .bellowsSample | .hearthRefreshWindow | .heatDecaySweep .. => true
  | _ => false

/-- A byte or a line that lies outside HBM4E and the Hearth. -/
def beyond (pa : Nat) : Bool := decide (0x4000000000000 ≤ pa)

/-- The rows that could not be repaired are reported again, by the pages that full service gives them (R392, R421). -/
def State.reapplyLog (s : State) : State :=
  (s.dev.retlog.filter (fun e => e.unrep)).foldl (fun s e => s.reportRow false e.loc) s

/-- The memories, the groups and the device tables emptied; the host's memory, the expanders' and what the management
controller keeps stay (R421). -/
def State.erased (s : State) : State :=
  { s with
    mem := s.mem.filter (fun c => beyond c.1),
    lines := (s.lines.filter (fun (p : Nat × Line) => beyond (p.1 * 256))).map (fun (p : Nat × Line) => (p.1, { p.2 with owners := [] })),
    slices := [], tongs := [], groups := [], teams := [], cores := [], dies := Vector.replicate 4 Die.fresh,
    ports := Vector.replicate 16 Port.down, queues := [], stages := [], graphs := [], collTable := [], colls := [],
    collEarly := [], aborts := [], regions := [], copies := [], poolOps := [], nanns := [], migrations := [], saved := [],
    refused := [], left := [], dev := { s.dev with restores := [], tally := [] } }

/-- A translation context emptied. -/
def Func.unmapped (f : Func) : Func :=
  { f with s1root := 0, s2root := 0, s2en := false, valid := false, prqbase := 0, prqlog := 0, prqSent := 0, prqHead := 0 }

/-- An event by the reference clock, counted from where that clock starts again. -/
def Due.sinceRef (d : Due) (refc : Nat) : Due := if d.onRef then { d with at_ := d.at_ - refc } else d

/-- A life-cycle change leaves HEARTH_PHASE as after reset (R4, Table 9.2): the reference counter starts again, and with it the
summaries' and the refresh windows' schedule; what is still to come from outside keeps its distance. -/
def State.rephased (s : State) : State :=
  let inputs := (s.agenda.filter (fun d => !(d.onRef && d.ev.clocked))).map (fun d => d.sinceRef s.refc)
  { s with refc := 0, refrem := 0, agenda := State.reset.agenda.filter (fun d => d.onRef) ++ inputs }

/-- The fetch of a command entry that waits for the engine which owns a line of it (R415). -/
def Event.fetches : Event → Bool
  | .commandFetch .. => true
  | _ => false

/-- A wipe of a running package (R421): the commands under way complete with BUSY, and so does every later one, one whose entry is still
to be read among them; the wipe ends at WIPE_COMPLETE. -/
def State.wipe (s : State) (reduced : Bool) : State :=
  let s := s.reapplyLog.erased
  let s := { s with agenda := s.agenda.filter (fun d => d.ev.outside || d.ev.clocked || d.ev.fetches),
                    funcs := s.funcs.map (fun (p : Nat × Func) => (p.1, p.2.unmapped)),
                    dev := { s.dev with wiping := true, reduced := reduced, mhz := if reduced then 700 else 1400 } }
  let s := s.post .wipeComplete
  s.funcs.foldl (fun s p => match p.2.busy with | some c => s.complete c .busy 0 | none => s) s

/-- An input still to come, counted from the reset. -/
def Due.since (d : Due) (clk refc : Nat) : Due := { d with at_ := d.at_ - (if d.onRef then refc else clk) }

/-- Reset (R421, R422): the state after reset, with what the wipe leaves, what is still to come from outside, the schedule and
the counters of the model. -/
def State.restarted (s : State) : State :=
  let e := s.erased
  let outside := (s.agenda.filter (fun d => d.ev.outside)).map (fun d => d.since s.clk s.refc)
  ({ State.reset with
    mem := e.mem, lines := e.lines, turns := s.turns, hostT := s.hostT, uid := s.uid, free := s.free, cur := s.cur,
    agenda := State.reset.agenda ++ outside,
    dev := { Device.fresh with pkg := s.dev.pkg, life := s.dev.life, keyed := s.dev.keyed, ageing := s.dev.ageing, retlog := s.dev.retlog,
                               powerUps := s.dev.powerUps + 1, windows := s.dev.windows, mclog := s.dev.mclog } }).reapplyLog

/-- RESET (R421). -/
def execReset (s : State) : Host.Outcome State Fault Refusal := .next s.restarted

/-- THERMAL_TRIP (R428): a junction at 105 °C resets the module. -/
def execThermalTrip (s : State) : Host.Outcome State Fault Refusal := .next s.restarted

/-- WIPE_COMPLETE (R421): HBM4E and the Hearth are zero, and commands are accepted. -/
def execWipeComplete (s : State) : Host.Outcome State Fault Refusal :=
  .next { s with
    mem := s.mem.filter (fun c => beyond c.1),
    lines := s.lines.filter (fun (p : Nat × Line) => beyond (p.1 * 256)),
    dev := { s.dev with wiping := false } }

/-- The state gives full service once the firmware is verified (R422, Table 17.6). -/
def fullService (verified : Bool) (life : Nat) : Bool := verified && decide (1 ≤ life) && decide (life ≤ 3)

/-- FIRMWARE_VERIFIED (R422, R425): the component is measured, and reduced service ends with a wipe where the state allows. -/
def execFirmwareVerified (s : State) : Host.Outcome State Fault Refusal :=
  let n := s.dev.measured.length
  let s := s.setDev (fun d => { d with verified := true, measured := d.measured ++ [(n, Config.componentCode n, shake512 (Config.firmwareImage n))] })
  .next (if s.dev.reduced && fullService true s.dev.life then s.wipe false else s)

/-! ## Life cycle and attestation (R420, R424, R425) -/

/-- The transitions of R420. -/
def lifeStep (now to_ : Nat) : Bool :=
  decide ((now, to_) = (0, 1)) || decide ((now, to_) = (1, 2)) || decide ((now, to_) = (2, 3)) || decide ((now, to_) = (3, 2)) || decide (to_ = 4)

/-- A transition provisions the owner's key, or erases it (R424, Table 17.6). -/
def keyedAfter (now to_ : Nat) (keyed : Bool) : Bool :=
  if to_ = 4 then false else if now = 0 ∧ to_ = 1 then true else keyed

/-- LIFECYCLE (R420): INVALID where reserved bits are set, STATE for a transition that is forbidden, SIGNATURE for a bad signature; a
transition runs a wipe. -/
def execLifecycle (c : Cmd) (sigOk : Bool) (s : State) : Host.Outcome State Fault Refusal :=
  s.command c (fun s =>
    let to_ := c.a0.toNat
    if 8 ≤ to_ then s.complete c .invalid 0
    else if !lifeStep s.dev.life to_ then s.complete c .state 0
    else if !sigOk then s.complete c .signature 0
    else
      let s := (s.setDev (fun d => { d with life := to_, keyed := keyedAfter d.life to_ d.keyed })).complete c .ok 0
      (s.wipe (!fullService s.dev.verified to_)).rephased)

/-- What QUOTE writes (R425): the measurement log entry by entry, the life-cycle state, the stepping and the nonce, and the
signature over all of them. -/
def quoteBytes (log : List (Nat × Nat × List Byte)) (life : Nat) (nonce : List Byte) : List Byte :=
  let body := log.flatMap (fun e => Config.logFields e.1 e.2.1 ++ e.2.2) ++ Config.lifeField life ++ Config.stepping ++ nonce
  body ++ Config.identitySign body

/-- QUOTE (R425). -/
def execQuote (c : Cmd) (s : State) : Host.Outcome State Fault Refusal :=
  s.command c (fun s =>
    let nonce := [c.a0, c.a1, c.a2, c.a3].flatMap (fun a => natLe a.toNat 8)
    let data := quoteBytes s.dev.measured s.dev.life nonce
    if !s.writable c.a4.toNat data.length then s.complete c .invalid 0
    else (s.hostWrite c.a4.toNat data).complete c .ok 0)

/-! ## Ageing and power (R426 to R428) -/

/-- AGEING_SAMPLE (R426). -/
def execAgeingSample (a : AgeSample) (s : State) : Host.Outcome State Fault Refusal := .next (s.setDev (fun d => { d with ageing := a }))

/-- The 64-byte health record (R427). -/
def healthRecord (a : AgeSample) : List Byte :=
  natLe a.drift.toNat 4 ++ natLe a.eye.toNat 4 ++ natLe a.hbm.toNat 4 ++ natLe a.hearth.toNat 4
    ++ [a.months, 0] ++ natLe a.watts.toNat 2 ++ List.replicate 44 0

/-- HEALTH (R427). -/
def execHealth (c : Cmd) (s : State) : Host.Outcome State Fault Refusal :=
  s.command c (fun s =>
    if !s.writable c.a0.toNat 64 then s.complete c .invalid 0
    else (s.hostWrite c.a0.toNat (healthRecord s.dev.ageing)).complete c .ok 0)

/-- POWER_LIMIT_STEP (R428): above 3,200 W the core clock falls by 50 MHz, never below 0.7 GHz. -/
def execPowerLimitStep (watts : Nat) (s : State) : Host.Outcome State Fault Refusal :=
  if 3200 < watts then .next (s.setDev (fun d => { d with mhz := Nat.max 700 (d.mhz - 50) })) else .next s

end Sys2Proof.Machine
end

