-- ==== Sys2Proof/Machine/Modes.lean ====
section
/-!
DEFINITION. Class 1: MR, EXEC and predicates (R37, R38, R127 to R131).
-/
namespace Sys2Proof.Machine
open Sys2Proof

/-- A write of MR; an illegal code raises RESERVED_FIELD (R37). -/
def Ix.writeMr (x : Ix) (s : State) (v : Word) : Done :=
  let other := fun (p : RegPos) => !(decide (p.kind = .special ∧ p.reg = 1))
  if mrLegal v then x.upd s (fun g => { g with mr := mrWrite v, bad := g.bad.filter other, soft := g.soft.filter other })
  else .trap s (trapP 0x02)

/-- A predicate formed from two predicates in the live lanes (R130). -/
def Ix.logic (x : Ix) (s : State) (d a b : Reg) (f : Mask → Mask → Mask) : Done :=
  x.upd s (fun g => g.setPLanes d.toNat x.live (f (x.g.pr a.toNat) (x.g.pr b.toNat)))

/-- SETMODE (R37). -/
def execSetmode (lit : Word) (s : State) : Host.Outcome State Fault Refusal :=
  issue (.setmode lit) s (fun x s => x.writeMr s lit)

/-- SETMODES (R37, R128). -/
def execSetmodes (a : Reg) (s : State) : Host.Outcome State Fault Refusal :=
  issue (.setmodes a) s (fun x s => x.writeMr s ((x.g.sr a.toNat).extractLsb' 0 32))

/-- RDMODE (R37). -/
def execRdmode (d : Reg) (s : State) : Host.Outcome State Fault Refusal :=
  issue (.rdmode d) s (fun x s => x.upd s (fun g => g.setS d.toNat (x.g.mr.zeroExtend 64)))

/-- RDX (R129). -/
def execRdx (d : Reg) (s : State) : Host.Outcome State Fault Refusal :=
  issue (.rdx d) s (fun x s => x.upd s (fun g => g.setPair d.toNat x.g.exec))

/-- WRX (R129). -/
def execWrx (a : Reg) (s : State) : Host.Outcome State Fault Refusal :=
  issue (.wrx a) s (fun x s => x.upd s (fun g => g.setExec (x.g.pair a.toNat)))

/-- PRDS (R129). -/
def execPrds (d : Reg) (a : Reg) (s : State) : Host.Outcome State Fault Refusal :=
  issue (.prds d a) s (fun x s => x.upd s (fun g => g.setPair d.toNat (x.g.pr a.toNat)))

/-- PWRS (R129). -/
def execPwrs (d : Reg) (a : Reg) (s : State) : Host.Outcome State Fault Refusal :=
  issue (.pwrs d a) s (fun x s => x.upd s (fun g => g.setP d.toNat (x.g.pair a.toNat)))

/-- PAND (R130). -/
def execPand (d : Reg) (a : Reg) (b : Reg) (s : State) : Host.Outcome State Fault Refusal :=
  issue (.pand d a b) s (fun x s => x.logic s d a b (fun u v => u &&& v))

/-- POR (R130). -/
def execPor (d : Reg) (a : Reg) (b : Reg) (s : State) : Host.Outcome State Fault Refusal :=
  issue (.por d a b) s (fun x s => x.logic s d a b (fun u v => u ||| v))

/-- PXOR (R130). -/
def execPxor (d : Reg) (a : Reg) (b : Reg) (s : State) : Host.Outcome State Fault Refusal :=
  issue (.pxor d a b) s (fun x s => x.logic s d a b (fun u v => u ^^^ v))

/-- PANDN (R130). -/
def execPandn (d : Reg) (a : Reg) (b : Reg) (s : State) : Host.Outcome State Fault Refusal :=
  issue (.pandn d a b) s (fun x s => x.logic s d a b (fun u v => u &&& ~~~ v))

/-- PNOT (R130). -/
def execPnot (d : Reg) (a : Reg) (s : State) : Host.Outcome State Fault Refusal :=
  issue (.pnot d a) s (fun x s => x.logic s d a a (fun u _ => ~~~ u))

/-- PSET (R131). -/
def execPset (d : Reg) (k : Bool) (s : State) : Host.Outcome State Fault Refusal :=
  issue (.pset d k) s (fun x s => x.upd s (fun g => g.setPLanes d.toNat x.live (Mask.all k)))

/-- PCNT (R131). -/
def execPcnt (d : Reg) (a : Reg) (s : State) : Host.Outcome State Fault Refusal :=
  issue (.pcnt d a) s (fun x s => x.upd s (fun g => g.setS d.toNat (BitVec.ofNat 64 (x.live &&& x.g.pr a.toNat).count)))

/-- PFFS (R131). -/
def execPffs (d : Reg) (a : Reg) (s : State) : Host.Outcome State Fault Refusal :=
  issue (.pffs d a) s (fun x s => x.upd s (fun g => g.setS d.toNat (BitVec.ofNat 64 ((x.live &&& x.g.pr a.toNat).first.getD 128))))

end Sys2Proof.Machine
end

