-- ==== Sys2Proof/Machine/Scalar.lean ====
section
/-!
DEFINITION. Class 5: scalar arithmetic and compares (R161 to R164).
-/
namespace Sys2Proof.Machine
open Sys2Proof

/-- A scalar result of two scalars as they stood at issue (R161). -/
def Ix.scalar (x : Ix) (s : State) (d a b : Reg) (f : Dword → Dword → Dword) : Done :=
  x.upd s (fun g => g.setS d.toNat (f (x.g.sr a.toNat) (x.g.sr b.toNat)))

/-- A scalar compare writes a uniform predicate (R163). -/
def Ix.scalarCompare (x : Ix) (s : State) (d a b : Reg) (f : Dword → Dword → Bool) : Done :=
  x.upd s (fun g => g.setP d.toNat (Mask.all (f (x.g.sr a.toNat) (x.g.sr b.toNat))))

/-- Shift counts read as unsigned 64-bit values: 64 and more shift everything out (R162). -/
def shl64 (u c : Dword) : Dword := if 64 ≤ c.toNat then 0 else u <<< c.toNat
def shr64 (u c : Dword) : Dword := if 64 ≤ c.toNat then 0 else u >>> c.toNat
def sar64 (u c : Dword) : Dword := u.sshiftRight (if 64 ≤ c.toNat then 64 else c.toNat)

/-- SADD (R161). -/
def execSadd (d : Reg) (a : Reg) (b : Reg) (s : State) : Host.Outcome State Fault Refusal :=
  issue (.sadd d a b) s (fun x s => x.scalar s d a b (fun u v => u + v))

/-- SSUB (R161). -/
def execSsub (d : Reg) (a : Reg) (b : Reg) (s : State) : Host.Outcome State Fault Refusal :=
  issue (.ssub d a b) s (fun x s => x.scalar s d a b (fun u v => u - v))

/-- SMUL (R161). -/
def execSmul (d : Reg) (a : Reg) (b : Reg) (s : State) : Host.Outcome State Fault Refusal :=
  issue (.smul d a b) s (fun x s => x.scalar s d a b (fun u v => u * v))

/-- SMIN (R161). -/
def execSmin (d : Reg) (a : Reg) (b : Reg) (s : State) : Host.Outcome State Fault Refusal :=
  issue (.smin d a b) s (fun x s => x.scalar s d a b (fun u v => if u.sle v then u else v))

/-- SMAX (R161). -/
def execSmax (d : Reg) (a : Reg) (b : Reg) (s : State) : Host.Outcome State Fault Refusal :=
  issue (.smax d a b) s (fun x s => x.scalar s d a b (fun u v => if u.sle v then v else u))

/-- SAND (R161). -/
def execSand (d : Reg) (a : Reg) (b : Reg) (s : State) : Host.Outcome State Fault Refusal :=
  issue (.sand d a b) s (fun x s => x.scalar s d a b (fun u v => u &&& v))

/-- SOR (R161). -/
def execSor (d : Reg) (a : Reg) (b : Reg) (s : State) : Host.Outcome State Fault Refusal :=
  issue (.sor d a b) s (fun x s => x.scalar s d a b (fun u v => u ||| v))

/-- SXOR (R161). -/
def execSxor (d : Reg) (a : Reg) (b : Reg) (s : State) : Host.Outcome State Fault Refusal :=
  issue (.sxor d a b) s (fun x s => x.scalar s d a b (fun u v => u ^^^ v))

/-- SSHL (R162). -/
def execSshl (d : Reg) (a : Reg) (b : Reg) (s : State) : Host.Outcome State Fault Refusal :=
  issue (.sshl d a b) s (fun x s => x.scalar s d a b shl64)

/-- SSHR (R162). -/
def execSshr (d : Reg) (a : Reg) (b : Reg) (s : State) : Host.Outcome State Fault Refusal :=
  issue (.sshr d a b) s (fun x s => x.scalar s d a b shr64)

/-- SSAR (R162). -/
def execSsar (d : Reg) (a : Reg) (b : Reg) (s : State) : Host.Outcome State Fault Refusal :=
  issue (.ssar d a b) s (fun x s => x.scalar s d a b sar64)

/-- SCMPEQ (R163). -/
def execScmpeq (d : Reg) (a : Reg) (b : Reg) (s : State) : Host.Outcome State Fault Refusal :=
  issue (.scmpeq d a b) s (fun x s => x.scalarCompare s d a b (fun u v => u == v))

/-- SCMPNE (R163). -/
def execScmpne (d : Reg) (a : Reg) (b : Reg) (s : State) : Host.Outcome State Fault Refusal :=
  issue (.scmpne d a b) s (fun x s => x.scalarCompare s d a b (fun u v => u != v))

/-- SCMPLT (R163). -/
def execScmplt (d : Reg) (a : Reg) (b : Reg) (s : State) : Host.Outcome State Fault Refusal :=
  issue (.scmplt d a b) s (fun x s => x.scalarCompare s d a b (fun u v => u.slt v))

/-- SCMPLE (R163). -/
def execScmple (d : Reg) (a : Reg) (b : Reg) (s : State) : Host.Outcome State Fault Refusal :=
  issue (.scmple d a b) s (fun x s => x.scalarCompare s d a b (fun u v => u.sle v))

/-- SCMPLTN (R163). -/
def execScmpltn (d : Reg) (a : Reg) (b : Reg) (s : State) : Host.Outcome State Fault Refusal :=
  issue (.scmpltn d a b) s (fun x s => x.scalarCompare s d a b (fun u v => u.ult v))

/-- SCMPLEN (R163). -/
def execScmplen (d : Reg) (a : Reg) (b : Reg) (s : State) : Host.Outcome State Fault Refusal :=
  issue (.scmplen d a b) s (fun x s => x.scalarCompare s d a b (fun u v => u.ule v))

/-- SMOV (R161). -/
def execSmov (d : Reg) (a : Reg) (s : State) : Host.Outcome State Fault Refusal :=
  issue (.smov d a) s (fun x s => x.scalar s d a a (fun u _ => u))

/-- SMOVI (R161). -/
def execSmovi (d : Reg) (lit : Word) (s : State) : Host.Outcome State Fault Refusal :=
  issue (.smovi d lit) s (fun x s => x.upd s (fun g => g.setS d.toNat (lit.signExtend 64)))

/-- SADDI (R164). -/
def execSaddi (d : Reg) (k : BitVec 14) (s : State) : Host.Outcome State Fault Refusal :=
  issue (.saddi d k) s (fun x s => x.upd s (fun g => g.setS d.toNat (x.g.sr d.toNat + k.signExtend 64)))

/-- SCLZ (R161). -/
def execSclz (d : Reg) (a : Reg) (s : State) : Host.Outcome State Fault Refusal :=
  issue (.sclz d a) s (fun x s => x.scalar s d a a (fun u _ => BitVec.ofNat 64 (leadingZeros 64 u.toNat)))

/-- SPOPC (R161). -/
def execSpopc (d : Reg) (a : Reg) (s : State) : Host.Outcome State Fault Refusal :=
  issue (.spopc d a) s (fun x s => x.scalar s d a a (fun u _ => BitVec.ofNat 64 (oneBits 64 u.toNat)))

end Sys2Proof.Machine
end

