-- ==== Sys2Proof/Machine/Flags.lean ====
section
/-!
DEFINITION. The special registers (R401, R402, Table 16.4): the word that each one reads, and what a write leaves in it,
field by field by its access code (R4).
-/
namespace Sys2Proof.Machine
open Sys2Proof

/-- CORE_ID (Table 1.3). -/
def State.coreId (s : State) (core : Nat) : Nat := place s.dev.pkg 8 + core

/-- CORE_OCC (Table 4.1). -/
def State.coreOcc (s : State) (c : Nat) : Nat :=
  place (s.freeBlocks c) 32 + place (s.freeScratch c) 24 + place (s.freeContexts c) 16 + place (s.freeTiles c) 8 + s.freeTeamSlots c

/-- STARVE_LAST (Table 16.5). -/
def Core.starveLast (c : Core) : Nat := place (c.starveStamp % 2 ^ 48) 16 + place c.starvePrio 12 + c.starveCtx

/-- PATHCNT (Table 8.8). -/
def Group.pathCnt (g : Group) : Nat := (List.range 8).foldl (fun a i => a + place (g.counter i) (8 * i)) 0

/-- XLATE_CNT (Table 15.3). -/
def Group.xlateCnt (g : Group) : Nat := place g.preq 48 + place g.refs 24 + g.walks

/-- ANVIL_STAT of the Anvil that a group uses (Table 7.2). -/
def State.anvilStat (s : State) (gid : Nat) (g : Group) : Nat :=
  let c := s.core (s.anvilOf g)
  let owner := c.owner.bind s.group
  place c.tileq.length 32 + place (b2n (decide (c.owner = some gid))) 29 + place c.line.length 24 + place (b2n c.owner.isSome) 23
    + (match owner with | some o => place (o.core % 4) 7 + o.ctx | none => 0)

/-- RESTARTED (Table 7.7). -/
def Group.restartedWord (g : Group) : Nat := place g.restarts 8 + b2n g.restarted

/-- HEARTH_PHASE (Table 9.2). -/
def State.hearthPhase (s : State) : Nat :=
  place (s.refc / refreshPeriod % 2 ^ 32) 32 + place s.bankHi 23 + place s.bankLo 17 + s.refreshPos

/-- TSKID (Table 16.3). -/
def TrapRegs.tskid (r : TrapRegs) : Nat := place (b2n r.orig) 63 + r.count

/-- The word of a special register that a group reads (Table 16.4); none where the number names no register (R402). -/
def State.readSpecial (s : State) (gid : Nat) (g : Group) (t : Team) (k : Nat) : Option Nat :=
  match k with
  | 0x000 => some (s.coreId g.core)
  | 0x001 => some g.num
  | 0x002 => some t.serial
  | 0x003 => some (match g.role with | .producer => 1 | .consumer => 0)
  | 0x004 => some g.pri
  | 0x005 => some g.stack.length
  | 0x006 => some g.xheld.toNat
  | 0x007 => some (s.coreOcc g.core)
  | 0x008 => some (s.core g.core).starveCount
  | 0x009 => some (s.core g.core).starveLast
  | 0x010 => some g.regerr.word
  | 0x011 => some g.qflags.toNat
  | 0x012 => some (b2n g.bstatus)
  | 0x013 => some g.pathCnt
  | 0x014 => some g.qstatus.toNat
  | 0x015 => some g.xlateCnt
  | 0x020 => some (s.anvilStat gid g)
  | 0x021 => some g.rstpc.toNat
  | 0x022 => some g.restartedWord
  | 0x030 => some s.hearthPhase
  | 0x031 => some s.tick
  | 0x032 => some (s.die (dieOfCore g.core)).nameOcc
  | 0x040 => some g.trap.tcause.toNat
  | 0x041 => some g.trap.tpc.toNat
  | 0x042 => some g.trap.taddr.toNat
  | 0x043 => some g.trap.tinfo.toNat
  | 0x044 => some (bits g.trap.tdone.toNat 63 0)
  | 0x045 => some (bits g.trap.tdone.toNat 127 64)
  | 0x046 => some g.trap.tskid
  | 0x047 => some g.trap.tvec.toNat
  | 0x048 => some (g.trap.tstate t.attach).toNat
  | _ => none

/-- The address field of TPC and TVEC: bits [55:2] (Table 16.3). -/
def addrField (v : Dword) : Va := v.extractLsb' 0 56 &&& ~~~ 3#56

/-- What a write leaves in a special register of the group: RW fields take the value, W1C bits are cleared by ones, all
other fields stay (R4, R402). -/
def Group.writeSpecial (g : Group) (k : Nat) (v : Dword) : Group :=
  match k with
  | 0x010 => { g with regerr := { g.regerr with valid := g.regerr.valid && !v.getLsbD 63 } }
  | 0x011 => { g with qflags := g.qflags &&& ~~~ v.extractLsb' 0 3 }
  | 0x021 => { g with rstpc := (addrField v).zeroExtend 64 ||| (v &&& 1) }
  | 0x022 => { g with restarted := g.restarted && !v.getLsbD 0 }
  | 0x040 => { g with trap := { g.trap with defer := v.getLsbD 9, partialBit := v.getLsbD 8, code := v.extractLsb' 0 8 } }
  | 0x041 => { g with trap := { g.trap with tpc := addrField v } }
  | 0x042 => { g with trap := { g.trap with taddr := v } }
  | 0x043 => { g with trap := { g.trap with tinfo := v } }
  | 0x044 => { g with trap := { g.trap with tdone := g.trap.tdone.extractLsb' 64 64 ++ v } }
  | 0x045 => { g with trap := { g.trap with tdone := v ++ g.trap.tdone.extractLsb' 0 64 } }
  | 0x047 => { g with trap := { g.trap with tvec := addrField v } }
  | 0x048 => { g with trap := { g.trap with tmask := v.extractLsb' 8 4 } }
  | _ => g

end Sys2Proof.Machine
end

