-- ==== Sys2Proof/Machine/Traps.lean ====
section
/-!
DEFINITION. Class 14: traps by instruction, the return from a handler, masks of deferred traps, special registers (R403 to
R407); the steps of trap delivery, halt, sleep and starvation (R28, R101, R395, R397, R412).
-/
namespace Sys2Proof.Machine
open Sys2Proof

/-- TRAP (R403). -/
def execTrap (k : BitVec 14) (s : State) : Host.Outcome State Fault Refusal :=
  issue (.trap k) s (fun _ s =>
    .trap s { code := 0x06, addr := 0, info := k.zeroExtend 64, done := none, defer := false, next := 4 })

/-- A team stops at a BRK for the host (R403): the group stands at the next word, its siblings run into their skid, and the
host is told. -/
def State.breakAt (s : State) (gid : Nat) : State :=
  match s.group gid with
  | none => s
  | some g =>
    let s := s.setGroup gid (fun g => { g with pc := g.pc + 4, stop := .stopped })
    let s := s.setTeam g.team (fun t => { t with halt := .breakpoint gid })
    let s := s.broadcastHalt g.team (some gid)
    match s.team g.team with
    | none => s
    | some t => s.postEvent t.func 0x08 [(8, 4, t.id), (16, 8, (g.pc + 4).toNat)]

/-- BRK (R403): with the host attached it stops the team; in a skid it waits until the team goes on; else it raises
BREAKPOINT, which in a handler is a double fault. -/
def execBrk (k : BitVec 14) (s : State) : Host.Outcome State Fault Refusal :=
  issue (.brk k) s (fun x s =>
    match s.team x.g.team with
    | none => .next s
    | some t =>
      if !t.attach then
        .trap s (if x.g.trap.inh then trapP 0x80
          else { code := 0x07, addr := 0, info := k.zeroExtend 64, done := none, defer := false, next := 4 })
      else if x.g.stop ≠ .running then .stall
      else .stay (s.breakAt x.gid))

/-- TRET (R405). -/
def execTret (s : State) : Host.Outcome State Fault Refusal :=
  issue .tret s (fun x s => if x.g.trap.inh then .stay (s.trapReturn x.gid) else .trap s (trapP 0x08))

/-- Held traps of a team are looked at again (R406). -/
def State.askDelivery (s : State) (tid : Nat) : State := s.postOnce (.deferredTrapDelivery tid)

/-- TMASK (R406). -/
def execTmask (k : BitVec 4) (s : State) : Host.Outcome State Fault Refusal :=
  issue (.tmask k) s (fun x s => x.upd s (fun g => { g with trap := { g.trap with tmask := g.trap.tmask ||| k } }))

/-- TUNMASK (R406). -/
def execTunmask (k : BitVec 4) (s : State) : Host.Outcome State Fault Refusal :=
  issue (.tunmask k) s (fun x s =>
    .next ((s.setGroup x.gid (fun g => { g with trap := { g.trap with tmask := g.trap.tmask &&& ~~~ k } })).askDelivery x.g.team))

/-- RDSR (R402, R404). -/
def execRdsr (d : Reg) (k : BitVec 14) (s : State) : Host.Outcome State Fault Refusal :=
  issue (.rdsr d k) s (fun x s =>
    match s.team x.g.team with
    | none => .next s
    | some t =>
      match s.readSpecial x.gid x.g t k.toNat with
      | none => .trap s (trapP 0x02)
      | some v => x.upd s (fun g => g.setS d.toNat (BitVec.ofNat 64 v)))

/-- WRSR (R402, R404, R406). -/
def execWrsr (d : Reg) (k : BitVec 14) (s : State) : Host.Outcome State Fault Refusal :=
  issue (.wrsr d k) s (fun x s =>
    let s := s.setGroup x.gid (fun g => g.writeSpecial k.toNat (x.g.sr d.toNat))
    .next (if k.toNat = 0x048 then s.askDelivery x.g.team else s))

/-- CLK (R407). -/
def execClk (d : Reg) (s : State) : Host.Outcome State Fault Refusal :=
  issue (.clk d) s (fun x s => x.upd s (fun g => g.setS d.toNat (BitVec.ofNat 64 s.clk)))

/-! ## Delivery, halt and counts -/

/-- A held trap's receiver is parked at a wait, or is at its next issue cycle: it does not sleep, has been made before this cycle and
has not issued in it (R24, R395; DEDUCED, log entry 90). -/
def State.receives (s : State) (tid : Nat) (h : Held) : Bool :=
  ((s.receiver tid h).bind s.group).all (fun g =>
    g.park.isSome || (g.sleep.isNone && decide (g.ready ≤ s.clk) && decide ((g.last.map Prod.fst) ≠ some s.clk)))

/-- DEFERRED_TRAP_DELIVERY (R395, R398): of the held traps whose receivers may take them now, that of the earliest operation is
delivered, unless the team is halted with a group living; one whose receiver waits for an engine, sleeps or has issued in this cycle is
looked at again. -/
def execDeferredTrapDelivery (tid : Nat) (s : State) : Host.Outcome State Fault Refusal :=
  match s.team tid with
  | none => .next s
  | some t =>
    if (t.halt ≠ .none ∧ s.teamGroups tid ≠ []) ∨ t.ended.isSome then .next s
    else
      match s.nextHeld tid (t.held.filter (s.receives tid)) with
      | some h => .next (s.deliverHeld tid h)
      | none =>
        let masked := fun (h : Held) => ((s.receiver tid h).bind s.group).any (fun (g : Group) => g.trap.tmask.getLsbD h.cat)
        if t.held.all masked then .next s else .next (s.postAt (s.clk + 1) (.deferredTrapDelivery tid))

/-- A group has trapped and has no handler (R400). -/
def State.unhandled (s : State) (gid : Nat) : Bool :=
  match s.group gid with
  | none => false
  | some g => !g.trap.inh && ((s.team g.team).any (fun t => decide (t.halt = .handler gid)))

/-- A group is inside an instruction that an engine must end first: a dequeue's reply is on its way to it, or it waits for an engine. -/
def State.inside (s : State) (g : Group) : Bool :=
  match g.park with
  | some (.dequeue op) => s.replyDue op
  | some (.engine _) => true
  | some (.access _) => true
  | _ => false

/-- SIBLING_HALT_STOP (R397): the sibling stops with the count of its skid, once it is not inside an instruction; a waiting dequeue is
withdrawn (R287). The team of a group that has trapped with no handler is terminated, with reason 0 (R400). -/
def execSiblingHaltStop (gid : Nat) (s : State) : Host.Outcome State Fault Refusal :=
  match s.group gid with
  | none => .next s
  | some g =>
    if s.unhandled gid then
      .next (s.terminate g.team 0 g.num 0 g.trap.tcause (g.trap.tpc.zeroExtend 64) g.trap.taddr g.trap.tinfo)
    else
      match g.stop with
      | .skid n =>
        if s.inside g then .next (s.postAt (s.clk + 1) (.siblingHaltStop gid))
        else .next ((s.withdraw gid).setGroup gid (fun g => g.stopAt (Nat.min n 8)))
      | _ => .next s

/-- HANDLER_COUNT_EXPIRY (R412): a handler has issued 4,096 instructions since a collector's request: its group stops
inside it. -/
def execHandlerCountExpiry (gid : Nat) (s : State) : Host.Outcome State Fault Refusal :=
  match s.group gid with
  | none => .next s
  | some g =>
    match s.team g.team with
    | none => .next s
    | some t =>
      let wanted : Bool := match (s.die (dieOfCore t.home)).serving with
        | some (r, .stopping) => decide (r.team = g.team)
        | _ => false
      if wanted ∧ t.halt = .handler gid ∧ 4096 ≤ t.preCount then
        .next ((s.setTeam g.team (fun t => { t with halt := .preempt })).setGroup gid (fun g => { g with stop := .stopped }))
      else .next s

/-- STARVATION_EPISODE (R28): the core's record, and an event. -/
def execStarvationEpisode (gid : Nat) (s : State) : Host.Outcome State Fault Refusal :=
  match s.group gid with
  | none => .next s
  | some g =>
    let s := s.setCore g.core (fun c =>
      { c with starveCount := satAdd c.starveCount 1 (2 ^ 32 - 1), starveStamp := s.clk % 2 ^ 48, starvePrio := g.pri, starveCtx := g.ctx })
    let w := (s.core g.core).starveLast
    .next ((s.mcEvent 0x03 w).postEvent 0 0x03 [(8, 4, g.core), (16, 8, w)])

/-- SLEEP_EXPIRY (R101). -/
def execSleepExpiry (gid : Nat) (s : State) : Host.Outcome State Fault Refusal :=
  .next (s.setGroup gid (fun g =>
    { g with sleep := g.sleep.filter (fun last => decide (s.clk ≤ last)) }))

end Sys2Proof.Machine
end

