-- ==== Sys2Proof/Machine/Dispatch.lean ====
section
/-!
DEFINITION. The meaning of each constructor of `Instr`, one arm each.
-/
namespace Sys2Proof.Machine
open Sys2Proof

/-- The meaning of an instruction word, or of an indivisible step of an engine, a controller or the host. -/
def exec (i : Instr) (s : State) : Host.Outcome State Fault Refusal :=
  match i with
  | .illegal x => Sys2Proof.Machine.execIllegal x s
  | .unassignedOpcode w => Sys2Proof.Machine.execUnassignedOpcode w s
  | .nop => Sys2Proof.Machine.execNop s
  | .br u pred sense off => Sys2Proof.Machine.execBr u pred sense off s
  | .brp u pred sense off => Sys2Proof.Machine.execBrp u pred sense off s
  | .brexz off => Sys2Proof.Machine.execBrexz off s
  | .call u pred sense off => Sys2Proof.Machine.execCall u pred sense off s
  | .callr a => Sys2Proof.Machine.execCallr a s
  | .ret => Sys2Proof.Machine.execRet s
  | .jmpr a => Sys2Proof.Machine.execJmpr a s
  | .ifp u pred sense off => Sys2Proof.Machine.execIfp u pred sense off s
  | .elsep off => Sys2Proof.Machine.execElsep off s
  | .endif => Sys2Proof.Machine.execEndif s
  | .spawn d a b => Sys2Proof.Machine.execSpawn d a b s
  | .spawnw d a b => Sys2Proof.Machine.execSpawnw d a b s
  | .exit => Sys2Proof.Machine.execExit s
  | .yield => Sys2Proof.Machine.execYield s
  | .setpri k => Sys2Proof.Machine.execSetpri k s
  | .sleep k => Sys2Proof.Machine.execSleep k s
  | .lnch d a b => Sys2Proof.Machine.execLnch d a b s
  | .setmode lit => Sys2Proof.Machine.execSetmode lit s
  | .setmodes a => Sys2Proof.Machine.execSetmodes a s
  | .rdmode d => Sys2Proof.Machine.execRdmode d s
  | .rdx d => Sys2Proof.Machine.execRdx d s
  | .wrx a => Sys2Proof.Machine.execWrx a s
  | .prds d a => Sys2Proof.Machine.execPrds d a s
  | .pwrs d a => Sys2Proof.Machine.execPwrs d a s
  | .pand d a b => Sys2Proof.Machine.execPand d a b s
  | .por d a b => Sys2Proof.Machine.execPor d a b s
  | .pxor d a b => Sys2Proof.Machine.execPxor d a b s
  | .pandn d a b => Sys2Proof.Machine.execPandn d a b s
  | .pnot d a => Sys2Proof.Machine.execPnot d a s
  | .pset d k => Sys2Proof.Machine.execPset d k s
  | .pcnt d a => Sys2Proof.Machine.execPcnt d a s
  | .pffs d a => Sys2Proof.Machine.execPffs d a s
  | .add d a b => Sys2Proof.Machine.execAdd d a b s
  | .sub d a b => Sys2Proof.Machine.execSub d a b s
  | .mul d a b => Sys2Proof.Machine.execMul d a b s
  | .mulh d a b => Sys2Proof.Machine.execMulh d a b s
  | .mad d a b => Sys2Proof.Machine.execMad d a b s
  | .min d a b => Sys2Proof.Machine.execMin d a b s
  | .max d a b => Sys2Proof.Machine.execMax d a b s
  | .abs d a => Sys2Proof.Machine.execAbs d a s
  | .neg d a => Sys2Proof.Machine.execNeg d a s
  | .and d a b => Sys2Proof.Machine.execAnd d a b s
  | .or d a b => Sys2Proof.Machine.execOr d a b s
  | .xor d a b => Sys2Proof.Machine.execXor d a b s
  | .not d a => Sys2Proof.Machine.execNot d a s
  | .shl d a b => Sys2Proof.Machine.execShl d a b s
  | .shr d a b => Sys2Proof.Machine.execShr d a b s
  | .sar d a b => Sys2Proof.Machine.execSar d a b s
  | .clz d a => Sys2Proof.Machine.execClz d a s
  | .popc d a => Sys2Proof.Machine.execPopc d a s
  | .bfx d a b => Sys2Proof.Machine.execBfx d a b s
  | .bins d a b => Sys2Proof.Machine.execBins d a b s
  | .sel d a b => Sys2Proof.Machine.execSel d a b s
  | .cmpeq d a b => Sys2Proof.Machine.execCmpeq d a b s
  | .cmpne d a b => Sys2Proof.Machine.execCmpne d a b s
  | .cmplt d a b => Sys2Proof.Machine.execCmplt d a b s
  | .cmple d a b => Sys2Proof.Machine.execCmple d a b s
  | .cmpgt d a b => Sys2Proof.Machine.execCmpgt d a b s
  | .cmpge d a b => Sys2Proof.Machine.execCmpge d a b s
  | .mov d a => Sys2Proof.Machine.execMov d a s
  | .movs d a => Sys2Proof.Machine.execMovs d a s
  | .movi d lit => Sys2Proof.Machine.execMovi d lit s
  | .laneid d => Sys2Proof.Machine.execLaneid d s
  | .fadd d a b => Sys2Proof.Machine.execFadd d a b s
  | .fsub d a b => Sys2Proof.Machine.execFsub d a b s
  | .fmul d a b => Sys2Proof.Machine.execFmul d a b s
  | .fma d a b => Sys2Proof.Machine.execFma d a b s
  | .fmin d a b => Sys2Proof.Machine.execFmin d a b s
  | .fmax d a b => Sys2Proof.Machine.execFmax d a b s
  | .fabs d a => Sys2Proof.Machine.execFabs d a s
  | .fneg d a => Sys2Proof.Machine.execFneg d a s
  | .fcmpeq d a b => Sys2Proof.Machine.execFcmpeq d a b s
  | .fcmpne d a b => Sys2Proof.Machine.execFcmpne d a b s
  | .fcmplt d a b => Sys2Proof.Machine.execFcmplt d a b s
  | .fcmple d a b => Sys2Proof.Machine.execFcmple d a b s
  | .fcmpgt d a b => Sys2Proof.Machine.execFcmpgt d a b s
  | .fcmpge d a b => Sys2Proof.Machine.execFcmpge d a b s
  | .fcmpun d a b => Sys2Proof.Machine.execFcmpun d a b s
  | .frcp d a => Sys2Proof.Machine.execFrcp d a s
  | .frsq d a => Sys2Proof.Machine.execFrsq d a s
  | .fsqrt d a => Sys2Proof.Machine.execFsqrt d a s
  | .fexp2 d a => Sys2Proof.Machine.execFexp2 d a s
  | .flog2 d a => Sys2Proof.Machine.execFlog2 d a s
  | .fsin d a => Sys2Proof.Machine.execFsin d a s
  | .fcos d a => Sys2Proof.Machine.execFcos d a s
  | .ftanh d a => Sys2Proof.Machine.execFtanh d a s
  | .fclass d a => Sys2Proof.Machine.execFclass d a s
  | .cvt d a b => Sys2Proof.Machine.execCvt d a b s
  | .pq d a b => Sys2Proof.Machine.execPq d a b s
  | .px d a b => Sys2Proof.Machine.execPx d a b s
  | .topkins d a b => Sys2Proof.Machine.execTopkins d a b s
  | .keepk d a b => Sys2Proof.Machine.execKeepk d a b s
  | .fldexp d a b => Sys2Proof.Machine.execFldexp d a b s
  | .ffrexp d a b => Sys2Proof.Machine.execFfrexp d a b s
  | .sadd d a b => Sys2Proof.Machine.execSadd d a b s
  | .ssub d a b => Sys2Proof.Machine.execSsub d a b s
  | .smul d a b => Sys2Proof.Machine.execSmul d a b s
  | .smin d a b => Sys2Proof.Machine.execSmin d a b s
  | .smax d a b => Sys2Proof.Machine.execSmax d a b s
  | .sand d a b => Sys2Proof.Machine.execSand d a b s
  | .sor d a b => Sys2Proof.Machine.execSor d a b s
  | .sxor d a b => Sys2Proof.Machine.execSxor d a b s
  | .sshl d a b => Sys2Proof.Machine.execSshl d a b s
  | .sshr d a b => Sys2Proof.Machine.execSshr d a b s
  | .ssar d a b => Sys2Proof.Machine.execSsar d a b s
  | .scmpeq d a b => Sys2Proof.Machine.execScmpeq d a b s
  | .scmpne d a b => Sys2Proof.Machine.execScmpne d a b s
  | .scmplt d a b => Sys2Proof.Machine.execScmplt d a b s
  | .scmple d a b => Sys2Proof.Machine.execScmple d a b s
  | .scmpltn d a b => Sys2Proof.Machine.execScmpltn d a b s
  | .scmplen d a b => Sys2Proof.Machine.execScmplen d a b s
  | .smov d a => Sys2Proof.Machine.execSmov d a s
  | .smovi d lit => Sys2Proof.Machine.execSmovi d lit s
  | .saddi d k => Sys2Proof.Machine.execSaddi d k s
  | .sclz d a => Sys2Proof.Machine.execSclz d a s
  | .spopc d a => Sys2Proof.Machine.execSpopc d a s
  | .xacq m => Sys2Proof.Machine.execXacq m s
  | .xtry d m => Sys2Proof.Machine.execXtry d m s
  | .xrel m => Sys2Proof.Machine.execXrel m s
  | .shfl d a b => Sys2Proof.Machine.execShfl d a b s
  | .shflup d a b => Sys2Proof.Machine.execShflup d a b s
  | .shfldn d a b => Sys2Proof.Machine.execShfldn d a b s
  | .shflx d a b => Sys2Proof.Machine.execShflx d a b s
  | .lrd d a b => Sys2Proof.Machine.execLrd d a b s
  | .lwr d a b => Sys2Proof.Machine.execLwr d a b s
  | .rsum d a => Sys2Proof.Machine.execRsum d a s
  | .rmax d a => Sys2Proof.Machine.execRmax d a s
  | .scanx d a => Sys2Proof.Machine.execScanx d a s
  | .ldsw d a b => Sys2Proof.Machine.execLdsw d a b s
  | .ldsd d a b => Sys2Proof.Machine.execLdsd d a b s
  | .ldsq d a b => Sys2Proof.Machine.execLdsq d a b s
  | .stsw d a b => Sys2Proof.Machine.execStsw d a b s
  | .stsd d a b => Sys2Proof.Machine.execStsd d a b s
  | .stsq d a b => Sys2Proof.Machine.execStsq d a b s
  | .asadd d a b => Sys2Proof.Machine.execAsadd d a b s
  | .asmin d a b => Sys2Proof.Machine.execAsmin d a b s
  | .asmax d a b => Sys2Proof.Machine.execAsmax d a b s
  | .asand d a b => Sys2Proof.Machine.execAsand d a b s
  | .asor d a b => Sys2Proof.Machine.execAsor d a b s
  | .asxor d a b => Sys2Proof.Machine.execAsxor d a b s
  | .asxch d a b => Sys2Proof.Machine.execAsxch d a b s
  | .ascas d a b => Sys2Proof.Machine.execAscas d a b s
  | .binit a b => Sys2Proof.Machine.execBinit a b s
  | .barr a => Sys2Proof.Machine.execBarr a s
  | .barrtx a b => Sys2Proof.Machine.execBarrtx a b s
  | .bwait a b => Sys2Proof.Machine.execBwait a b s
  | .btest d a => Sys2Proof.Machine.execBtest d a s
  | .binv a => Sys2Proof.Machine.execBinv a s
  | .cpgs d a b => Sys2Proof.Machine.execCpgs d a b s
  | .waitc l xs c t => Sys2Proof.Machine.execWaitc l xs c t s
  | .waitp a b => Sys2Proof.Machine.execWaitp a b s
  | .ldb d a b => Sys2Proof.Machine.execLdb d a b s
  | .ldh d a b => Sys2Proof.Machine.execLdh d a b s
  | .ldw d a b => Sys2Proof.Machine.execLdw d a b s
  | .ldd d a b => Sys2Proof.Machine.execLdd d a b s
  | .ldq d a b => Sys2Proof.Machine.execLdq d a b s
  | .stb d a b => Sys2Proof.Machine.execStb d a b s
  | .sth d a b => Sys2Proof.Machine.execSth d a b s
  | .stw d a b => Sys2Proof.Machine.execStw d a b s
  | .std d a b => Sys2Proof.Machine.execStd d a b s
  | .stq d a b => Sys2Proof.Machine.execStq d a b s
  | .sldw d a b => Sys2Proof.Machine.execSldw d a b s
  | .sldd d a b => Sys2Proof.Machine.execSldd d a b s
  | .sstw d a b => Sys2Proof.Machine.execSstw d a b s
  | .sstd d a b => Sys2Proof.Machine.execSstd d a b s
  | .ord noret order scope => Sys2Proof.Machine.execOrd noret order scope s
  | .aadd d a b => Sys2Proof.Machine.execAadd d a b s
  | .asub d a b => Sys2Proof.Machine.execAsub d a b s
  | .amin d a b => Sys2Proof.Machine.execAmin d a b s
  | .amax d a b => Sys2Proof.Machine.execAmax d a b s
  | .aand d a b => Sys2Proof.Machine.execAand d a b s
  | .aor d a b => Sys2Proof.Machine.execAor d a b s
  | .axor d a b => Sys2Proof.Machine.execAxor d a b s
  | .axch d a b => Sys2Proof.Machine.execAxch d a b s
  | .acas d a b => Sys2Proof.Machine.execAcas d a b s
  | .ainc d a b => Sys2Proof.Machine.execAinc d a b s
  | .adec d a b => Sys2Proof.Machine.execAdec d a b s
  | .afadd d a b => Sys2Proof.Machine.execAfadd d a b s
  | .fence order scope => Sys2Proof.Machine.execFence order scope s
  | .mona a b => Sys2Proof.Machine.execMona a b s
  | .mwt a => Sys2Proof.Machine.execMwt a s
  | .pref a b => Sys2Proof.Machine.execPref a b s
  | .wcfl => Sys2Proof.Machine.execWcfl s
  | .gath d a b => Sys2Proof.Machine.execGath d a b s
  | .gathq d a b => Sys2Proof.Machine.execGathq d a b s
  | .pgld d a => Sys2Proof.Machine.execPgld d a s
  | .pgfree a => Sys2Proof.Machine.execPgfree a s
  | .fopen d a b => Sys2Proof.Machine.execFopen d a b s
  | .fadv d a => Sys2Proof.Machine.execFadv d a s
  | .fend d a => Sys2Proof.Machine.execFend d a s
  | .fclose a => Sys2Proof.Machine.execFclose a s
  | .fpos d a => Sys2Proof.Machine.execFpos d a s
  | .mxacq => Sys2Proof.Machine.execMxacq s
  | .mxtry d => Sys2Proof.Machine.execMxtry d s
  | .mxrel => Sys2Proof.Machine.execMxrel s
  | .mma d a b => Sys2Proof.Machine.execMma d a b s
  | .mmas d a b => Sys2Proof.Machine.execMmas d a b s
  | .accz d => Sys2Proof.Machine.execAccz d s
  | .accrd d a b => Sys2Proof.Machine.execAccrd d a b s
  | .accwr d a b => Sys2Proof.Machine.execAccwr d a b s
  | .accst d a b => Sys2Proof.Machine.execAccst d a b s
  | .mfence d => Sys2Proof.Machine.execMfence d s
  | .mwaitb a => Sys2Proof.Machine.execMwaitb a s
  | .setrst lit => Sys2Proof.Machine.execSetrst lit s
  | .qenq d a b => Sys2Proof.Machine.execQenq d a b s
  | .qenqm d a b => Sys2Proof.Machine.execQenqm d a b s
  | .qdeq d a b => Sys2Proof.Machine.execQdeq d a b s
  | .qdeqm d a b => Sys2Proof.Machine.execQdeqm d a b s
  | .qlen d a => Sys2Proof.Machine.execQlen d a s
  | .qseal a => Sys2Proof.Machine.execQseal a s
  | .qinfo d a => Sys2Proof.Machine.execQinfo d a s
  | .nint d a b => Sys2Proof.Machine.execNint d a b s
  | .nann a b => Sys2Proof.Machine.execNann a b s
  | .nseal a => Sys2Proof.Machine.execNseal a s
  | .ndrop a => Sys2Proof.Machine.execNdrop a s
  | .nstat d a => Sys2Proof.Machine.execNstat d a s
  | .xagree d a => Sys2Proof.Machine.execXagree d a s
  | .xsum d a => Sys2Proof.Machine.execXsum d a s
  | .plfill d a => Sys2Proof.Machine.execPlfill d a s
  | .plcopy d a => Sys2Proof.Machine.execPlcopy d a s
  | .plcmp d a => Sys2Proof.Machine.execPlcmp d a s
  | .plred d a => Sys2Proof.Machine.execPlred d a s
  | .snopen d a => Sys2Proof.Machine.execSnopen d a s
  | .snclose a => Sys2Proof.Machine.execSnclose a s
  | .snbind a => Sys2Proof.Machine.execSnbind a s
  | .trap k => Sys2Proof.Machine.execTrap k s
  | .tret => Sys2Proof.Machine.execTret s
  | .tmask k => Sys2Proof.Machine.execTmask k s
  | .tunmask k => Sys2Proof.Machine.execTunmask k s
  | .rdsr d k => Sys2Proof.Machine.execRdsr d k s
  | .wrsr d k => Sys2Proof.Machine.execWrsr d k s
  | .clk d => Sys2Proof.Machine.execClk d s
  | .brk k => Sys2Proof.Machine.execBrk k s
  | .deferredTrapDelivery tid => Sys2Proof.Machine.execDeferredTrapDelivery tid s
  | .siblingHaltStop gid => Sys2Proof.Machine.execSiblingHaltStop gid s
  | .handlerCountExpiry gid => Sys2Proof.Machine.execHandlerCountExpiry gid s
  | .starvationEpisode gid => Sys2Proof.Machine.execStarvationEpisode gid s
  | .slotDecision core => Sys2Proof.Machine.execSlotDecision core s
  | .teamRetirement tid => Sys2Proof.Machine.execTeamRetirement tid s
  | .childGridEnd grid => Sys2Proof.Machine.execChildGridEnd grid s
  | .sleepExpiry gid => Sys2Proof.Machine.execSleepExpiry gid s
  | .xacqGrant tid core role => Sys2Proof.Machine.execXacqGrant tid core role s
  | .compactorCopyDone core => Sys2Proof.Machine.execCompactorCopyDone core s
  | .registerDeadlockDetection tid => Sys2Proof.Machine.execRegisterDeadlockDetection tid s
  | .registerResultLand gid op => Sys2Proof.Machine.execRegisterResultLand gid op s
  | .anvilOwnershipGrant core => Sys2Proof.Machine.execAnvilOwnershipGrant core s
  | .tileOpStart core op => Sys2Proof.Machine.execTileOpStart core op s
  | .tileLineFetch core op => Sys2Proof.Machine.execTileLineFetch core op s
  | .tileOpComplete core op => Sys2Proof.Machine.execTileOpComplete core op s
  | .copyChunkDelivery op => Sys2Proof.Machine.execCopyChunkDelivery op s
  | .queueEnqueueStep r => Sys2Proof.Machine.execQueueEnqueueStep r s
  | .queueDequeueStep r => Sys2Proof.Machine.execQueueDequeueStep r s
  | .queueReply r => Sys2Proof.Machine.execQueueReply r s
  | .spillRefillLanding queue n => Sys2Proof.Machine.execSpillRefillLanding queue n s
  | .bellowsSample => Sys2Proof.Machine.execBellowsSample s
  | .crossbarGrant die slice writeBack => Sys2Proof.Machine.execCrossbarGrant die slice writeBack s
  | .l2Request r => Sys2Proof.Machine.execL2Request r s
  | .l2FillComplete line bad => Sys2Proof.Machine.execL2FillComplete line bad s
  | .l2Writeback w => Sys2Proof.Machine.execL2Writeback w s
  | .monitorTimeoutExpiry gid => Sys2Proof.Machine.execMonitorTimeoutExpiry gid s
  | .hearthRefreshWindow => Sys2Proof.Machine.execHearthRefreshWindow s
  | .hearthBankRead die off => Sys2Proof.Machine.execHearthBankRead die off s
  | .hearthWindowLoading die => Sys2Proof.Machine.execHearthWindowLoading die s
  | .cxlTransactionError pa store time => Sys2Proof.Machine.execCxlTransactionError pa store time s
  | .serviceWarpAtomic a => Sys2Proof.Machine.execServiceWarpAtomic a s
  | .poolAtomic a => Sys2Proof.Machine.execPoolAtomic a s
  | .atomicReply r => Sys2Proof.Machine.execAtomicReply r s
  | .pageWalk gid va acc => Sys2Proof.Machine.execPageWalk gid va acc s
  | .pageRequestRelease die => Sys2Proof.Machine.execPageRequestRelease die s
  | .prqReply word => Sys2Proof.Machine.execPrqReply word s
  | .prqHead func word => Sys2Proof.Machine.execPrqHead func word s
  | .bar0Write func off val => Sys2Proof.Machine.execBar0Write func off val s
  | .heatSample die pa => Sys2Proof.Machine.execHeatSample die pa s
  | .heatDecaySweep die => Sys2Proof.Machine.execHeatDecaySweep die s
  | .migrationLineCopy op => Sys2Proof.Machine.execMigrationLineCopy op s
  | .migrationFinish op => Sys2Proof.Machine.execMigrationFinish op s
  | .rowRetirement loc uncorrectable spare => Sys2Proof.Machine.execRowRetirement loc uncorrectable spare s
  | .interestArrival m => Sys2Proof.Machine.execInterestArrival m s
  | .interestRetry m n => Sys2Proof.Machine.execInterestRetry m n s
  | .interestSlotExpiry die entry slot => Sys2Proof.Machine.execInterestSlotExpiry die entry slot s
  | .tileAnswerArrival m => Sys2Proof.Machine.execTileAnswerArrival m s
  | .namedTileDelivery gid ticket m => Sys2Proof.Machine.execNamedTileDelivery gid ticket m s
  | .ticketExpiry gid ticket => Sys2Proof.Machine.execTicketExpiry gid ticket s
  | .nannCopyComplete op => Sys2Proof.Machine.execNannCopyComplete op s
  | .swageCountComplete tid fib => Sys2Proof.Machine.execSwageCountComplete tid fib s
  | .flitReceive port flit tag => Sys2Proof.Machine.execFlitReceive port flit tag s
  | .recLandingRetry port => Sys2Proof.Machine.execRecLandingRetry port s
  | .ackReceive port flit tag => Sys2Proof.Machine.execAckReceive port flit tag s
  | .ackSend port => Sys2Proof.Machine.execAckSend port s
  | .retryTimeout port => Sys2Proof.Machine.execRetryTimeout port s
  | .portForwardDecision port => Sys2Proof.Machine.execPortForwardDecision port s
  | .keySwitchover port => Sys2Proof.Machine.execKeySwitchover port s
  | .keySlotRetire port => Sys2Proof.Machine.execKeySlotRetire port s
  | .collFlitArrival port payload => Sys2Proof.Machine.execCollFlitArrival port payload s
  | .collectiveTimeout cid => Sys2Proof.Machine.execCollectiveTimeout cid s
  | .poolOpLine op => Sys2Proof.Machine.execPoolOpLine op s
  | .collectorServe die => Sys2Proof.Machine.execCollectorServe die s
  | .preemptStopComplete die => Sys2Proof.Machine.execPreemptStopComplete die s
  | .preemptSaveComplete die => Sys2Proof.Machine.execPreemptSaveComplete die s
  | .restorePlacement image => Sys2Proof.Machine.execRestorePlacement image s
  | .graphRunEnd graph => Sys2Proof.Machine.execGraphRunEnd graph s
  | .eventRingRelease func n => Sys2Proof.Machine.execEventRingRelease func n s
  | .reset => Sys2Proof.Machine.execReset s
  | .wipeComplete => Sys2Proof.Machine.execWipeComplete s
  | .firmwareVerified => Sys2Proof.Machine.execFirmwareVerified s
  | .powerLimitStep watts => Sys2Proof.Machine.execPowerLimitStep watts s
  | .thermalTrip => Sys2Proof.Machine.execThermalTrip s
  | .ageingSample a => Sys2Proof.Machine.execAgeingSample a s
  | .unknownCommand c => Sys2Proof.Machine.execUnknownCommand c s
  | .submitGraph c => Sys2Proof.Machine.execSubmitGraph c s
  | .endRun c => Sys2Proof.Machine.execEndRun c s
  | .sealQueue c => Sys2Proof.Machine.execSealQueue c s
  | .restartStage c => Sys2Proof.Machine.execRestartStage c s
  | .hearthDrain c => Sys2Proof.Machine.execHearthDrain c s
  | .hearthWrite c => Sys2Proof.Machine.execHearthWrite c s
  | .hearthOpen c => Sys2Proof.Machine.execHearthOpen c s
  | .setRoute c => Sys2Proof.Machine.execSetRoute c s
  | .clearNames c => Sys2Proof.Machine.execClearNames c s
  | .setCrucible c => Sys2Proof.Machine.execSetCrucible c s
  | .setXlate c => Sys2Proof.Machine.execSetXlate c s
  | .shootdown c => Sys2Proof.Machine.execShootdown c s
  | .setColl c => Sys2Proof.Machine.execSetColl c s
  | .setPool c => Sys2Proof.Machine.execSetPool c s
  | .heatRead c => Sys2Proof.Machine.execHeatRead c s
  | .setDecay c => Sys2Proof.Machine.execSetDecay c s
  | .migrate c => Sys2Proof.Machine.execMigrate c s
  | .retireRow c spare => Sys2Proof.Machine.execRetireRow c spare s
  | .clearRetlog c sigOk => Sys2Proof.Machine.execClearRetlog c sigOk s
  | .preempt c => Sys2Proof.Machine.execPreempt c s
  | .preemptFunction c => Sys2Proof.Machine.execPreemptFunction c s
  | .restore c => Sys2Proof.Machine.execRestore c s
  | .terminate c => Sys2Proof.Machine.execTerminate c s
  | .attach c => Sys2Proof.Machine.execAttach c s
  | .resume c => Sys2Proof.Machine.execResume c s
  | .linkTrain c pkg port => Sys2Proof.Machine.execLinkTrain c pkg port s
  | .keyInstall c => Sys2Proof.Machine.execKeyInstall c s
  | .setMode c => Sys2Proof.Machine.execSetMode c s
  | .quote c => Sys2Proof.Machine.execQuote c s
  | .lifecycle c sigOk => Sys2Proof.Machine.execLifecycle c sigOk s
  | .health c => Sys2Proof.Machine.execHealth c s
  | .hostPortAccess pa data write => Sys2Proof.Machine.execHostPortAccess pa data write s
  | .linkKeyManagement port dir slot linkid key => Sys2Proof.Machine.execLinkKeyManagement port dir slot linkid key s

end Sys2Proof.Machine
end

