-- ==== Sys2Proof/Machine/RunEvent.lean ====
section
/-!
DEFINITION. The step of an event in flight: the meaning that `exec` gives the row of its name; and the steps that the opcode
table has no row for: errors in registers, tiles, scratch and lines (R123, R171, R204, R233), the window of an expander (R238),
and a miss that waits for a way (R229).
-/
namespace Sys2Proof.Machine
open Sys2Proof

/-- An event in flight happens: the arm of a row of the opcode table is the meaning of the instruction constructor of its name. -/
def runEvent (e : Event) (s : State) : Host.Outcome State Fault Refusal :=
  match e with
  | .deferredTrapDelivery tid => Sys2Proof.Machine.execDeferredTrapDelivery tid s
  | .siblingHaltStop gid => Sys2Proof.Machine.execSiblingHaltStop gid s
  | .handlerCountExpiry gid => Sys2Proof.Machine.execHandlerCountExpiry gid s
  | .starvationEpisode gid => Sys2Proof.Machine.execStarvationEpisode gid s
  | .slotDecision core => Sys2Proof.Machine.execSlotDecision core s
  | .teamRetirement tid => Sys2Proof.Machine.execTeamRetirement tid s
  | .childGridEnd grid => Sys2Proof.Machine.execChildGridEnd grid s
  | .sleepExpiry gid => Sys2Proof.Machine.execSleepExpiry gid s
  | .xacqGrant tid core role => Sys2Proof.Machine.execXacqGrant tid core role s
  | .compactorCopyDone core => Sys2Proof.Machine.execCompactorCopyDone core s
  | .registerDeadlockDetection tid => Sys2Proof.Machine.execRegisterDeadlockDetection tid s
  | .registerResultLand gid op => Sys2Proof.Machine.execRegisterResultLand gid op s
  | .anvilOwnershipGrant core => Sys2Proof.Machine.execAnvilOwnershipGrant core s
  | .tileOpStart core op => Sys2Proof.Machine.execTileOpStart core op s
  | .tileLineFetch core op => Sys2Proof.Machine.execTileLineFetch core op s
  | .tileOpComplete core op => Sys2Proof.Machine.execTileOpComplete core op s
  | .copyChunkDelivery op => Sys2Proof.Machine.execCopyChunkDelivery op s
  | .queueEnqueueStep r => Sys2Proof.Machine.execQueueEnqueueStep r s
  | .queueDequeueStep r => Sys2Proof.Machine.execQueueDequeueStep r s
  | .queueReply r => Sys2Proof.Machine.execQueueReply r s
  | .spillRefillLanding queue n => Sys2Proof.Machine.execSpillRefillLanding queue n s
  | .bellowsSample => Sys2Proof.Machine.execBellowsSample s
  | .crossbarGrant die slice writeBack => Sys2Proof.Machine.execCrossbarGrant die slice writeBack s
  | .l2Request r => Sys2Proof.Machine.execL2Request r s
  | .l2FillComplete line bad => Sys2Proof.Machine.execL2FillComplete line bad s
  | .l2Writeback w => Sys2Proof.Machine.execL2Writeback w s
  | .monitorTimeoutExpiry gid => Sys2Proof.Machine.execMonitorTimeoutExpiry gid s
  | .hearthRefreshWindow => Sys2Proof.Machine.execHearthRefreshWindow s
  | .hearthBankRead die off => Sys2Proof.Machine.execHearthBankRead die off s
  | .hearthWindowLoading die => Sys2Proof.Machine.execHearthWindowLoading die s
  | .cxlTransactionError pa store time => Sys2Proof.Machine.execCxlTransactionError pa store time s
  | .serviceWarpAtomic a => Sys2Proof.Machine.execServiceWarpAtomic a s
  | .poolAtomic a => Sys2Proof.Machine.execPoolAtomic a s
  | .atomicReply r => Sys2Proof.Machine.execAtomicReply r s
  | .pageWalk gid va acc => Sys2Proof.Machine.execPageWalk gid va acc s
  | .pageRequestRelease die => Sys2Proof.Machine.execPageRequestRelease die s
  | .prqReply word => Sys2Proof.Machine.execPrqReply word s
  | .prqHead func word => Sys2Proof.Machine.execPrqHead func word s
  | .bar0Write func off val => Sys2Proof.Machine.execBar0Write func off val s
  | .heatSample die pa => Sys2Proof.Machine.execHeatSample die pa s
  | .heatDecaySweep die => Sys2Proof.Machine.execHeatDecaySweep die s
  | .migrationLineCopy op => Sys2Proof.Machine.execMigrationLineCopy op s
  | .migrationFinish op => Sys2Proof.Machine.execMigrationFinish op s
  | .rowRetirement loc uncorrectable spare => Sys2Proof.Machine.execRowRetirement loc uncorrectable spare s
  | .interestArrival m => Sys2Proof.Machine.execInterestArrival m s
  | .interestRetry m n => Sys2Proof.Machine.execInterestRetry m n s
  | .interestSlotExpiry die entry slot => Sys2Proof.Machine.execInterestSlotExpiry die entry slot s
  | .tileAnswerArrival m => Sys2Proof.Machine.execTileAnswerArrival m s
  | .namedTileDelivery gid ticket m => Sys2Proof.Machine.execNamedTileDelivery gid ticket m s
  | .ticketExpiry gid ticket => Sys2Proof.Machine.execTicketExpiry gid ticket s
  | .nannCopyComplete op => Sys2Proof.Machine.execNannCopyComplete op s
  | .swageCountComplete tid fib => Sys2Proof.Machine.execSwageCountComplete tid fib s
  | .flitReceive port flit tag => Sys2Proof.Machine.execFlitReceive port flit tag s
  | .recLandingRetry port => Sys2Proof.Machine.execRecLandingRetry port s
  | .ackReceive port flit tag => Sys2Proof.Machine.execAckReceive port flit tag s
  | .ackSend port => Sys2Proof.Machine.execAckSend port s
  | .retryTimeout port => Sys2Proof.Machine.execRetryTimeout port s
  | .portForwardDecision port => Sys2Proof.Machine.execPortForwardDecision port s
  | .keySwitchover port => Sys2Proof.Machine.execKeySwitchover port s
  | .keySlotRetire port => Sys2Proof.Machine.execKeySlotRetire port s
  | .collFlitArrival port payload => Sys2Proof.Machine.execCollFlitArrival port payload s
  | .collectiveTimeout cid => Sys2Proof.Machine.execCollectiveTimeout cid s
  | .poolOpLine op => Sys2Proof.Machine.execPoolOpLine op s
  | .collectorServe die => Sys2Proof.Machine.execCollectorServe die s
  | .preemptStopComplete die => Sys2Proof.Machine.execPreemptStopComplete die s
  | .preemptSaveComplete die => Sys2Proof.Machine.execPreemptSaveComplete die s
  | .restorePlacement image => Sys2Proof.Machine.execRestorePlacement image s
  | .graphRunEnd graph => Sys2Proof.Machine.execGraphRunEnd graph s
  | .eventRingRelease func n => Sys2Proof.Machine.execEventRingRelease func n s
  | .reset => Sys2Proof.Machine.execReset s
  | .wipeComplete => Sys2Proof.Machine.execWipeComplete s
  | .firmwareVerified => Sys2Proof.Machine.execFirmwareVerified s
  | .powerLimitStep watts => Sys2Proof.Machine.execPowerLimitStep watts s
  | .thermalTrip => Sys2Proof.Machine.execThermalTrip s
  | .ageingSample a => Sys2Proof.Machine.execAgeingSample a s
  | .unknownCommand c => Sys2Proof.Machine.execUnknownCommand c s
  | .submitGraph c => Sys2Proof.Machine.execSubmitGraph c s
  | .endRun c => Sys2Proof.Machine.execEndRun c s
  | .sealQueue c => Sys2Proof.Machine.execSealQueue c s
  | .restartStage c => Sys2Proof.Machine.execRestartStage c s
  | .hearthDrain c => Sys2Proof.Machine.execHearthDrain c s
  | .hearthWrite c => Sys2Proof.Machine.execHearthWrite c s
  | .hearthOpen c => Sys2Proof.Machine.execHearthOpen c s
  | .setRoute c => Sys2Proof.Machine.execSetRoute c s
  | .clearNames c => Sys2Proof.Machine.execClearNames c s
  | .setCrucible c => Sys2Proof.Machine.execSetCrucible c s
  | .setXlate c => Sys2Proof.Machine.execSetXlate c s
  | .shootdown c => Sys2Proof.Machine.execShootdown c s
  | .setColl c => Sys2Proof.Machine.execSetColl c s
  | .setPool c => Sys2Proof.Machine.execSetPool c s
  | .heatRead c => Sys2Proof.Machine.execHeatRead c s
  | .setDecay c => Sys2Proof.Machine.execSetDecay c s
  | .migrate c => Sys2Proof.Machine.execMigrate c s
  | .retireRow c spare => Sys2Proof.Machine.execRetireRow c spare s
  | .clearRetlog c sigOk => Sys2Proof.Machine.execClearRetlog c sigOk s
  | .preempt c => Sys2Proof.Machine.execPreempt c s
  | .preemptFunction c => Sys2Proof.Machine.execPreemptFunction c s
  | .restore c => Sys2Proof.Machine.execRestore c s
  | .terminate c => Sys2Proof.Machine.execTerminate c s
  | .attach c => Sys2Proof.Machine.execAttach c s
  | .resume c => Sys2Proof.Machine.execResume c s
  | .linkTrain c pkg port => Sys2Proof.Machine.execLinkTrain c pkg port s
  | .keyInstall c => Sys2Proof.Machine.execKeyInstall c s
  | .setMode c => Sys2Proof.Machine.execSetMode c s
  | .quote c => Sys2Proof.Machine.execQuote c s
  | .lifecycle c sigOk => Sys2Proof.Machine.execLifecycle c sigOk s
  | .health c => Sys2Proof.Machine.execHealth c s
  | .hostPortAccess pa data write => Sys2Proof.Machine.execHostPortAccess pa data write s
  | .registerError gid kind reg lane double => .next (s.registerError gid kind reg lane double)
  | .tileError tid tile word double => .next (s.tileError tid tile word double)
  | .scratchError tid off double => .next (s.scratchError tid off double)
  | .lineError pa => .next (s.lineError pa)
  | .cxlWindow port base size => .next (s.setWindow port base size)
  | .collStep cid => .next (s.collGo cid)
  | .commandFetch func => .next (s.nextCommand func)
  | .wayRetry slice set => .next (s.wayRetry slice set)
  | .functionReset func => .next (s.clearNames func)
  | .linkKeyManagement port dir slot linkid key => Sys2Proof.Machine.execLinkKeyManagement port dir slot linkid key s

end Sys2Proof.Machine
end

