-- ==== Sys2Proof/Machine/Select.lean ====
section
/-!
DEFINITION. The schedule of the machine (log entry 1): the clocks (R7, R8, R407), readiness (R24), the selection of R25,
fetch and decode of a group's instruction, the events in flight, the default schedule, and the placing of a program of
one instruction.
-/
namespace Sys2Proof.Machine
open Sys2Proof

/-! ## Readiness (R24) -/

/-- The group may be ready: it has been made before this cycle, it is not parked, asleep, stopped or being moved by the
compactor, the home slices have accepted what its FENCE or WCFL flushed, and no deferred trap is to be delivered to it first
(R24, R97, R116, R246, R395). -/
def State.mayIssue (s : State) (gid : Nat) (g : Group) : Bool :=
  g.park.isNone && g.sleep.isNone && decide (g.ready ≤ s.clk)
    && (match g.stop with | .running => true | .skid n => decide (n < 8) | .stopped => false)
    && (s.core g.core).moving.all (fun m => !(g.blocks.toList.contains (some m.src)))
    && g.flushing.all (fun n => (s.slice (s.homeSlice (n * 256))).wbs.all (fun w => decide (w.line ≠ n)))
    && (match s.team g.team with
        | some t => decide (t.halt ≠ .none) || !(t.held.any (fun h => s.deliverable g.team h && decide (s.receiver g.team h = some gid)))
        | none => false)

/-- How the fetch and decode of a group's instruction end: an instruction with the prefix it holds; a trap, in the pipe where
it is raised (R50, R87); or no instruction, the group parked in a translation wait or unable to issue now. -/
inductive Fetched where
  | instr (i : Instr) (pre : Option Prefix)
  | trap (x : TrapInfo) (k : Pipe)
  | wait
  | busy
  deriving DecidableEq, Repr

/-- What the words fetched decode to; RESERVED_FIELD is raised in the pipe of the word's opcode (R49, R50, R87). -/
def decoded (w : Word) (b : List Byte) : Fetched :=
  match decode b with
  | .ok (i, _) => .instr i none
  | .error _ => .trap (trapP 0x02) (if isAssigned (fOp w).toNat then pipeOf (fOp w).toNat else .scalar)

/-- An instruction word is fetched; a poisoned line that it lies in has been read (R233), once for the words of one line. -/
def State.fetchRead (s : State) (gid : Nat) (code : Option Nat) (a : Va) (new : Bool) : State × Fetch :=
  let (s, f) := s.fetchWord gid code a
  match f, s.fetchBad gid a with
  | .word _, some pa => (if new then s.poisonEvent pa else s, f)
  | _, _ => (s, f)

/-- The instruction at a group's PC (R29, R32, R49, R50): faults in fetching its words come first, those of the literal and of
the word that an ORD prefixes included. -/
def State.fetchInstr (s : State) (gid : Nat) (code : Option Nat) (pc : Va) : State × Fetched :=
  let (s, f) := s.fetchRead gid code pc true
  match f with
  | .fault x => (s, .trap x .scalar)
  | .wait => (s, .wait)
  | .busy => (s, .busy)
  | .word w =>
    let op := (fOp w).toNat
    if isLForm op || decide (op = 0x40E) then
      let (s, f2) := s.fetchRead gid code (pc + 4) (decide ((pc + 4).toNat % 256 = 0))
      match f2 with
      | .fault x => (s, .trap x .scalar)
      | .wait => (s, .wait)
      | .busy => (s, .busy)
      | .word lit => (s, decoded w (bytesOfWord w ++ (if isLForm op then bytesOfWord lit else [])))
    else (s, decoded w (bytesOfWord w))

/-- The group's next instruction: the one it holds from a translation wait, with no fetch (R385), else the one at its PC. -/
def State.nextInstr (s : State) (gid : Nat) (g : Group) (code : Option Nat) : State × Fetched :=
  match g.held with
  | some r =>
    (match r.instr with
     | some (i, pre) => if g.isAgain && !r.faulted then (s, .instr i pre) else s.fetchInstr gid code g.pc
     | none => s.fetchInstr gid code g.pc)
  | none => s.fetchInstr gid code g.pc

/-- An issue pipe of a core by number: vector pipes 0 and 1, scalar/control 2, memory/engine 3 (R87). -/
def pipeKind (p : Nat) : Pipe := if p ≤ 1 then .vector else if p = 2 then .scalar else .memory

/-- The first pipe of a kind. -/
def Pipe.first : Pipe → Nat
  | .vector => 0
  | .scalar => 2
  | .memory => 3

/-- The pipe that a fetched instruction needs, if it is one that may issue. -/
def Fetched.pipe : Fetched → Option Pipe
  | .instr i _ => some (Sys2Proof.Machine.pipe i)
  | .trap _ k => some k
  | _ => none

/-- A group's instruction is executed, or its trap taken, in a pipe; none where it cannot issue now. -/
def State.runIn (s : State) (time code : Option Nat) (gid : Nat) (g : Group) (p : Nat) (f : Fetched) : Option (Host.Outcome State Fault Refusal) :=
  let c : Cur := { gid := gid, pipe := p, pre := none, time := time, code := code, stalled := false, bank := 0, poison := [] }
  match f with
  | .wait => none
  | .busy => none
  | .trap x _ => some (.next ((s.stamp c g).takeTrap gid x))
  | .instr i pre =>
    match exec i { s with cur := some { c with pre := pre } } with
    | .next t => if (t.cur.map Cur.stalled) = some true then none else some (.next { t with cur := none })
    | o => some o

/-- The pipe has issued in this cycle. -/
def State.pipeBusy (s : State) (core p : Nat) : Bool := decide (Vector.at0 (s.core core).pipes p 0 = s.clk + 1)

/-- The pipe can accept an instruction: not the memory/engine pipe while a lane of an atomic waits for its queue (R267). -/
def State.accepts (s : State) (core : Nat) (k : Pipe) : Bool := !(decide (k = .memory) && s.pipeHeld core)

/-- A group is ready: its next instruction could issue in this cycle if it were selected; the groups of a halted team are not,
but for the one in its handler (R24, R108, R396). -/
def State.couldIssue (s : State) (gid : Nat) (g : Group) : Bool :=
  s.mayIssue gid g && decide (g.stop = .running)
    && (let (s1, f) := s.nextInstr gid g none
        match f.pipe with
        | none => false
        | some k => s.accepts g.core k && (s1.runIn none none gid g k.first f).isSome)

/-! ## Clocks -/

/-- An event that comes before anything else in the cycle in which it is due: the sample of a tick (R288), the record of a starvation
(R28), a request that its slice has granted (R227, R231). -/
def comesFirst : Event → Bool
  | .bellowsSample => true
  | .starvationEpisode _ => true
  | .l2Request _ => true
  | _ => false

/-- An event that takes effect in the very cycle in which it is due: what comes first in its cycle; the expiries of tickets, interests
and monitors (R271, R299, R309); grants of register blocks and of the Anvil, and a deadlock (R118, R120, R166); a launch decision
(R290); the end of a team with no handler (R400). -/
def State.punctual (s : State) (e : Event) : Bool :=
  comesFirst e || match e with
    | .ticketExpiry _ _ => true
    | .interestSlotExpiry _ _ _ => true
    | .monitorTimeoutExpiry _ => true
    | .xacqGrant _ _ _ => true
    | .registerDeadlockDetection _ => true
    | .anvilOwnershipGrant _ => true
    | .slotDecision _ => true
    | .siblingHaltStop gid => s.unhandled gid
    | _ => false

/-- The core cycles that pass before an event in flight may happen. -/
def State.cyclesTo (s : State) (d : Due) : Nat :=
  if d.onRef then ((d.at_ - s.refc) * s.dev.mhz - s.refrem + 1399) / 1400 else d.at_ - s.clk

/-- The starvation count of a group when `n` cycles have passed, as it is ready or not (R28). -/
def State.starved (s : State) (n : Nat) (p : Nat × Group) : Nat :=
  if s.couldIssue p.1 p.2 then p.2.starve + (if (p.2.last.map Prod.fst) = some s.clk then n - 1 else n) else 0

/-- Of `n` cycles, those until the starvation count of a group reaches its limit, if it does (R28). -/
def State.cyclesToStarve (s : State) (n : Nat) (p : Nat × Group) : Nat :=
  if p.2.starve < 1048576 ∧ 1048576 < p.2.starve + n ∧ s.couldIssue p.1 p.2 then
    Nat.min n (1048576 - p.2.starve + (if (p.2.last.map Prod.fst) = some s.clk then 1 else 0))
  else n

/-- Core cycles pass: at most `n`, and none beyond the cycle of an event that must happen there, or of a starvation. The clocks rise,
and the starvation counts of the groups that are ready (R7, R8, R28). -/
def State.pass (s : State) (n : Nat) : State :=
  let n := (s.agenda.filter (fun d => s.punctual d.ev)).foldl (fun m d => Nat.min m (s.cyclesTo d)) n
  let n := s.groups.foldl s.cyclesToStarve n
  if n = 0 then s
  else
    let r := s.refrem + 1400 * n
    let counts := s.groups.map (fun (p : Nat × Group) => (p.1, s.starved n p))
    let s' := { s with clk := s.clk + n, refc := s.refc + r / s.dev.mhz, refrem := r % s.dev.mhz }
    (s.groups.zip counts).foldl (fun s x =>
      if x.1.2.starve = x.2.2 then s
      else
        let s := s.setGroup x.1.1 (fun g => { g with starve := x.2.2 })
        if x.1.2.starve < 1048576 ∧ 1048576 ≤ x.2.2 then s.post (.starvationEpisode x.1.1) else s) s'

/-! ## Issue -/

/-- A pipe of a core may take an instruction of a kind in this cycle: it has not issued, it can accept it, vector pipe 0 is filled
before vector pipe 1, and a core's reservation of the cycle comes after the scalar/control pipe (R25, R87, R107). -/
def State.pipeFree (s : State) (core : Nat) (k : Pipe) (p : Nat) : Bool :=
  decide (pipeKind p = k) && !s.pipeBusy core p && s.accepts core k && (decide (p ≠ 1) || s.pipeBusy core 0)
    && !(decide (k = .scalar) && decide ((s.core core).placed = s.clk + 1))

/-- A group tries to issue in one of the pipes listed that suits its instruction and is free in this cycle; none where
it cannot. -/
def State.tryIssue (s : State) (time code : Option Nat) (pipes : List Nat) (gid : Nat) : Option (Host.Outcome State Fault Refusal) :=
  match s.group gid with
  | none => none
  | some g =>
    if (g.last.map Prod.fst) = some s.clk ∨ !s.mayIssue gid g then none
    else
      let (s1, f) := s.nextInstr gid g code
      match f with
      | .wait => if pipes.any (s.pipeFree g.core .scalar) then some (.next s1) else none
      | _ => f.pipe.bind (fun k => (pipes.find? (s.pipeFree g.core k)).bind (fun p => s1.runIn time code gid g p f))

/-- Candidate `a` goes before `b`: higher priority, then issued less recently, then lower context (R25). -/
def issuesBefore (a b : Group) : Bool :=
  decide (b.pri < a.pri) || (decide (a.pri = b.pri) && (decide (a.order < b.order) || (decide (a.order = b.order) && decide (a.ctx < b.ctx))))

/-- A group inserted in the order of selection. -/
def insertGroup (x : Nat × Group) : List (Nat × Group) → List (Nat × Group)
  | [] => [x]
  | y :: r => if issuesBefore x.2 y.2 then x :: y :: r else y :: insertGroup x r

/-- The groups of a core in the order of selection (R25). -/
def State.inOrder (s : State) (core : Nat) : List (Nat × Group) := (s.coreGroups core).foldl (fun l x => insertGroup x l) []

/-- The first group of a core that can issue in one of the pipes (R25). -/
def State.issueCore (s : State) (time code : Option Nat) (pipes : List Nat) (core : Nat) : Option (Host.Outcome State Fault Refusal) :=
  (s.inOrder core).findSome? (fun x => s.tryIssue time code pipes x.1)

/-! ## Events -/

/-- The link port by which a message has come: those of a port reach their consumers in order (R346). -/
def cameBy : Event → Option Nat
  | .collFlitArrival p _ => some p
  | .interestArrival m => (match m.who with | .upstream d _ => if 8 ≤ d then some (4 * m.die + (d - 8)) else none | _ => none)
  | .tileAnswerArrival m => m.via
  | _ => none

/-- No event that is ready has a property. -/
def State.noneReady (s : State) (p : Event → Bool) : Bool := !(s.agenda.any (fun d => d.ready s && p d.ev))

/-- A team's retirement is in its turn on its cores: before issue in the scalar/control pipe and reservations (R107). -/
def State.mayRetire (s : State) (tid : Nat) : Bool :=
  match s.team tid with
  | none => true
  | some t => t.slots.all (fun c => !s.pipeBusy c.1 2 && decide ((s.core c.1).placed ≠ s.clk + 1))

/-- The team has a slot on a core. -/
def State.teamOn (s : State) (tid core : Nat) : Bool := ((s.team tid).map (fun t => t.slots.any (fun c => decide (c.1 = core)))).getD false

/-- The `k`-th event in flight comes in its turn: after what comes first in its cycle, behind what came by its link port before
it (R346), in the order of R107 on its core, a lower core of a cluster first (R22), behind what comes first for its ticket
(R309), an answer to a saved team's ticket once the team is back (R310), an atomic's lane once it has entered its queue (R267), and
an enqueue or the step of a NANN, which are releases, after the atomics before it (R285, R308). -/
def State.inTurn (s : State) (k : Nat) (e : Event) : Bool :=
  (comesFirst e || s.noneReady comesFirst)
    && (match cameBy e with
        | some p => (s.agenda.take k).all (fun d => decide (cameBy d.ev ≠ some p))
        | none => true)
    && (match e with
        | .teamRetirement tid => s.mayRetire tid
        | .slotDecision c => s.noneReady (fun y => match y with
            | .teamRetirement tid => s.mayRetire tid && s.teamOn tid c
            | .slotDecision b => decide (b / 4 = c / 4) && decide (b < c)
            | _ => false)
        | .namedTileDelivery g t m => ((e.ticketRank g t).map (s.ticketFirst g t)).all (· = false)
            && (decide (m.status = 1) || !s.isSaved g)
        | .queueEnqueueStep r => (s.atomsBefore r.gid).all (fun o => decide (r.op ≤ o))
        | .nannCopyComplete op => ((Assoc.get s.nanns op).map (fun n => (s.atomsBefore n.gid).all (fun o => decide (op ≤ o)))).getD true
        | .ticketExpiry g t => !s.ticketFirst g t 4
        | .serviceWarpAtomic a => !s.unqueued.contains a
        | .poolAtomic a => !s.unqueued.contains a
        | _ => true)

/-- The `k`-th event in flight happens, if it is due and in its turn; else nothing does. -/
def State.playEvent (s : State) (k : Nat) : Host.Outcome State Fault Refusal :=
  match s.agenda[k]? with
  | none => .next s
  | some d => if d.ready s && s.inTurn k d.ev then runEvent d.ev { s with agenda := s.agenda.eraseIdx k } else .next s

/-! ## The schedule -/

/-- An event is due that comes before everything else in its cycle. -/
def State.firstDue (s : State) : Bool := !s.noneReady comesFirst

/-- A time that a turn asks for, within the 64 bits of a logical time with room above it (R248). -/
def askedTime (t : Option Nat) : Option Nat := t.map (fun n => Nat.min n (2 ^ 63))

/-- A turn of the schedule. -/
def State.playTurn (s : State) (t : Turn) (rest : List Turn) : Host.Outcome State Fault Refusal :=
  let s := ({ s with turns := rest }).pass t.wait
  match t.move with
  | .event k => s.playEvent k
  | .pipe c p => if s.firstDue then .next s else (s.issueCore (askedTime t.time) (askedTime t.code) [p] c).getD (.next s)

/-- The cores that hold groups, each once, starting with a different one each cycle. -/
def State.busyCores (s : State) : List Nat :=
  let l := (s.groups.map (fun (p : Nat × Group) => p.2.core)).eraseDups
  l.rotateLeft s.clk

/-- The first event in flight that is due, in its turn and of a kind. -/
def State.firstReady (s : State) (p : Event → Bool) : Option Nat :=
  ((s.agenda.zipIdx).find? (fun x => x.1.ready s && p x.1.ev && s.inTurn x.2 x.1.ev)).map Prod.snd

/-- An event is a launch decision. -/
def isDecision : Event → Bool
  | .slotDecision _ => true
  | _ => false

/-- The default schedule: the first event in flight that is due and in its turn, but for launch decisions; else a group that
can issue in this cycle, by R25 in its core; else a launch decision (R107); else one cycle passes. -/
def State.playDefault (s : State) : Host.Outcome State Fault Refusal :=
  match s.firstReady (fun e => !isDecision e) with
  | some k => s.playEvent k
  | none =>
    match s.busyCores.findSome? (fun c => s.issueCore none none [0, 1, 2, 3] c) with
    | some o => o
    | none =>
      match s.firstReady isDecision with
      | some k => s.playEvent k
      | none => .next (s.pass 1)

/-! ## A program of one instruction -/

/-- The pipe that an instruction's bytes need. -/
def pipeFor (b : List Byte) : Nat := (((decoded (BitVec.ofNat 32 (leNat (b.take 4))) b).pipe).map Pipe.first).getD 2

/-- An instruction placed at the PC of a new group of a new team on core 0, in identity-mapped HBM4E of die 0, which the
next step issues: the translation context, its two tables, the words, the team, the group and the turn. -/
def State.placeWord (s : State) (b : List Byte) : State :=
  let root := 0x100000
  let code := 0x200000
  let tid := s.uid + 1
  let f : Func := { s.func 0 with s1root := root, s2en := false, valid := true }
  let m := Memory.write (Memory.write s.mem root (natLe (root + 8192 + 1) 8)) (root + 8192) (natLe 0x73 8)
  let t := Team.made 0 (.stage 0 0) 0 0 0 [(0, 0)] 1 1 [] 0
  let s := { s with uid := tid, mem := Memory.write m code b, funcs := Assoc.put s.funcs 0 f, teams := Assoc.put s.teams tid t }
  let s := s.createGroup tid 0 0 .consumer 15 (BitVec.ofNat 56 code) [] 0 0
  let s := s.setGroup s.uid (fun g => { g with ready := 0 })
  { s with turns := { wait := 0, time := none, code := none, move := .pipe 0 (pipeFor b) } :: s.turns }

end Sys2Proof.Machine
end

