-- ==== Sys2Proof/Machine/Step.lean ====
section
/-!
DEFINITION. One step of the machine, and the placing of a word where the next step fetches it.
-/
namespace Sys2Proof.Machine
open Sys2Proof

/-- One step: what the schedule's next turn says, or the default schedule where it says nothing. -/
def step (s : State) : Host.Outcome State Fault Refusal :=
  match s.turns with
  | t :: rest => s.playTurn t rest
  | [] => s.playDefault

/-- The state with an instruction's words placed at the program counter of a fresh group that the next step issues. -/
def State.withFetchWord (s : State) (nbits w : Nat) : State := s.placeWord (tableBytes (w % 2 ^ nbits))

end Sys2Proof.Machine
end

