-- ==== Sys2Proof/Safety.lean ====
section
/-!
DEFINITION. The terms in which the claims about the machine are stated: when an instruction starts, how it ends, which
registers it may write, and what the memory's form is.
-/
namespace Sys2Proof.Machine
open Sys2Proof

/-! ## Starting and ending -/

/-- The issue in progress in `s` is of the group `g`, which holds no instruction from a translation wait, and the instruction passes
the checks before its own execution: R399, steps 3, 5 and 6 of R50, the readiness of R24 and R219, the poison check of R124. -/
abbrev Starts (i : Instr) (s : State) (c : Cur) (g : Group) : Prop :=
  s.cur = some c ∧ s.group c.gid = some g ∧ (placedByTime i && s.atomicDue c.gid) = false ∧ g.held = none ∧ gate i c.pre g = .go

/-- The instruction completes: its own execution leaves `b`, and the PC advances past its words. -/
abbrev RunsTo (i : Instr) (s : State) (c : Cur) (g : Group) (b : State) : Prop :=
  exec i s = .next (b.retired c g (g.pc + BitVec.ofNat 56 (issueBytes i c.pre)))

/-- The instruction completes with the PC at `pc`. -/
abbrev JumpsTo (i : Instr) (s : State) (c : Cur) (g : Group) (b : State) (pc : Va) : Prop :=
  exec i s = .next (b.retired c g pc)

/-- The instruction is done with the PC where it stands: the group is parked, or has left, or its PC has been set. A replay that it
goes on with is held with it. -/
abbrev StaysAt (i : Instr) (s : State) (c : Cur) (g : Group) (b : State) : Prop :=
  exec i s = .next (((b.setGroup c.gid (fun h => h.holding i (ixOf s c g))).leaveActive c.gid).countedBut (opnum i) c.gid g)

/-- The instruction takes a precise trap: the next state is the entry of R396. -/
abbrev TrapsWith (i : Instr) (s : State) (c : Cur) (g : Group) (x : TrapInfo) : Prop :=
  exec i s = .next ((s.begun i c g).takeTrap c.gid x)

/-- The instruction takes a precise trap in a state `b` that its own execution has reached. -/
abbrev FailsIn (i : Instr) (s : State) (c : Cur) (g : Group) (b : State) (x : TrapInfo) : Prop :=
  exec i s = .next ((b.setGroup c.gid (fun h => h.holding i (ixOf s c g))).takeTrap c.gid x)

/-- Whenever the instruction starts, it completes, and its whole effect is to change the issuing group: `f` of the group as it
stood at issue. -/
abbrev Sets (i : Instr) (f : Group → Group → Group) : Prop :=
  ∀ s c g, Starts i s c g → RunsTo i s c g ((s.begun i c g).setGroup c.gid (f g))

/-- Whenever the instruction starts in a state with `p`, it completes as `Sets` says. -/
abbrev SetsIf (i : Instr) (p : State → Group → Prop) (f : Group → Group → Group) : Prop :=
  ∀ s c g, Starts i s c g → p s g → RunsTo i s c g ((s.begun i c g).setGroup c.gid (f g))

/-! ## Values of lanes -/

/-- The integer elements of a lane combined, and fitted to the element type (R64, R140). -/
def intLane (g : Group) (d a b : Reg) (f : Int → Int → Int → Int) (L : Nat) : Word :=
  let t := mrEtype g.mr
  packElems t (fun k => fit t (mrSat g.mr)
    (f (elemVal t ((g.vr a.toNat).lane L) k) (elemVal t ((g.vr b.toNat).lane L) k) (elemVal t ((g.vr d.toNat).lane L) k)))

/-- The elements of a lane combined as bits of the element's width (R141 to R143). -/
def bitLane (g : Group) (d a b : Reg) (f : Nat → Nat → Nat → Nat → Nat) (L : Nat) : Word :=
  let t := mrEtype g.mr
  packElems t (fun k => f (elemWidth t) (elem t ((g.vr a.toNat).lane L) k) (elem t ((g.vr b.toNat).lane L) k)
    (elem t ((g.vr d.toNat).lane L) k))

/-- A compare holds for every element of a lane (R145). -/
def intTest (g : Group) (a b : Reg) (f : Int → Int → Bool) (L : Nat) : Bool :=
  let t := mrEtype g.mr
  (List.range (elemsPerLane t)).all (fun k => f (elemVal t ((g.vr a.toNat).lane L) k) (elemVal t ((g.vr b.toNat).lane L) k))

/-- The floating elements of a lane combined, inputs and result flushed under MR.ftz (R63, R65). -/
def floatLane (g : Group) (d a b : Reg) (f : Fp → Nat → Nat → Nat → Nat → Nat) (L : Nat) : Word :=
  let t := mrEtype g.mr
  let p := fpOf t
  let z := p.flush (mrFtz g.mr)
  packElems t (fun k => z (f p (mrRound g.mr) (z (elem t ((g.vr a.toNat).lane L) k)) (z (elem t ((g.vr b.toNat).lane L) k))
    (z (elem t ((g.vr d.toNat).lane L) k))))

/-- A floating compare holds for every element of a lane (R149). -/
def floatTest (g : Group) (a b : Reg) (f : FVal → FVal → Bool) (L : Nat) : Bool :=
  let t := mrEtype g.mr
  let p := fpOf t
  let z := p.flush (mrFtz g.mr)
  (List.range (elemsPerLane t)).all (fun k =>
    f (p.decode (z (elem t ((g.vr a.toNat).lane L) k))) (p.decode (z (elem t ((g.vr b.toNat).lane L) k))))

/-- One element of a lane at a time, as encodings (R148, R150 to R152). -/
def eachElem (g : Group) (a : Reg) (f : Nat → Nat) (L : Nat) : Word :=
  packElems (mrEtype g.mr) (fun k => f (elem (mrEtype g.mr) ((g.vr a.toNat).lane L) k))

/-! ## What an instruction may write -/

/-- The instruction names the scalar register as a destination. -/
def writesScalar (i : Instr) (g : Group) (r : Nat) : Bool :=
  (uses (useCtx i g) i).any (fun u => match u with
    | .s q n _ true => decide (q.toNat ≤ r) && decide (r < q.toNat + n)
    | .even q _ true => decide (r = q.toNat ∨ r = q.toNat + 1)
    | _ => false)

/-- The instruction names the vector register as a destination. -/
def writesVector (i : Instr) (g : Group) (r : Nat) : Bool :=
  (uses (useCtx i g) i).any (fun u => match u with
    | .v q n _ true => decide (q.toNat ≤ r) && decide (r < q.toNat + n)
    | _ => false)

/-- The instruction names the predicate as a destination. -/
def writesPred (i : Instr) (g : Group) (r : Nat) : Bool :=
  (uses (useCtx i g) i).any (fun u => match u with | .p q _ true => decide (q.toNat = r) | _ => false)

/-- Instructions of classes 1 to 6 that act on registers alone: all but XACQ, XTRY and XREL, which move register blocks. -/
def registerOnly (i : Instr) : Bool :=
  decide (1 ≤ opnum i / 128) && decide (opnum i / 128 ≤ 6) && !(decide (opnum i / 128 = 6) && decide (opnum i % 128 ≤ 2))
    && isAssigned (opnum i)

/-- The instruction is SETMODE or SETMODES with a value that MR does not take (R37). -/
def illegalMode (i : Instr) (g : Group) : Bool :=
  match i with
  | .setmode lit => !mrLegal lit
  | .setmodes a => !mrLegal ((g.sr a.toNat).extractLsb' 0 32)
  | _ => false

/-- What a register-only instruction may change in its group, taken back: the register files, the flags of PQ, and what every
issue records, the single-bit errors that it corrects among them (R123). -/
def Group.withRegistersOf (h g : Group) : Group :=
  { h with v := g.v, s := g.s, p := g.p, exec := g.exec, mr := g.mr, qflags := g.qflags, bad := g.bad, pend := g.pend,
           owed := g.owed, times := g.times, soft := g.soft, regerr := { h.regerr with ce := g.regerr.ce }, flushing := g.flushing,
           pc := g.pc, last := g.last, order := g.order, starve := g.starve, skip := g.skip,
           stop := g.stop, trap := { h.trap with hcount := g.trap.hcount } }

/-! ## Memory -/

/-- The memory is in its canonical form. -/
def State.memWf (s : State) : Prop := Memory.wf s.mem = true

/-- The state is in its form: memory and every scratch canonical, the writes of every line newest first, the keys of teams and groups
strictly rising. Every state that a run from reset reaches is (`Obligations.FormKept`). -/
def State.formed (s : State) : Prop :=
  s.memWf ∧ (∀ p, p ∈ s.teams → Memory.wf p.2.scratch = true) ∧ (∀ p, p ∈ s.saved → Memory.wf p.2.team.scratch = true)
  ∧ (∀ p, p ∈ s.lines → (p.2.versions.map Version.time).Pairwise (· ≥ ·))
  ∧ (s.teams.map Prod.fst).Pairwise (· < ·) ∧ (s.groups.map Prod.fst).Pairwise (· < ·)

/-- Addresses of a store's bytes. -/
def inRange (pa n a : Nat) : Bool := decide (pa ≤ a) && decide (a < pa + n)

/-! ## Accesses -/

/-- `L` is the lowest lane of a mask with a property. -/
def lowestLane (m : Mask) (p : Nat → Prop) (L : Nat) : Prop := m.has L = true ∧ p L ∧ ∀ k, k < L → m.has k = true → ¬ p k

/-- Scratch offset of a lane (R200). -/
def scratchAt (g : Group) (a b : Reg) (L : Nat) : Nat := (g.sr a.toNat).toNat + ((g.vr b.toNat).lane L).toNat

/-- Effective address of a lane (R241), and that of the whole group (R242). -/
def laneAt (g : Group) (a b : Reg) (L : Nat) : Dword := g.sr a.toNat + ((g.vr b.toNat).lane L).zeroExtend 64
def wholeAt (g : Group) (a b : Reg) : Dword := g.sr a.toNat + g.sr b.toNat

/-- The pages of a vector access answer: its lanes, translated in ascending order once the operation is counted on its path,
lie at `l`, and the state is `z`. -/
def Reaches (i : Instr) (s : State) (c : Cur) (g : Group) (acc : Acc) (path : Nat) (a b : Reg) (z : State) (l : List Target) : Prop :=
  let y := (s.begun i c g).setGroup c.gid (fun h => h.raisePath path (s.uid + 1) 0)
  y.translateLanes (y.groupXc c.gid) acc (g.liveNow.lanes.map (fun L => (L, laneAt g a b L)))
    = (z, { ok := l, faults := [], waits := [], pages := [] })

/-- A vector access whose live lanes are aligned and translate, and whose accesses neither fault nor wait for an owner,
completes: each lane accesses what it addresses, and the results of `n` registers from `d` are due (R136, R241, R243). -/
def Accesses (i : Instr) (acc : Acc) (path : Option Prefix → Nat) (z : Nat) (a b : Reg) (d n : Nat) (ready : State → Cur → Group → Prop)
    (perform : Ix → State → Nat → Target → State × LaneRes) : Prop :=
  ∀ s c g y l u vals, Starts i s c g → ready (s.begun i c g) c g →
    (∀ L, g.liveNow.has L = true → (laneAt g a b L).toNat % z = 0) →
    Reaches i s c g acc (path c.pre) a b y l →
    performLanes (perform (ixOf s c g)) l [] y = (u, { vals := vals, faults := [], owned := [], wait := false }) →
    RunsTo i s c g (((u.setGroup c.gid (fun h => h.results (s.uid + 1) d n vals)).postLand c.gid (s.uid + 1)).setGroup c.gid
      (fun h => h.setHeld none))

/-- A vector access whose lowest misaligned live lane is `L` traps with that lane's address (R241). -/
def Misaligned (i : Instr) (z : Nat) (a b : Reg) (ready : State → Cur → Group → Prop) : Prop :=
  ∀ s c g L, Starts i s c g → ready (s.begun i c g) c g → lowestLane g.liveNow (fun L => (laneAt g a b L).toNat % z ≠ 0) L →
    TrapsWith i s c g (trapPA 0x28 (laneAt g a b L) 0)

/-- The lanes of a vector access, performed, change no byte of memory but those that `touches` names of an address translated to: no combining
buffer holds a byte, no migration mirrors a line, and no line accessed is poisoned. -/
def AccessKeeps (i : Instr) (acc : Acc) (path : Nat) (a b : Reg) (perform : Ix → State → Nat → Target → State × LaneRes)
    (touches : Nat → Nat → Bool) : Prop :=
  ∀ s c g y l u q, Starts i s c g → latentOf i g = [] → s.migrations = [] → (∀ p, p ∈ s.cores → p.2.combine = []) →
    Reaches i s c g acc path a b y l → (∀ q, q ∈ l → (y.line (lineOf q.pa)).bad = false) →
    performLanes (perform (ixOf s c g)) l [] y = (u, q) →
    ∀ x, (∀ q, q ∈ l → touches q.pa x = false) → Memory.get u.mem x = Memory.get s.mem x

/-- A whole-group access that is aligned and translates, and does not wait for an owner, completes (R242). -/
def AccessesWhole (i : Instr) (acc : Acc) (path z : Nat) (a b : Reg) (perform : Ix → State → Nat → Target → State × LaneRes)
    (result : Nat → Group → Nat → Bool → Group) : Prop :=
  ∀ s c g y pa typ u v bad, Starts i s c g → (wholeAt g a b).toNat % z = 0 →
    (s.begun i c g).translate ((s.begun i c g).groupXc c.gid) (wholeAt g a b) acc = (y, .ok pa typ) →
    perform (ixOf s c g) (y.setGroup c.gid (fun h => h.raisePath path (s.uid + 1) 0)) 0 { lane := whole, va := wholeAt g a b, pa := pa, typ := typ }
      = (u, .ok v bad) →
    RunsTo i s c g ((u.setGroup c.gid (fun h => result (s.uid + 1) h v bad)).postLand c.gid (s.uid + 1))

/-- The prefix asks for no result. -/
def noResult (p : Option Prefix) : Bool := (p.map Prefix.noret).getD false

/-- The byte of physical memory at an address as of a logical time (R249). -/
def State.byteAtTime (s : State) (t a : Nat) : Byte := byteAt t a (s.line (lineOf a)).versions (Memory.get s.mem a)

/-! ## Commands -/

/-- The command passes the checks that every command passes (R416, R421): no wipe runs, its function may give it, and what its
entry reserves or does not use is zero. -/
def passes (s : State) (c : Cmd) : Prop :=
  s.dev.wiping = false ∧ ∃ pf n, cmdShape c.op.toNat = some (pf, n) ∧ (pf = true → c.func = 0) ∧ c.rsv = 0
    ∧ ∀ a, a ∈ (cmdArgs c).drop n → a = 0

end Sys2Proof.Machine
end

