-- ==== Sys2Proof/Certificates/Slice0/Obligations.lean ====
section
/-!
DEFINITION. The statements for the provers. Each instruction has a statement whose conclusion is that it answers a next
state, and which one; frames, invariants, encodings and the steps of the engines follow.
-/
open Sys2Proof Sys2Proof.Machine

/-! ## Scalars, predicates and modes -/

/-- R161, R162, R164: a scalar instruction writes its result of the scalars as they stood at issue. R163: a scalar compare writes 128 equal
bits. -/
def Obligations.ScalarArithmetic : Prop :=
  (∀ d a b : Reg,
  Sets (.sadd d a b) (fun g h => h.setS d.toNat (g.sr a.toNat + g.sr b.toNat))
  ∧ Sets (.ssub d a b) (fun g h => h.setS d.toNat (g.sr a.toNat - g.sr b.toNat))
  ∧ Sets (.smul d a b) (fun g h => h.setS d.toNat (g.sr a.toNat * g.sr b.toNat))
  ∧ Sets (.smin d a b) (fun g h => h.setS d.toNat (if (g.sr a.toNat).toInt ≤ (g.sr b.toNat).toInt then g.sr a.toNat else g.sr b.toNat))
  ∧ Sets (.smax d a b) (fun g h => h.setS d.toNat (if (g.sr a.toNat).toInt ≤ (g.sr b.toNat).toInt then g.sr b.toNat else g.sr a.toNat))
  ∧ Sets (.sand d a b) (fun g h => h.setS d.toNat (g.sr a.toNat &&& g.sr b.toNat))
  ∧ Sets (.sor d a b) (fun g h => h.setS d.toNat (g.sr a.toNat ||| g.sr b.toNat))
  ∧ Sets (.sxor d a b) (fun g h => h.setS d.toNat (g.sr a.toNat ^^^ g.sr b.toNat))
  ∧ Sets (.sshl d a b) (fun g h => h.setS d.toNat (BitVec.ofNat 64 ((g.sr a.toNat).toNat * 2 ^ (g.sr b.toNat).toNat)))
  ∧ Sets (.sshr d a b) (fun g h => h.setS d.toNat (BitVec.ofNat 64 ((g.sr a.toNat).toNat / 2 ^ (g.sr b.toNat).toNat)))
  ∧ Sets (.ssar d a b) (fun g h => h.setS d.toNat (BitVec.ofInt 64 ((g.sr a.toNat).toInt / 2 ^ (g.sr b.toNat).toNat)))
  ∧ Sets (.smov d a) (fun g h => h.setS d.toNat (g.sr a.toNat))
  ∧ Sets (.sclz d a) (fun g h => h.setS d.toNat (BitVec.ofNat 64
      (if (g.sr a.toNat).toNat = 0 then 64 else 63 - Nat.log2 (g.sr a.toNat).toNat)))
  ∧ Sets (.spopc d a) (fun g h => h.setS d.toNat (BitVec.ofNat 64
      ((List.range 64).filter (fun n => (g.sr a.toNat).getLsbD n)).length))
  ∧ (∀ lit : Word, Sets (.smovi d lit) (fun _ h => h.setS d.toNat (BitVec.ofInt 64 lit.toInt)))
  ∧ (∀ k : BitVec 14, Sets (.saddi d k) (fun g h => h.setS d.toNat (g.sr d.toNat + BitVec.ofInt 64 k.toInt))))
  ∧ (∀ d a b : Reg,
  Sets (.scmpeq d a b) (fun g h => h.setP d.toNat (Mask.all (decide (g.sr a.toNat = g.sr b.toNat))))
  ∧ Sets (.scmpne d a b) (fun g h => h.setP d.toNat (Mask.all (decide (g.sr a.toNat ≠ g.sr b.toNat))))
  ∧ Sets (.scmplt d a b) (fun g h => h.setP d.toNat (Mask.all (decide ((g.sr a.toNat).toInt < (g.sr b.toNat).toInt))))
  ∧ Sets (.scmple d a b) (fun g h => h.setP d.toNat (Mask.all (decide ((g.sr a.toNat).toInt ≤ (g.sr b.toNat).toInt))))
  ∧ Sets (.scmpltn d a b) (fun g h => h.setP d.toNat (Mask.all (decide ((g.sr a.toNat).toNat < (g.sr b.toNat).toNat))))
  ∧ Sets (.scmplen d a b) (fun g h => h.setP d.toNat (Mask.all (decide ((g.sr a.toNat).toNat ≤ (g.sr b.toNat).toNat)))))

/-- R130, R131: the predicate instructions act in the live lanes; PCNT counts, and PFFS finds, the live ones. R37, R128, R129: MR and EXEC
read and written, predicates moved to and from scalar pairs. -/
def Obligations.PredicatesAndModes : Prop :=
  (∀ d a b : Reg,
  Sets (.pand d a b) (fun g h => h.setPLanes d.toNat g.liveNow (g.pr a.toNat &&& g.pr b.toNat))
  ∧ Sets (.por d a b) (fun g h => h.setPLanes d.toNat g.liveNow (g.pr a.toNat ||| g.pr b.toNat))
  ∧ Sets (.pxor d a b) (fun g h => h.setPLanes d.toNat g.liveNow (g.pr a.toNat ^^^ g.pr b.toNat))
  ∧ Sets (.pandn d a b) (fun g h => h.setPLanes d.toNat g.liveNow (g.pr a.toNat &&& ~~~ g.pr b.toNat))
  ∧ Sets (.pnot d a) (fun g h => h.setPLanes d.toNat g.liveNow (~~~ g.pr a.toNat))
  ∧ (∀ k : Bool, Sets (.pset d k) (fun g h => h.setPLanes d.toNat g.liveNow (Mask.all k)))
  ∧ Sets (.pcnt d a) (fun g h => h.setS d.toNat (BitVec.ofNat 64
      ((List.range 128).filter (fun L => g.liveNow.has L && (g.pr a.toNat).has L)).length))
  ∧ Sets (.pffs d a) (fun g h => h.setS d.toNat (BitVec.ofNat 64
      (((List.range 128).find? (fun L => g.liveNow.has L && (g.pr a.toNat).has L)).getD 128))))
  ∧ (∀ d a : Reg,
  (∀ lit : Word,
    SetsIf (.setmode lit) (fun _ _ => mrLegal lit = true)
      (fun _ h => { h with mr := lit &&& 0x3FFFF, bad := h.bad.filter (fun p => !(decide (p.kind = .special ∧ p.reg = 1))),
                           soft := h.soft.filter (fun p => !(decide (p.kind = .special ∧ p.reg = 1))) })
    ∧ ∀ s c g, Starts (.setmode lit) s c g → mrLegal lit = false → TrapsWith (.setmode lit) s c g (trapP 0x02))
  ∧ SetsIf (.setmodes a) (fun _ g => mrLegal ((g.sr a.toNat).extractLsb' 0 32) = true)
      (fun g h => { h with mr := (g.sr a.toNat).extractLsb' 0 32 &&& 0x3FFFF,
                           bad := h.bad.filter (fun p => !(decide (p.kind = .special ∧ p.reg = 1))),
                           soft := h.soft.filter (fun p => !(decide (p.kind = .special ∧ p.reg = 1))) })
  ∧ (∀ s c g, Starts (.setmodes a) s c g → mrLegal ((g.sr a.toNat).extractLsb' 0 32) = false →
      TrapsWith (.setmodes a) s c g (trapP 0x02))
  ∧ Sets (.rdmode d) (fun g h => h.setS d.toNat (BitVec.ofNat 64 g.mr.toNat))
  ∧ Sets (.rdx d) (fun g h => (h.setS d.toNat (g.exec.extractLsb' 0 64)).setS (d.toNat + 1) (g.exec.extractLsb' 64 64))
  ∧ Sets (.wrx a) (fun g h => h.setExec (g.sr (a.toNat + 1) ++ g.sr a.toNat : BitVec 128))
  ∧ Sets (.prds d a) (fun g h =>
      (h.setS d.toNat ((g.pr a.toNat).extractLsb' 0 64)).setS (d.toNat + 1) ((g.pr a.toNat).extractLsb' 64 64))
  ∧ Sets (.pwrs d a) (fun g h => h.setP d.toNat (g.sr (a.toNat + 1) ++ g.sr a.toNat : BitVec 128)))

/-! ## Vectors -/

/-- R140: element-wise integer arithmetic is exact, then fitted to the element type. -/
def Obligations.VectorArithmetic : Prop := ∀ d a b : Reg,
  Sets (.add d a b) (fun g h => h.setV d.toNat g.liveNow (intLane g d a b (fun x y _ => x + y)))
  ∧ Sets (.sub d a b) (fun g h => h.setV d.toNat g.liveNow (intLane g d a b (fun x y _ => x - y)))
  ∧ Sets (.mul d a b) (fun g h => h.setV d.toNat g.liveNow (intLane g d a b (fun x y _ => x * y)))
  ∧ Sets (.mulh d a b) (fun g h => h.setV d.toNat g.liveNow (intLane g d a b (fun x y _ => x * y / 2 ^ elemWidth (mrEtype g.mr))))
  ∧ Sets (.mad d a b) (fun g h => h.setV d.toNat g.liveNow (intLane g d a b (fun x y z => x * y + z)))
  ∧ Sets (.min d a b) (fun g h => h.setV d.toNat g.liveNow (intLane g d a b (fun x y _ => min x y)))
  ∧ Sets (.max d a b) (fun g h => h.setV d.toNat g.liveNow (intLane g d a b (fun x y _ => max x y)))
  ∧ Sets (.abs d a) (fun g h => h.setV d.toNat g.liveNow (intLane g d a a (fun x _ _ => |x|)))
  ∧ Sets (.neg d a) (fun g h => h.setV d.toNat g.liveNow (intLane g d a a (fun x _ _ => -x)))

/-- R141 to R144: bitwise operations, shifts, counts, bit fields, selection and moves in the live lanes. -/
def Obligations.VectorBits : Prop := ∀ d a b : Reg,
  Sets (.and d a b) (fun g h => h.setV d.toNat g.liveNow (fun L => (g.vr a.toNat).lane L &&& (g.vr b.toNat).lane L))
  ∧ Sets (.or d a b) (fun g h => h.setV d.toNat g.liveNow (fun L => (g.vr a.toNat).lane L ||| (g.vr b.toNat).lane L))
  ∧ Sets (.xor d a b) (fun g h => h.setV d.toNat g.liveNow (fun L => (g.vr a.toNat).lane L ^^^ (g.vr b.toNat).lane L))
  ∧ Sets (.not d a) (fun g h => h.setV d.toNat g.liveNow (fun L => ~~~ (g.vr a.toNat).lane L))
  ∧ Sets (.shl d a b) (fun g h => h.setV d.toNat g.liveNow (bitLane g d a b (fun w x n _ => if w ≤ n then 0 else x * 2 ^ n)))
  ∧ Sets (.shr d a b) (fun g h => h.setV d.toNat g.liveNow (bitLane g d a b (fun w x n _ => if w ≤ n then 0 else x / 2 ^ n)))
  ∧ Sets (.sar d a b) (fun g h => h.setV d.toNat g.liveNow (bitLane g d a b (fun w x n _ =>
      lowBits w (toSigned w x / 2 ^ min w n))))
  ∧ Sets (.clz d a) (fun g h => h.setV d.toNat g.liveNow (bitLane g d a a (fun w x _ _ => if x = 0 then w else w - 1 - Nat.log2 x)))
  ∧ Sets (.popc d a) (fun g h => h.setV d.toNat g.liveNow (bitLane g d a a (fun w x _ _ =>
      ((List.range w).filter (fun n => x.testBit n)).length)))
  ∧ Sets (.bfx d a b) (fun g h => h.setV d.toNat g.liveNow (bitLane g d a b (fun w x c _ =>
      bitExtract (elemSigned (mrEtype g.mr)) w x c)))
  ∧ Sets (.bins d a b) (fun g h => h.setV d.toNat g.liveNow (bitLane g d a b bitInsert))
  ∧ Sets (.sel d a b) (fun g h => h.setV d.toNat g.liveNow (fun L =>
      if (g.pr 0).has L then (g.vr a.toNat).lane L else (g.vr b.toNat).lane L))
  ∧ Sets (.mov d a) (fun g h => h.setV d.toNat g.liveNow (fun L => (g.vr a.toNat).lane L))
  ∧ Sets (.movs d a) (fun g h => h.setV d.toNat g.liveNow (fun _ => (g.sr a.toNat).extractLsb' 0 32))
  ∧ (∀ lit : Word, Sets (.movi d lit) (fun g h => h.setV d.toNat g.liveNow (fun _ => lit)))
  ∧ Sets (.laneid d) (fun g h => h.setV d.toNat g.liveNow (fun L => BitVec.ofNat 32 L))

/-- R145, R149: a vector compare writes, in each live lane, whether it holds for every element of the lane. -/
def Obligations.VectorCompares : Prop := ∀ d a b : Reg,
  Sets (.cmpeq d a b) (fun g h => h.setPLanes d.toNat g.liveNow (Mask.of (intTest g a b (fun x y => decide (x = y)))))
  ∧ Sets (.cmpne d a b) (fun g h => h.setPLanes d.toNat g.liveNow (Mask.of (intTest g a b (fun x y => decide (x ≠ y)))))
  ∧ Sets (.cmplt d a b) (fun g h => h.setPLanes d.toNat g.liveNow (Mask.of (intTest g a b (fun x y => decide (x < y)))))
  ∧ Sets (.cmple d a b) (fun g h => h.setPLanes d.toNat g.liveNow (Mask.of (intTest g a b (fun x y => decide (x ≤ y)))))
  ∧ Sets (.cmpgt d a b) (fun g h => h.setPLanes d.toNat g.liveNow (Mask.of (intTest g a b (fun x y => decide (y < x)))))
  ∧ Sets (.cmpge d a b) (fun g h => h.setPLanes d.toNat g.liveNow (Mask.of (intTest g a b (fun x y => decide (y ≤ x)))))
  ∧ Sets (.fcmpeq d a b) (fun g h => h.setPLanes d.toNat g.liveNow (Mask.of (floatTest g a b (fun x y => x.eq y))))
  ∧ Sets (.fcmpne d a b) (fun g h => h.setPLanes d.toNat g.liveNow (Mask.of (floatTest g a b (fun x y => !x.eq y))))
  ∧ Sets (.fcmplt d a b) (fun g h => h.setPLanes d.toNat g.liveNow (Mask.of (floatTest g a b (fun x y => x.lt y))))
  ∧ Sets (.fcmple d a b) (fun g h => h.setPLanes d.toNat g.liveNow (Mask.of (floatTest g a b (fun x y => x.lt y || x.eq y))))
  ∧ Sets (.fcmpgt d a b) (fun g h => h.setPLanes d.toNat g.liveNow (Mask.of (floatTest g a b (fun x y => y.lt x))))
  ∧ Sets (.fcmpge d a b) (fun g h => h.setPLanes d.toNat g.liveNow (Mask.of (floatTest g a b (fun x y => y.lt x || x.eq y))))
  ∧ Sets (.fcmpun d a b) (fun g h => h.setPLanes d.toNat g.liveNow (Mask.of (floatTest g a b (fun x y => decide (x = .nan ∨ y = .nan)))))

/-- R147, R148, R152: floating arithmetic rounds the exact result once by MR; FABS, FNEG and FCLASS act on encodings.
The model's own choices here: log entry 72. -/
def Obligations.FloatArithmetic : Prop := ∀ d a b : Reg,
  Sets (.fadd d a b) (fun g h => h.setV d.toNat g.liveNow (floatLane g d a b (fun p m x y _ => p.sum m (p.decode x) (p.decode y))))
  ∧ Sets (.fsub d a b) (fun g h => h.setV d.toNat g.liveNow (floatLane g d a b (fun p m x y _ =>
      p.sum m (p.decode x) (p.decode y).negate)))
  ∧ Sets (.fmul d a b) (fun g h => h.setV d.toNat g.liveNow (floatLane g d a b (fun p m x y _ =>
      p.ofVal m ((p.decode x).times (p.decode y)))))
  ∧ Sets (.fma d a b) (fun g h => h.setV d.toNat g.liveNow (floatLane g d a b (fun p m x y z =>
      p.sum m ((p.decode x).times (p.decode y)) (p.decode z))))
  ∧ Sets (.fmin d a b) (fun g h => h.setV d.toNat g.liveNow (floatLane g d a b (fun p _ x y _ => p.least x y)))
  ∧ Sets (.fmax d a b) (fun g h => h.setV d.toNat g.liveNow (floatLane g d a b (fun p _ x y _ => p.greatest x y)))
  ∧ Sets (.fabs d a) (fun g h => h.setV d.toNat g.liveNow (eachElem g a (fun x => x % (fpOf (mrEtype g.mr)).signBit)))
  ∧ Sets (.fneg d a) (fun g h => h.setV d.toNat g.liveNow (eachElem g a (fun x => x ^^^ (fpOf (mrEtype g.mr)).signBit)))
  ∧ Sets (.fclass d a) (fun g h => h.setV d.toNat g.liveNow (eachElem g a (fpOf (mrEtype g.mr)).classOf))

/-- R150, R151: the functions of Table 6.5 by number, and the square root. FSQRT rounds, by MR.round, a number that stands on the side of
every number of 26 bits on which the root stands; FRCP's exact result stands so to the reciprocal. Every other result is an infinity where the
exact result overflows, or within the bound of Table 6.5 of the exact result, or its rounding (bf16 and f16 FRCP and FRSQ); FLOG2 at powers of
two, f32 FEXP2 at integers and FTANH far out are exact; Table 6.6 gives the special values. A value that the spec bounds and does not state
is free: the statement holds for every one. Where no bf16 value lies within the bound of FSIN and FCOS, the nearest is the model's choice. The
model's own choices here: log entry 5. -/
def Obligations.FloatFunctions : Prop := (∀ d a : Reg,
  Sets (.fsqrt d a) (fun g h => h.setV d.toNat g.liveNow (eachElem g a (sqrtAt (mrEtype g.mr) (mrRound g.mr) (mrFtz g.mr))))
  ∧ Sets (.frcp d a) (fun g h => h.setV d.toNat g.liveNow (eachElem g a (funcAt 0 (mrEtype g.mr) (mrFtz g.mr))))
  ∧ Sets (.frsq d a) (fun g h => h.setV d.toNat g.liveNow (eachElem g a (funcAt 1 (mrEtype g.mr) (mrFtz g.mr))))
  ∧ Sets (.fexp2 d a) (fun g h => h.setV d.toNat g.liveNow (eachElem g a (funcAt 2 (mrEtype g.mr) (mrFtz g.mr))))
  ∧ Sets (.flog2 d a) (fun g h => h.setV d.toNat g.liveNow (eachElem g a (funcAt 3 (mrEtype g.mr) (mrFtz g.mr))))
  ∧ Sets (.fsin d a) (fun g h => h.setV d.toNat g.liveNow (eachElem g a (funcAt 4 (mrEtype g.mr) (mrFtz g.mr))))
  ∧ Sets (.fcos d a) (fun g h => h.setV d.toNat g.liveNow (eachElem g a (funcAt 5 (mrEtype g.mr) (mrFtz g.mr))))
  ∧ Sets (.ftanh d a) (fun g h => h.setV d.toNat g.liveNow (eachElem g a (funcAt 6 (mrEtype g.mr) (mrFtz g.mr)))))
  ∧ (∀ (t : Nat) (ftz : Bool) (x : Nat), t = 2 ∨ t = 3 ∨ t = 4 →
    let f := fpOf t
    let one := (2 ^ (f.ew - 1) - 1) <<< f.fw
    (∀ v, f.decode (f.flush ftz x) = .num v → v.m ≠ 0 →
      (∀ mode, v.neg = false → ∃ r, sqrtAt t mode ftz x = f.round mode r
        ∧ ∀ c : Exact, c.neg = false → c.m < 2 ^ 26 → c.lt r = (c.mul c).lt v ∧ r.lt c = v.lt (c.mul c))
      ∧ (∀ c : Exact, c.neg = v.neg → c.m < 2 ^ 26 → let p := ({ c.mul v with neg := false } : Exact)
          ({ c with neg := false } : Exact).lt { v.recip with neg := false } = p.lt ⟨false, 1, 0⟩
          ∧ ({ v.recip with neg := false } : Exact).lt { c with neg := false } = (⟨false, 1, 0⟩ : Exact).lt p)
      ∧ (∀ fn y, (fn, y) ∈ [(0, v.recip), (1, exactRsqrt v), (2, exactExp2 v), (3, exactLog2 v),
            (4, { exactTurn v 0 with neg := (exactTurn v 0).neg != v.neg }), (5, exactTurn v 1), (6, exactTanh v)] →
          (fn = 1 ∨ fn = 3 → v.neg = false) → (fn = 2 → v.e + Nat.log2 v.m < 10) →
          (fn = 6 → Exact.lt { v with neg := false } (if t = 2 then ⟨false, 19, -1⟩ else ⟨false, 9, -1⟩) = true) →
          ∃ q, funcAt fn t ftz x = f.flush ftz q ∧ (fn < 2 → t ≠ 2 → q = f.round 0 y)
            ∧ (f.round 0 y = f.inf y.neg ∧ q = f.inf y.neg
              ∨ ∃ w, f.decode q = .num w
                ∧ (near w y (if t = 2 ∧ (fn = 2 ∨ fn = 3 ∨ fn = 6) then 2 else 1)
                    (if fn = 4 ∨ fn = 5 then (if t = 2 then -22 else -10) else f.ulpExp y) = true
                  ∨ t = 3 ∧ (fn = 4 ∨ fn = 5) ∧ q = f.round 0 y)))
      ∧ (v.neg = true → funcAt 1 t ftz x = f.nan ∧ funcAt 3 t ftz x = f.nan ∧ ∀ mode, sqrtAt t mode ftz x = f.nan)
      ∧ (v.neg = false → v.m = 2 ^ Nat.log2 v.m → funcAt 3 t ftz x = f.round 0 (Exact.ofInt (v.e + Nat.log2 v.m)))
      ∧ (∀ n : Int, t = 2 → -126 ≤ n → n ≤ 127 → v.eq (Exact.ofInt n) = true → funcAt 2 t ftz x = (n + 127).toNat <<< f.fw)
      ∧ (10 ≤ v.e + Nat.log2 v.m → funcAt 2 t ftz x = if v.neg then 0 else f.inf false)
      ∧ (Exact.lt { v with neg := false } (if t = 2 then ⟨false, 19, -1⟩ else ⟨false, 9, -1⟩) = false →
          funcAt 6 t ftz x = one + f.zero v.neg))
    ∧ (f.decode x = .nan → (∀ fn, funcAt fn t ftz x = f.nan) ∧ ∀ mode, sqrtAt t mode ftz x = f.nan)
    ∧ (∀ fn p q r s, (fn, p, q, r, s) ∈ [(0, f.signBit, f.inf true, f.inf false, 0), (1, f.nan, f.inf true, f.inf false, 0),
          (2, 0, one, one, f.inf false), (3, f.nan, f.inf true, f.inf true, f.inf false), (4, f.nan, f.signBit, 0, f.nan),
          (5, f.nan, one, one, f.nan), (6, one + f.signBit, f.signBit, 0, one)] →
        funcAt fn t ftz (f.inf true) = p ∧ funcAt fn t ftz f.signBit = q ∧ funcAt fn t ftz 0 = r ∧ funcAt fn t ftz (f.inf false) = s)
    ∧ ∀ mode, sqrtAt t mode ftz (f.inf true) = f.nan ∧ sqrtAt t mode ftz f.signBit = f.signBit ∧ sqrtAt t mode ftz 0 = 0
        ∧ sqrtAt t mode ftz (f.inf false) = f.inf false)

/-- R153 to R160: conversion, quantisation to planes and back, ranked entries, scaling by a power of two.
The model's own choices here: log entry 72. -/
def Obligations.Conversions : Prop := ∀ d a b : Reg,
  Sets (.cvt d a b) (fun g h => (List.range (cvtDst b.toNat (mrEtype g.mr))).foldl (fun h j =>
      h.setV (d.toNat + j) g.liveNow (fun L => packElems (mrEtype g.mr) (fun k =>
        let n := j * elemsPerLane (mrEtype g.mr) + k
        convert b.toNat (mrEtype g.mr) (mrRound g.mr) (mrSat g.mr) (mrFtz g.mr)
          (elem b.toNat ((g.vr (a.toNat + n / elemsPerLane b.toNat)).lane L) (n % elemsPerLane b.toNat))))) h)
  ∧ Sets (.pq d a b) (fun g h =>
      let q := fun (L : Nat) => if g.liveNow.has L
        then quantise (mrRound g.mr) (mrFtz g.mr) ((List.range 32).map (fun n => ((g.vr (a.toNat + n)).lane L).toNat)) else ⟨[], 0, 0⟩
      let h := (List.range (mrPlanes g.mr)).foldl (fun h p => h.setV (d.toNat + p) g.liveNow (fun L => planeWord (q L).q p)) h
      let h := h.setV b.toNat g.liveNow (fun L => BitVec.ofNat 32 (q L).c)
      { h with qflags := g.liveNow.lanes.foldl (fun f L => f ||| BitVec.ofNat 3 (q L).flags) h.qflags })
  ∧ Sets (.px d a b) (fun g h => (List.range 32).foldl (fun h n => h.setV (d.toNat + n) g.liveNow (fun L =>
      BitVec.ofNat 32 (pniValue (mrRound g.mr)
        (pniHalf (planeElem ((List.range (mrPlanes g.mr)).map (fun p => (g.vr (a.toNat + p)).lane L)) n) (mrPlanes g.mr))
        (((g.vr b.toNat).lane L).toNat % 256)))) h)
  ∧ Sets (.topkins d a b) (fun g h =>
      let r := fun (L : Nat) => ranked3 ((g.vr d.toNat).lane L) ((g.vr a.toNat).lane L) ((g.vr b.toNat).lane L)
      ((h.setV d.toNat g.liveNow (fun L => (r L).1)).setV a.toNat g.liveNow (fun L => (r L).2.1)).setV b.toNat g.liveNow
        (fun L => (r L).2.2))
  ∧ Sets (.keepk d a b) (fun g h => h.setV d.toNat g.liveNow (fun L => BitVec.ofNat 32
      (rankKey (mrEtype g.mr) ((g.vr a.toNat).lane L) * 256 + ((g.vr b.toNat).lane L).toNat % 256)))
  ∧ Sets (.fldexp d a b) (fun g h => h.setV d.toNat g.liveNow (bitLane g d a b (fun w x n _ =>
      (fpOf (mrEtype g.mr)).loadExp (mrRound g.mr) w x n)))
  ∧ Sets (.ffrexp d a b) (fun g h =>
      let r := fun (L k : Nat) => (fpOf (mrEtype g.mr)).splitExp (elemWidth (mrEtype g.mr)) (elem (mrEtype g.mr) ((g.vr a.toNat).lane L) k)
      (h.setV d.toNat g.liveNow (fun L => packElems (mrEtype g.mr) (fun k => (r L k).1))).setV b.toNat g.liveNow
        (fun L => packElems (mrEtype g.mr) (fun k => (r L k).2)))

/-- R132 to R135: words moved between lanes, one lane read or written, sums and maxima over the live lanes. -/
def Obligations.LaneMoves : Prop := ∀ d a b : Reg,
  Sets (.shfl d a b) (fun g h => h.setV d.toNat g.liveNow (fun L => (g.vr a.toNat).lane (((g.vr b.toNat).lane L).toNat % 128)))
  ∧ Sets (.shflup d a b) (fun g h => h.setV d.toNat g.liveNow (fun L =>
      (g.vr a.toNat).lane (if (g.sr b.toNat).toNat ≤ L then L - (g.sr b.toNat).toNat else L)))
  ∧ Sets (.shfldn d a b) (fun g h => h.setV d.toNat g.liveNow (fun L =>
      (g.vr a.toNat).lane (if L + (g.sr b.toNat).toNat ≤ 127 then L + (g.sr b.toNat).toNat else L)))
  ∧ Sets (.shflx d a b) (fun g h => h.setV d.toNat g.liveNow (fun L =>
      (g.vr a.toNat).lane (L ^^^ ((g.sr b.toNat).toNat % 128))))
  ∧ Sets (.lrd d a b) (fun g h => h.setS d.toNat (BitVec.ofNat 64 ((g.vr a.toNat).lane ((g.sr b.toNat).toNat % 128)).toNat))
  ∧ Sets (.lwr d a b) (fun g h => h.setV d.toNat (Mask.of (fun L => decide (L = (g.sr b.toNat).toNat % 128)))
      (fun _ => (g.sr a.toNat).extractLsb' 0 32))
  ∧ Sets (.rsum d a) (fun g h => h.setS d.toNat
      (sumResult (mrEtype g.mr) (mrRound g.mr) (g.liveNow.lanes.map (fun L => (g.vr a.toNat).lane L))))
  ∧ Sets (.rmax d a) (fun g h => h.setS d.toNat (maxResult (mrEtype g.mr) (g.liveNow.lanes.map (fun L => (g.vr a.toNat).lane L))))
  ∧ Sets (.scanx d a) (fun g h => h.setV d.toNat g.liveNow (fun L => BitVec.ofNat 32 (fit (mrEtype g.mr) (mrSat g.mr)
      ((g.liveNow.lanes.filter (fun n => decide (n < L))).foldl (fun t n => t + laneInt (mrEtype g.mr) ((g.vr a.toNat).lane n)) 0))))

/-! ## Control -/

/-- R92 to R95: NOP, the branches and calls, by which lanes satisfy; UNIFORMITY where a uniform branch finds both kinds. R96: the mask stack
of 16 entries: IFP pushes, ELSEP takes the other lanes, ENDIF restores EXEC and pops. -/
def Obligations.ControlTransfers : Prop :=
  (Sets .nop (fun _ h => h)
  ∧ (∀ u pred sense off s c g,
      let m := g.liveNow &&& (if sense then g.pr pred.toNat else ~~~ g.pr pred.toNat)
      (Starts (.br u pred sense off) s c g →
        if pred = 15 then JumpsTo (.br u pred sense off) s c g (s.begun (.br u pred sense off) c g) (branchTarget g.pc off)
        else if u = true ∧ m ≠ 0 ∧ m ≠ g.liveNow then TrapsWith (.br u pred sense off) s c g (trapP 0x04)
        else if m ≠ 0 then JumpsTo (.br u pred sense off) s c g (s.begun (.br u pred sense off) c g) (branchTarget g.pc off)
        else RunsTo (.br u pred sense off) s c g (s.begun (.br u pred sense off) c g))
      ∧ (Starts (.brp u pred sense off) s c g →
        if u = true ∧ m ≠ 0 ∧ m ≠ g.liveNow then TrapsWith (.brp u pred sense off) s c g (trapP 0x04)
        else if g.liveNow ≠ 0 ∧ m = g.liveNow then
          JumpsTo (.brp u pred sense off) s c g (s.begun (.brp u pred sense off) c g) (branchTarget g.pc off)
        else RunsTo (.brp u pred sense off) s c g (s.begun (.brp u pred sense off) c g))
      ∧ (Starts (.call u pred sense off) s c g →
        let b := (s.begun (.call u pred sense off) c g).setGroup c.gid (fun h => h.setS 126 ((g.pc + 4).zeroExtend 64))
        if pred = 15 then JumpsTo (.call u pred sense off) s c g b (branchTarget g.pc off)
        else if u = true ∧ m ≠ 0 ∧ m ≠ g.liveNow then TrapsWith (.call u pred sense off) s c g (trapP 0x04)
        else if m ≠ 0 then JumpsTo (.call u pred sense off) s c g b (branchTarget g.pc off)
        else RunsTo (.call u pred sense off) s c g (s.begun (.call u pred sense off) c g)))
  ∧ (∀ off s c g, Starts (.brexz off) s c g →
      if g.exec = 0 then JumpsTo (.brexz off) s c g (s.begun (.brexz off) c g) (branchTarget g.pc off)
      else RunsTo (.brexz off) s c g (s.begun (.brexz off) c g))
  ∧ (∀ a s c g, Starts (.callr a) s c g →
      JumpsTo (.callr a) s c g ((s.begun (.callr a) c g).setGroup c.gid (fun h => h.setS 126 ((g.pc + 4).zeroExtend 64)))
        (codeAddr (g.sr a.toNat)))
  ∧ (∀ a s c g, Starts (.jmpr a) s c g → JumpsTo (.jmpr a) s c g (s.begun (.jmpr a) c g) (codeAddr (g.sr a.toNat)))
  ∧ (∀ s c g, Starts .ret s c g → JumpsTo .ret s c g (s.begun .ret c g) (codeAddr (g.sr 126))))
  ∧ ((∀ u pred sense off s c g, Starts (.ifp u pred sense off) s c g →
    let t := g.exec &&& (if sense then g.pr pred.toNat else ~~~ g.pr pred.toNat)
    let b := (s.begun (.ifp u pred sense off) c g).setGroup c.gid (fun h =>
      { h with stack := { saved := g.exec, other := g.exec &&& ~~~ t } :: g.stack, exec := t })
    if u = true ∧ t ≠ 0 ∧ t ≠ g.exec then TrapsWith (.ifp u pred sense off) s c g (trapP 0x04)
    else if 16 ≤ g.stack.length then TrapsWith (.ifp u pred sense off) s c g (trapP 0x05)
    else if t = 0 then JumpsTo (.ifp u pred sense off) s c g b (branchTarget g.pc off)
    else RunsTo (.ifp u pred sense off) s c g b)
  ∧ (∀ off s c g, Starts (.elsep off) s c g →
    match g.stack with
    | [] => TrapsWith (.elsep off) s c g (trapP 0x05)
    | e :: r =>
      let b := (s.begun (.elsep off) c g).setGroup c.gid (fun h => { h.setExec e.other with stack := { e with other := 0 } :: r })
      if e.other = 0 then JumpsTo (.elsep off) s c g b (branchTarget g.pc off) else RunsTo (.elsep off) s c g b)
  ∧ (∀ s c g, Starts .endif s c g →
    match g.stack with
    | [] => TrapsWith .endif s c g (trapP 0x05)
    | e :: r => RunsTo .endif s c g ((s.begun .endif c g).setGroup c.gid (fun h => { h.setExec e.saved with stack := r }))))

/-- R97, R98: SPAWN makes a group with the lowest free number, whose time lies above every access of the spawner, or writes all ones; SPAWNW
does not issue while there is no room. R100, R101: EXIT removes the group, after its combining buffers, and the team's last EXIT lets it
retire; YIELD only issues; SETPRI; SLEEP until its cycle. An instruction that flushes does not issue while an engine owns a line to flush.
That SPAWN and SPAWNW flush the spawner's combining buffers, so that the stores in them come before the new group's accesses, is the model's
choice: log entry 78. The model's other choices here: log entries 1, 9. -/
def Obligations.GroupLives : Prop :=
  (∀ (d a b : Reg) s c g,
  let room := fun (s : State) => 0 < s.freeContexts g.core ∧ 0 < s.freeBlocks g.core ∧ (s.teamGroups g.team).length < 96
  let waits := fun (i : Instr) => exec i s = .next { s with cur := some { c with stalled := true } }
  let made := fun (s : State) (n : Nat) =>
    (s.createGroup g.team g.core n g.role g.pri (codeAddr (g.sr a.toNat)) ((List.range 8).map (fun i => g.sr (b.toNat + i))) 0
      (Nat.max g.time (((s.group c.gid).map Machine.Group.ownTime).getD 0) + 1) (s.atomsBefore c.gid)).setGroup c.gid
        (fun h => h.setS d.toNat (BitVec.ofNat 64 n))
  (Starts (.spawn d a b) s c g →
    let y := s.begun (.spawn d a b) c g
    let z := y.flushGroup c.gid
    (∀ n, room y → y.flushBlocked c.gid = false → z.lowestNumber g.team = some n → RunsTo (.spawn d a b) s c g (made z n))
    ∧ (room y → y.flushBlocked c.gid = true → waits (.spawn d a b))
    ∧ (¬ room y → RunsTo (.spawn d a b) s c g (y.setGroup c.gid (fun h => h.setS d.toNat (BitVec.allOnes 64)))))
  ∧ (Starts (.spawnw d a b) s c g →
    let y := s.begun (.spawnw d a b) c g
    let z := y.flushGroup c.gid
    (∀ n, room y → y.flushBlocked c.gid = false → z.lowestNumber g.team = some n → RunsTo (.spawnw d a b) s c g (made z n))
    ∧ (¬ room y ∨ y.flushBlocked c.gid = true → waits (.spawnw d a b))))
  ∧ ((∀ s c g, Starts .exit s c g →
    let y := s.begun .exit c g
    let z := ((y.flushGroup c.gid Group.raiseH).removeGroup c.gid).watchDeadlock g.team
    (y.flushBlocked c.gid = false → StaysAt .exit s c g
      (if z.teamGroups g.team = [] ∧ (z.team g.team).map Team.orphans = some [] then z.post (.teamRetirement g.team) else z))
    ∧ (y.flushBlocked c.gid = true → exec .exit s = .next { s with cur := some { c with stalled := true } }))
  ∧ (∀ s c g, Starts .yield s c g → RunsTo .yield s c g ((s.begun .yield c g).leaveActive c.gid))
  ∧ (∀ k : BitVec 4, Sets (.setpri k) (fun _ h => { h with pri := k.toNat }))
  ∧ Sets (.sleep 0) (fun _ h => h)
  ∧ (∀ (k : BitVec 14) s c g, k ≠ 0 → Starts (.sleep k) s c g → RunsTo (.sleep k) s c g
      ((((s.begun (.sleep k) c g).leaveActive c.gid).setGroup c.gid (fun h => { h with sleep := some (s.clk + 64 * k.toNat) })).postAt
        (s.clk + 64 * k.toNat + 1) (.sleepExpiry c.gid))))

/-- R102, R103: LNCH reads its descriptor and enters a child grid under the lowest free number of the die, or writes all ones when the table
is full; a misaligned or invalid descriptor raises LAUNCH_INVALID. R106: the grid's time is at or above every access of the group. That
LNCH flushes the group's combining buffers, so that the stores in them come first, and does not issue while an engine owns a line of theirs, is
the model's choice: log entry 78; how the descriptor is read on a poisoned line is too: log entry 77. The model's other choices here: log entry
9. -/
def Obligations.ChildLaunch : Prop := ∀ (d a b : Reg) s c g z data t,
  let i := Instr.lnch d a b
  let va := g.sr a.toNat
  let y := s.begun i c g
  let grid := gridOf data (z.graphOf t) t.func t.life g.time ((List.range 8).map (fun n => g.sr (b.toNat + n))) (z.atomsBefore c.gid)
  let u := z.flushGroup c.gid
  let die := dieOfCore g.core
  Starts i s c g →
    (va.toNat % 64 ≠ 0 → TrapsWith i s c g (trapPA 0x09 va 0))
    ∧ (va.toNat % 64 = 0 → y.readLines (y.groupXc c.gid) g.time (fun _ => 0) va 64 = (z, .ok data) → z.team g.team = some t →
        (launchValid data grid = false → FailsIn i s c g z (trapPA 0x09 va 0))
        ∧ (∀ e, launchValid data grid = true → Assoc.lowestFree (z.die die).grids 0 256 = some e →
            (z.flushBlocked c.gid = true → exec i s = .next { s with cur := some { c with stalled := true } })
            ∧ (z.flushBlocked c.gid = false →
              let made : Grid := { grid with time := Nat.max g.time (((u.group c.gid).map Machine.Group.ownTime).getD 0) }
              RunsTo i s c g ((u.setDie die (fun x => { x with grids := Assoc.put x.grids e made })).setGroup c.gid
                (fun h => h.setS d.toNat (BitVec.ofNat 64 (256 * die + e))))))
        ∧ (launchValid data grid = true → Assoc.lowestFree (z.die die).grids 0 256 = none →
            RunsTo i s c g (z.setGroup c.gid (fun h => h.setS d.toNat (BitVec.allOnes 64)))))

/-- R113, R117: the extended register blocks: granted at once while the line is empty and the reserve suffices, else the group waits (XACQ)
or is told (XTRY); more than the reserve can ever hold is REGISTER_BUDGET; XREL returns them.
The model's own choices here: log entries 20, 71. -/
def Obligations.RegisterBlocks : Prop := ∀ (d : Reg) (m : BitVec 3) s c g t,
  let n := blockCount (m &&& ~~~ g.xheld)
  let r := t.reserve g.core g.role
  let w : BlockWait := { gid := c.gid, want := m &&& ~~~ g.xheld, pri := g.pri, cycle := s.clk }
  (Starts (.xacq m) s c g →
    let z := s.begun (.xacq m) c g
    z.team g.team = some t → (z.core g.core).moving.any (fun w => decide (w.gid = c.gid)) = false →
    (r.cap < n → TrapsWith (.xacq m) s c g (trapP 0x11))
    ∧ (n ≤ r.cap → n = 0 → RunsTo (.xacq m) s c g z)
    ∧ (∀ z', n ≤ r.cap → n ≠ 0 → r.line = [] → n ≤ r.count → (z.drawReserve g n).cutGrant c.gid (m &&& ~~~ g.xheld) = some z' →
        RunsTo (.xacq m) s c g z')
    ∧ (n ≤ r.cap → n ≠ 0 → r.line.all (fun w => decide (w.gid ≠ c.gid)) = true → ¬ (r.line = [] ∧ n ≤ r.count) →
        StaysAt (.xacq m) s c g (((z.setGroup c.gid (fun h => { h with park := some .blocks })).setTeam g.team (fun t =>
          t.setReserve g.core g.role (fun r => { r with line := joinLine w r.line }))).watchDeadlock g.team)))
  ∧ (Starts (.xtry d m) s c g →
    let z := s.begun (.xtry d m) c g
    let ack := fun (z : State) (ok : Bool) => z.setGroup c.gid (fun h => h.setPLanes d.toNat g.liveNow (Mask.all ok))
    z.team g.team = some t →
    (r.cap < n → TrapsWith (.xtry d m) s c g (trapP 0x11))
    ∧ (n ≤ r.cap → n = 0 → RunsTo (.xtry d m) s c g (ack z true))
    ∧ (∀ z', n ≤ r.cap → n ≠ 0 → r.line = [] → n ≤ r.count → (z.drawReserve g n).cutGrant c.gid (m &&& ~~~ g.xheld) = some z' →
        RunsTo (.xtry d m) s c g (ack z' true))
    ∧ (n ≤ r.cap → n ≠ 0 → ¬ (r.line = [] ∧ n ≤ r.count) → RunsTo (.xtry d m) s c g (ack z false)))
  ∧ (Starts (.xrel m) s c g →
    let rel := m &&& g.xheld
    let z := ((s.begun (.xrel m) c g).setGroup c.gid (fun h => h.dropBlocks (wantedBlocks rel))).setTeam g.team (fun t =>
      t.setReserve g.core g.role (fun r => { r with count := r.count + blockCount rel }))
    RunsTo (.xrel m) s c g (if rel = 0 then z else z.postOnceAt (s.clk + 1) (.xacqGrant g.team g.core g.role)))

/-! ## Traps and special registers -/

/-- R49, R92, R403: the software traps: ILLEGAL and every unassigned opcode, TRAP, and BRK without a host. R405, R406: TRET in a handler
returns from it, elsewhere it raises HANDLER_MISUSE; the masks of deferred traps. -/
def Obligations.TrapInstructions : Prop :=
  ((∀ y s c g, Starts (.illegal y) s c g → TrapsWith (.illegal y) s c g (trapP 0x01))
  ∧ (∀ w s c g, Starts (.unassignedOpcode w) s c g → TrapsWith (.unassignedOpcode w) s c g (trapP 0x01))
  ∧ (∀ k s c g, Starts (.trap k) s c g → TrapsWith (.trap k) s c g
      { code := 0x06, addr := 0, info := BitVec.ofNat 64 k.toNat, done := none, defer := false, next := 4 })
  ∧ (∀ k s c g t, Starts (.brk k) s c g → (s.begun (.brk k) c g).team g.team = some t →
      (t.attach = false → g.trap.inh = false → TrapsWith (.brk k) s c g
        { code := 0x07, addr := 0, info := BitVec.ofNat 64 k.toNat, done := none, defer := false, next := 4 })
      ∧ (t.attach = true → g.stop = .running → StaysAt (.brk k) s c g ((s.begun (.brk k) c g).breakAt c.gid))))
  ∧ ((∀ s c g, Starts .tret s c g →
    (g.trap.inh = true → StaysAt .tret s c g ((s.begun .tret c g).trapReturn c.gid))
    ∧ (g.trap.inh = false → TrapsWith .tret s c g (trapP 0x08)))
  ∧ (∀ k : BitVec 4, Sets (.tmask k) (fun _ h => { h with trap := { h.trap with tmask := h.trap.tmask ||| k } }))
  ∧ (∀ (k : BitVec 4) s c g, Starts (.tunmask k) s c g → RunsTo (.tunmask k) s c g
      (((s.begun (.tunmask k) c g).setGroup c.gid (fun h => { h with trap := { h.trap with tmask := h.trap.tmask &&& ~~~ k } })).postOnce
        (.deferredTrapDelivery g.team))))

/-- R402, R404, R407: RDSR writes the word of the special register as it stands, WRSR changes the writable fields, CLK reads the core's
cycle count. R402, Table 16.3: what WRSR leaves in the trap registers is what RDSR reads there; TPC and TVEC hold bits [55:2], and TCAUSE
bits [9:0]; every number that is not writable is left alone. Table 16.4: the word that each number reads, field by field (Tables 1.3, 4.1,
5.4, 7.2, 7.7, 8.8, 9.2, 12.4, 15.3, 16.3 and 16.5); every other number names no register, and RDSR or WRSR of one
raises RESERVED_FIELD. -/
def Obligations.SpecialRegisters : Prop :=
  (∀ (d : Reg) (k : BitVec 14) s c g,
  (∀ t v, Starts (.rdsr d k) s c g → (s.begun (.rdsr d k) c g).team g.team = some t →
    (s.begun (.rdsr d k) c g).readSpecial c.gid g t k.toNat = some v →
    RunsTo (.rdsr d k) s c g ((s.begun (.rdsr d k) c g).setGroup c.gid (fun h => h.setS d.toNat (BitVec.ofNat 64 v))))
  ∧ (Starts (.wrsr d k) s c g →
    let z := (s.begun (.wrsr d k) c g).setGroup c.gid (fun h => h.writeSpecial k.toNat (g.sr d.toNat))
    RunsTo (.wrsr d k) s c g (if k.toNat = 0x048 then z.postOnce (.deferredTrapDelivery g.team) else z))
  ∧ (Starts (.clk d) s c g → RunsTo (.clk d) s c g
      ((s.begun (.clk d) c g).setGroup c.gid (fun h => h.setS d.toNat (BitVec.ofNat 64 s.clk)))))
  ∧ (∀ (s : State) gid (g : Group) (t : Team) (v : Dword),
  s.readSpecial gid (g.writeSpecial 0x040 v) t 0x040 = some (v.toNat % 1024)
  ∧ s.readSpecial gid (g.writeSpecial 0x041 v) t 0x041 = some (v.toNat % 2 ^ 56 / 4 * 4)
  ∧ s.readSpecial gid (g.writeSpecial 0x042 v) t 0x042 = some v.toNat
  ∧ s.readSpecial gid (g.writeSpecial 0x043 v) t 0x043 = some v.toNat
  ∧ s.readSpecial gid (g.writeSpecial 0x044 v) t 0x044 = some v.toNat
  ∧ s.readSpecial gid (g.writeSpecial 0x045 v) t 0x045 = some v.toNat
  ∧ s.readSpecial gid (g.writeSpecial 0x044 v) t 0x045 = s.readSpecial gid g t 0x045
  ∧ s.readSpecial gid (g.writeSpecial 0x045 v) t 0x044 = s.readSpecial gid g t 0x044
  ∧ s.readSpecial gid (g.writeSpecial 0x047 v) t 0x047 = some (v.toNat % 2 ^ 56 / 4 * 4)
  ∧ s.readSpecial gid (g.writeSpecial 0x011 v) t 0x011 = some ((g.qflags &&& ~~~ v.extractLsb' 0 3).toNat)
  ∧ (∀ k, k ∉ [0x010, 0x011, 0x021, 0x022, 0x040, 0x041, 0x042, 0x043, 0x044, 0x045, 0x047, 0x048] → g.writeSpecial k v = g))
  ∧ (∀ (s : State) gid (g : Machine.Group) (t : Team),
    let rd := fun (k : Nat) => s.readSpecial gid g t k
    let core := s.core g.core
    let die := s.die (dieOfCore g.core)
    let anvil := s.core (s.anvilOf g)
    let bit := fun (b : Bool) => if b then 1 else 0
    rd 0x000 = some (s.dev.pkg * 2 ^ 8 + g.core) ∧ rd 0x001 = some g.num ∧ rd 0x002 = some t.serial
    ∧ rd 0x003 = some (if g.role = .producer then 1 else 0) ∧ rd 0x004 = some g.pri ∧ rd 0x005 = some g.stack.length
    ∧ rd 0x006 = some g.xheld.toNat
    ∧ rd 0x007 = some (s.freeBlocks g.core * 2 ^ 32 + s.freeScratch g.core * 2 ^ 24 + s.freeContexts g.core * 2 ^ 16
        + s.freeTiles g.core * 2 ^ 8 + s.freeTeamSlots g.core)
    ∧ rd 0x008 = some core.starveCount
    ∧ rd 0x009 = some (core.starveStamp % 2 ^ 48 * 2 ^ 16 + core.starvePrio * 2 ^ 12 + core.starveCtx)
    ∧ rd 0x010 = some (bit g.regerr.valid * 2 ^ 63 + g.regerr.ce * 2 ^ 32 + g.regerr.latent * 2 ^ 16 + g.regerr.kind * 2 ^ 14
        + g.regerr.reg * 2 ^ 7 + g.regerr.lane)
    ∧ rd 0x011 = some g.qflags.toNat ∧ rd 0x012 = some (bit g.bstatus)
    ∧ rd 0x013 = some (g.counter 0 + g.counter 1 * 2 ^ 8 + g.counter 2 * 2 ^ 16 + g.counter 3 * 2 ^ 24 + g.counter 4 * 2 ^ 32
        + g.counter 5 * 2 ^ 40 + g.counter 6 * 2 ^ 48 + g.counter 7 * 2 ^ 56)
    ∧ rd 0x014 = some g.qstatus.toNat ∧ rd 0x015 = some (g.preq * 2 ^ 48 + g.refs * 2 ^ 24 + g.walks)
    ∧ rd 0x020 = some (anvil.tileq.length * 2 ^ 32 + bit (decide (anvil.owner = some gid)) * 2 ^ 29 + anvil.line.length * 2 ^ 24
        + bit anvil.owner.isSome * 2 ^ 23 + ((anvil.owner.bind s.group).map (fun o => o.core % 4 * 2 ^ 7 + o.ctx)).getD 0)
    ∧ rd 0x021 = some g.rstpc.toNat ∧ rd 0x022 = some (g.restarts * 2 ^ 8 + bit g.restarted)
    ∧ rd 0x030 = some (s.refc / refreshPeriod % 2 ^ 32 * 2 ^ 32 + s.bankHi * 2 ^ 23 + s.bankLo * 2 ^ 17 + s.refreshPos)
    ∧ rd 0x031 = some s.tick
    ∧ rd 0x032 = some (die.freeLines * 2 ^ 45 + (16384 - die.registry.length) * 2 ^ 30 + (16384 - die.pit.length) * 2 ^ 15 + die.crucible)
    ∧ rd 0x046 = some (bit g.trap.orig * 2 ^ 63 + g.trap.count)
    ∧ rd 0x048 = some ((BitVec.ofNat 64 (bit g.trap.inh + 2 * bit g.trap.inHandler + 4 * bit t.attach + 256 * g.trap.tmask.toNat
        + 65536 * g.trap.hcount)).toNat)
    ∧ (∀ k, k ∉ [0x000, 0x001, 0x002, 0x003, 0x004, 0x005, 0x006, 0x007, 0x008, 0x009, 0x010, 0x011, 0x012, 0x013, 0x014, 0x015, 0x020,
        0x021, 0x022, 0x030, 0x031, 0x032, 0x040, 0x041, 0x042, 0x043, 0x044, 0x045, 0x046, 0x047, 0x048] →
      rd k = none ∧ isSpecial k = false))
  ∧ (∀ (i : Instr) (d : Reg) (k : BitVec 14) s c g, i ∈ [Instr.rdsr d k, Instr.wrsr d k] → s.cur = some c → s.group c.gid = some g →
    isSpecial k.toNat = false → exec i s = .next ((s.stamp c g).takeTrap c.gid (trapP 0x02)))

/-- R396, R397: a trap of a group in a team that runs: its trap registers record it, it stands at TVEC in its handler, its registers and all
of memory are as before, and every sibling that ran is to stop, one parked at a wait at once with count 0, TPC at its wait and a waiting
dequeue withdrawn. R400: with no handler the team stands, and is terminated at the end of the trap's cycle. R398:
a trap while a handler runs stays pending and its group stops, but of the groups that trap in one cycle the lowest number has the handler, and
the other's trap is pending. R400: a trap inside a handler is a double fault: the team is terminated with reason 1, none of its groups lives,
and its end is under way.
The model's own choices here: log entry 90. -/
def Obligations.TrapEntry : Prop :=
  (∀ (s : State) gid g t x,
  s.group gid = some g → s.team g.team = some t → t.halt = .none → g.trap.inh = false → g.trap.tvec ≠ 0 → g.park = none →
    let r := s.takeTrap gid x
    (∃ h, r.group gid = some h ∧ h.pc = g.trap.tvec ∧ h.trap.code = BitVec.ofNat 8 x.code ∧ h.trap.partialBit = x.done.isSome
      ∧ h.trap.tpc = g.pc + BitVec.ofNat 56 x.next ∧ h.trap.taddr = x.addr ∧ h.trap.tinfo = x.info
      ∧ h.trap.tdone = x.done.getD g.trap.tdone ∧ h.trap.orig = true ∧ h.trap.count = 0 ∧ h.trap.inh = true
      ∧ h.s = g.s ∧ h.v = g.v ∧ h.p = g.p ∧ h.exec = g.exec ∧ h.mr = g.mr ∧ h.stack = g.stack ∧ h.times = g.times)
    ∧ (r.team g.team).map Team.halt = some (.handler gid)
    ∧ (∀ a, Memory.get r.mem a = Memory.get s.mem a)
    ∧ ((s.groups.map Prod.fst).Nodup → ∀ k y, k ≠ gid → s.group k = some y → y.soft.filter (fun q => decide (q.kind = .vec)) = [] →
        ∃ y', r.group k = some y'
        ∧ y' = (if y.team = g.team ∧ y.stop = .running then
            (if s.atWait y = true then
              { (match y.park with | some (.dequeue op) => { y.finish op with park := none } | _ => y) with
                stop := .stopped, trap := { y.trap with tpc := y.pc, orig := false, count := 0 } }
             else { y with stop := .skid 0, counts := (List.range 8).map y.counter })
          else y)))
  ∧ (∀ (s : State) gid g t x k y,
  s.group gid = some g → s.team g.team = some t → t.halt = .handler k → s.group k = some y → y.team = g.team → k ≠ gid →
  g.trap.inh = false → g.park = none →
    let r := s.takeTrap gid x
    let first : Bool := decide (y.raised = s.clk) && decide (g.num < y.num)
    (first = false → (∃ h, r.group gid = some h ∧ h.stop = .stopped ∧ h.trap.code = BitVec.ofNat 8 x.code ∧ h.trap.orig = false ∧ h.trap.inh = false
        ∧ h.trap.tpc = g.pc + BitVec.ofNat 56 x.next ∧ h.trap.taddr = x.addr ∧ h.trap.tinfo = x.info ∧ h.raised = s.clk)
      ∧ (∃ t', r.team g.team = some t' ∧ t'.halt = .handler k ∧ gid ∈ t'.pending)
      ∧ r.group k = some y)
    ∧ (first = true → g.trap.tvec ≠ 0 → y.park = none → (s.groups.map Prod.fst).Nodup →
      (∃ h, r.group gid = some h ∧ h.pc = g.trap.tvec ∧ h.stop = .running ∧ h.trap.inh = true ∧ h.trap.orig = true ∧ h.trap.code = BitVec.ofNat 8 x.code)
      ∧ (∃ t', r.team g.team = some t' ∧ t'.halt = .handler gid ∧ k ∈ t'.pending)
      ∧ (∃ y', r.group k = some y' ∧ y'.pc = (if y.trap.inh then y.trap.tpc else y.pc) ∧ y'.stop = .stopped ∧ y'.trap.inh = false ∧ y'.trap.orig = false ∧ y'.trap.count = 0
          ∧ y'.trap.code = y.trap.code ∧ y'.trap.taddr = y.trap.taddr ∧ y'.trap.tinfo = y.trap.tinfo)))
  ∧ (∀ (s : State) gid g t x,
  s.group gid = some g → s.team g.team = some t → t.halt = .none → g.trap.inh = false → g.trap.tvec = 0 → g.park = none →
    let r := s.takeTrap gid x
    (∃ h, r.group gid = some h ∧ h.stop = .stopped ∧ h.pc = g.pc ∧ h.trap.inh = false ∧ h.trap.code = BitVec.ofNat 8 x.code)
    ∧ (r.team g.team).map Team.halt = some (.handler gid)
    ∧ ({ at_ := s.clk + 1, onRef := false, ev := .siblingHaltStop gid } : Due) ∈ r.agenda)
  ∧ (∀ (s : State) gid g t x,
  s.group gid = some g → s.team g.team = some t → t.ended = none → g.trap.inh = true →
    (s.groups.map Prod.fst).Nodup →
    (((s.takeTrap gid x).team g.team).map Team.ended) = some (some 1) ∧ (s.takeTrap gid x).teamGroups g.team = [])

/-- R405: the return from a handler with nothing pending, nothing held and no collector: the PC is TPC, the handler bits are clear, no other
register changes, and the team runs again. R398: with a trap pending the halt is not released: the oldest pending trap starts its handler, and
the group that returned stops at its TPC.
The model's own choices here: log entry 16. -/
def Obligations.TrapReturn : Prop := ∀ (s : State) gid g t,
  s.group gid = some g → s.team g.team = some t → g.trap.inh = true → g.armed = none → g.replay = none →
    let r := s.trapReturn gid
    (∀ k rest y, t.pending = k :: rest → k ≠ gid → s.group k = some y → y.team = g.team → y.trap.tvec ≠ 0 → g.stop = .running →
      (∃ t', r.team g.team = some t' ∧ t'.halt = .handler k ∧ t'.pending = rest)
      ∧ (∃ h, r.group k = some h ∧ h.pc = y.trap.tvec ∧ h.stop = .running ∧ h.trap.inh = true ∧ h.trap.orig = true ∧ h.trap.code = y.trap.code)
      ∧ (∃ h, r.group gid = some h ∧ h.pc = g.trap.tpc ∧ h.stop = .stopped ∧ h.trap.inh = false ∧ h.trap.inHandler = false
          ∧ h.trap.orig = false ∧ h.trap.count = 0))
    ∧ (t.pending = [] → t.held = [] → s.collecting g.team = false →
    (∃ h, r.group gid = some h ∧ h.pc = g.trap.tpc ∧ h.trap.inh = false ∧ h.trap.inHandler = false ∧ h.stop = .running
      ∧ h.s = g.s ∧ h.v = g.v ∧ h.p = g.p ∧ h.exec = g.exec ∧ h.mr = g.mr ∧ h.stack = g.stack
      ∧ h.trap.code = g.trap.code ∧ h.trap.taddr = g.trap.taddr ∧ h.trap.tinfo = g.trap.tinfo ∧ h.trap.tdone = g.trap.tdone
      ∧ h.trap.tvec = g.trap.tvec ∧ h.trap.tmask = g.trap.tmask)
    ∧ (r.team g.team).map Team.halt = some .none
    ∧ (∀ k y, r.group k = some y → y.team = g.team → y.stop = .running)
    ∧ r.mem = s.mem)

/-! ## The checks at issue -/

/-- R24, R49, R50, R124, R399: an instruction that does not pass the checks: it traps with no effect of its own, or waits with no effect at
all. A queue handle that gives a register range is waited for first. A handler's group may issue the instructions of Table 16.2 only; then
the fields, the element type, the register blocks; then readiness; then poison.
The model's own choices here: log entries 6, 9, 14. -/
def Obligations.IssueChecks : Prop := ∀ (i : Instr) (body : Ix → State → Done) s c g,
  s.cur = some c → s.group c.gid = some g → (placedByTime i && s.atomicDue c.gid) = false →
    (g.isAgain = false → handleDue i g = true → issue i s body = .next { s with cur := some { c with stalled := true } })
    ∧ ((g.isAgain = true ∨ handleDue i g = false) →
    (g.trap.inh = true → handlerMay (opnum i) = false →
      issue i s body = .next ((s.stamp c g).takeTrap c.gid (trapP 0x80)))
    ∧ ((g.trap.inh = true → handlerMay (opnum i) = true) → fieldsLegal (useCtx i g.atIssue) i = false →
      issue i s body = .next ((s.stamp c g).takeTrap c.gid (trapP 0x02)))
    ∧ ((g.trap.inh = true → handlerMay (opnum i) = true) → fieldsLegal (useCtx i g.atIssue) i = true → g.isAgain = false →
      (acceptsEtype (opnum i) (mrSat g.mr) (mrEtype g.mr) = false →
        issue i s body = .next ((s.stamp c g).takeTrap c.gid (trapP 0x02)))
      ∧ (acceptsEtype (opnum i) (mrSat g.mr) (mrEtype g.mr) = true →
        (blocksHeld (useCtx i g.atIssue) i g = false → issue i s body = .next ((s.stamp c g).takeTrap c.gid (trapP 0x10)))
        ∧ (blocksHeld (useCtx i g.atIssue) i g = true →
          (awaits (useCtx i g.atIssue) i g = true ∨ pathFull i c.pre g = true →
            issue i s body = .next { s with cur := some { c with stalled := true } })
          ∧ (awaits (useCtx i g.atIssue) i g = false → pathFull i c.pre g = false →
            ∀ x, g.bad.find? (fun x => readsPos (useCtx i g.atIssue) i g x && consumesPos i g g.liveNow x) = some x →
              issue i s body = .next ((s.stamp c g).takeTrap c.gid (trapPA 0x13 (BitVec.ofNat 64 x.word) 0)))))))

/-- R4, R43, R113, R124: what the register-only instructions leave alone: every register that is no destination, vector lanes outside LIVE,
the mask stack, the trap registers, the path counters, every other group, and every byte of memory. (LWR writes its one lane whatever LIVE
holds; a group with a poisoned word that is read and not consumed also records it, R124.) -/
def Obligations.RegisterFrame : Prop := ∀ (i : Instr) s c g t,
  registerOnly i = true → illegalMode i g = false → Starts i s c g → latentOf i g = [] → exec i s = .next t →
    (∃ h, t.group c.gid = some h ∧ h.withRegistersOf g = g
      ∧ (∀ r, writesScalar i g r = false → h.sr r = g.sr r)
      ∧ (∀ r, writesVector i g r = false → h.vr r = g.vr r)
      ∧ (∀ r L, (match i with | .lwr _ _ _ => false | _ => true) = true → g.liveNow.has L = false → (h.vr r).lane L = (g.vr r).lane L)
      ∧ (∀ r, writesPred i g r = false → h.pr r = g.pr r)
      ∧ ((match i with | .wrx _ => false | _ => true) = true → h.exec = g.exec)
      ∧ ((match i with | .setmode _ => false | .setmodes _ => false | _ => true) = true → h.mr = g.mr)
      ∧ ((match i with | .pq _ _ _ => false | _ => true) = true → h.qflags = g.qflags))
    ∧ (∀ k, k ≠ c.gid → t.group k = s.group k)
    ∧ (∀ a, Memory.get t.mem a = Memory.get s.mem a)

/-! ## Scratch -/

/-- R200, R201, R203, R204: the scratch loads: whole, into the live lanes, or a precise trap. R200's checks of every live lane come before
any read: the lowest lane that is misaligned or out of range traps, whatever a lower lane would read; then the lowest lane that reads a
poisoned word does. Where every live lane is aligned, in range and not poisoned, the load completes: a next state whose live lanes hold the
words, all of memory as before. Which of the poisoned words of a lane TADDR names, the lowest, is the model's choice: log entry 94. -/
def Obligations.ScratchLoads : Prop := ∀ (d a b : Reg) (i : Instr) (n : Nat),
  (i, n) ∈ [(Instr.ldsw d a b, 1), (Instr.ldsd d a b, 2), (Instr.ldsq d a b, 4)] →
  ∀ s c g t, Starts i s c g → (s.begun i c g).team g.team = some t →
    let o := scratchAt g a b
    let placed := fun (L : Nat) => o L % (4 * n) = 0 ∧ o L + 4 * n ≤ 16384 * t.units
    let clean := fun (L : Nat) => t.poisonIn (o L) (4 * n) = none
    let fine := fun (L : Nat) => placed L ∧ clean L
    ((∀ L, g.liveNow.has L = true → fine L) →
      RunsTo i s c g (((s.begun i c g).correctScratch c.gid g.team (g.liveNow.lanes.map (fun L => (o L, 4 * n)))).setGroup c.gid
        (fun h => (List.range n).foldl (fun h j =>
          h.setV (d.toNat + j) g.liveNow (fun L => BitVec.ofNat 32 (t.word32 (o L + 4 * j)))) h)))
    ∧ (latentOf i g = [] → s.team g.team = some t → (∀ L, g.liveNow.has L = true → fine L) →
      ∃ u h, exec i s = .next u ∧ u.group c.gid = some h
        ∧ (∀ L j, g.liveNow.has L = true → j < n → (h.vr (d.toNat + j)).lane L = BitVec.ofNat 32 (t.word32 (o L + 4 * j)))
        ∧ ∀ x, Memory.get u.mem x = Memory.get s.mem x)
    ∧ (∀ L, lowestLane g.liveNow (fun L => ¬ placed L) L →
        TrapsWith i s c g (trapPA (if o L % (4 * n) ≠ 0 then 0x20 else 0x21) (BitVec.ofNat 64 (o L)) 0))
    ∧ (∀ L, (∀ L, g.liveNow.has L = true → placed L) → lowestLane g.liveNow (fun L => ¬ clean L) L →
        ∃ w, TrapsWith i s c g (trapPA 0x22 (BitVec.ofNat 64 w) 0) ∧ w ∈ t.sbad ∧ o L < w + 4 ∧ w < o L + 4 * n
          ∧ ∀ w', w' ∈ t.sbad → o L < w' + 4 → w' < o L + 4 * n → w ≤ w')

/-- R201, R203, R206: the scratch stores: each lane's words at its offset, no other byte, no register; or a precise trap of the lowest lane
at fault. -/
def Obligations.ScratchStores : Prop := ∀ (d a b : Reg) (i : Instr) (n : Nat),
  (i, n) ∈ [(Instr.stsw d a b, 1), (Instr.stsd d a b, 2), (Instr.stsq d a b, 4)] →
  ∀ s c g t, Starts i s c g → (s.begun i c g).team g.team = some t → Memory.wf t.scratch = true →
    let o := scratchAt g a b
    let fine := fun (L : Nat) => o L % (4 * n) = 0 ∧ o L + 4 * n ≤ 16384 * t.units ∧ t.overlapsTag (o L) (4 * n) = false
    ((∀ L, g.liveNow.has L = true → fine L) →
      ∃ t', RunsTo i s c g ((s.begun i c g).setTeam g.team (fun _ => t'))
        ∧ (∀ x, (∀ L, g.liveNow.has L = true → inRange (o L) (4 * n) x = false) → Memory.get t'.scratch x = Memory.get t.scratch x)
        ∧ (∀ L j, g.liveNow.has L = true → (∀ k, L < k → g.liveNow.has k = true → o k ≠ o L) → j < n →
            t'.word32 (o L + 4 * j) = ((g.vr (d.toNat + j)).lane L).toNat)
        ∧ t' = { t with scratch := t'.scratch, sbad := t'.sbad, ssoft := t'.ssoft })
    ∧ (∀ L, lowestLane g.liveNow (fun L => ¬ fine L) L →
        TrapsWith i s c g
          (trapPA (if o L % (4 * n) ≠ 0 then 0x20 else if 16384 * t.units < o L + 4 * n then 0x21 else 0x23) (BitVec.ofNat 64 (o L)) 0))

/-- R202: the scratch atomics: lane after lane, each on what the lane before left, the old words to Vd. -/
def Obligations.ScratchAtomics : Prop := ∀ (d a b : Reg) (i : Instr) (f : Group → Word → Word → Nat → Word),
  (i, f) ∈ [(Instr.asadd d a b, fun _ old v _ => old + v),
    (Instr.asmin d a b, fun g old v _ => if (if mrEtype g.mr = 0 then v.toInt < old.toInt else v.toNat < old.toNat) then v else old),
    (Instr.asmax d a b, fun g old v _ => if (if mrEtype g.mr = 0 then old.toInt < v.toInt else old.toNat < v.toNat) then v else old),
    (Instr.asand d a b, fun _ old v _ => old &&& v), (Instr.asor d a b, fun _ old v _ => old ||| v),
    (Instr.asxor d a b, fun _ old v _ => old ^^^ v), (Instr.asxch d a b, fun _ _ v _ => v),
    (Instr.ascas d a b, fun g old v L => if old = v then (g.vr (d.toNat + 1)).lane L else old)] →
  ∀ s c g t, Starts i s c g → (s.begun i c g).team g.team = some t →
    let o := scratchAt g a b
    (∀ L, g.liveNow.has L = true →
      o L % 4 = 0 ∧ o L + 4 ≤ 16384 * t.units ∧ t.overlapsTag (o L) 4 = false ∧ t.poisonIn (o L) 4 = none) →
    let r := g.liveNow.lanes.foldl (fun ((t, l) : Team × List (Nat × Word)) L =>
      let old : Word := BitVec.ofNat 32 (t.word32 (o L))
      (t.putScratch (o L) (natLe (f g old ((g.vr d.toNat).lane L) L).toNat 4), l ++ [(L, old)])) (t, [])
    let y := (s.begun i c g).correctScratch c.gid g.team (g.liveNow.lanes.map (fun L => (o L, 4)))
    RunsTo i s c g ((y.setTeam g.team (fun t => { r.1 with ssoft := t.ssoft })).setGroup c.gid (fun h =>
      h.setV d.toNat g.liveNow (fun L => Assoc.getD r.2 L 0)))

/-- R205, R207: BINIT makes a word a barrier that expects b arrivals, or plain again; the other words keep their tags and their bytes. A
word with waiters, or a count of 2^14 or more, is BARRIER_STATE. R205, R207: the word of a barrier holds its fields: what is written as a
barrier reads as that barrier.
The model's own choices here: log entry 17. -/
def Obligations.BarrierInit : Prop :=
  (∀ (a b : Reg) s c (g : Machine.Group) t,
  let i := Instr.binit a b
  let o := (g.sr a.toNat).toNat
  let n := (g.sr b.toNat).toNat
  let y := (s.begun i c g).correctScratch c.gid g.team [(o, 8)]
  Starts i s c g → (s.begun i c g).team g.team = some t → Memory.wf t.scratch = true → o % 8 = 0 → o + 8 ≤ 16384 * t.units →
  (t.tagged o = true → t.poisonIn o 8 = none) →
    (y.waitersOn g.team o = [] → n < 2 ^ 14 →
      ∃ t', RunsTo i s c g (y.setTeam g.team (fun _ => t'))
        ∧ t'.word64 o = (if n = 0 then 0 else 2 ^ 63 + n * 2 ^ 42)
        ∧ t'.tagged o = decide (n ≠ 0)
        ∧ (∀ p, p ≠ o → t'.tagged p = t.tagged p)
        ∧ (∀ x, inRange o 8 x = false → Memory.get t'.scratch x = Memory.get t.scratch x))
    ∧ (y.waitersOn g.team o ≠ [] ∨ 2 ^ 14 ≤ n → FailsIn i s c g y (trapPA 0x23 (g.sr a.toNat) 0)))
  ∧ (∀ (t : Team) (o : Nat) (b : Barrier),
  Memory.wf t.scratch = true → b.expected < 2 ^ 14 → b.arrivals < 2 ^ 14 → -(2 ^ 27) ≤ b.pending → b.pending < 2 ^ 27 →
    (t.putScratch o (natLe b.word 8)).barrier o = b)

/-- R207 to R211: arrivals, announcements, waits, tests and invalidation of a barrier word. An arrival is counted, and the phase completes
when every arrival has been made and nothing is pending; BARR then waits as BWAIT does on the parity it found. R208: an arrival completes
the phase exactly when it is the last one expected and nothing is pending: the phase turns, the arrivals start from 0, and the groups that
wait on the phase before go on. That BARRTX on a word with inv = 0 leaves BSTATUS as it was is the model's choice: log entry 79. The model's
other choices here: log entries 14, 17. -/
def Obligations.Barriers : Prop :=
  (∀ (d a b : Reg) s c (g : Machine.Group) t,
  let o := (g.sr a.toNat).toNat
  let n := (g.sr b.toNat).toNat
  let w : Barrier := t.barrier o
  let read : Instr → State := fun i => (s.begun i c g).correctScratch c.gid g.team [(o, 8)]
  let refused := fun (i : Instr) => FailsIn i s c g (read i) (trapPA 0x23 (g.sr a.toNat) 0)
  let fine := fun (i : Instr) => Starts i s c g ∧ (s.begun i c g).team g.team = some t ∧ o % 8 = 0 ∧ o + 8 ≤ 16384 * t.units
    ∧ t.tagged o = true ∧ t.poisonIn o 8 = none
  let arrived : Instr → Nat → State := fun i n => ((read i).phaseOrders g.team o (Nat.max g.time g.ownTime)
    ((read i).atomsBefore c.gid)).putBarrier g.team o
    ({ w with pending := w.pending + n, arrivals := w.arrivals + 1 } : Barrier)
  (fine (.barr a) →
    (w.inv = true → RunsTo (.barr a) s c g ((read (.barr a)).setGroup c.gid (fun h => { h with bstatus := false })))
    ∧ (w.inv = false → w.arrivals = w.expected → refused (.barr a))
    ∧ (w.inv = false → w.arrivals ≠ w.expected → StaysAt (.barr a) s c g ((arrived (.barr a) 0).waitOn c.gid g.team o w.phase)))
  ∧ (fine (.barrtx a b) →
    (w.inv = true → RunsTo (.barrtx a b) s c g ((read (.barrtx a b)).setGroup c.gid (fun h => { h with bstatus := false })))
    ∧ (w.inv = false → n < 2 ^ 27 → w.pending + n ≤ 2 ^ 27 - 1 → w.arrivals ≠ w.expected →
        RunsTo (.barrtx a b) s c g (arrived (.barrtx a b) n))
    ∧ (w.inv = false → ¬ (n < 2 ^ 27 ∧ w.pending + n ≤ 2 ^ 27 - 1 ∧ w.arrivals ≠ w.expected) → refused (.barrtx a b)))
  ∧ (fine (.bwait a b) → StaysAt (.bwait a b) s c g
      ((read (.bwait a b)).setGroup c.gid (fun h =>
        if w.phase ≠ (g.sr b.toNat).getLsbD 0 then h.endWait true ((read (.bwait a b)).instOf c.gid h 0 2) (t.doneTime o) (t.doneAfter o)
        else if w.inv then h.endWait false none 0 []
        else { h with park := some (.barrier o ((g.sr b.toNat).getLsbD 0)) })))
  ∧ (fine (.btest d a) → RunsTo (.btest d a) s c g
      ((read (.btest d a)).setGroup c.gid (fun h => h.setP d.toNat (Mask.all w.phase))))
  ∧ (fine (.binv a) →
    (w.inv = true → RunsTo (.binv a) s c g (read (.binv a)))
    ∧ (w.inv = false → RunsTo (.binv a) s c g (((read (.binv a)).setTeam g.team (fun t =>
        t.putScratch o (natLe ({ w with inv := true } : Barrier).word 8))).releaseWaiters g.team o false w.phase 0 []))))
  ∧ (∀ (s : State) tid o (t : Team) (b : Barrier),
  s.team tid = some t → Memory.wf t.scratch = true → b.expected < 2 ^ 14 → b.arrivals ≤ b.expected → -(2 ^ 27) ≤ b.pending →
  b.pending < 2 ^ 27 → b.inv = false →
    let r := s.putBarrier tid o b
    let last := b.arrivals = b.expected ∧ b.pending = 0
    ∃ t', r.team tid = some t'
      ∧ (t'.barrier o).phase = (if last then !b.phase else b.phase)
      ∧ (t'.barrier o).arrivals = (if last then 0 else b.arrivals)
      ∧ (t'.barrier o).expected = b.expected ∧ (t'.barrier o).pending = b.pending
      ∧ (∀ k g, s.group k = some g → g.team = tid → ∀ q, g.park = some (.barrier o q) →
          r.group k = some (if last ∧ q = b.phase then g.endWait true (s.instOf k g 0 2) (t.phaseTime o) (t.phaseAfter o) else g))
      ∧ (∀ k g, s.group k = some g → g.team ≠ tid → r.group k = some g))

/-- R213: CPGS: the copy is under way on path COPY, its bytes announced to its barrier; its first chunk is to be delivered. R220: WAITC and
WAITP issue once the path counters they name have fallen to their thresholds, and order what they cover; until then they do not issue, nor
in the skid of a halt that met the group waiting there (R397). That the announcement of a copy completes no phase is the model's choice: log
entry 80. The model's other choices here: log entries 1, 18, 90. -/
def Obligations.CopiesAndPathWaits : Prop :=
  (∀ (d a b : Reg) s c (g : Machine.Group) t,
  let i := Instr.cpgs d a b
  let y := s.begun i c g
  let dst := (g.sr d.toNat).toNat
  let src := (g.sr a.toNat).toNat % 2 ^ 56
  let len := (g.sr b.toNat).toNat % 2 ^ 20
  let keep := (g.sr b.toNat).getLsbD 63
  let bv := g.sr (b.toNat + 1)
  let w : Barrier := t.barrier bv.toNat
  let z := y.correctScratch c.gid g.team [(bv.toNat, 8)]
  let counted := fun (s : State) (bar : Option Nat) =>
    (({ s.setGroup c.gid (fun h => h.raisePath 2 (s.uid) 0) with
        copies := Assoc.put s.copies s.uid { gid := c.gid, team := g.team, func := t.func, dst := dst, src := src, len := len, bar := bar,
                                              chunks := 0, time := g.time, waiting := false } }) : State)
  Starts i s c g → y.team g.team = some t → y.uid = s.uid + 1 →
  dst % 16 = 0 → src % 16 = 0 → len % 16 = 0 → 0 < len → len ≤ 786432 → dst + len ≤ 16384 * t.units → t.overlapsTag dst len = false →
  (g.sr b.toNat).toNat / 2 ^ 20 % 2 ^ 43 = 0 →
    (bv = BitVec.allOnes 64 → RunsTo i s c g ((counted y none).post (.copyChunkDelivery (s.uid + 1))))
    ∧ (bv ≠ BitVec.allOnes 64 → bv.toNat % 8 = 0 → bv.toNat + 8 ≤ 16384 * t.units → t.tagged bv.toNat = true →
        t.poisonIn bv.toNat 8 = none → w.inv = false → (keep = true ∨ w.pending + len ≤ 2 ^ 27 - 1) →
        RunsTo i s c g ((counted (if keep then z else z.setTeam g.team (fun t =>
          t.putScratch bv.toNat (natLe ({ w with pending := w.pending + len } : Barrier).word 8))) (some bv.toNat)).post
            (.copyChunkDelivery (s.uid + 1))))
    ∧ (bv ≠ BitVec.allOnes 64 → bv.toNat % 8 = 0 → bv.toNat + 8 ≤ 16384 * t.units →
        (t.tagged bv.toNat = true → t.poisonIn bv.toNat 8 = none) →
        (t.tagged bv.toNat = false ∨ w.inv = true) → FailsIn i s c g z (trapPA 0x23 bv 0)))
  ∧ ((∀ l st cp t s c g, Starts (.waitc l st cp t) s c g →
    let n := [l.toNat, st.toNat, cp.toNat, t.toNat]
    let stood := g.stoodAt ((List.range 4).map (fun k => (k, n.getD k 0)))
    (stood = false → (∀ k, k < 4 → g.counter k ≤ n.getD k 0) →
      RunsTo (.waitc l st cp t) s c g ((s.begun (.waitc l st cp t) c g).setGroup c.gid (fun h =>
        (((h.coverPath 0 l.toNat).coverPath 1 st.toNat).coverPath 2 cp.toNat).coverPath 3 t.toNat)))
    ∧ (stood = true ∨ (∃ k, k < 4 ∧ n.getD k 0 < g.counter k) → exec (.waitc l st cp t) s = .next { s with cur := some { c with stalled := true } }))
  ∧ (∀ (a b : Reg) s c g, Starts (.waitp a b) s c g →
    let stood := g.stoodAt [(a.toNat, (g.sr b.toNat).toNat)]
    (stood = false → g.counter a.toNat ≤ (g.sr b.toNat).toNat →
      RunsTo (.waitp a b) s c g ((s.begun (.waitp a b) c g).setGroup c.gid (fun h => h.coverPath a.toNat (g.sr b.toNat).toNat)))
    ∧ (stood = true ∨ (g.sr b.toNat).toNat < g.counter a.toNat → exec (.waitp a b) s = .next { s with cur := some { c with stalled := true } })))

/-! ## Global memory -/

/-- R241, R243: the vector loads: 1 to 16 bytes per live lane, aligned to their size, each at its lane's address. R241, R243: the vector
stores: the low bytes of the lane's words, at the lane's address.
The model's own choices here: log entries 7, 13, 15. -/
def Obligations.VectorAccesses : Prop :=
  (∀ (d a b : Reg) (i : Instr) (z n : Nat),
  (i, z, n) ∈ [(Instr.ldb d a b, 1, 1), (Instr.ldh d a b, 2, 1), (Instr.ldw d a b, 4, 1), (Instr.ldd d a b, 8, 2), (Instr.ldq d a b, 16, 4)] →
    Accesses i .read (fun _ => 0) z a b d.toNat n (fun _ _ _ => True) (fun x s last tg => s.loadLane x z last tg)
    ∧ Misaligned i z a b (fun _ _ _ => True)
    ∧ AccessKeeps i .read 0 a b (fun x s last tg => s.loadLane x z last tg) (fun _ _ => false))
  ∧ (∀ (d a b : Reg) (i : Instr) (z n : Nat),
  (i, z, n) ∈ [(Instr.stb d a b, 1, 1), (Instr.sth d a b, 2, 1), (Instr.stw d a b, 4, 1), (Instr.std d a b, 8, 2), (Instr.stq d a b, 16, 4)] →
    Accesses i .write (fun _ => 1) z a b 0 0 (fun _ _ _ => True) (fun x s last tg =>
      s.storeLane x (((List.range n).flatMap (fun j => natLe ((x.g.vr (d.toNat + j)).lane tg.lane).toNat 4)).take z) last tg)
    ∧ Misaligned i z a b (fun _ _ _ => True)
    ∧ AccessKeeps i .write 1 a b (fun x s last tg =>
        s.storeLane x (((List.range n).flatMap (fun j => natLe ((x.g.vr (d.toNat + j)).lane tg.lane).toNat 4)).take z) last tg)
        (fun pa x => inRange pa z x))

/-- R242: the whole-group accesses: one scalar register, at the sum of two.
The model's own choices here: log entries 7, 8. -/
def Obligations.WholeGroupAccesses : Prop := ∀ (d a b : Reg) (i : Instr) (z : Nat),
  ((i, z) ∈ [(Instr.sldw d a b, 4), (Instr.sldd d a b, 8)] →
    AccessesWhole i .read 0 z a b (fun x s last tg => s.loadLane x z last tg) (fun op h v bad => h.pendWith
      { op := op, kind := .scalar, reg := d.toNat, lanes := BitVec.allOnes 128, vec := none, num := some v, bad := Mask.all bad }))
  ∧ ((i, z) ∈ [(Instr.sstw d a b, 4), (Instr.sstd d a b, 8)] →
    AccessesWhole i .write 1 z a b (fun x s last tg => s.storeLane x (natLe (x.g.sr d.toNat).toNat z) last tg) (fun _ h _ _ => h))
  ∧ ((i, z) ∈ [(Instr.sldw d a b, 4), (Instr.sldd d a b, 8), (Instr.sstw d a b, 4), (Instr.sstd d a b, 8)] →
    ∀ s c g, Starts i s c g → (wholeAt g a b).toNat % z ≠ 0 → TrapsWith i s c g (trapPA 0x28 (wholeAt g a b) 0))

/-- R225, R239, R249, R250: a load of a Normal line that no engine owns, at a scope that holds every agent: a time not below the order's
floor, the thread's last time on the line, what the host has loaded there, and its last write where none is asked for; the value is the bytes
as of that time, the lease reaches it, the core's L1 serves the line up to it, and no byte of memory changes.
The model's own choices here: log entries 7, 8, 70. -/
def Obligations.LoadLane : Prop := ∀ (s : State) (x : Ix) (z last : Nat) (tg : Target) g,
  x.again = false → s.group x.gid = some g → tg.typ = 0 → (s.line (lineOf tg.pa)).owners = [] → (s.line (lineOf tg.pa)).bad = false → g.snap = none →
  (s.core x.g.core).combine = [] → s.afterAtoms x tg.lane (lineOf tg.pa) false = false →
  viewsOf g tg.lane (s.line (lineOf tg.pa)) (s.instOf x.gid g tg.lane x.scope) = [] →
    let o := x.order
    let n := lineOf tg.pa
    let t := Nat.max (Nat.max (Nat.max ((g.tmOf tg.lane).loadFloor o) (g.seenOf tg.lane n)) (s.hearthTime tg.pa))
      (x.time.getD (s.line n).wtime)
    ∃ r h, s.loadLane x z last tg = (r, .ok (leNat (s.bytesAt tg.pa z t)) false)
      ∧ r.mem = s.mem ∧ (r.line n).versions = (s.line n).versions ∧ (r.line n).rtime = Nat.max (s.line n).rtime t
      ∧ r.group x.gid = some h ∧ { h with fills := g.fills } = (g.updTm tg.lane (fun y => y.load o t)).sees tg.lane n t

/-- R239, R249, R250: a store to a Normal line that no engine owns and no migration mirrors, at a scope that holds every agent: a time
above the floor of its order, every lease and every earlier access of the thread to the line; from that time the stored bytes are read
there until the next write; before it, and at every other address, every byte reads as before. R249, R264: a write of a line takes its
place among the line's writes: before its time the history is as it was, at its time the written bytes are read, and where no write is
newer memory holds them.
The model's own choices here: log entries 7, 8, 68, 70. -/
def Obligations.StoreAndHistory : Prop :=
  (∀ (s : State) (x : Ix) (data : List Byte) (last : Nat) (tg : Target) g,
  x.again = false → s.memWf → s.group x.gid = some g → tg.typ = 0 → (s.line (lineOf tg.pa)).owners = [] → s.migrations = [] → g.mon = none → data ≠ [] →
  s.afterAtoms x tg.lane (lineOf tg.pa) true = false →
  viewsOf g tg.lane (s.line (lineOf tg.pa)) (s.instOf x.gid g tg.lane x.scope) = [] →
  tg.pa % 256 + data.length ≤ 256 → ((s.line (lineOf tg.pa)).versions.map Version.time).Pairwise (· ≥ ·) →
    let n := lineOf tg.pa
    let t := s.storeTime g tg.lane tg.pa x.order x.time last
    ∃ r, s.storeLane x data last tg = (r, .ok t false)
      ∧ (g.tmOf tg.lane).storeFloor x.order < t ∧ g.seenOf tg.lane n < t ∧ (s.line n).rtime < t ∧ last < t
      ∧ (∀ k, k < data.length → r.byteAtTime t (tg.pa + k) = data.getD k 0)
      ∧ (∀ a u, u < t → r.byteAtTime u a = s.byteAtTime u a)
      ∧ (∀ a u, inRange tg.pa data.length a = false → r.byteAtTime u a = s.byteAtTime u a)
      ∧ (∀ a, inRange tg.pa data.length a = false → Memory.get r.mem a = Memory.get s.mem a)
      ∧ r.group x.gid = some (((g.updTm tg.lane (fun y => y.store x.order t)).sees tg.lane n t).performedAt x.op t))
  ∧ (∀ (s : State) (n t : Nat) (cells : List Host.Cell),
  s.memWf → ((s.line n).versions.map Version.time).Pairwise (· ≥ ·) → t ∉ (s.line n).versions.map Version.time →
  (cells.map Prod.fst).Nodup → (∀ p, p ∈ cells → lineOf p.1 = n) →
    let r := s.writeLine n t cells
    (∀ a u, u < t → r.byteAtTime u a = s.byteAtTime u a)
    ∧ (∀ p, p ∈ cells → r.byteAtTime t p.1 = p.2)
    ∧ (∀ a, a ∉ cells.map Prod.fst → (∀ u, r.byteAtTime u a = s.byteAtTime u a) ∧ Memory.get r.mem a = Memory.get s.mem a)
    ∧ ((s.line n).wtime ≤ t → ∀ p, p ∈ cells → Memory.get r.mem p.1 = p.2)
    ∧ ((r.line n).versions.map Version.time).Pairwise (· ≥ ·))

/-- R245 to R247, R254, R256: FENCE flushes the group's combining buffers and changes its threads' times as Table 10.1 says, toward the
observers within its scope; WCFL flushes them, and puts every WC store of the group, those of buffers that had left before it included,
ahead of every later access; both keep the group until its home slices have accepted the
flushes. PREF changes neither a register nor memory. While a buffer's line is owned, FENCE and WCFL do not issue. R45, R46, R50: an ORD
pair: both words fetched, the second is executed as it would be alone, with the prefix; a second word that no pair may hold raises PAIR,
and the prefix's own fields are checked first.
The model's own choices here: log entries 8, 9, 11. -/
def Obligations.FencesAndPairs : Prop :=
  ((∀ order scope s c g, Starts (.fence order scope) s c g →
    let y := s.begun (.fence order scope) c g
    let o : Order := if order = 0 then .sc else if order = 1 then .acquire else if order = 2 then .release else if order = 3 then .acqRel else .relaxed
    (y.flushBlocked c.gid = false → RunsTo (.fence order scope) s c g
      (((y.flushGroup c.gid Group.raiseH).fence c.gid o scope.toNat).setGroup c.gid (fun h => { h with flushing := y.combinedLines c.gid })))
    ∧ (y.flushBlocked c.gid = true → exec (.fence order scope) s = .next { s with cur := some { c with stalled := true } }))
  ∧ (∀ s c g, Starts .wcfl s c g →
    let y := s.begun .wcfl c g
    (y.flushBlocked c.gid = false → RunsTo .wcfl s c g
      ((y.flushGroup c.gid).setGroup c.gid (fun h => { h.acquire h.wcTime with flushing := y.combinedLines c.gid })))
    ∧ (y.flushBlocked c.gid = true → exec .wcfl s = .next { s with cur := some { c with stalled := true } }))
  ∧ (∀ (a b : Reg) s c g, Starts (.pref a b) s c g →
    ∃ u, RunsTo (.pref a b) s c g u ∧ u.mem = (s.begun (.pref a b) c g).mem ∧ u.groups = (s.begun (.pref a b) c g).groups
      ∧ u.teams = (s.begun (.pref a b) c g).teams))
  ∧ (∀ noret order scope s c g z w h,
  let o := Instr.ord noret order scope
  s.cur = some c → s.group c.gid = some g → s.fetchWord c.gid c.code (g.pc + 4) = (z, .word w) → z.group c.gid = some h →
  (g.trap.inh = true → handlerMay 0x40E = true) →
    (fieldsLegal (useCtx o g) o = false → exec o s = .next ((z.stamp c g).takeTrap c.gid (trapP 0x02)))
    ∧ (fieldsLegal (useCtx o g) o = true →
      (ordPairs (fOp w).toNat = false ∨ admitsOrder (fOp w).toNat noret order.toNat = false →
        exec o s = .next ((z.stamp c g).takeTrap c.gid (trapP 0x03)))
      ∧ (∀ i, ordPairs (fOp w).toNat = true → admitsOrder (fOp w).toNat noret order.toNat = true → decode (bytesOfWord w) = .ok (i, []) →
        ∃ t, exec o s = .next t ∧ exec i { z with cur := some { c with pre := some (prefixOf noret order scope) } } = .next t)))

/-- R266 to R268: an atomic whose live lanes are aligned and translate completes: each lane has gone to its unit, with at most 8 replies
due to a lane; with an ORD prefix that asks for no result it is counted with the stores. R268, R269: what a unit does with a lane of an
atomic on a line without poison: the new word by Table 10.3 at a time above every access of the line, the other bytes unchanged, and the
old word in the reply that is sent: of each kind of Table 10.3, with the time of the write above every write, read and fixed write time of
the line, the line's earlier history as it was.
The model's own choices here: log entries 1, 9. -/
def Obligations.Atomics : Prop :=
  (∀ (d a b : Reg) (i : Instr) (k : AtomOp) (n : Nat),
  (i, k, n) ∈ [(Instr.aadd d a b, .add, 1), (Instr.asub d a b, .sub, 1), (Instr.amin d a b, .min, 1), (Instr.amax d a b, .max, 1),
    (Instr.aand d a b, .and, 1), (Instr.aor d a b, .or, 1), (Instr.axor d a b, .xor, 1), (Instr.axch d a b, .xch, 1), (Instr.acas d a b, .cas, 2),
    (Instr.ainc d a b, .inc, 1), (Instr.adec d a b, .dec, 1), (Instr.afadd d a b, .fadd, 1)] →
  let ready := fun (s : State) (c : Cur) (g : Group) =>
    noResult c.pre = true ∨ ∀ L, g.liveNow.has L = true → s.repliesDue c.gid L < 8
  let path := fun (p : Option Prefix) => if noResult p then 1 else 0
  (∀ s c g y l, Starts i s c g → ready (s.begun i c g) c g → (∀ L, g.liveNow.has L = true → (laneAt g a b L).toNat % 4 = 0) →
    Reaches i s c g .atomic (path c.pre) a b y l →
    let u := l.foldl (fun (u : State) tg =>
      (u.sendAtomic (ixOf s c g) k d ((List.range n).map (fun j => g.vr (d.toNat + j))) tg).1) y
    RunsTo i s c g (((u.setGroup c.gid (fun h => h.results (s.uid + 1) 0 0 (l.map (fun tg => (tg.lane, 0, false))))).postLand
      c.gid (s.uid + 1)).setGroup c.gid (fun h => h.setHeld none)))
  ∧ Misaligned i 4 a b ready
  ∧ (∀ s c g L, Starts i s c g → noResult c.pre = false → g.liveNow.has L = true → 8 ≤ (s.begun i c g).repliesDue c.gid L →
      exec i s = .next { s with cur := some { c with stalled := true } }))
  ∧ (∀ (s : State) (a : AtomLane) g,
  s.memWf → s.group a.gid = some g → (s.line (lineOf a.pa)).bad = false → s.migrations = [] → a.pa % 4 = 0 → a.noret = false →
  ((s.line (lineOf a.pa)).versions.map Version.time).Pairwise (· ≥ ·) →
    let old := s.num a.pa 4
    let r := s.performAtomic a
    let sent : AtomReply := { gid := a.gid, op := a.op, lane := a.lane, vd := a.vd, old := BitVec.ofNat 32 old, bad := false }
    let n := lineOf a.pa
    let o : Word := BitVec.ofNat 32 old
    let et := if 2 ≤ mrEtype a.mr ∧ mrEtype a.mr ≤ 4 then 1 else mrEtype a.mr
    let each := fun (f : Int → Int → Int) =>
      packElems et (fun k => fit et (mrSat a.mr) (f (elemVal et o k) (elemVal et a.x k)))
    let signed := mrEtype a.mr = 0
    let flushed := fun (w : Word) => Fp.f32.decode (Fp.f32.flush (mrFtz a.mr) w.toNat)
    (∀ (k : AtomOp) (v : Word), a.kind = k →
      (k, v) ∈ [(AtomOp.add, each (fun x y => x + y)), (.sub, each (fun x y => x - y)),
        (.min, if (if signed then a.x.toInt < o.toInt else a.x.toNat < o.toNat) then a.x else o),
        (.max, if (if signed then o.toInt < a.x.toInt else o.toNat < a.x.toNat) then a.x else o),
        (.and, o &&& a.x), (.or, o ||| a.x), (.xor, o ^^^ a.x), (.xch, a.x), (.cas, if o = a.x then a.y else o),
        (.inc, if a.x.toNat ≤ o.toNat then 0 else o + 1), (.dec, if o = 0 ∨ a.x.toNat < o.toNat then a.x else o - 1),
        (.fadd, BitVec.ofNat 32 (Fp.f32.flush (mrFtz a.mr) (Fp.f32.sum (mrRound a.mr) (flushed o) (flushed a.x))))] →
      r.num a.pa 4 = v.toNat)
    ∧ (∀ p, inRange a.pa 4 p = false → Memory.get r.mem p = Memory.get s.mem p)
    ∧ (∃ v, (r.line n).versions = v :: (s.line n).versions
      ∧ (∀ w, w ∈ (s.line n).versions → w.time < v.time ∧ ∀ q, q ∈ w.tags → q.2 < v.time)
      ∧ (s.line n).rtime < v.time ∧ (∀ q, q ∈ (s.line n).rnear → q.2 < v.time) ∧ (∀ w, w ∈ (s.line n).owners → w.tw < v.time)
      ∧ (g.tmOf a.lane).storeFloor (orderAt a.order (s.instOf a.gid g a.lane a.scope) none) < v.time ∧ g.seenOf a.lane n < v.time
      ∧ (∀ u p, u < v.time → r.byteAtTime u p = s.byteAtTime u p))
    ∧ (∃ t, r.agenda = s.agenda.map (sentAfter a t) ++ [{ at_ := s.clk, onRef := false, ev := .atomicReply sent }]))

/-- R270, R271: MONA arms a monitor on the line of the first live lane; MWT goes on at once if the line has been written above the arm time,
traps where it may not wait, and parks.
The model's own choices here: log entry 21. -/
def Obligations.Monitors : Prop :=  (∀ (a b : Reg) s c g, Starts (.mona a b) s c g →
    let y := s.begun (.mona a b) c g
    (g.liveNow = 0 → RunsTo (.mona a b) s c g (y.setGroup c.gid (fun h => { h with mon := none })))
    ∧ (∀ L z pa typ, g.liveNow.first = some L →
        y.translate (y.groupXc c.gid) (laneAt g a b L) .read = (z, .ok pa typ) →
        (2 ≤ typ ∨ z.paKind pa = .hearth ∨ (z.regionOf pa).isSome = true →
          FailsIn (.mona a b) s c g z (trapPA 0x2C (laneAt g a b L) 0))
        ∧ (typ < 2 → z.paKind pa ≠ .hearth → z.regionOf pa = none →
          let u := z.setGroup c.gid (fun h => { h with mon := none })
          let w := u.watched (u.homeSlice pa)
          RunsTo (.mona a b) s c g (u.setGroup c.gid (fun h =>
            { h with mon := some { line := lineOf pa, time := (h.tm L).h, coarse := decide (256 ≤ w.length) && !w.contains (lineOf pa) } })))))
  ∧ (∀ (a : Reg) s c g, Starts (.mwt a) s c g →
    let y := s.begun (.mwt a) c g
    let n := g.sr a.toNat
    (g.mon = none → RunsTo (.mwt a) s c g y)
    ∧ (∀ m, g.mon = some m →
      let written := (y.line m.line).versions.any (fun v => !v.moved && decide (m.time < v.time))
      (written = true → RunsTo (.mwt a) s c g (y.setGroup c.gid (fun h => { h with mon := none })))
      ∧ (written = false → n = 0 → TrapsWith (.mwt a) s c g (trapP 0x2D))
      ∧ (written = false → n = BitVec.allOnes 64 →
          StaysAt (.mwt a) s c g (y.setGroup c.gid (fun h => { h with park := some (.monitor none) })))
      ∧ (written = false → n ≠ 0 → n ≠ BitVec.allOnes 64 →
          StaysAt (.mwt a) s c g ((y.setGroup c.gid (fun h => { h with park := some (.monitor (some (y.clk + n.toNat))) })).postAt
            (y.clk + n.toNat) (.monitorTimeoutExpiry c.gid)))))

/-! ## Patterns, fibres, gathers -/

/-- R337 to R341: the gathers: a descriptor that is not valid is HANDLE_INVALID; GATH's first coordinate outside the matrix is GATHER_RANGE;
else each live lane reads its element, and Vd is due. -/
def Obligations.Gathers : Prop := ∀ (d a b : Reg) (i : Instr) (strict : Bool),
  (i, strict) ∈ [(Instr.gath d a b, true), (Instr.gathq d a b, false)] →
  ∀ s c (g : Machine.Group) z desc,
    let va := g.sr a.toNat
    let key := fun (L : Nat) => ((g.vr b.toNat).lane L).toNat
    let h := Handle.ofBytes desc
    let outside := fun (L : Nat) => h.rows ≤ key L % 65536 ∨ h.cols ≤ key L / 65536
    Starts i s c g →
      (va.toNat % 64 ≠ 0 → TrapsWith i s c g (badHandle va 3))
      ∧ (va.toNat % 64 = 0 → handleRead (ixOf s c g) va.toNat (s.begun i c g) = (z, .ok desc) →
        (∀ sub, handleFault desc = some sub → FailsIn i s c g z (badHandle va sub))
        ∧ (handleFault desc = none →
          (∀ L, strict = true → lowestLane g.liveNow outside L →
            FailsIn i s c g z (trapPA 0x3C (((g.vr b.toNat).lane L).zeroExtend 64) 0))
          ∧ (∀ q, (strict = true → ∀ L, g.liveNow.has L = true → ¬ outside L) →
            q = g.liveNow.lanes.foldl ((ixOf s c g).gatherLane h (g.vr b.toNat))
              { s := z.setGroup c.gid (fun h => h.raisePath 4 (s.uid + 1) 0), vals := [], faults := [], addrs := [], waits := [], busy := false,
                pages := [] } →
            q.faults = [] → q.waits = [] → q.busy = false →
            RunsTo i s c g (((q.s.setGroup c.gid (fun h => h.results (s.uid + 1) d.toNat 1 q.vals)).postLand
              c.gid (s.uid + 1)).setGroup c.gid (fun h => h.setHeld none)))))

/-- R326, R327, R330 to R335: pattern programs loaded and freed; fibres opened, advanced and closed. An instruction of a fibre does not
issue while another group's FOPEN or FADV of it, which came first, waits to be applied: the model's reading of the fibre's order, log entry
98. The model's other choices here: log entry 19. -/
def Obligations.Fibres : Prop := ∀ (d a b : Reg) s c (g : Machine.Group) t,
  let fib := Assoc.get t.fibres a.toNat
  (Starts (.pgld d a) s c g → (s.begun (.pgld d a) c g).team g.team = some t →
    let op := s.uid + 1
    let y := (s.begun (.pgld d a) c g).setGroup c.gid (fun h => h.raisePath 4 op 0)
    let va := g.sr a.toNat
    (va.toNat % 4 ≠ 0 → TrapsWith (.pgld d a) s c g (trapPA 0x28 va 0))
    ∧ (va.toNat % 4 = 0 → (Assoc.lowestFree t.patterns 0 16 = none ∨ 16 ≤ y.patternSlots t.home) →
        RunsTo (.pgld d a) s c g ((y.setGroup c.gid (fun h => h.setS d.toNat 0)).finishOp c.gid op))
    ∧ (∀ k z ws, va.toNat % 4 = 0 → Assoc.lowestFree t.patterns 0 16 = some k → y.patternSlots t.home < 16 →
        (∀ p rest n, readProgram (ixOf s c g) va.toNat 64 [] y = (z, .ok (ws, .ok p rest n)) →
          RunsTo (.pgld d a) s c g (((z.finishOp c.gid op).setTeam g.team (fun t =>
            { t with patterns := Assoc.put t.patterns k { words := ws, inv := p.inv } })).setGroup c.gid (fun h =>
              h.setS d.toNat (patHandle p.inv (Assoc.getD t.gens k 0) k))))
        ∧ (∀ n sub, readProgram (ixOf s c g) va.toNat 64 [] y = (z, .ok (ws, .bad n sub)) →
          FailsIn (.pgld d a) s c g (z.finishOp c.gid op) (trapPA 0x38 (va + BitVec.ofNat 64 (4 * n)) (BitVec.ofNat 64 (place sub 60))))))
  ∧ (Starts (.pgfree a) s c g → (s.begun (.pgfree a) c g).team g.team = some t →
    (t.handle (g.sr a.toNat) = none → RunsTo (.pgfree a) s c g (s.begun (.pgfree a) c g))
    ∧ (∀ k p, t.handle (g.sr a.toNat) = some (k, p) → RunsTo (.pgfree a) s c g ((s.begun (.pgfree a) c g).setTeam g.team (fun t =>
        { t with patterns := Assoc.del t.patterns k, gens := Assoc.put t.gens k ((Assoc.getD t.gens k 0 + 1) % 65536) }))))
  ∧ (Starts (.fopen d a b) s c g → (s.begun (.fopen d a b) c g).team g.team = some t →
    let i := Instr.fopen d a b
    let y := s.begun i c g
    let h := g.sr a.toNat
    let mode := (g.sr b.toNat).toNat
    let time := Nat.max g.time (c.time.getD 0)
    let behind := (ixOf s c g).behind y d.toNat
    (behind = true ∨ Assoc.has t.fibres d.toNat = false ∧ 8 ≤ y.swageContexts t.home → exec i s = .next { s with cur := some { c with stalled := true } })
    ∧ (behind = false → (Assoc.has t.fibres d.toNat = true ∨ y.swageContexts t.home < 8) → bits mode 62 52 = 0 →
      (∀ k p, h.getLsbD 63 = true → t.handle h = some (k, p) → (bit mode 63 = true → p.inv = true) →
        RunsTo i s c g (y.openFibre g.team d.toNat (.pattern p.words p.inv) mode time))
      ∧ (∀ k p, h.getLsbD 63 = true → t.handle h = some (k, p) → bit mode 63 = true → p.inv = false → TrapsWith i s c g (trapP 0x39))
      ∧ (h.getLsbD 63 = true → t.handle h = none → TrapsWith i s c g (badHandle 0 0))
      ∧ (∀ z desc, h.getLsbD 63 = false → h.toNat % 64 = 0 → handleRead (ixOf s c g) h.toNat y = (z, .ok desc) →
          handleFault desc = none → ((Handle.ofBytes desc).fmt = 3 ∧ bit mode 63 = false ∨ (Handle.ofBytes desc).fmt = 4 ∧ bit mode 63 = true) →
          RunsTo i s c g (z.openFibre g.team d.toNat (.stored (Handle.ofBytes desc)) mode time))))
  ∧ (∀ f, Starts (.fadv d a) s c g → (s.begun (.fadv d a) c g).team g.team = some t → fib = some f →
    let i := Instr.fadv d a
    let lanes := g.liveNow.lanes
    (ixOf s c g).behind (s.begun i c g) a.toNat = false →
    (f.counting = true → exec i s = .next { s with cur := some { c with stalled := true } })
    ∧ (f.counting = false → g.liveNow = 0 → RunsTo i s c g (s.begun i c g))
    ∧ (∀ ws inv, f.src = .pattern ws inv → f.next (ixOf s c g) lanes.length (s.begun i c g) = (s.begun i c g, .ok
        (((((patOf ws).window f.trans f.row0 (windowLen f.row0 f.rspan (patOf ws).rows) f.col0 (windowLen f.col0 f.cspan (patOf ws).cols)).drop
          f.count).take lanes.length).map (fun q => (q.1, q.2, (patOf ws).rank q.1 q.2)), 0, none)))
    ∧ (∀ z l major row, f.counting = false → g.liveNow ≠ 0 → f.next (ixOf s c g) lanes.length (s.begun i c g) = (z, .ok (l, major, row)) →
      let got := lanes.zip l
      let m := maskOf (got.map Prod.fst)
      let val := fun (L : Nat) => ((got.find? (fun p => decide (p.1 = L))).map Prod.snd).getD (0, 0, 0)
      RunsTo i s c g ((z.setTeam g.team (fun t => { t with fibres := Assoc.upd t.fibres a.toNat (fun f =>
          { f with count := f.count + l.length, major := major, row := row, exhausted := f.exhausted || decide (l.length < lanes.length) }) })).setGroup
            c.gid (fun h =>
        let h := (h.setV d.toNat m (fun L => BitVec.ofNat 32 (place (val L).2.1 16 + (val L).1 % 65536))).setV (d.toNat + 1) m
          (fun L => BitVec.ofNat 32 (val L).2.2)
        { h with ends := Vector.put h.ends a.toNat ((Vector.at0 h.ends a.toNat 0 ||| g.liveNow) &&& ~~~ m) }))))
  ∧ (∀ i, i = Instr.fadv d a ∨ i = Instr.fend d a ∨ i = Instr.fpos d a → Starts i s c g → (s.begun i c g).team g.team = some t → fib = none →
      (ixOf s c g).behind (s.begun i c g) a.toNat = false → TrapsWith i s c g (trapP 0x3A))
  ∧ (∀ i, i = Instr.fadv d a ∨ i = Instr.fpos d a ∨ i = Instr.fclose a → Starts i s c g →
      (ixOf s c g).behind (s.begun i c g) a.toNat = true → exec i s = .next { s with cur := some { c with stalled := true } })
  ∧ (∀ f, Starts (.fend d a) s c g → (s.begun (.fend d a) c g).team g.team = some t → fib = some f →
      RunsTo (.fend d a) s c g ((s.begun (.fend d a) c g).setGroup c.gid (fun h => h.setP d.toNat (Vector.at0 g.ends a.toNat 0))))
  ∧ (Starts (.fclose a) s c g → (ixOf s c g).behind (s.begun (.fclose a) c g) a.toNat = false → RunsTo (.fclose a) s c g ((s.begun (.fclose a) c g).setTeam g.team (fun t =>
      { t with fibres := Assoc.del t.fibres a.toNat })))
  ∧ (∀ f, Starts (.fpos d a) s c g → (s.begun (.fpos d a) c g).team g.team = some t → fib = some f →
      (ixOf s c g).behind (s.begun (.fpos d a) c g) a.toNat = false → RunsTo (.fpos d a) s c g ((s.begun (.fpos d a) c g).setGroup c.gid (fun h =>
        h.setS d.toNat (BitVec.ofNat 64 ((if f.exhausted then 2 ^ 32 else 0) + f.count % 2 ^ 32)))))

/-! ## The Anvil -/

/-- R166: ownership of the home core's Anvil: taken while it is free and none waits; else the group joins the line of at most 16; MXTRY
tells; MXREL passes it on. R183, R184, R192, R405: MFENCE closes the open batch and gives its number; MWAITB waits for the closed batches it
names and orders their writes; SETRST sets the restart label.
The model's own choices here: log entry 1. -/
def Obligations.AnvilOwnershipAndBatches : Prop :=
  (∀ (d : Reg) s c (g : Machine.Group),
  (Starts .mxacq s c g →
    let y := s.begun .mxacq c g
    let k := y.core (y.anvilOf g)
    let take := fun (x : Core) => { x with owner := some c.gid }
    (k.owner = some c.gid → RunsTo .mxacq s c g y)
    ∧ (k.owner = none → k.line = [] → RunsTo .mxacq s c g (y.setCore (y.anvilOf g) take))
    ∧ (k.owner ≠ some c.gid → c.gid ∉ k.line → ¬ (k.owner = none ∧ k.line = []) →
      (16 ≤ k.line.length → exec .mxacq s = .next { s with cur := some { c with stalled := true } })
      ∧ (k.line.length < 16 → StaysAt .mxacq s c g ((y.setGroup c.gid (fun h => { h with park := some .anvil })).setCore (y.anvilOf g)
          (fun x => { x with line := x.line ++ [c.gid] })))))
  ∧ (Starts (.mxtry d) s c g →
    let y := s.begun (.mxtry d) c g
    let k := y.core (y.anvilOf g)
    if k.owner = some c.gid ∨ k.owner = none ∧ k.line = [] then
      RunsTo (.mxtry d) s c g ((y.setCore (y.anvilOf g) (fun x => { x with owner := some c.gid })).setGroup c.gid (fun h =>
        h.setP d.toNat (Mask.all true)))
    else RunsTo (.mxtry d) s c g (y.setGroup c.gid (fun h => h.setP d.toNat (Mask.all false))))
  ∧ (Starts .mxrel s c g →
    let y := s.begun .mxrel c g
    let k := y.core (y.anvilOf g)
    let z := y.setCore (y.anvilOf g) (fun x => { x with owner := none })
    (k.owner ≠ some c.gid → RunsTo .mxrel s c g y)
    ∧ (k.owner = some c.gid → k.line = [] → RunsTo .mxrel s c g z)
    ∧ (k.owner = some c.gid → k.line ≠ [] → RunsTo .mxrel s c g (z.postAt (y.clk + 1) (.anvilOwnershipGrant (y.anvilOf g))))))
  ∧ ((∀ d : Reg, Sets (.mfence d) (fun _ h => { h.setS d.toNat (BitVec.ofNat 64 h.batch) with batch := (h.batch + 1) % 2 ^ 64 }))
  ∧ (∀ (a : Reg) s c g, Starts (.mwaitb a) s c g →
    let y := s.begun (.mwaitb a) c g
    let n := (g.sr a.toNat).toNat
    let unfinished := ∃ o, o ∈ (y.core (y.anvilOf g)).tileq ∧ o.gid = c.gid ∧ (∀ v k, o.kind ≠ .accrd v k) ∧ o.batch ≤ n ∧ o.batch < g.batch
    (unfinished → exec (.mwaitb a) s = .next { s with cur := some { c with stalled := true } })
    ∧ (¬ unfinished → RunsTo (.mwaitb a) s c g (y.setGroup c.gid (fun h => (h.sawBatches n).raiseH
        ((h.batchTw.filter (fun (p : Nat × Nat) => h.covers n p.1)).foldl (fun m p => Nat.max m p.2) 0)))))
  ∧ (∀ lit : Word, Sets (.setrst lit) (fun g h =>
      { h with rstpc := if lit = 0 then 0 else (g.pc + (lit.signExtend 56 <<< 2) : Va).zeroExtend 64 ||| 1 })))

/-- R175 to R177, R185, R186: the tile operations enter the home core's queue in issue order, after the checks of R175; a full queue keeps
them from issuing. That an operation enters the queue in the cycle of its issue, from another core too, is the model's choice: log entry 81.
The model's other choices here: log entries 1, 22, 23. -/
def Obligations.TileOperations : Prop := ∀ (d a b : Reg) s c (g : Machine.Group) t,
  let x := ixOf s c g
  let col := 8 * bits (g.sr b.toNat).toNat 7 3
  let room := fun (i : Instr) (tile : Nat) => Starts i s c g ∧ (s.begun i c g).team g.team = some t
    ∧ ((s.begun i c g).core t.home).tileq.length < 32 ∧ tile < t.ntiles
  (∀ i, i ∈ [Instr.accz d, Instr.accrd d a b, Instr.accwr d a b, Instr.accst d a b, Instr.mma d a b, Instr.mmas d a b] →
    Starts i s c g → (s.begun i c g).team g.team = some t → 32 ≤ ((s.begun i c g).core t.home).tileq.length →
    exec i s = .next { s with cur := some { c with stalled := true } })
  ∧ (room (.accz d) d.toNat → RunsTo (.accz d) s c g (x.enqueue (s.begun (.accz d) c g) d.toNat .accz 0 []))
  ∧ (room (.accrd d a b) a.toNat → RunsTo (.accrd d a b) s c g
      (let z := x.enqueue (s.begun (.accrd d a b) c g) a.toNat (.accrd d.toNat col) 0 []
       if g.liveNow = 0 then z
       else z.setGroup c.gid (fun h => (List.range 8).foldl (fun h j => h.pendWith
         { op := s.uid + 1, kind := .vec, reg := d.toNat + j, lanes := g.liveNow, vec := none, num := none, bad := 0 }) h)))
  ∧ (room (.accwr d a b) d.toNat → RunsTo (.accwr d a b) s c g
      (x.enqueue (s.begun (.accwr d a b) c g) d.toNat (.accwr ((List.range 8).map (fun j => g.vr (a.toNat + j))) col) 0 []))
  ∧ (room (.accst d a b) d.toNat →
      let dst := (g.sr a.toNat).toNat
      let w := (g.sr b.toNat).toNat
      let cvt := bits w 33 32
      let stride := bits w 31 0
      let legal := bits w 63 34 = 0 ∧ cvt ≠ 3 ∧ stride % 64 = 0 ∧ rowBytes cvt ≤ stride ∧ dst % 64 = 0
      (¬ legal → TrapsWith (.accst d a b) s c g (trapP 0x1A))
      ∧ (legal → ∃ u tw lines, RunsTo (.accst d a b) s c g (x.enqueue u d.toNat (.accst dst stride cvt) tw lines)
          ∧ g.time < tw ∧ ∀ n, n ∈ lines → ({ op := s.uid + 1, tw := tw, core := g.core } : Owner) ∈ (u.line n).owners))
  ∧ (∀ i sparse, (i, sparse) ∈ [(Instr.mma d a b, false), (Instr.mmas d a b, true)] →
      let y := s.begun i c g
      let fa : Dword := BitVec.ofNat 64 ((g.sr a.toNat).toNat % 2 ^ 56)
      let abase := (g.sr b.toNat).toNat % 2 ^ 56
      let bbase := (g.sr (b.toNat + 1)).toNat % 2 ^ 56
      Starts i s c g → y.team g.team = some t → (y.core t.home).tileq.length < 32 →
      ((y.core t.home).owner ≠ some c.gid → TrapsWith i s c g (trapP 0x18))
      ∧ ((y.core t.home).owner = some c.gid → t.ntiles ≤ d.toNat → TrapsWith i s c g (trapP 0x19))
      ∧ ((y.core t.home).owner = some c.gid → d.toNat < t.ntiles →
        (fa.toNat % 64 ≠ 0 → TrapsWith i s c g (trapPA 0x1A fa 0))
        ∧ (∀ z data, fa.toNat % 64 = 0 → y.readLines (y.groupXc c.gid) (Nat.max g.time g.ownTime) (fun _ => 0) fa 64 = (z, .ok data) →
          let f := Fmt.ofBytes data
          let good := fun (z : State) => fmtValid data sparse = true ∧ ¬ (z.dev.reduced = true ∧ 4 < f.bplanes) ∧ abase % 256 = 0 ∧ bbase % 256 = 0
          (sparse = false → good z → RunsTo i s c g (x.enqueue z d.toNat (.mma f abase bbase (List.range f.kblocks)) 0 []))
          ∧ (sparse = false → ¬ good z → FailsIn i s c g z (trapPA 0x1A fa 0))
          ∧ (sparse = true → Assoc.get t.fibres f.fibre = none → FailsIn i s c g z (trapP 0x3A))
          ∧ (∀ fib, sparse = true → Assoc.get t.fibres f.fibre = some fib →
            (f.trans = true → fib.invertible = false → FailsIn i s c g z (trapP 0x39))
            ∧ ((f.trans = true → fib.invertible = true) → ¬ good z → FailsIn i s c g z (trapPA 0x1A fa 0))
            ∧ (∀ u present, (f.trans = true → fib.invertible = true) → good z → presentOf f fib x z = (u, .ok present) →
              RunsTo i s c g (x.enqueue u d.toNat (.mma f abase bbase present) 0 []))))))

/-! ## Queues -/

/-- R273, R281 to R286: the queue instructions: a handle that names no part of the function is QUEUE_INVALID; an enqueue's mask and a
dequeue's records come with the reply of the part's home; QLEN and QINFO read the part; QSEAL seals it, behind its group's enqueues to it.
QENQ, QENQM and QSEAL are releases: their records, or the seal, carry a time at or above every access of the group. That they flush the group's
combining buffers, so that the stores in them come first, and do not issue while an engine owns a line of theirs, is the model's choice: log
entry 78. The model's other choices here: log entries 1, 24. -/
def Obligations.QueueInstructions : Prop := ∀ (d a b : Reg) s c (g : Machine.Group) k q,
  let op := s.uid + 1
  let live := g.liveNow
  let valid := fun (i : Instr) => Starts i s c g ∧ (s.begun i c g).handleOf ((s.begun i c g).fnOf c.gid) (g.sr a.toNat) = some (k, q)
  let stalls := fun (i : Instr) => exec i s = .next { s with cur := some { c with stalled := true } }
  let released := fun (z : State) => Nat.max g.time (((z.group c.gid).map Machine.Group.ownTime).getD 0)
  let enqueued := fun (i : Instr) (y : State) (words : Nat → List Word) =>
    let z := y.flushGroup c.gid
    (live = 0 → RunsTo i s c g (((y.setGroup c.gid (fun h => h.raisePath 5 op 0)).setGroup c.gid (fun h =>
      { h with qstatus := 0 })).finishOp c.gid op))
    ∧ (live ≠ 0 → y.flushBlocked c.gid = true → stalls i)
    ∧ (live ≠ 0 → y.flushBlocked c.gid = false → RunsTo i s c g
     (((z.setGroup c.gid (fun h => h.raisePath 5 op 0)).setGroup c.gid (fun h => h.pendWith
       { op := op, kind := .pred, reg := d.toNat, lanes := live, vec := none, num := none, bad := 0 })).post (.queueEnqueueStep
         { gid := c.gid, op := op, queue := k, pd := d, live := live, recs := live.lanes.map (fun L => (L, words L)), time := released z })))
  let dequeued := fun (i : Instr) (dest : DeqDest) =>
    if live = 0 then RunsTo i s c g (((s.begun i c g).setGroup c.gid (fun h => h.raisePath 5 op 0)).finishOp c.gid op)
    else StaysAt i s c g ((((s.begun i c g).setGroup c.gid (fun h => h.raisePath 5 op 0)).setGroup c.gid (fun h =>
      { h with park := some (.dequeue op) })).post (.queueDequeueStep
        { gid := c.gid, op := op, queue := k, pb := b, live := live, dest := dest, nowait := (g.sr a.toNat).getLsbD 3 }))
  let told := fun (i : Instr) (v : Nat) => RunsTo i s c g (((s.begun i c g).setGroup c.gid (fun h =>
    ({ h with others := h.others ++ [op] } : Machine.Group).pendWith
      { op := op, kind := .scalar, reg := d.toNat, lanes := BitVec.allOnes 128, vec := none, num := some v, bad := 0 })).post
        (.registerResultLand c.gid op))
  (∀ i, i ∈ [Instr.qenq d a b, Instr.qenqm d a b, Instr.qdeq d a b, Instr.qdeqm d a b, Instr.qlen d a, Instr.qseal a, Instr.qinfo d a] →
    Starts i s c g → (s.begun i c g).handleOf ((s.begun i c g).fnOf c.gid) (g.sr a.toNat) = none → TrapsWith i s c g (trapP 0x30))
  ∧ (valid (.qenq d a b) → enqueued (.qenq d a b) (s.begun (.qenq d a b) c g) (fun L =>
      (List.range (recBytes q.rsize / 4)).map (fun j => (g.vr (b.toNat + j)).lane L)))
  ∧ (∀ t, valid (.qenqm d a b) → (s.begun (.qenqm d a b) c g).team g.team = some t →
      let base := (g.sr b.toNat).toNat
      (∀ L, live.has L = true → base % 16 = 0 ∧ base + L * recBytes q.rsize + recBytes q.rsize ≤ 16384 * t.units
        ∧ t.poisonIn (base + L * recBytes q.rsize) (recBytes q.rsize) = none) →
      enqueued (.qenqm d a b) ((s.begun (.qenqm d a b) c g).correctScratch c.gid g.team
        (live.lanes.map (fun L => (base + L * recBytes q.rsize, recBytes q.rsize)))) (fun L => (List.range (recBytes q.rsize / 4)).map (fun j =>
        BitVec.ofNat 32 (t.word32 (base + L * recBytes q.rsize + 4 * j)))))
  ∧ (valid (.qdeq d a b) → dequeued (.qdeq d a b) (.regs d))
  ∧ (∀ t, valid (.qdeqm d a b) → (s.begun (.qdeqm d a b) c g).team g.team = some t →
      let base := (g.sr d.toNat).toNat
      (∀ L, live.has L = true → base % 16 = 0 ∧ base + L * recBytes q.rsize + recBytes q.rsize ≤ 16384 * t.units
        ∧ t.overlapsTag (base + L * recBytes q.rsize) (recBytes q.rsize) = false) →
      dequeued (.qdeqm d a b) (.scratch base))
  ∧ (valid (.qlen d a) → told (.qlen d a) (q.ring.length + q.spill.length))
  ∧ (valid (.qinfo d a) → told (.qinfo d a) ((if q.sealed then 2 ^ 63 else 0)
      + (if 2 ^ q.lcap ≤ q.ring.length ∧ q.spillu * 65536 / recBytes q.rsize ≤ q.spill.length then 2 ^ 62 else 0)
      + q.lcap * 2 ^ 57 + q.spill.length * 2 ^ 17 + q.ring.length))
  ∧ (valid (.qseal a) →
      let y := s.begun (.qseal a) c g
      let z := y.flushGroup c.gid
      (y.enqueueDue c.gid k = true → stalls (.qseal a))
      ∧ (y.enqueueDue c.gid k = false → q.sealed = true → RunsTo (.qseal a) s c g y)
      ∧ (y.enqueueDue c.gid k = false → q.sealed = false → y.flushBlocked c.gid = true → stalls (.qseal a))
      ∧ (y.enqueueDue c.gid k = false → q.sealed = false → y.flushBlocked c.gid = false → RunsTo (.qseal a) s c g (z.seal k (released z))))

/-! ## Named tiles -/

/-- R312 to R316: NINT gives a ticket and sends its interest; NANN reserves its tile and waits for the copy; NSEAL raises the horizons;
NDROP drops a pending ticket; NSTAT tells a ticket's status, and acquires what a delivered one ordered. NANN is a release; that it flushes
the group's combining buffers, and does not issue while an engine owns a line of theirs, is the model's choice: log entry 78. The model's other
choices here: log entries 1, 40. -/
def Obligations.NamedTiles : Prop := ∀ (d a b : Reg) s c (g : Machine.Group) t,
  let op := s.uid + 1
  let w0 := (g.sr a.toNat).toNat
  let w1 := (g.sr (a.toNat + 1)).toNat
  let die := dieOfCore g.core
  let key : NameKey := { func := t.func, tensor := bits w0 55 32, tile := bits w0 31 0, iter := bits w1 15 0 }
  let named := bits w0 63 56 = 0 ∧ bits w1 63 16 = 0
  (Starts (.nint d a b) s c g →
    let i := Instr.nint d a b
    let y := s.begun i c g
    let dw := g.sr b.toNat
    let len := bits dw.toNat 48 32
    let off := bits dw.toNat 31 0
    let n := g.serial
    let expiry := if t.life = 0 then none else some (y.tick + t.life)
    y.team g.team = some t → named → bits dw.toNat 63 49 = 0 → len ≠ 0 → len ≤ 65536 → len % 16 = 0 → off % 16 = 0 →
    off + len ≤ 16384 * t.units → t.overlapsTag off len = false → g.sr (b.toNat + 1) = BitVec.allOnes 64 → (y.nameDir die key.tensor).isSome = true →
      let k : Ticket := { serial := n, key := key, off := off, len := len, bar := none, status := 0, got := 0, expiry := expiry,
                          retries := 0, op := op, time := 0, dest := dw }
      let z := (y.setGroup c.gid (fun h => h.raisePath 6 op 0)).setGroup c.gid (fun h =>
        ({ h with serial := (n + 1) % 2 ^ 32 }.setTicket k).setS d.toNat (BitVec.ofNat 64 n))
      let z := match expiry with | some e => z.postRef (e * z.tickLen) (.ticketExpiry c.gid (BitVec.ofNat 32 n)) | none => z
      RunsTo i s c g (z.post (.interestArrival
        { die := die, key := key, who := .ticket c.gid (BitVec.ofNat 32 n), expiry := expiry, refresh := false })))
  ∧ (Starts (.nann a b) s c g →
    let i := Instr.nann a b
    let y := s.begun i c g
    let src := g.sr b.toNat
    let nw := (g.sr (b.toNat + 1)).toNat
    let n := bits nw 16 0
    y.fnOf c.gid = t.func → named → bits nw 63 17 = 0 → n ≠ 0 → n ≤ 65536 → n % 16 = 0 → src.toNat % 16 = 0 →
    y.homed die key.tensor = true →
      (y.regOf die key ≠ none → TrapsWith i s c g (trapPA 0x34 0 (BitVec.ofNat 64 (place 2 60))))
      ∧ (y.regOf die key = none → (∀ h, (y.horizon die key).1 = some h → h < key.iter) → tileLines n ≤ (y.die die).freeLines →
          (y.die die).registry.length < 16384 →
          (y.flushBlocked c.gid = true → exec i s = .next { s with cur := some { c with stalled := true } })
          ∧ (y.flushBlocked c.gid = false →
            let z := y.flushGroup c.gid
            let time := Nat.max g.time (((z.group c.gid).map Machine.Group.ownTime).getD 0)
            let r : RegTile := { key := key, bytes := [], len := n, bad := [], ready := false, op := op, time := time }
            let z := z.setDie die (fun x => { x with registry := x.registry ++ [r] })
            let z := { z with nanns := Assoc.put z.nanns op { gid := c.gid, die := die, key := key, src := src.toNat, len := n, time := time } }
            StaysAt i s c g ((z.setGroup c.gid (fun h => { h with others := h.others ++ [op], park := some (.engine op) })).post
              (.nannCopyComplete op)))))
  ∧ (Starts (.nseal a) s c g →
    let i := Instr.nseal a
    let y := s.begun i c g
    let rt := bit w1 48
    let hz := y.horizon die { key with tile := 0, iter := 0 }
    let h' := some (Nat.max (hz.1.getD (bits w1 15 0)) (bits w1 15 0))
    let r' := if rt then some (Nat.max (hz.2.getD (bits w1 47 32)) (bits w1 47 32)) else hz.2
    y.fnOf c.gid = t.func → bits w0 63 56 = 0 → bits w1 31 16 = 0 → bits w1 63 49 = 0 → y.homed die key.tensor = true →
    (rt = true → bits w1 47 32 ≤ h'.getD 0) →
      RunsTo i s c g ((y.setDie die (fun x =>
        { x with horizons := x.horizons.filter (fun z => decide (z.func ≠ t.func ∨ z.tensor ≠ key.tensor))
                               ++ [{ func := t.func, tensor := key.tensor, sealTo := h', retireTo := r' }],
                 registry := x.registry.filter (fun u =>
                   !(decide (u.key.func = t.func ∧ u.key.tensor = key.tensor) && r'.any (fun n => decide (u.key.iter ≤ n)))) })).testPending
          die t.func key.tensor))
  ∧ (Starts (.ndrop a) s c g →
    let y := s.begun (.ndrop a) c g
    (∀ k, g.ticketOf w0 = some k → k.status = 0 →
      (y.ticketFirst c.gid (BitVec.ofNat 32 k.serial) 5 = false →
        RunsTo (.ndrop a) s c g ((y.emptyDelivery c.gid g.team k).resolve c.gid g.team k 3 0 0))
      ∧ (y.ticketFirst c.gid (BitVec.ofNat 32 k.serial) 5 = true → exec (.ndrop a) s = .next { s with cur := some { c with stalled := true } }))
    ∧ ((∀ k, g.ticketOf w0 = some k → k.status ≠ 0) → RunsTo (.ndrop a) s c g y))
  ∧ (Starts (.nstat d a) s c g →
    let y := s.begun (.nstat d a) c g
    (g.ticketOf w0 = none → RunsTo (.nstat d a) s c g (y.setGroup c.gid (fun h => h.setS d.toNat 7)))
    ∧ (∀ k, g.ticketOf w0 = some k →
      (k.status = 1 → RunsTo (.nstat d a) s c g (y.setGroup c.gid (fun h =>
        (h.setS d.toNat (BitVec.ofNat 64 (k.retries * 2 ^ 40 + k.got * 2 ^ 20 + 1))).acquire k.time)))
      ∧ (k.status ≠ 1 → RunsTo (.nstat d a) s c g (y.setGroup c.gid (fun h =>
        h.setS d.toNat (BitVec.ofNat 64 (k.retries * 2 ^ 40 + k.status)))))))

/-! ## Collectives and the pool -/

/-- R357, R358: XAGREE and XSUM read a valid descriptor and enter their operation, its result register due; the entry's operation in
progress keeps them from issuing. R364 to R366: a near-memory operation with a valid descriptor is under way, its result register due, the
lines that it writes its own at one time above the group's.
The model's own choices here: log entries 1, 44, 46, 48. -/
def Obligations.CollectiveAndPoolIssue : Prop :=
  (∀ (d a : Reg) (i : Instr) (sum : Bool),
  (i, sum) ∈ [(Instr.xagree d a, false), (Instr.xsum d a, true)] →
  ∀ s c (g : Machine.Group) z desc,
    let va := g.sr a.toNat
    let cid := bits (leNat desc) 261 256
    let o := (ixOf s c g).collOf z sum d desc
    let result : Pend := if sum then
        { op := s.uid + 1, kind := .scalar, reg := d.toNat, lanes := BitVec.allOnes 128, vec := none, num := none, bad := 0 }
      else { op := s.uid + 1, kind := .vec, reg := d.toNat, lanes := g.liveNow, vec := none, num := none, bad := 0 }
    Starts i s c g →
      (va.toNat % 64 ≠ 0 → TrapsWith i s c g (trapPA 0x40 va 0))
      ∧ (va.toNat % 64 = 0 → (s.begun i c g).readLines ((s.begun i c g).groupXc c.gid) g.time (fun _ => 0) va 64 = (z, .ok desc) →
        (collLegal z sum desc = false → FailsIn i s c g z (trapPA 0x40 va 0))
        ∧ (collLegal z sum desc = true → Assoc.has z.colls cid = true → exec i s = .next { s with cur := some { c with stalled := true } })
        ∧ (collLegal z sum desc = true → Assoc.has z.colls cid = false →
          let u := z.setGroup c.gid (fun h => h.raisePath 7 (s.uid + 1) 0)
          RunsTo i s c g ((if sum = false ∧ g.liveNow = 0 then u else u.setGroup c.gid (fun h => h.pendWith result)).collStart cid o))))
  ∧ (∀ (d a : Reg) (i : Instr) (kind : Nat),
  (i, kind) ∈ [(Instr.plfill d a, 0), (Instr.plcopy d a, 1), (Instr.plcmp d a, 2), (Instr.plred d a, 3)] →
  ∀ s c (g : Machine.Group) z desc,
    let va := g.sr a.toNat
    let n := leNat desc
    let bad := fun (sub : Nat) => trapPA 0x41 va (BitVec.ofNat 64 (place sub 60))
    Starts i s c g →
      (va.toNat % 64 ≠ 0 → TrapsWith i s c g (bad 0))
      ∧ (va.toNat % 64 = 0 → (s.begun i c g).readLines ((s.begun i c g).groupXc c.gid) g.time (fun _ => 0) va 64 = (z, .ok desc) →
        (poolReserved n = false → FailsIn i s c g z (bad 0))
        ∧ (poolReserved n = true → poolLegal kind n = false → FailsIn i s c g z (bad 1))
        ∧ (poolReserved n = true → poolLegal kind n = true → ∃ (u : State) (p : PoolOp),
          RunsTo i s c g (({ u.setGroup c.gid (fun h => (h.raisePath 7 (s.uid + 1) p.tw).pendWith
              { op := s.uid + 1, kind := .scalar, reg := d.toNat, lanes := BitVec.allOnes 128, vec := none, num := none, bad := 0 }) with
              poolOps := Assoc.put u.poolOps (s.uid + 1) p } : State).post (.poolOpLine (s.uid + 1)))
          ∧ p.kind = kind ∧ p.dst = bits n 55 0 ∧ p.src = bits n 119 64 ∧ p.len = bits n 191 160 ∧ p.value = bits n 255 192
          ∧ p.rop = bits n 259 256 ∧ p.sd = d.toNat ∧ p.done = 0 ∧ p.time = g.time
          ∧ (2 ≤ kind → p.owned = [] ∧ p.tw = 0) ∧ (kind < 2 → g.time < p.tw)
          ∧ ∀ m, m ∈ p.owned → ({ op := s.uid + 1, tw := p.tw, core := g.core } : Owner) ∈ (u.line m).owners)))

/-- R369, R371 to R373: a snapshot's id is a time above everything of its region and every snapshot that is or has been open; SNBIND binds
the group to one, SNCLOSE closes it.
The model's own choices here: log entry 49. -/
def Obligations.Snapshots : Prop := ∀ (d a : Reg) s c (g : Machine.Group),
  let id := (g.sr a.toNat).toNat
  (Starts (.snopen d a) s c g →
    let y := s.begun (.snopen d a) c g
    let r := y.region id
    (64 ≤ id ∨ r.valid = false ∨ r.func ≠ y.fnOf c.gid → TrapsWith (.snopen d a) s c g (trapPA 0x41 0 (BitVec.ofNat 64 (place 2 60))))
    ∧ (id < 64 → r.valid = true → r.func = y.fnOf c.gid →
      let op := s.uid + 1
      (r.vunits = 0 ∨ 16 ≤ r.snaps.length → RunsTo (.snopen d a) s c g
        (((y.setGroup c.gid (fun h => h.raisePath 7 op 0)).setGroup c.gid (fun h => h.setS d.toNat 0)).finishOp c.gid op))
      ∧ (r.vunits ≠ 0 → r.snaps.length < 16 → ∃ t, g.time ≤ t ∧ y.regionTime r ≤ t
          ∧ (∀ p, p ∈ y.regions → p.2.top < t ∧ ∀ k, k ∈ p.2.snaps → k < t)
          ∧ RunsTo (.snopen d a) s c g (((({ y with regions := Assoc.put y.regions id { r with snaps := r.snaps ++ [t], top := t } } : State).setGroup c.gid
              (fun h => h.raisePath 7 op 0)).setGroup c.gid
              (fun h => { h.setS d.toNat (BitVec.ofNat 64 t) with times := h.times.map (fun x =>
                { x with f := Nat.max x.f t, h := Nat.max x.h t, l := Nat.max x.l t }) })).finishOp c.gid op))))
  ∧ (Starts (.snclose a) s c g →
    let y := s.begun (.snclose a) c g
    (y.openIn id = none → RunsTo (.snclose a) s c g y)
    ∧ (∀ n r, y.openIn id = some (n, r) → RunsTo (.snclose a) s c g { y with
        regions := Assoc.put y.regions n (y.pruneSlots { r with snaps := r.snaps.filter (fun t => decide (t ≠ id)) }) }))
  ∧ (Starts (.snbind a) s c g →
    let y := s.begun (.snbind a) c g
    let bad := trapPA 0x43 0 (BitVec.ofNat 64 id)
    (id = 0 → RunsTo (.snbind a) s c g (y.setGroup c.gid (fun h => { h with snap := none })))
    ∧ (id ≠ 0 → y.openIn id = none → TrapsWith (.snbind a) s c g bad)
    ∧ (∀ n r, id ≠ 0 → y.openIn id = some (n, r) →
      (r.func = y.fnOf c.gid → RunsTo (.snbind a) s c g (y.setGroup c.gid (fun h => { h with snap := some (id, n) })))
      ∧ (r.func ≠ y.fnOf c.gid → TrapsWith (.snbind a) s c g bad)))

/-! ## Events: traps, groups and their resources -/

/-- R28, R101, R118, R120, R136, R166, R271, R395, R397, R412: the steps that deliver a held trap, stop a sibling, end a sleep or a wait,
grant register blocks and the Anvil, and land a result. R400: the team of a group that has trapped with no handler ends, with reason 0, in the
cycle after its trap. The code 0x03 of a starvation episode in the management controller's log is the model's choice: log entry 69. The model's
other choices here: log entries 1, 41, 90. -/
def Obligations.GroupEvents : Prop := ∀ (s : State) (gid : Nat) (g : Machine.Group) (t : Team),
  s.group gid = some g → s.team g.team = some t →
  (∀ h, t.halt = .none → t.ended = none → s.nextHeld g.team (t.held.filter (s.receives g.team)) = some h →
    exec (.deferredTrapDelivery g.team) s = .next (s.deliverHeld g.team h))
  ∧ (∀ h, t.halt = .none → t.ended = none → t.held = [h] → s.receiver g.team h = some gid → g.park = none →
      g.sleep.isSome = true ∨ g.last.map Prod.fst = some s.clk ∨ s.clk < g.ready → g.trap.tmask.getLsbD h.cat = false →
      exec (.deferredTrapDelivery g.team) s = .next (s.postAt (s.clk + 1) (.deferredTrapDelivery g.team)))
  ∧ (t.halt ≠ .none → exec (.deferredTrapDelivery g.team) s = .next s)
  ∧ (s.unhandled gid = true → exec (.siblingHaltStop gid) s
      = .next (s.terminate g.team 0 g.num 0 g.trap.tcause (g.trap.tpc.zeroExtend 64) g.trap.taddr g.trap.tinfo))
  ∧ (∀ n, s.unhandled gid = false → g.stop = .skid n → s.inside g = true →
      exec (.siblingHaltStop gid) s = .next (s.postAt (s.clk + 1) (.siblingHaltStop gid)))
  ∧ (∀ n, s.unhandled gid = false → g.stop = .skid n → g.park = none → ∃ r, exec (.siblingHaltStop gid) s = .next r
      ∧ r.group gid = some { g with stop := .stopped, trap := { g.trap with tpc := g.pc, orig := false, count := Nat.min n 8 } })
  ∧ (∀ q, (s.die (dieOfCore t.home)).serving = some (q, .stopping) → q.team = g.team → t.halt = .handler gid → 4096 ≤ t.preCount →
      exec (.handlerCountExpiry gid) s = .next ((s.setTeam g.team (fun t => { t with halt := .preempt })).setGroup gid (fun g =>
        { g with stop := .stopped })))
  ∧ (t.halt ≠ .handler gid → exec (.handlerCountExpiry gid) s = .next s)
  ∧ (∃ r, exec (.starvationEpisode gid) s = .next r
      ∧ r.core g.core = { s.core g.core with
          starveCount := Nat.min ((s.core g.core).starveCount + 1) (2 ^ 32 - 1), starveStamp := s.clk % 2 ^ 48, starvePrio := g.pri, starveCtx := g.ctx }
      ∧ r.dev.mclog = s.dev.mclog ++ [(0x03, (r.core g.core).starveLast)])
  ∧ (∀ last, g.sleep = some last → ∃ r, exec (.sleepExpiry gid) s = .next r
      ∧ r.group gid = some { g with sleep := if s.clk ≤ last then some last else none })
  ∧ (∀ core role, t.halt ≠ .none → exec (.xacqGrant g.team core role) s = .next s)
  ∧ (∀ core role w rest, (t.reserve core role).line = w :: rest → (t.reserve core role).count < blockCount w.want →
      exec (.xacqGrant g.team core role) s = .next s)
  ∧ (∀ core role w, t.halt = .none → (t.reserve core role).line = [w] → blockCount w.want ≤ (t.reserve core role).count →
      exec (.xacqGrant g.team core role) s = .next ((s.setTeam g.team (fun t => t.setReserve core role (fun r =>
        { r with count := r.count - blockCount w.want, line := [] }))).grantParked w.gid w.want))
  ∧ (∀ core m rest, (s.core core).moving = m :: rest → exec (.compactorCopyDone core) s
      = .next (((s.setCore core (fun c => { c with moving := rest })).moveBlock core m.src m.dst).grantParked m.gid m.want))
  ∧ (s.deadlocked g.team = false → exec (.registerDeadlockDetection g.team) s = .next s)
  ∧ (∀ k, s.deadlocked g.team = true → s.firstParked g.team = some k →
      exec (.registerDeadlockDetection g.team) s = .next ((s.setTeam g.team (fun t => { t with reserves := t.reserves.map (fun (p : Nat × Reserve) =>
        (p.1, { p.2 with line := p.2.line.filter (fun w => decide (w.gid ≠ k)) })) })).takeTrap k (trapP 0x12)))
  ∧ (∀ op, s.fillDue gid op = true → exec (.registerResultLand gid op) s = .next (s.postAt (s.clk + 1) (.registerResultLand gid op)))
  ∧ (∀ op, let landed := { g.land op with fills := g.fills.filter (fun f => decide (f.op ≠ op)) }
      s.fillDue gid op = false → (s.setGroup gid (fun _ => landed)).opDue gid op = false →
      ∃ r, exec (.registerResultLand gid op) s = .next r ∧ r.group gid = some (landed.finish op))
  ∧ (∀ n, g.park = some (.monitor (some n)) → n ≤ s.clk → exec (.monitorTimeoutExpiry gid) s = .next (s.takeTrap gid (trapP 0x2D)))
  ∧ (∀ core rest, (s.core core).owner = none → (s.core core).line = gid :: rest → g.park = some .anvil →
      ∃ r, exec (.anvilOwnershipGrant core) s = .next r ∧ (r.core core).owner = some gid ∧ (r.core core).line = rest
        ∧ r.group gid = some { g with park := none, pc := g.pc + 4 })

/-! ## Events: launches, runs, pre-emption -/

/-- R88, R105, R287 to R291, R334, R418: decisions, retirements, the ends of grids and graph runs, the Bellows' samples. That a graph's run
ends once none of its teams and grids lives and every part that feeds a stage is drained (graphLives, inputsDrained) is the model's choice: log
entry 54. The model's other choices here: log entries 1, 26, 27. -/
def Obligations.LaunchEvents : Prop := ∀ (s : State),
  (∀ core, s.beforeTaking.freeTeamSlots core = 0 → exec (.slotDecision core) s = .next s)
  ∧ (∀ core c, s.beforeTaking.freeTeamSlots core ≠ 0 → s.coreRuns core = true → (s.beforeTaking.candidates core).foldl better none = some c →
      s.reserved core c = false → ((s.beforeTaking.candidates core).filter (s.reserved core)).foldl better none = none →
      exec (.slotDecision core) s = .next (s.askDecision core (s.clk + 1)))
  ∧ (∀ core n x places d w, s.beforeTaking.freeTeamSlots core ≠ 0 → s.coreRuns core = true →
      (s.beforeTaking.candidates core).foldl better none = some ⟨.stage n, d, w⟩ → s.reserved core ⟨.stage n, d, w⟩ = true →
      Assoc.get s.stages n = some x → s.fits core x.need = some places →
      ∃ r, exec (.slotDecision core) s = .next r ∧ r.team (s.uid + 1) = some ({ (Team.made x.func (.stage x.graph n) (x.launches % 2 ^ 32) x.life core
          ((core :: places).eraseDups.map (fun c => (c, s.freeSlot c))) x.scratch x.acc
          ((core :: places).eraseDups.foldl (fun m c => [Role.consumer, Role.producer].foldl (fun m k =>
            let b := ((x.need.roles.zip places).filter (fun g => decide (g = (k, c)))).length * x.need.budget k
            Assoc.put m (reserveKey c k) { count := b, cap := b, line := [] }) m) []) x.tvec) with since := s.clk + 1 } : Team)
        ∧ (Assoc.get r.stages n).map Stage.launches = some (x.launches + 1))
  ∧ (∀ tid t, s.team tid = some t → s.teamGroups tid ≠ [] → exec (.teamRetirement tid) s = .next s)
  ∧ (∀ tid t, s.team tid = some t → s.teamGroups tid = [] → t.orphans = [] → t.held = [] →
      (∀ c, c ∈ t.slots → (s.core c.1).combine = []) → s.buffersLeft tid = false → (s.teams.map Prod.fst).Nodup →
      ∃ r, exec (.teamRetirement tid) s = .next r ∧ r.team tid = none)
  ∧ (∀ die e g, die < 4 → e < 256 → Assoc.get (s.die die).grids e = some g → g.teams ≤ g.launched → g.living = 0 → g.doneVa = 0 →
      exec (.childGridEnd (256 * die + e)) s = .next (s.setDie die (fun x => { x with grids := Assoc.del x.grids e })))
  ∧ (∀ die e g, die < 4 → e < 256 → Assoc.get (s.die die).grids e = some g → (g.launched < g.teams ∨ g.living ≠ 0) →
      exec (.childGridEnd (256 * die + e)) s = .next s)
  ∧ (∀ k q, Assoc.get s.queues k = some q → ∃ r, exec .bellowsSample s = .next r ∧ Assoc.get r.queues k = some { q with
      sample := q.taken
      taken := { b := q.ring.length + q.spill.length, sealed := q.sealed, full := q.hardFull,
                 lingered := match (q.ring ++ q.spill).head? with
                   | some x => decide (q.linger ≠ 65535) && decide (q.linger < s.refc / s.tickLen - x.tick)
                   | none => false } })
  ∧ (∀ tid f t y, s.team tid = some t → Assoc.get t.fibres f = some y → ∃ r, exec (.swageCountComplete tid f) s = .next r
      ∧ ((r.team tid).bind (fun t => Assoc.get t.fibres f)) = some { y with counting := false })
  ∧ (∀ n g, Assoc.get s.graphs n = some g → (s.graphLives n = true ∨ g.ending = [] ∧ s.inputsDrained n = false) →
      exec (.graphRunEnd n) s = .next s)
  ∧ (∀ n g, Assoc.get s.graphs n = some g → s.graphLives n = false → g.ending = [] → s.inputsDrained n = true → ∃ r,
      exec (.graphRunEnd n) s = .next r ∧ r.graphs = Assoc.del s.graphs n
        ∧ r.queues = s.queues.filter (fun p => decide (p.2.graph ≠ n)) ∧ r.stages = s.stages.filter (fun p => decide (p.2.graph ≠ n)))

/-- R408 to R413: a collector takes the request of the highest priority, halts its team, and saves it once it has stopped; a saved team is
placed where it fits.
The model's own choices here: log entries 1, 50, 51, 52. -/
def Obligations.PreemptionEvents : Prop := ∀ (s : State) (die : Nat) (q : PreReq), die < 4 →
  ((s.die die).serving.isSome = true → exec (.collectorServe die) s = .next s)
  ∧ (∀ t, (s.die die).serving = none → nextReq (s.die die).preQueue = some q → s.team q.team = some t → t.ended = none →
      exec (.collectorServe die) s = .next (((s.setDie die (fun d =>
        { d with preQueue := d.preQueue.erase q, serving := some (q, .stopping) })).haltFor q.team).post (.preemptStopComplete die)))
  ∧ ((s.die die).serving = none → nextReq (s.die die).preQueue = some q → s.team q.team = none →
      exec (.collectorServe die) s = .next ((s.setDie die (fun d =>
        { d with preQueue := d.preQueue.erase q, serving := some (q, .stopping) })).finishPre die q 0))
  ∧ (∀ t, (s.die die).serving = some (q, .stopping) → s.team q.team = some t → t.ended = none → s.teamGroups q.team ≠ [] →
      s.allStopped q.team t = false →
      exec (.preemptStopComplete die) s = .next (s.postAt (s.clk + 1) (.preemptStopComplete die)))
  ∧ (∀ t, (s.die die).serving = some (q, .stopping) → s.team q.team = some t → t.ended = none → s.teamGroups q.team ≠ [] →
      s.allStopped q.team t = true → (s.stopEngines q.team t).enginesDone q.team t = true →
      ∃ r, exec (.preemptStopComplete die) s = .next r ∧ (r.die die).serving = some (q, .saving)
        ∧ (Assoc.get r.saved q.image).map Saved.id = some q.team)
  ∧ (∀ t v, (s.die die).serving = some (q, .saving) → s.team q.team = some t → Assoc.get s.saved q.image = some v → t.ended = none →
      q.listEntry = none → (s.teams.map Prod.fst).Nodup →
      ∃ r, exec (.preemptSaveComplete die) s = .next r ∧ r.team q.team = none ∧ r.teamGroups q.team = []
        ∧ (∃ v', Assoc.get r.saved q.image = some v' ∧ v'.team = { t with ssoft := [] } ∧ v'.copies = v.copies ∧ v'.pools = v.pools
            ∧ v'.size = s.imageSize q.team (v.copies.length + v.pools.length)))
  ∧ (∀ image c v, s.dev.restores.find? (fun r => decide (r.1 = image)) = some (image, c) → Assoc.get s.saved image = some v →
      (s.findRestore v = none → exec (.restorePlacement image) s = .next (s.postAt (s.clk + 1) (.restorePlacement image)))
      ∧ (∀ m, s.findRestore v = some m →
        let z := (s.setDev (fun d => { d with restores := d.restores.filter (fun r => decide (r.1 ≠ image)) })).restoreTeam image v m
        exec (.restorePlacement image) s = .next (z.complete c .ok (((z.team v.id).map Team.id).getD 0))))

/-! ## Events: engines -/

/-- R74 to R78, R172, R180 to R187, R214, R217, R278 to R285, R305, R313, R365 to R367: the steps of the Anvil's queue, of a copy, of a queue
part's home, of an announced tile and of a near-memory operation. An operation of the Anvil starts once no earlier one names its tile. An MMA
adds, for each present K-block and scale block in ascending K, the exact block dot product of the rows of R66, R67 and R76 to each element of
the rows of LIVE, with one rounding, or in integer mode with one fit to 32 bits; ACCRD gives its eight registers the tile's words, ACCWR and
ACCZ write them, and ACCST stores its rows, converted. Each other row and word of the tile is as before. A queue's reply gives the mask, or the
records; an announced tile becomes visible with its bytes. That a tile fetch sees the group's own combining bytes is the model's choice: log entry
97; that a dot product of 0 adds +0 is too: log entry 82. The model's other choices here: log entries 1, 18, 22, 25. -/
def Obligations.EngineEvents : Prop := ∀ (s : State),
  (∀ core op o, s.tileOf core op = some o → o.started = false →
      let before := (s.core core).tileq.takeWhile (fun y => decide (y.id ≠ op))
      let isMma := fun (y : TileOp) => match y.kind with | .mma _ _ _ _ => true | _ => false
      let free := before.all (fun y => decide (y.team ≠ o.team ∨ y.tile ≠ o.tile)) = true
      let z := s.setTileOp core op (fun o => { o with started := true })
      (¬ free ∨ isMma o = true ∧ before.any isMma = true → exec (.tileOpStart core op) s = .next s)
      ∧ (free → isMma o = false → exec (.tileOpStart core op) s = .next (z.post (.tileOpComplete core op)))
      ∧ (∀ f ab bb present, free → o.kind = .mma f ab bb present → before.any isMma = false →
        exec (.tileOpStart core op) s = .next (if o.live = 0 ∨ present = [] then
          z.postAt (s.clk + (f.kblocks - present.length)) (.tileOpComplete core op) else z.post (.tileLineFetch core op))))
  ∧ (∀ core op o y f ab bb present rest va z pa typ pin, s.tileOf core op = some o → o.stuck = false → o.kind = .mma f ab bb present →
      s.tileArrivals core o = none →
      let a := s.arrayStep core o f ab bb present
      a.tileOf core op = some y → y.todo = va :: rest →
      a.translate (a.engineXc y.team y.gid y.id) (BitVec.ofNat 64 va) .read = (z, .ok pa typ) →
      typ < 2 → z.regionOf pa = none → z.bankWait pa = none → z.takePin core va pa = some pin → (z.line (lineOf pa)).bad = false →
      let u := (z.route (z.engineXc y.team y.gid y.id).core pa).setLine (lineOf pa) (fun l =>
        { l with rtime := Nat.max l.rtime (Nat.max y.time (z.line (lineOf pa)).topTime) })
      exec (.tileLineFetch core op) s = .next ((u.setTileOp core y.id (fun o =>
        { o with todo := o.todo.tail, got := Assoc.put o.got va (u.forward ((u.group o.gid).elim core Machine.Group.core) o.gid pa (u.bytes pa 256)), pins := o.pins ++ pin,
                 due := if u.lineDue (lineOf pa) then o.due ++ [(va, lineOf pa)] else o.due })).postOnceAt u.clk (.tileLineFetch core y.id)))
  ∧ (∀ core op o t, s.tileOf core op = some o → s.team o.team = some t → o.stuck = false → o.started = true →
      let words : Assoc Word := Vector.at0 t.tiles o.tile []
      (o.kind = .accz → exec (.tileOpComplete core op) s
        = .next ((s.setTeam o.team (fun t => t.putTile o 0 256 (fun _ _ => 0))).tileDone core o))
      ∧ (∀ data c, o.kind = .accwr data c → exec (.tileOpComplete core op) s
        = .next ((s.setTeam o.team (fun t => t.putTile o c 8 (fun m j => (data.getD j VReg.zero).lane m))).tileDone core o))
      ∧ (∀ f ab bb present, o.kind = .mma f ab bb present →
        let z := if present = [] then s else s.correctTile o.gid o.team o.tile (fun w => o.live.has (w / 256))
        exec (.tileOpComplete core op) s = .next ((if o.live = 0 then z else z.setTeam o.team (fun t =>
          { t with tiles := Vector.put t.tiles o.tile (o.product f ab bb present words) })).tileDone core o))
      ∧ (∀ vd c g, o.kind = .accrd vd c → o.id = op → vd + 8 ≤ 128 → s.group o.gid = some g →
        (let due : Pend := { op := op, kind := .vec, reg := vd, lanes := o.live, vec := none, num := none, bad := 0 }
         g.pend.filter (fun x => decide (x.op = op)) = (List.range 8).map (fun j => { due with reg := vd + j })) →
        ∃ r h, exec (.tileOpComplete core op) s = .next r ∧ r.group o.gid = some h
          ∧ (∀ m j, o.live.has m = true → j < 8 → (h.vr (vd + j)).lane m = Assoc.getD words (m * 256 + c + j) 0)
          ∧ (∀ q L, (o.live.has L = false ∨ q < vd ∨ vd + 8 ≤ q) → q < 128 → L < 128 → (h.vr q).lane L = (g.vr q).lane L)
          ∧ (r.team o.team).map Team.tiles = some t.tiles)
      ∧ (∀ dst stride cvt z lines, o.kind = .accst dst stride cvt →
        (s.core core).tileq.any (fun y => decide (y.gid = o.gid) && decide (y.id < op)
          && (match y.kind with | .accst _ _ _ => true | _ => false)) = false →
        (∀ q, q ∈ t.tbad → ¬ (q.1 = o.tile ∧ o.live.has (q.2 / 256) = true)) →
        s.accTargets o (accLines o.live dst stride cvt) = (z, .ok lines) →
        exec (.tileOpComplete core op) s = .next (((z.correctTile o.gid o.team o.tile (fun w => o.live.has (w / 256))).writeRows o dst stride
          cvt words lines).tileDone core o)))
  ∧ (∀ (t : Team) (o : TileOp) c n (f : Nat → Nat → Word) m j, o.tile < 12 → c + n ≤ 256 → j < 256 →
      ((Vector.at0 t.tiles o.tile []).map Prod.fst).Pairwise (· < ·) →
      Assoc.getD (Vector.at0 (t.putTile o c n f).tiles o.tile []) (m * 256 + j) 0
        = (if o.live.has m = true ∧ c ≤ j ∧ j < c + n then f m (j - c) else Assoc.getD (Vector.at0 t.tiles o.tile []) (m * 256 + j) 0))
  ∧ (∀ (o : TileOp) (f : Fmt) ab bb present (words : Assoc Word) m n, n < 256 → (words.map Prod.fst).Pairwise (· < ·) →
      let block := fun (l : List Int) (i : Nat) => (l.drop (f.ls * i)).take f.ls
      let D := fun (j i : Nat) => (List.zipWith (· * ·) (block (o.rowA f ab m j) i) (block (o.rowB f bb n j) i)).foldl (· + ·) 0
      let whole := fun (acc : Word) (d : Int) =>
        let x := acc.toInt + d / 2
        BitVec.ofInt 32 (if mrSat o.mr then (if x < -2 ^ 31 then -2 ^ 31 else if 2 ^ 31 - 1 < x then 2 ^ 31 - 1 else x) else x)
      let z := Fp.f32.flush (mrFtz o.mr)
      let real := fun (acc : Word) (ca cb : Nat) (d : Int) =>
        BitVec.ofNat 32 (if ca = 255 ∨ cb = 255 then Fp.f32.nan
          else z (Fp.f32.sum (mrRound o.mr) (Fp.f32.decode (z acc.toNat))
            (.num (if ca = 0 ∨ cb = 0 then ⟨false, 0, 0⟩ else ⟨decide (d < 0), d.natAbs, (ca : Int) + cb - 255⟩))))
      Assoc.getD (o.product f ab bb present words) (m * 256 + n) 0
        = (if o.live.has m = true then
            present.foldl (fun acc j => (List.range (64 / f.ls)).foldl (fun acc i =>
              if f.imode = true then whole acc (D j i)
              else real acc (o.codeA f m (j * f.perK + i)) (o.codeB f n (j * f.perK + i)) (D j i)) acc) (Assoc.getD words (m * 256 + n) 0)
          else Assoc.getD words (m * 256 + n) 0))
  ∧ (∀ (o : TileOp) (words : Assoc Word) cvt m n, n < 256 →
      let w := (Assoc.getD words (m * 256 + n) 0).toNat
      let q := if cvt = 1 then Fp.bf16 else Fp.f16
      (cvt = 0 → ((o.storeRow words cvt m).drop (4 * n)).take 4 = natLe w 4)
      ∧ (cvt ≠ 0 → ((o.storeRow words cvt m).drop (2 * n)).take 2
          = natLe (q.flush (mrFtz o.mr) (q.ofVal (mrRound o.mr) (Fp.f32.decode (Fp.f32.flush (mrFtz o.mr) w)))) 2))
  ∧ (∀ (o : TileOp) dst stride cvt words va pa, s.memWf → s.migrations = [] → pa % 256 = 0 → va % 256 = 0 → rowBytes cvt ≤ stride →
      dst + 128 * stride ≤ 2 ^ 64 → (s.line (lineOf pa)).wtime ≤ s.rowTime o (lineOf pa) →
      (s.line (lineOf pa)).versions.all (fun v => decide (v.time ≤ s.rowTime o (lineOf pa))) = true →
      let r := s.writeRows o dst stride cvt words [(va, pa)]
      (∀ m k, o.live.has m = true → k < rowBytes cvt → va ≤ dst + m * stride + k → dst + m * stride + k < va + 256 →
        Memory.get r.mem (pa + (dst + m * stride + k - va)) = (o.storeRow words cvt m).getD k 0)
      ∧ (∀ x, (∀ m k, o.live.has m = true → k < rowBytes cvt → va ≤ dst + m * stride + k → dst + m * stride + k < va + 256 →
          x ≠ pa + (dst + m * stride + k - va)) → Memory.get r.mem x = Memory.get s.mem x))
  ∧ (∀ op c z data u, Assoc.get s.copies op = some c →
      let done := 4096 * c.chunks
      let n := Nat.min 4096 (c.len - done)
      s.engineRange (s.engineXc c.team c.gid op) c.time (c.src + done) n = (z, .ok data [] u) →
      ((z.team c.team).map (fun y => y.overlapsTag (c.dst + done) n)) = some false →
      let v := z.deliver c.gid c.team op (c.dst + done) data c.bar n u
      exec (.copyChunkDelivery op) s = .next
        (if done + n = c.len then ({ v with copies := Assoc.del v.copies op } : State).finishOp c.gid op
         else ({ v with copies := Assoc.upd v.copies op (fun c => { c with chunks := c.chunks + 1, waiting := false }) } : State).post
           (.copyChunkDelivery op)))
  ∧ (∀ (r : EnqReq) q, Assoc.get s.queues r.queue = some q →
      (s.agenda.any (fun d => match d.ev with
        | .queueEnqueueStep e => decide (e.gid = r.gid ∧ e.queue = r.queue ∧ e.op < r.op) | _ => false)) = false →
      (q.sealed = true → r.recs ≠ [] → exec (.queueEnqueueStep r) s = .next (((s.accepted r.queue q).settleQueue r.queue).post
        (.queueReply (.enq r.gid r.op r.pd r.live 0 false true))))
      ∧ (∀ L w, r.recs = [(L, w)] → q.sealed = false → q.spill = [] → q.ring.length < 2 ^ q.lcap →
        exec (.queueEnqueueStep r) s = .next (((s.accepted r.queue
          { q with ring := q.ring ++ [{ words := w, bad := false, tick := s.tick, time := r.time }] }).settleQueue r.queue).post
            (.queueReply (.enq r.gid r.op r.pd r.live (0 ||| (1#128 <<< L)) false false)))))
  ∧ (∀ (r : DeqReq) q, Assoc.get s.queues r.queue = some q →
      (q.ring = [] → s.isDrained r.queue q = false → r.nowait = false →
        exec (.queueDequeueStep r) s = .next (s.setQueue r.queue (fun q => { q with waiting := q.waiting ++ [r] })))
      ∧ (q.ring ≠ [] → exec (.queueDequeueStep r) s = .next ((s.takeRecords r.queue q r).settleQueue r.queue)))
  ∧ (∀ gid op pd live ok full closed g, s.group gid = some g → (∀ x, x ∈ g.pend → x.op ≠ op) → ∃ r,
      exec (.queueReply (.enq gid op pd live ok full closed)) s = .next r
        ∧ r.group gid = some (({ g with qstatus := BitVec.ofNat 2 (b2n full + 2 * b2n closed) } : Machine.Group).finish op))
  ∧ (∀ gid op (pd : Reg) live (ok : Mask) full closed g, s.group gid = some g → pd.toNat < 12 →
      g.pend.filter (fun x => decide (x.op = op))
        = [({ op := op, kind := .pred, reg := pd.toNat, lanes := live, vec := none, num := none, bad := 0 } : Pend)] →
      ∃ r h, exec (.queueReply (.enq gid op pd live ok full closed)) s = .next r ∧ r.group gid = some h
        ∧ (∀ L, (h.pr pd.toNat).has L = if live.has L then ok.has L else (g.pr pd.toNat).has L)
        ∧ h.qstatus = BitVec.ofNat 2 (b2n full + 2 * b2n closed) ∧ h.pend = g.pend.filter (fun x => decide (x.op ≠ op)))
  ∧ (∀ gid op (pb : Reg) live recs time n g (d : Reg), s.group gid = some g → g.park = some (.dequeue op) → pb.toNat < 12 → d.toNat + n ≤ 128 →
      (recs.map Prod.fst).Nodup → (∀ q, q ∈ recs → q.1 < 128 ∧ q.2.1.length = n) →
      ∃ r h, exec (.queueReply (.deq gid op pb live (.regs d) recs time)) s = .next r ∧ r.group gid = some h
        ∧ h.park = none ∧ h.pc = g.pc + 4
        ∧ (∀ q j, q ∈ recs → j < n → (h.vr (d.toNat + j)).lane q.1 = q.2.1.getD j 0)
        ∧ (∀ L, (h.pr pb.toNat).has L = if live.has L then decide (L ∈ recs.map Prod.fst) else (g.pr pb.toNat).has L)
        ∧ (∀ L, L < 128 → time ≤ (h.tm L).f ∧ time ≤ (h.tm L).h))
  ∧ (∀ gid op (pb : Reg) live L w time g t off, s.group gid = some g → s.team g.team = some t → g.park = some (.dequeue op) → pb.toNat < 12 →
      Memory.wf t.scratch = true → t.overlapsTag (off + L * (4 * w.length)) (4 * w.length) = false →
      ∃ r t', exec (.queueReply (.deq gid op pb live (.scratch off) [(L, w, false)] time)) s = .next r ∧ r.team g.team = some t'
        ∧ (∀ j, j < w.length → t'.word32 (off + L * (4 * w.length) + 4 * j) = (w.getD j 0).toNat)
        ∧ (∀ x, inRange (off + L * (4 * w.length)) (4 * w.length) x = false → Memory.get t'.scratch x = Memory.get t.scratch x))
  ∧ (∀ k n q, Assoc.get s.queues k = some q → exec (.spillRefillLanding k n) s = .next (((s.refillReads q n).setQueue k (fun x =>
      { x with ring := x.ring ++ s.refilled q n, spill := x.spill.drop n, transit := x.transit - n,
               spillHead := (x.spillHead + n) % q.spillCap })).settleQueue k))
  ∧ (∀ op n z data u, Assoc.get s.nanns op = some n →
      s.engineRange (s.engineXc (match s.group n.gid with
        | some g => g.team
        | none => ((s.teams.find? (fun (p : Nat × Team) => p.2.orphans.contains op)).map Prod.fst).getD 0) n.gid op) n.time n.src n.len
        = (z, .ok data [] u) → n.die < 4 →
      ∃ r, exec (.nannCopyComplete op) s = .next r ∧ r.nanns = Assoc.del z.nanns op
        ∧ (r.die n.die).registry = (z.die n.die).registry.map (fun t =>
            if t.op = op then { t with bytes := data, bad := [], ready := true, time := n.time } else t)
        ∧ (∀ g, z.group n.gid = some g → g.park = some (.engine op) → ∃ h, r.group n.gid = some h ∧ h.park = none ∧ h.pc = g.pc + 4))
  ∧ (∀ op p, Assoc.get s.poolOps op = some p →
      let va := (if p.kind = 3 then p.src else p.dst) + p.done
      let n := Nat.min (256 - va % 256) (p.len - p.done)
      let places := s.poolPlaces op p (if p.kind ≤ 1 then .write else .read) p.unit va n
      let on := fun (y : State) (p' : PoolOp) (val : Dword) => exec (.poolOpLine op) s = .next (
        if p'.done = p'.len then y.poolEnd op p' val else ({ y with poolOps := Assoc.put y.poolOps op p' } : State).post (.poolOpLine op))
      (∀ z sub at_, places = (z, .fault sub at_) → exec (.poolOpLine op) s = .next (z.poolFault op p sub at_))
      ∧ (∀ z, places = (z, .wait) → exec (.poolOpLine op) s = .next
          { z with poolOps := Assoc.upd z.poolOps op (fun p => { p with waiting := true }) })
      ∧ (∀ z pa, places = (z, .ok [(pa, n)]) →
        let unit := some (p.unit.getD (z.homeDie pa))
        let moved := { p with done := p.done + n, unit := unit, waiting := false }
        (p.kind = 0 → (∀ w, w ∈ (z.line (lineOf pa)).owners → w.op = op) →
          let r := z.poolWrite op p pa ((List.range n).map (fun i => BitVec.ofNat 8 (p.value >>> (8 * ((p.done + i) % 8)))))
          on r.1 { moved with tw := r.2 } (BitVec.ofNat 64 p.len))
        ∧ (∀ y x, p.kind = 3 → z.poolRead op p [(pa, n)] = (y, x, none) →
          on y { moved with data := p.data ++ x } (poolReduce p.rop (p.data ++ x)))
        ∧ (∀ y there, p.kind = 1 ∨ p.kind = 2 → z.poolPlaces op p .read unit (p.src + p.done) n = (y, .ok there) →
          (∀ u q b, p.kind = 1 → (∀ w, w ∈ (y.line (lineOf pa)).owners → w.op = op) →
            y.poolSource op p (p.src + p.done) there = (u, q, b, false) →
            let r := u.poolWrite op q pa b
            on r.1 { q with done := q.done + n, unit := unit, waiting := false, tw := r.2 } (BitVec.ofNat 64 q.len))
          ∧ (∀ v x u q b, p.kind = 2 → y.poolRead op p [(pa, n)] = (v, x, none) →
            v.poolSource op p (p.src + p.done) there = (u, q, b, false) →
            let after := { q with done := q.done + n, unit := unit, waiting := false }
            (firstDiff x b = none → on u after (BitVec.allOnes 64))
            ∧ (∀ i, firstDiff x b = some i → exec (.poolOpLine op) s = .next (u.poolEnd op after (BitVec.ofNat 64 (q.done + i)))))))
      ∧ (∀ (a b : List Byte) i, firstDiff a b = some i → i < a.length ∧ i < b.length ∧ a.getD i 0 ≠ b.getD i 0 ∧ ∀ k, k < i → a.getD k 0 = b.getD k 0))

/-! ## Events: memory -/

/-- R227 to R238, R245, R267 to R269: the crossbar's grants, the slices, the Hearth, the expanders, the units that perform atomics.
The model's own choices here: log entries 1, 28, 31, 86, 87. That an error of an expander's store is recorded with the code 0x10 is the
model's choice (log entry 69), and so is one event for each instruction that waits for a poisoned line (log entry 93). -/
def Obligations.MemoryEvents : Prop := ∀ (s : State),
  (∀ die k, let x := s.slice (32 * die + k)
    let kept := x.keptReqs [] x.reqs
    let y : Slice := { x with reqs := kept }
    let asserts := (List.range 23).filter (fun p => (y.offered p).isSome)
    (s.clk < x.granted → exec (.crossbarGrant die k false) s = .next (s.askGrant (32 * die + k) false))
    ∧ (x.granted ≤ s.clk → asserts = [] → exec (.crossbarGrant die k false) s = .next (s.setSlice (32 * die + k) (fun _ => y)))
    ∧ (∀ p r, x.granted ≤ s.clk → grantTo x.lrg x.turn asserts = some p → y.offered p = some r → ∃ u,
        exec (.crossbarGrant die k false) s = .next u ∧ (u.slice (32 * die + k)).reqs = kept.erase r
          ∧ (u.slice (32 * die + k)).lrg = afterGrant x.lrg asserts p ∧ (u.slice (32 * die + k)).granted = s.clk + 1 ∧ u.mem = s.mem)
    -- every request stays, but for a PREF's that stands first at its port and that its bank refuses
    ∧ (∀ r, r ∈ x.reqs → r.pref = false → r ∈ kept) ∧ (∀ r, r ∈ kept → r ∈ x.reqs)
    ∧ (∀ r rest, x.reqs = r :: rest → r.pref = true → x.takes r = false → kept = x.keptReqs [] rest)
    ∧ (∀ p r, y.offered p = some r → r ∈ kept ∧ r.port = p ∧ y.takes r = true))
  ∧ (∀ r : L2Req, ∃ u, exec (.l2Request r) s = .next u ∧ u.mem = s.mem ∧ u.lines = s.lines ∧ u.groups = s.groups ∧ u.teams = s.teams)
  ∧ (∀ line bad, (line ∉ (s.slice (s.homeSlice (line * 256))).misses → exec (.l2FillComplete line bad) s = .next s)
      ∧ ∃ u, exec (.l2FillComplete line bad) s = .next u ∧ (bad = false → u.mem = s.mem ∧ u.groups = s.groups)
        ∧ ((∀ p, p ∈ s.groups → ∀ f, f ∈ p.2.fills → f.line ≠ line) → u.mem = s.mem ∧ u.dev = s.dev)
        ∧ (line ∈ (s.slice (s.homeSlice (line * 256))).misses → (u.line line).bad = ((s.line line).bad || bad)
          ∧ (bad = true → ∀ gid g f, s.group gid = some g → f ∈ g.fills → f.line = line → f.lane < 128 →
            ∃ h, u.group gid = some h ∧ ∀ x, x ∈ h.pend → x.op = f.op → x.bad.has f.lane = true)))
  ∧ (∀ w : WriteBack, ∃ u, exec (.l2Writeback w) s = .next u ∧ u.mem = s.mem ∧ u.lines = s.lines ∧ u.groups = s.groups)
  ∧ (exec .hearthRefreshWindow s = .next (s.postRef ((s.refc / 1120 + 1) * 1120) .hearthRefreshWindow))
  ∧ (∀ die off, exec (.hearthBankRead die off) s = .next (match s.bankEnd (bits off 28 23) with
      | some t => s.postRef t (.hearthBankRead die off)
      | none => s))
  ∧ (∀ die, die < 4 → (s.die die).window = .draining → s.hearthMarked die = false →
      exec (.hearthWindowLoading die) s = .next (s.setDie die (fun d => { d with window := .loading })))
  ∧ (∀ die, s.hearthMarked die = true → exec (.hearthWindowLoading die) s = .next s)
  ∧ (∀ pa t, s.paKind pa = .cxl → ∃ u, exec (.cxlTransactionError pa false t) s = .next u ∧ (u.line (lineOf pa)).bad = true
      ∧ ((∀ p, p ∈ s.groups → ∀ f, f ∈ p.2.fills → f.line ≠ lineOf pa) → u.mem = s.mem ∧ u.dev = s.dev)
      ∧ ∀ gid g f, s.group gid = some g → f ∈ g.fills → f.line = lineOf pa → f.lane < 128 →
        ∃ h, u.group gid = some h ∧ ∀ x, x ∈ h.pend → x.op = f.op → x.bad.has f.lane = true)
  ∧ (∀ pa t, s.paKind pa = .cxl → s.formed → (∀ v, v ∈ (s.line (lineOf pa)).versions → ∀ c, c ∈ v.old → lineOf c.1 = lineOf pa) →
      ∃ u, exec (.cxlTransactionError pa true t) s = .next u ∧ u.dev.mclog = s.dev.mclog ++ [(0x10, pa)]
        ∧ (∀ x, lineOf x ≠ lineOf pa → Memory.get u.mem x = Memory.get s.mem x)
        ∧ ∀ v r, (s.line (lineOf pa)).versions = v :: r → v.time = t → (v.old.map Prod.fst).Nodup → ∀ c, c ∈ v.old → Memory.get u.mem c.1 = c.2)
  ∧ (∀ (a : AtomLane) i ev, (i = Instr.serviceWarpAtomic a ∧ ev = Event.serviceWarpAtomic a) ∨ (i = Instr.poolAtomic a ∧ ev = Event.poolAtomic a) →
      let waits := decide (ev = .serviceWarpAtomic a) && s.lineToCome a.pa
      let same := fun (b : AtomLane) => decide (b.op = a.op ∧ lineOf b.pa = lineOf a.pa)
      -- the line is still to come, an engine owns it, or an earlier atomic of the lane comes first
      (waits = true ∨ (s.line (lineOf a.pa)).owners ≠ [] ∨ s.atomBefore a = true → ∃ u, exec i s = .next u ∧ u.mem = s.mem ∧ u.lines = s.lines
        ∧ { at_ := s.clk + 1, onRef := false, ev := ev } ∈ u.agenda)
      -- else every lane of the instruction that addresses the line is performed, in ascending lane order
      ∧ (waits = false → (s.line (lineOf a.pa)).owners = [] → s.atomBefore a = false →
          ∃ (z : State) (lanes : List AtomLane), exec i s = .next ((lanes.foldl State.performAtomic z).settleAtoms a)
            ∧ z.mem = s.mem ∧ z.lines = s.lines ∧ z.groups = s.groups ∧ z.atoms = s.atoms.filter (fun b => !same b)
            ∧ lanes.Perm (a :: s.atoms.filter same) ∧ (lanes.map AtomLane.lane).Pairwise (· ≤ ·)))
  ∧ (∀ (r : AtomReply) g, s.group r.gid = some g → r.bad = false →
      g.pend.any (fun p => decide (p.op = r.op ∧ p.kind = .vec ∧ p.reg = r.vd.toNat) && p.lanes.has r.lane) = true →
      exec (.atomicReply r) s = .next ((s.setGroup r.gid (fun _ => g.setV r.vd.toNat (1#128 <<< r.lane) (fun _ => r.old))).landOp r.gid r.op))

/-- R374 to R392: translations and walks with what they give, page requests and replies, page heat, migration, row retirement.
The model's own choices here: log entries 1, 32, 35, 36, 37. That a discarded reply and a row are recorded with the codes 0x11 and 0x12 is the
model's choice (log entry 69), and so is the phase bit of a record's first pass (log entry 92). -/
def Obligations.PagingEvents : Prop := ∀ (s : State),
  (∀ gid va acc g, s.group gid = some g → exec (.pageWalk gid va acc) s
      = .next (s.translate { s.groupXc gid with waiter := .engine 0 } va acc).1)
  -- a translation: the address's range, a TLB entry, and a cold walk of one stage, level by level
  ∧ (∀ (c : Xc) (va : Dword) acc, let v := va.toNat
      let tr := s.translate c va acc
      (v / 2 ^ 56 ≠ 0 → tr = (s, .fault 0x29 (BitVec.ofNat 64 (2 <<< 60))))
      ∧ (v / 2 ^ 56 = 0 → s.refused.contains (c.waiter.key, v / 65536) = false →
        (∀ e, (s.core c.core).tlb.find? (fun e => e.covers c.fn v) = some e → e.s1.permits acc = true → e.s2.permits acc = true →
          s.paKind (e.pa + v % 2 ^ e.log) = .hbm → acc ≠ .atomic → tr = (s, .ok (e.pa + v % 2 ^ e.log) (Nat.max e.s1.typ e.s2.typ)))
        ∧ ((∀ e, e ∈ (s.core c.core).tlb ++ (s.die (dieOfCore c.core)).tlb → e.covers c.fn v = false) →
          (s.die (dieOfCore c.core)).walkCache = [] → (s.func c.fn).s2en = false →
          let table := fun (n : Nat) => (List.range n).foldl (fun (t : Nat) k => pteAddr (s.num (t + 8 * bits v (55 - 10 * k) (46 - 10 * k)) 8)) (s.func c.fn).s1root
          let slot := fun (n : Nat) => table n + 8 * bits v (55 - 10 * n) (46 - 10 * n)
          let e := fun (n : Nat) => s.num (slot n) 8
          let placed := fun (n : Nat) => s.paKind (slot n) ≠ .none ∧ s.paKind (slot n) ≠ .hearth ∧ s.regionOf (slot n) = none
          let legal := fun (n : Nat) => bits (e n) 59 52 = 0 ∧ bits (e n) 12 7 = 0
            ∧ (if bit (e n) 1 then n ≠ 0 ∧ pteAddr (e n) % 2 ^ (46 - 10 * n) = 0 else n ≠ 3 ∧ bits (e n) 6 2 = 0)
          let read := fun (n : Nat) => placed n ∧ (s.line (lineOf (slot n))).bad = false
          ∀ n, n < 4 → (∀ k, k < n → read k ∧ bit (e k) 0 = true ∧ legal k ∧ bit (e k) 1 = false) →
            (¬ placed n → tr.2 = .fault 0x29 (BitVec.ofNat 64 (4 <<< 60 + n <<< 58)))
            ∧ (placed n → (s.line (lineOf (slot n))).bad = true → tr.2 = .fault 0x29 (BitVec.ofNat 64 (5 <<< 60 + n <<< 58)))
            ∧ (read n → bit (e n) 0 = false → tr.2 = .fault 0x29 (BitVec.ofNat 64 (n <<< 58)))
            ∧ (read n → bit (e n) 0 = true → ¬ legal n → tr.2 = .fault 0x29 (BitVec.ofNat 64 (1 <<< 60 + n <<< 58)))
            ∧ (read n → bit (e n) 0 = true → legal n → bit (e n) 1 = true →
              let pa := pteAddr (e n) + v % 2 ^ (46 - 10 * n)
              s.paKind pa = .hbm → acc ≠ .atomic →
              ((acc = .read → bit (e n) 4 = true) ∧ (acc = .write → bit (e n) 5 = true) ∧ (acc = .fetch → bit (e n) 6 = true) →
                tr.2 = .ok pa (bits (e n) 3 2)
                ∧ ∀ g, s.group c.gid = some g → ∃ h, tr.1.group c.gid = some h ∧ h.refs = Nat.min (g.refs + (n + 1)) (2 ^ 24 - 1)
                  ∧ h.walks = Nat.min (g.walks + 1) (2 ^ 24 - 1))
              ∧ (acc = .read ∧ bit (e n) 4 = false → tr.2 = .fault 0x2A 0)
              ∧ (acc = .write ∧ bit (e n) 5 = false → tr.2 = .fault 0x2A (BitVec.ofNat 64 (1 <<< 60)))
              ∧ (acc = .fetch ∧ bit (e n) 6 = false → tr.2 = .fault 0x2A (BitVec.ofNat 64 (3 <<< 60)))))))
  -- a walk of stage 2: where an entry is missing, malformed or without the permission, a page request is due
  ∧ (∀ fn ipa acc (w : Walk), ipa < 2 ^ 52 →
      let r := (walk2 s [] fn ipa acc 4 (s.func fn).s2root w).2
      let table := fun (n : Nat) => (List.range n).foldl (fun (t : Nat) k => pteAddr (s.num (t + 8 * bits ipa (55 - 10 * k) (46 - 10 * k)) 8)) (s.func fn).s2root
      let slot := fun (n : Nat) => table n + 8 * bits ipa (55 - 10 * n) (46 - 10 * n)
      let e := fun (n : Nat) => s.num (slot n) 8
      let placed := fun (n : Nat) => s.paKind (slot n) ≠ .none ∧ s.paKind (slot n) ≠ .hearth ∧ s.regionOf (slot n) = none
      let legal := fun (n : Nat) => bits (e n) 59 52 = 0 ∧ bits (e n) 12 7 = 0
        ∧ (if bit (e n) 1 then n ≠ 0 ∧ pteAddr (e n) % 2 ^ (46 - 10 * n) = 0 else n ≠ 3 ∧ bits (e n) 6 2 = 0)
      let read := fun (n : Nat) => placed n ∧ (s.line (lineOf (slot n))).bad = false
      ∀ n, n < 4 → (∀ k, k < n → read k ∧ bit (e k) 0 = true ∧ legal k ∧ bit (e k) 1 = false) →
        (¬ placed n → r = .bad 4 n)
        ∧ (placed n → (s.line (lineOf (slot n))).bad = true → r = .bad 5 n)
        ∧ (read n → (bit (e n) 0 = false ∨ ¬ legal n) → r = .miss n 16)
        ∧ (read n → bit (e n) 0 = true → legal n → bit (e n) 1 = true → acc ≠ .atomic →
          r = if (ptePerm (e n)).permits acc then .ok (pteAddr (e n) + ipa % 2 ^ (46 - 10 * n)) (ptePerm (e n)) (46 - 10 * n) else .miss n (46 - 10 * n)))
  -- a fresh request of a granule takes an entry and a record of the function's ring
  ∧ (∀ d (c : Xc) va granule level acc k, d < 4 → (s.die d).heldReqs = [] → (∀ p, p ∈ (s.die d).preqs → ¬ (p.2.func = c.fn ∧ p.2.granule = granule)) →
      Assoc.lowestFree (s.die d).preqs 0 512 = some k → s.ringFull c.fn = false →
      let f := s.func c.fn
      let gen := (Assoc.getD (s.die d).gens k 0 + 1) % 32
      let r := s.pageRequest d c va granule level false acc
      Assoc.get (r.die d).preqs k = some { func := c.fn, granule := granule, acc := acc, level := level, tbl := false, gen := gen,
                                           waiters := [(c.waiter, va / 65536)] }
      ∧ (r.func c.fn).prqSent = f.prqSent + 1
      ∧ (s.memWf → f.prqbase % 16 = 0 → granule < 2 ^ 52 → c.fn < 128 → level < 4 → k < 512 → s.migrations = [] →
        let at_ := f.prqbase + 16 * (f.prqSent % 2 ^ (f.prqlog + 4))
        r.num (at_ + 8) 8 = granule ∧ bits (r.num at_ 8) 39 33 = c.fn ∧ bits (r.num at_ 8) 41 40 = level
          ∧ bits (r.num at_ 8) 63 48 = gen * 2048 + d * 512 + k
          ∧ bit (r.num at_ 8) 42 = decide (acc = .read ∨ acc = .atomic) ∧ bit (r.num at_ 8) 43 = decide (acc = .write ∨ acc = .atomic)
          ∧ bit (r.num at_ 8) 44 = decide (acc = .fetch)))
  ∧ (∀ die, (s.die die).heldReqs = [] → exec (.pageRequestRelease die) s = .next s)
  ∧ (∀ die q, (s.die die).heldReqs = [q] → (s.func q.func).s2en = false → exec (.pageRequestRelease die) s = .next s)
  ∧ (∀ die r q z, die < 4 → (s.die die).heldReqs = [q] → (s.func q.func).s2en = true → s.placeReq die q = some z →
      r = z.setDie die (fun x => { x with heldReqs := x.heldReqs.erase q }) → exec (.pageRequestRelease die) s = .next r)
  ∧ (∀ word : Dword, Assoc.get (s.die (bits word.toNat 10 9)).preqs (bits word.toNat 8 0) = none →
      exec (.prqReply word) s = .next (s.setDev (fun d => { d with mclog := d.mclog ++ [(0x11, word.toNat)] })))
  ∧ (∀ (word : Dword) q, Assoc.get (s.die (bits word.toNat 10 9)).preqs (bits word.toNat 8 0) = some q → q.gen = bits word.toNat 15 11 →
      q.func = bits word.toNat 24 18 → bits word.toNat 17 16 < 2 → bits word.toNat 63 25 = 0 → q.waiters = [] →
      exec (.prqReply word) s = .next ((s.setDie (bits word.toNat 10 9) (fun x =>
        { x with preqs := Assoc.del x.preqs (bits word.toNat 8 0) })).askRelease))
  ∧ (∀ fn word, ∃ r, exec (.prqHead fn word) s = .next r ∧ r.func fn = { s.func fn with prqHead := word.toNat % 2 ^ 32 })
  ∧ (∀ die pa, die < 4 → s.dev.assisted.getLsbD 3 = false → s.paKind pa = .hbm →
      exec (.heatSample die pa) s = .next (s.setDie die (fun d =>
        d.setHeat (pa / 65536) (Nat.min (Assoc.getD d.heat (pa / 65536) 0 + 1) 255))))
  ∧ (∀ die n p, die < 4 → s.dev.assisted.getLsbD 3 = false → Assoc.get (s.die die).heat p = some n → ∃ r,
      exec (.heatDecaySweep die) s = .next r ∧ (∀ m, (p, m) ∈ (r.die die).heat → ∃ k, (p, k) ∈ (s.die die).heat ∧ m = k / 2 ∧ m ≠ 0)
        ∧ r.agenda = s.agenda ++ [{ at_ := s.clk + 2 ^ (20 + s.dev.decay), onRef := false, ev := .heatDecaySweep die }])
  ∧ (∀ op m, s.memWf → Assoc.get s.migrations op = some m → m.waiting = false → m.copied < 256 →
      (s.line (m.src / 256 + m.copied)).owners = [] → (s.line (m.dst / 256 + m.copied)).owners = [] → ∃ r,
      exec (.migrationLineCopy op) s = .next r ∧ (Assoc.get r.migrations op).map Migration.copied = some (m.copied + 1)
        ∧ (∀ k, k < 256 → Memory.get r.mem ((m.dst / 256 + m.copied) * 256 + k) = Memory.get s.mem ((m.src / 256 + m.copied) * 256 + k))
        ∧ (∀ x, lineOf x ≠ m.dst / 256 + m.copied → Memory.get r.mem x = Memory.get s.mem x))
  ∧ (∀ op m, Assoc.get s.migrations op = some m → m.copied < 256 → exec (.migrationFinish op) s = .next s)
  ∧ (∀ op m, Assoc.get s.migrations op = some m → 256 ≤ m.copied → (s.line (lineOf m.leaf)).owners = [] → s.pageBusy m.src = false →
      ((s.flushPage m.src).num m.leaf 8 ≠ m.expected ∨ ((s.flushPage m.src).line (lineOf m.leaf)).bad = true) →
      exec (.migrationFinish op) s = .next ((s.flushPage m.src).endMigration op m false))
  ∧ (∀ op m, s.memWf → Assoc.get s.migrations op = some m → 256 ≤ m.copied → (s.line (lineOf m.leaf)).owners = [] → s.pageBusy m.src = false →
      let z := s.flushPage m.src
      z.num m.leaf 8 = m.expected → (z.line (lineOf m.leaf)).bad = false → m.leaf % 8 = 0 → pteAddr m.expected = m.src → m.dst % 8192 = 0 →
      m.dst < 2 ^ 52 → m.die < 4 →
      ∃ y : State, exec (.migrationFinish op) s = .next (y.endMigration op m true)
        -- the leaf's frame is the destination, and its other bits stay
        ∧ pteAddr (y.num m.leaf 8) = m.dst ∧ bits (y.num m.leaf 8) 12 0 = bits m.expected 12 0 ∧ bits (y.num m.leaf 8) 63 52 = bits m.expected 63 52
        ∧ (z.mirrors (lineOf m.leaf) = [] → ∀ a, (a < m.leaf ∨ m.leaf + 8 ≤ a) → Memory.get y.mem a = Memory.get z.mem a)
        -- no translation of the function reaches the source page
        ∧ (∀ p e, p ∈ y.cores → e ∈ p.2.tlb → e.func = m.func → ¬ (e.pa < m.src + 65536 ∧ m.src < e.pa + 2 ^ e.log))
        ∧ (∀ d e, d < 4 → e ∈ (y.die d).tlb → e.func = m.func → ¬ (e.pa < m.src + 65536 ∧ m.src < e.pa + 2 ^ e.log))
        ∧ (∀ d e, d < 4 → e ∈ (y.die d).walkCache → e.func = m.func → ¬ (e.stage = m.stage ∧ e.pa = m.leaf))
        ∧ (z.heated m.dst = true → z.homeDie m.dst < 4 → m.src / 65536 ≠ m.dst / 65536 →
          Assoc.getD (y.die (z.homeDie m.dst)).heat (m.dst / 65536) 0 = Assoc.getD (z.die m.die).heat (m.src / 65536) 0
          ∧ Assoc.getD (y.die m.die).heat (m.src / 65536) 0 = 0))
  ∧ (∀ loc spare, let z := s.setDev (fun d => { d with failed := d.failed.filter (fun r => decide (r ≠ loc)) ++ [loc] })
      (s.dev.hasFailed loc = true → exec (.rowRetirement loc true spare) s = .next z)
      ∧ (s.dev.hasFailed loc = false → s.dev.assisted.getLsbD 4 = false → exec (.rowRetirement loc true spare) s = .next (z.retire loc 0 spare))
      ∧ (s.dev.hasFailed loc = false → s.dev.assisted.getLsbD 4 = true →
          exec (.rowRetirement loc true spare) s = .next ((z.mcEvent 0x12 0).reportRow z.dev.reduced loc)))
  ∧ (∀ loc spare, s.dev.corrected.find? (fun p => decide (p.1 = loc)) = none → exec (.rowRetirement loc false spare) s
      = .next (s.setDev (fun d => { d with corrected := d.corrected.filter (fun p => decide (p.1 ≠ loc)) ++ [(loc, 1)] })))

/-! ## Events: named tiles, links, collectives -/

/-- R298 to R310: interests and answers: an interest joins an entry of its key or makes one, and is forwarded; an answer fans out and frees
its entry; what reaches a ticket that is not pending has no effect.
The model's own choices here: log entries 1, 38, 40. What a ticket of a saved team meets rests on what the model keeps of a saved team, the
model's choice of log entry 51. -/
def Obligations.NameEvents : Prop := ∀ (s : State),
  (∀ (m : Interest) n gid t, m.who = .ticket gid t → (s.findTicket gid t.toNat).any (fun x => decide (x.2.status = 0)) = false →
    exec (.interestArrival m) s = .next s ∧ exec (.interestRetry m n) s = .next s)
  ∧ (∀ (m : Interest) gid t a, m.who = .ticket gid t → (s.findTicket gid t.toNat).any (fun x => decide (x.2.status = 0)) = true → m.refresh = false →
      s.homed m.die m.key.tensor = true → s.registryAnswer m.die m.key = some a →
      exec (.interestArrival m) s = .next (s.post (.namedTileDelivery gid t a)))
  ∧ (∀ (m : Interest) n gid t a, m.who = .ticket gid t → (s.findTicket gid t.toNat).any (fun x => decide (x.2.status = 0)) = true → m.refresh = false →
      s.homed m.die m.key.tensor = true → s.registryAnswer m.die m.key = some a →
      exec (.interestRetry m n) s = .next (s.post (.namedTileDelivery gid t a)))
  ∧ (∀ die e slot p dir u k, die < 4 → Assoc.get (s.die die).pit e = some p → Assoc.get p.slots slot = some (.upstream dir u, some k) →
      (s.tick < k → exec (.interestSlotExpiry die e slot) s = .next s)
      ∧ (k ≤ s.tick → Assoc.del p.slots slot ≠ [] → exec (.interestSlotExpiry die e slot) s = .next (s.setDie die (fun y =>
          { y with pit := Assoc.put y.pit e { p with slots := Assoc.del p.slots slot } })))
      ∧ (k ≤ s.tick → Assoc.del p.slots slot = [] → exec (.interestSlotExpiry die e slot) s = .next (s.setDie die (fun y =>
          { y with pit := Assoc.del y.pit e }))))
  -- an interest that makes an entry, at the key's home or on the way, meets a full table, joins an entry, or has no way to go
  ∧ (∀ m : Interest, m.die < 4 → m.refresh = false →
      (∀ gid t, m.who = .ticket gid t → (s.findTicket gid t.toNat).any (fun x => decide (x.2.status = 0)) = true) →
      let dir := s.nameDir m.die m.key.tensor
      let home := decide (dir = some 0)
      let slot : Requester × Option Nat := (m.who, m.expiry)
      let fresh : PitEntry := { key := m.key, born := s.clk, slots := [(0, slot)], sent := m.expiry, tries := 0, held := [] }
      let watched := fun (r : State) (e i : Nat) => ∀ back u k, m.who = .upstream back u → m.expiry = some k →
        { at_ := s.tickStart k, onRef := true, ev := .interestSlotExpiry m.die e i } ∈ r.agenda
      (home = true → s.registryAnswer m.die m.key = none) →
      ((∀ p, p ∈ (s.die m.die).pit → p.2.key ≠ m.key ∨ 8 ≤ p.2.slots.length ∨ p.2.held ≠ []) →
        (∀ e, Assoc.lowestFree (s.die m.die).pit 0 16384 = some e → home = true → ∃ r, exec (.interestArrival m) s = .next r
          ∧ (r.die m.die).pit = Assoc.put (s.die m.die).pit e fresh ∧ watched r e 0)
        ∧ (∀ e d, Assoc.lowestFree (s.die m.die).pit 0 16384 = some e → dir = some d → 4 ≤ d → d < 8 → (∀ back u, m.who = .upstream back u → back ≠ d) →
          ∃ r, exec (.interestArrival m) s = .next r ∧ (r.die m.die).pit = Assoc.put (s.die m.die).pit e fresh ∧ watched r e 0
            ∧ (let on : Interest := { die := d - 4, key := m.key, who := .upstream (4 + m.die) e, expiry := m.expiry, refresh := false }
               { at_ := s.clk, onRef := false, ev := .interestArrival on } ∈ r.agenda))
        ∧ (∀ back u, Assoc.lowestFree (s.die m.die).pit 0 16384 = none → m.who = .upstream back u → (home = true ∨ dir ≠ some back) →
          exec (.interestArrival m) s = .next (s.answerOne m.die m.who (plainAnswer m.die u m.key 9)))
        ∧ (∀ gid t, Assoc.lowestFree (s.die m.die).pit 0 16384 = none → m.who = .ticket gid t →
          exec (.interestArrival m) s = .next ((s.countRetry gid t.toNat).postAt (s.clk + 64) (.interestRetry m 1))))
      ∧ (∀ e p i, (s.die m.die).pit.filter (fun (q : Nat × PitEntry) => decide (q.2.key = m.key)) = [(e, p)] → p.slots.length < 8 → p.held = [] →
          Assoc.lowestFree p.slots 0 8 = some i → (∀ back u, m.who = .upstream back u → dir ≠ some back ∨ home = true) →
          (home = true ∨ (m.expiry.isSome = true ∧ later m.expiry p.sent = false)) → ∃ r, exec (.interestArrival m) s = .next r
            ∧ (r.die m.die).pit = Assoc.put (s.die m.die).pit e { p with slots := Assoc.put p.slots i slot } ∧ watched r e i)
      ∧ (∀ back u, m.who = .upstream back u → home = false → dir = some back →
          exec (.interestArrival m) s = .next (s.answerOne m.die m.who (plainAnswer m.die 0 m.key 5)))
      ∧ (∀ e, (∀ p, p ∈ (s.die m.die).pit → p.2.key ≠ m.key) → Assoc.lowestFree (s.die m.die).pit 0 16384 = some e → dir = none →
          exec (.interestArrival m) s = .next (s.answerOne m.die m.who (plainAnswer m.die e m.key 5))))
  -- an answer fans out to every slot of its entry; but for a tile it is held for the ticket of a saved team
  ∧ (∀ (m : Answer) p, m.die < 4 → Assoc.get (s.die m.die).pit m.entry = some p → p.key = m.key → m.status ≠ 9 → p.held = [] →
      ∃ r, exec (.tileAnswerArrival m) s = .next r
        ∧ (∀ i gid t x, (i, .ticket gid t, x) ∈ p.slots → s.isSaved gid = false → { at_ := s.clk, onRef := false, ev := .namedTileDelivery gid t m } ∈ r.agenda)
        ∧ (∀ i d u x, (i, .upstream d u, x) ∈ p.slots → d < 8 →
            { at_ := s.clk, onRef := false, ev := .tileAnswerArrival { m with die := d - 4, entry := u } } ∈ r.agenda)
        ∧ ((∀ i gid t x, (i, .ticket gid t, x) ∈ p.slots → s.isSaved gid = false ∨ m.status = 1) → (r.die m.die).pit = Assoc.del (s.die m.die).pit m.entry)
        ∧ (∀ i gid t x, (i, .ticket gid t, x) ∈ p.slots → s.isSaved gid = true → m.status ≠ 1 →
            ∃ q, Assoc.get (r.die m.die).pit m.entry = some q ∧ Assoc.get q.held i = some m.status ∧ (i, .ticket gid t, x) ∈ q.slots))
  ∧ (∀ m : Answer, Assoc.get (s.die m.die).pit m.entry = none → exec (.tileAnswerArrival m) s = .next s)
  ∧ (∀ (m : Answer) p gid t, m.die < 4 → Assoc.get (s.die m.die).pit m.entry = some p → p.key = m.key → m.status ≠ 9 →
      p.slots = [(0, .ticket gid t, none)] → p.held = [] → s.isSaved gid = false →
      exec (.tileAnswerArrival m) s = .next ((s.setDie m.die (fun y => { y with pit := Assoc.del y.pit m.entry })).post (.namedTileDelivery gid t m)))
  ∧ (∀ gid t m, s.findTicket gid t.toNat = none → exec (.namedTileDelivery gid t m) s = .next s
      ∧ (s.isSaved gid = false → exec (.ticketExpiry gid t) s = .next s)
      ∧ (s.isSaved gid = true → s.heldAnswer gid t.toNat = none → exec (.ticketExpiry gid t) s = .next (s.dropSlot gid t.toNat)))
  ∧ (∀ gid t m tid k, s.findTicket gid t.toNat = some (tid, k) →
      (k.status ≠ 0 → exec (.namedTileDelivery gid t m) s = .next s ∧ exec (.ticketExpiry gid t) s = .next s)
      ∧ (k.status = 0 → exec (.namedTileDelivery gid t m) s = .next (s.answerTicket gid tid k m))
      ∧ (∀ e, k.status = 0 → k.expiry = some e → e ≤ s.tick →
          exec (.ticketExpiry gid t) s = .next ((s.emptyDelivery gid tid k).resolve gid tid k 2 0 0))
      ∧ (k.expiry = none → exec (.ticketExpiry gid t) s = .next s))

/-- R344 to R355, R361, R437: the bytes that reach a link port are deciphered under the key slot that their header names; the port
discards what is out of order or, being down, everything; a good flit is accepted and consumed; the third bad tag brings the port down;
acknowledgements, retry and key slots; the arrivals and time limit of a collective.
The model's own choices here: log entries 1, 42, 46, 47. -/
def Obligations.LinkEvents : Prop := ∀ (s : State) (p : Nat), p < 16 →
  (∀ i b tag, i = Instr.flitReceive p b tag ∨ i = Instr.ackReceive p b tag →
    let f := ((s.port p).opened (b ++ tag)).1
    let ok := ((s.port p).opened (b ++ tag)).2
    ((s.port p).up = false → exec i s = .next s)
    ∧ (f.typ ≠ 5 → f.seq ≠ (s.port p).rxSeq → exec i s = .next s)
    ∧ (f.typ ≠ 5 → (s.port p).up = true → f.seq = (s.port p).rxSeq → ok = false → 2 ≤ (s.port p).fails →
        ∃ r, exec i s = .next r ∧ (r.port p).up = false ∧ (r.port p).retry = [])
    ∧ (f.typ = 5 → ok = false → exec i s = .next s)
    ∧ (f.typ = 3 → (s.port p).up = true → f.seq = (s.port p).rxSeq → (s.port p).tagPasses f ok = true → f.slot = (s.port p).rxSlot → f.slot < 2 →
        f.rsv = false → f.dpkg = s.dev.pkg → (s.port p).sinceAck < 15 → (s.port p).retiring = none →
        exec i s = .next (((s.setPort p (fun x => x.accepted f)).post (.collFlitArrival p f.payload)).ackSoon p)))
  -- an ACK that passes: what it covers leaves the retry buffer, its credits are counted, and a NAK has the rest sent again
  ∧ (∀ i b tag, i = Instr.flitReceive p b tag ∨ i = Instr.ackReceive p b tag →
    let f := ((s.port p).opened (b ++ tag)).1
    let ok := ((s.port p).opened (b ++ tag)).2
    f.typ = 5 → (s.port p).up = true → (s.port p).tagPasses f ok = true → f.rsv = false → f.dpkg = s.dev.pkg → s.colls = [] →
    let seq := payNum f.payload 0 1
    ∃ r, exec i s = .next r ∧ (r.port p).credits = (s.port p).credits + payNum f.payload 2 2
      ∧ ((∀ g, g ∈ (s.port p).retry → g.seq ≠ seq) → (r.port p).retry = (s.port p).retry)
      ∧ (∀ before g after, (s.port p).retry = before ++ g :: after → (∀ x, x ∈ before → x.seq ≠ seq) → g.seq = seq →
          (r.port p).retry = after ∧ (r.port p).progress = s.refc
          ∧ (r.port p).wire = (s.port p).wire ++ (if payNum f.payload 1 1 % 2 = 1 then after else [])))
  -- a held landing: its record enters the part and returns its credit, or stays and is tried again in the next cycle
  ∧ (∀ k w q, (s.port p).heldRecs = [(k, [w])] → Assoc.get s.queues k = some q →
      let record : Rec := { words := w, bad := false, tick := s.tick, time := 0 }
      (∀ q', q.place record = some q' → ∃ r, exec (.recLandingRetry p) s = .next r ∧ (r.port p).heldRecs = []
        ∧ (r.port p).creditsDue = (s.port p).creditsDue + 1
        ∧ r.queues = (((s.setPort p (fun x => { x with heldRecs := [] })).accepted k q').settleQueue k).queues)
      ∧ (q.place record = none → s.agenda.any (fun d => decide (d.ev = .recLandingRetry p)) = false → ∃ r, exec (.recLandingRetry p) s = .next r
        ∧ (r.port p).heldRecs = [(k, [w])] ∧ (r.port p).creditsDue = (s.port p).creditsDue
        ∧ { at_ := s.clk + 1, onRef := false, ev := .recLandingRetry p } ∈ r.agenda))
  -- a link cycle of a port that is up: what waits goes first, then the eligible part with the greatest D
  ∧ (∀ typ arg b rest, (s.port p).up = true → (s.port p).claimed ≤ s.linkNow → (s.port p).out = (typ, arg, b) :: rest → (s.port p).canForm typ 1 = true →
      exec (.portForwardDecision p) s
        = .next (((s.setPort p (fun x => { x with out := rest })).formFlit p typ arg b).postRef (linkStart (s.linkNow + 1)) (.portForwardDecision p)))
  ∧ ((s.port p).up = true → (s.port p).claimed ≤ s.linkNow → (s.port p).out = [] → s.tick ≠ 0 → (s.queues.map Prod.fst).Pairwise (· < ·) →
      let x := s.port p
      let D := fun (k : Nat) (q : Queue) (w h : Nat) => (w : Int) * (((q.sample.b : Int) - (x.forwardedSince (s.tick - 1) (fun r => decide (r.1 = k)) : Int))
        - (((Config.peerSample h (s.tick - 1)).1 : Int) + (x.forwardedSince (s.tick - 1) (fun r => decide (r.2 = h)) : Int)))
      let eligible := fun (k : Nat) (q : Queue) (w h : Nat) => (k, q) ∈ s.queues ∧ s.partWeight k = some w
        ∧ q.peers.find? (fun h => decide (bits h 31 20 = x.nbrPkg)) = some h ∧ 0 < D k q w h ∧ (Config.peerSample h (s.tick - 1)).2.2.1 = false ∧ 0 < x.credits
        ∧ (unitRecords q.rsize ≤ q.ring.length ∨ (q.ring ≠ [] ∧ (q.sample.sealed = true ∨ q.sample.lingered = true)))
      ((∀ k q w h, ¬ eligible k q w h) → exec (.portForwardDecision p) s = .next (s.postRef (linkStart (s.linkNow + 1)) (.portForwardDecision p)))
      ∧ (∀ k q w h, eligible k q w h → x.canForm 1 (unitFlits q.rsize) = true →
        (∀ k' q' w' h', eligible k' q' w' h' → k' = k ∨ D k' q' w' h' < D k q w h ∨ (D k' q' w' h' = D k q w h ∧ (w' < w ∨ (w' = w ∧ k < k')))) →
        let n := Nat.min (unitRecords q.rsize) q.ring.length
        ∃ r sent, exec (.portForwardDecision p) s = .next r ∧ (r.port p).credits = x.credits - 1 ∧ (s.tick, k, h, n) ∈ (r.port p).forwarded
          ∧ r.queues = ((s.setQueue k (fun q => { q with ring := q.ring.drop n })).settleQueue k).queues
          ∧ (r.port p).wire = x.wire ++ sent ∧ sent.map Flit.typ = List.replicate (unitFlits q.rsize) 1
          ∧ sent.map Flit.arg = (if q.rsize = 2 then [1, 0x81] else [n]) ∧ (∀ f, f ∈ sent → payNum f.payload 0 4 = h % 2 ^ 32)))
  ∧ ((s.port p).heldRecs = [] → ∃ r, exec (.recLandingRetry p) s = .next r ∧ r.port p = s.port p ∧ r.queues = s.queues)
  ∧ (((s.port p).up = false ∨ (s.port p).sinceAck = 0 ∧ (s.port p).creditsDue = 0 ∧ (s.port p).nakDue = false) → exec (.ackSend p) s = .next s)
  ∧ ((s.port p).up = true → (s.port p).sinceAck ≠ 0 → (s.port p).canForm 5 1 = true → ∃ r, exec (.ackSend p) s = .next r
      ∧ (r.port p).sinceAck = 0 ∧ (r.port p).creditsDue = 0)
  ∧ (((s.port p).up = false ∨ (s.port p).retry = []) → exec (.retryTimeout p) s = .next s)
  ∧ ((s.port p).up = true → (s.port p).retry ≠ [] → linkStart (5 * (s.port p).progress / 8 + 1024) ≤ s.refc → ∃ r,
      exec (.retryTimeout p) s = .next r ∧ (r.port p).wire = (s.port p).wire ++ (s.port p).retry ∧ (r.port p).retry = (s.port p).retry)
  ∧ ((s.port p).up = false → exec (.portForwardDecision p) s = .next s)
  ∧ ((s.port p).up = true → s.linkNow < (s.port p).claimed →
      exec (.portForwardDecision p) s = .next (s.postRef (linkStart (s.linkNow + 1)) (.portForwardDecision p)))
  ∧ ((Vector.at0 (s.port p).txKeys (1 - (s.port p).txSlot) KeySlot.empty).live = false → exec (.keySwitchover p) s = .next s)
  ∧ ((s.port p).txSlot < 2 → (Vector.at0 (s.port p).txKeys (1 - (s.port p).txSlot) KeySlot.empty).live = true → (s.port p).canForm 4 1 = true → ∃ r,
      exec (.keySwitchover p) s = .next r ∧ (r.port p).txSlot = 1 - (s.port p).txSlot)
  ∧ ((s.port p).retiring = none → exec (.keySlotRetire p) s = .next s)
  ∧ (∀ n, (s.port p).retiring = some n → 64 ≤ n → exec (.keySlotRetire p) s = .next (s.setPort p (fun x =>
      { x with rxKeys := Vector.put x.rxKeys (1 - x.rxSlot) KeySlot.empty, retiring := none })))
  ∧ (∀ dir slot linkid key, s.dev.assisted.getLsbD 2 = true → exec (.linkKeyManagement p dir slot linkid key) s = .next s)
  ∧ (∀ slot linkid key x, s.dev.assisted.getLsbD 2 = false → (s.port p).install 0 (slot % 2) linkid key = some x →
      exec (.linkKeyManagement p 0 slot linkid key) s = .next (s.setPort p (fun _ => x)))
  ∧ (∀ b : List Byte, (4 < payNum b 3 1 ∨ 64 ≤ payNum b 2 1 ∨ s.collValid (payNum b 2 1) = false) →
      exec (.collFlitArrival p b) s = .next (s.linkEvent p 0 0 0 0 0))
  ∧ (∀ (b : List Byte) c, payNum b 3 1 < 4 → payNum b 2 1 < 64 → s.collValid (payNum b 2 1) = true → Assoc.get s.colls (payNum b 2 1) = some c →
      exec (.collFlitArrival p b) s = .next (s.collTake (payNum b 2 1) c p b))
  ∧ (∀ cid c, Assoc.get s.colls cid = some c →
      (s.clk < c.issued + 2 ^ 26 → exec (.collectiveTimeout cid) s = .next s)
      ∧ (c.issued + 2 ^ 26 ≤ s.clk → exec (.collectiveTimeout cid) s = .next (s.abortColl cid c.seq 3 localRank)))

/-! ## The host and the device -/

/-- R188, R261, R264, R414, R419 to R428: the host's registers and accesses, which wait for the engine that owns a line, the rings, reset,
wipe, firmware, power.
The model's own choices here: log entries 1, 4, 31, 60, 62, 64, 68. -/
def Obligations.DeviceEvents : Prop := ∀ (s : State),
  (∀ fn (v : Dword), exec (.bar0Write fn 0x0000 v) s = .next (s.setFunc fn (fun f => { f with cmdBase := v }))
    ∧ exec (.bar0Write fn 0x0018 v) s = .next (s.setFunc fn (fun f => { f with cplBase := v }))
    ∧ exec (.bar0Write fn 0x0020 v) s = .next (s.setFunc fn (fun f => { f with evtBase := v }))
    ∧ exec (.bar0Write fn 0x0038 v) s = .next s)
  ∧ (∀ pa data, s.writable pa data.length = true →
      (s.owned pa data.length = false → exec (.hostPortAccess pa data true) s = .next (s.hostWrite pa data))
      ∧ (s.owned pa data.length = true → exec (.hostPortAccess pa data true) s = .next (s.postAt (s.clk + 1) (.hostPortAccess pa data true))))
  ∧ (∀ pa n, s.owned pa n = true ↔ n ≠ 0 ∧ ∃ p, p ∈ s.lines ∧ p.2.owners ≠ [] ∧ pa / 256 ≤ p.1 ∧ p.1 * 256 < pa + n)
  ∧ (∀ pa data, s.writable pa data.length = false → exec (.hostPortAccess pa data true) s = .next s)
  ∧ (∀ pa data, (s.owned pa data.length = false → exec (.hostPortAccess pa data false) s = .next (s.hostRead pa data.length))
      ∧ (s.owned pa data.length = true → exec (.hostPortAccess pa data false) s = .next (s.postAt (s.clk + 1) (.hostPortAccess pa data false)))
      ∧ ((∀ n, n ∈ linesOf pa data.length → (s.line n).bad = false) →
        ∃ r, exec (.hostPortAccess pa data false) s = .next r ∧ r.mem = s.mem ∧ r.groups = s.groups))
  ∧ (∀ fn n, (s.func fn).heldEvents = [] → exec (.eventRingRelease fn n) s = .next (s.setFunc fn (fun f =>
      { f with evtFreed := Nat.min f.evtSent (f.evtFreed + n) })))
  ∧ (∀ i, i = Instr.reset ∨ i = Instr.thermalTrip → ∃ r, exec i s = .next r ∧ r.groups = [] ∧ r.teams = [] ∧ r.cores = [] ∧ r.queues = []
      ∧ r.dev.reduced = true ∧ r.dev.verified = false ∧ r.dev.life = s.dev.life ∧ r.dev.pkg = s.dev.pkg ∧ r.dev.powerUps = s.dev.powerUps + 1
      ∧ (∀ a, Memory.get r.mem a ≠ 0 → 0x4000000000000 ≤ a))
  ∧ (∃ r, exec .wipeComplete s = .next r ∧ r.dev.wiping = false ∧ (∀ a, Memory.get r.mem a ≠ 0 → 0x4000000000000 ≤ a)
      ∧ (∀ a, 0x4000000000000 ≤ a → Memory.get r.mem a = Memory.get s.mem a))
  ∧ (∃ r, exec .firmwareVerified s = .next r ∧ r.dev.verified = true
      ∧ (s.dev.reduced = true → 1 ≤ s.dev.life → s.dev.life ≤ 3 → r.dev.reduced = false ∧ r.dev.wiping = true ∧ r.groups = [] ∧ r.teams = []))
  ∧ (∀ w, 3200 < w → exec (.powerLimitStep w) s = .next (s.setDev (fun d => { d with mhz := Nat.max 700 (d.mhz - 50) })))
  ∧ (∀ w, w ≤ 3200 → exec (.powerLimitStep w) s = .next s)
  ∧ (∀ a, exec (.ageingSample a) s = .next (s.setDev (fun d => { d with ageing := a })))
  ∧ (∀ c, s.dev.wiping = false → exec (.unknownCommand c) s = .next (s.complete c .invalid 0))

/-- R414 to R416, Tables 17.3 and 17.4: what every command passes first: BUSY during a wipe, DENIED where a function other than 0 may not
give it, INVALID where a reserved field or an argument it does not use is not 0.
The order of these checks is the model's choice: log entry 29. -/
def Obligations.CommandChecks : Prop := ∀ (s : State) (c : Cmd) (i : Instr) (pf : Bool) (n : Nat),
  (i ∈ [Instr.submitGraph c, .endRun c, .sealQueue c, .restartStage c, .hearthDrain c, .hearthWrite c, .hearthOpen c, .setRoute c, .clearNames c,
      .setCrucible c, .setXlate c, .shootdown c, .setColl c, .setPool c, .heatRead c, .setDecay c, .migrate c, .preempt c, .preemptFunction c,
      .restore c, .terminate c, .attach c, .resume c, .keyInstall c, .setMode c, .quote c, .health c]
    ∨ (∃ b, i = .retireRow c b ∨ i = .clearRetlog c b ∨ i = .lifecycle c b) ∨ ∃ a b, i = .linkTrain c a b) →
  cmdShape c.op.toNat = some (pf, n) →
    (s.dev.wiping = true → exec i s = .next (s.complete c .busy 0))
    ∧ (s.dev.wiping = false → pf = true → c.func ≠ 0 → exec i s = .next (s.complete c .denied 0))
    ∧ (s.dev.wiping = false → (pf = true → c.func = 0) → (c.rsv ≠ 0 ∨ ∃ a, a ∈ (cmdArgs c).drop n ∧ a ≠ 0) →
        exec i s = .next (s.complete c .invalid 0))

/-- R237, R280, R287, R295, R302, R356, R362, R400, R403, R408, R413, R417, R418: the commands that act on graphs, teams, names,
collectives, pools and the Hearth, where the command passes the checks that every command passes.
The model's own choices here: log entries 1, 30, 53, 55, 56, 57. What RESTORE takes for an image, and the answer to one that it refuses, are
the model's choices (log entries 50 and 91), and so are the lines that leave a slice whose Crucible grows (log entry 84). -/
def Obligations.RunCommands : Prop := ∀ (s : State) (c : Cmd), passes s c →
  let inputs := [(c.a0.toNat, 64 * c.a1.toNat), (c.a2.toNat, 128 * c.a3.toNat), (c.a4.toNat, c.a3.toNat)]
  (∀ u, inputs.any (fun r => s.owned r.1 r.2) = false → s.submission c = .ok u →
    exec (.submitGraph c) s = .next (((u.readLists c).complete c .ok s.freeGraph).post (.graphRunEnd s.freeGraph)))
  ∧ (∀ e, inputs.any (fun r => s.owned r.1 r.2) = false → s.submission c = .error e → exec (.submitGraph c) s = .next (s.complete c e 0))
  ∧ (inputs.any (fun r => s.owned r.1 r.2) = true → exec (.submitGraph c) s = .next (s.postAt (s.clk + 1) (s.cmdEvent c)))
  ∧ (∀ g, Assoc.get s.graphs c.a0.toNat = some g → (c.func = 0 ∨ c.func = g.func) → exec (.endRun c) s
      = .next (({ s with graphs := Assoc.upd s.graphs c.a0.toNat (fun g => { g with ending := g.ending ++ [c] }) } : State).postOnce
        (.graphRunEnd c.a0.toNat)))
  ∧ (∀ q, Assoc.get s.queues (handleKey c.a0.toNat) = some q → s.handleOf q.func c.a0 = some (handleKey c.a0.toNat, q) → (c.func = 0 ∨ c.func = q.func) →
      exec (.sealQueue c) s = .next ((if q.sealed then s else s.seal (handleKey c.a0.toNat)).complete c .ok 0))
  ∧ (∀ x, Assoc.get s.stages c.a0.toNat = some x → (c.func = 0 ∨ c.func = x.func) → exec (.restartStage c) s
      = .next (({ s with stages := Assoc.upd s.stages c.a0.toNat (fun x => { x with stopped := false }) } : State).complete c .ok 0))
  -- under reduced service die 0 alone runs
  ∧ (∀ i, i = Instr.hearthDrain c ∨ i = Instr.hearthOpen c → (4 ≤ c.a0.toNat ∨ (s.dev.reduced = true ∧ c.a0.toNat ≠ 0)) →
      exec i s = .next (s.complete c .invalid 0))
  ∧ (4 ≤ c.a1.toNat / 2 ^ 29 ∨ (s.dev.reduced = true ∧ c.a1.toNat / 2 ^ 29 ≠ 0) → exec (.hearthWrite c) s = .next (s.complete c .invalid 0))
  ∧ (c.a0.toNat < 4 → (s.dev.reduced = true → c.a0.toNat = 0) → (s.die c.a0.toNat).window = .opened → exec (.hearthDrain c) s
      = .next (((s.setDie c.a0.toNat (fun x => { x with window := .draining })).watchHearth).complete c .ok 0))
  ∧ (c.a1.toNat % 256 = 0 → c.a2.toNat = 256 → c.a1.toNat / 2 ^ 29 < 4 → (s.dev.reduced = true → c.a1.toNat / 2 ^ 29 = 0) → c.a0.toNat % 256 = 0 →
      s.paKind c.a0.toNat ≠ .none →
      ((s.die (c.a1.toNat / 2 ^ 29)).window ≠ .loading → exec (.hearthWrite c) s = .next (s.complete c .state 0))
      ∧ ((s.die (c.a1.toNat / 2 ^ 29)).window = .loading → s.owned c.a0.toNat 256 = false → exec (.hearthWrite c) s
        = .next (((s.hostRead c.a0.toNat 256).hostWrite (0x10000000000 + c.a1.toNat) (s.bytes c.a0.toNat 256)).complete c .ok 0))
      ∧ ((s.die (c.a1.toNat / 2 ^ 29)).window = .loading → s.owned c.a0.toNat 256 = true → exec (.hearthWrite c) s
        = .next (s.postAt (s.clk + 1) (s.cmdEvent c))))
  ∧ (c.a0.toNat < 4 → (s.dev.reduced = true → c.a0.toNat = 0) → exec (.hearthOpen c) s = .next ((s.openHearth c.a0.toNat).complete c .ok 0))
  ∧ (c.a0.toNat < 4 → c.a1.toNat < 256 → routeLegal c.a0.toNat c.a2.toNat = true → exec (.setRoute c) s
      = .next ((s.setDie c.a0.toNat (fun d => { d with routes := Assoc.put d.routes c.a1.toNat c.a2 })).complete c .ok 0))
  ∧ (exec (.clearNames c) s = .next (({ s with dies := s.dies.map (fun (d : Die) =>
      { d with registry := d.registry.filter (fun t => decide (t.key.func ≠ c.func)),
               horizons := d.horizons.filter (fun h => decide (h.func ≠ c.func)) }) } : State).complete c .ok 0))
  ∧ (c.a0.toNat < 4 → c.a1.toNat ≤ 32 → exec (.setCrucible c) s = .next (
      if 4096 * c.a1.toNat < (s.die c.a0.toNat).usedLines then s.complete c .nospace 0
      else (((s.slices.filter (fun p => decide (p.1 / 32 = c.a0.toNat))).map Prod.fst).foldl State.trimSlice
        (s.setDie c.a0.toNat (fun x => { x with crucible := c.a1.toNat }))).complete c .ok 0))
  ∧ (c.a0.toNat < 64 → bits c.a1.toNat 62 52 = 0 → bits c.a1.toNat 38 36 = 0 → bits c.a1.toNat 31 16 = 0 → exec (.setColl c) s
      = .next (({ s with collTable := Assoc.put s.collTable c.a0.toNat c.a1.toNat } : State).complete c .ok 0))
  ∧ (c.a0.toNat < 64 → s.poolLegal c.a0.toNat (entryOf c) (regionOfEntry c (entryOf c)) = true → exec (.setPool c) s
      = .next (({ s with regions := Assoc.put s.regions c.a0.toNat { regionOfEntry c (entryOf c) with top := (s.region c.a0.toNat).top } } : State).complete c .ok 0))
  ∧ (∀ tid t, s.teamById c.func c.a0.toNat = some (tid, t) →
    (c.a1.toNat < 8 → s.imageArea t.home c.a2.toNat (Nat.max 1 c.a3.toNat) = true → s.imageSize tid (s.progressRecords tid) ≤ c.a3.toNat →
      (s.die (dieOfCore t.home)).preQueue.length < 16 → exec (.preempt c) s = .next (s.enqueuePre (dieOfCore t.home)
        { team := tid, func := t.func, pri := c.a1.toNat, image := c.a2.toNat, size := c.a3.toNat, cmd := c, listEntry := none }))
    ∧ (∀ g x, s.reported tid t = some g → s.group g = some x → exec (.terminate c) s
      = .next ((s.terminate tid 3 x.num 0 x.trap.tcause (x.trap.tpc.zeroExtend 64) x.trap.taddr x.trap.tinfo).complete c .ok 0))
    ∧ (s.dev.life ≠ 1 → s.dev.life ≠ 2 → c.a1.toNat < 2 → exec (.attach c) s
      = .next ((s.setTeam tid (fun t => { t with attach := decide (c.a1 = 1) })).complete c .ok 0))
    ∧ (s.dev.life = 1 ∨ s.dev.life = 2 → exec (.attach c) s = .next (s.complete c .denied 0))
    ∧ (∀ g, t.halt = .breakpoint g → exec (.resume c) s = .next ((s.goOn tid g).complete c .ok 0))
    ∧ ((∀ g, t.halt ≠ .breakpoint g) → exec (.resume c) s = .next (s.complete c .state 0)))
  -- PREEMPT of every team of a function: an entry of the image list for each, by rising team id
  ∧ (let list := c.a2.toNat
     let n := c.a3.toNat
     let legal := c.a0.toNat ≤ 64 ∧ (c.func = 0 ∨ c.a0.toNat = c.func) ∧ c.a1.toNat < 16 ∧ list % 64 = 0 ∧ n < 2 ^ 32
       ∧ ∀ m, m ∈ linesOf list (16 * n) → s.paKind (m * 256) = .host ∨ s.paKind (m * 256) = .hbm
     let z := s.hostRead list (16 * n)
     let teams := (z.funcTeams c.a0.toNat).zipIdx
     let area := fun (i : Nat) => (bits (z.num (list + 16 * i) 16) 51 0, bits (z.num (list + 16 * i) 16) 95 64)
     let enough := teams.length ≤ n ∧ ∀ p, p ∈ teams →
       z.imageArea p.1.2.home (area p.2).1 (Nat.max 1 (area p.2).2) = true ∧ z.imageSize p.1.1 (z.progressRecords p.1.1) ≤ (area p.2).2
     let room := ∀ d, d < 4 → (z.die d).preQueue.length + (teams.filter (fun p => decide (dieOfCore p.1.2.home = d))).length ≤ 16
     let cleared := ((List.range n).drop teams.length).foldl (fun (y : State) i => y.hostWrite (list + 16 * i + 12) (natLe 0 4)) z
     (¬ legal → exec (.preemptFunction c) s = .next (s.complete c .invalid 0))
     ∧ (legal → s.owned list (16 * n) = true → exec (.preemptFunction c) s = .next (s.postAt (s.clk + 1) (s.cmdEvent c)))
     ∧ (legal → s.owned list (16 * n) = false →
       (¬ enough → exec (.preemptFunction c) s = .next (z.complete c .nospace 0))
       ∧ (enough → ¬ room → exec (.preemptFunction c) s = .next (z.complete c .busy 0))
       ∧ (enough → room → z.funcTeams c.a0.toNat = [] → exec (.preemptFunction c) s = .next (cleared.complete c .ok 0))
       ∧ (enough → room → z.funcTeams c.a0.toNat ≠ [] → exec (.preemptFunction c) s
         = .next (teams.foldl (fun (y : State) p => y.enqueuePre (dieOfCore p.1.2.home)
             { team := p.1.1, func := c.a0.toNat, pri := c.a1.toNat % 8, image := (area p.2).1, size := (area p.2).2, cmd := c, listEntry := some p.2 })
           (cleared.setDev (fun d => { d with tally := Assoc.put d.tally c.func 0 })))))
     ∧ (∀ p, p ∈ z.funcTeams c.a0.toNat → p ∈ z.teams ∧ p.2.func = c.a0.toNat ∧ p.2.ended = none)
     ∧ (∀ p, p ∈ z.teams → p.2.func = c.a0.toNat → p.2.ended = none → ∃ q, q ∈ z.funcTeams c.a0.toNat ∧ q.2.id = p.2.id)
     ∧ ((z.funcTeams c.a0.toNat).map (fun p => p.2.id)).Pairwise (· < ·))
  ∧ (∀ d (q : PreReq), d < 4 → ((s.enqueuePre d q).die d).preQueue = (s.die d).preQueue ++ [q])
  -- RESTORE of an image by where it was saved, or, copied elsewhere, by its header and digest
  ∧ (∀ image v, ((Assoc.get s.saved c.a0.toNat = some v ∧ image = c.a0.toNat) ∨ (Assoc.get s.saved c.a0.toNat = none
        ∧ s.saved.find? (fun p => decide (leNat (s.bytes c.a0.toNat 64) = p.2.header) && decide (s.bytes (c.a0.toNat + 64) 64 = p.2.digest)) = some (image, v))) →
      v.groups ≠ [] → (c.func = 0 ∨ v.team.func = c.func) → (∀ r, r ∈ s.dev.restores → r.1 ≠ image) →
      let z := s.hostRead c.a0.toNat v.size
      (s.owned c.a0.toNat v.size = true → exec (.restore c) s = .next (s.postAt (s.clk + 1) (s.cmdEvent c)))
      ∧ (s.owned c.a0.toNat v.size = false → exec (.restore c) s = .next (
        if z.bytes (c.a0.toNat + 64) 64 = shake512 (z.bytes (c.a0.toNat + 128) (v.size - 128)) then
          (z.setDev (fun d => { d with restores := d.restores ++ [(image, c)] })).post (.restorePlacement image)
        else (z.refuseImage image v).complete c .invalid 0)))

/-- R343, R350, R375, R382, R388 to R392, R420, R423 to R427: the commands that act on translation, pages, rows, links, modes and the life
cycle, where the command passes the checks that every command passes.
The model's own choices here: log entries 1, 33, 34, 36, 58, 59, 61, 65. What LIFECYCLE does beside the transition, which counters HEAT_READ
gives and that the device's own writes do not wait for an engine are the model's choices (log entries 60, 35 and 68). -/
def Obligations.DeviceCommands : Prop := ∀ (s : State) (c : Cmd), passes s c →
  (c.a0.toNat ≤ 64 → xlateLegal (entryOf c) = true → (bit (entryOf c) 143 = true ∨ s.runsGraph c.a0.toNat = false) → s.quiet c.a0.toNat = true →
    let e := entryOf c
    let z := ((s.flushFunc c.a0.toNat).setFunc c.a0.toNat (fun f =>
      let f := { f with s1root := bits e 51 0, s2root := bits e 115 64, s2en := bit e 142, valid := bit e 143 }
      if bit e 142 then { f with prqbase := bits e 195 144, prqlog := bits e 199 196, prqSent := 0, prqHead := 0 } else f)).dropFunc c.a0.toNat
    exec (.setXlate c) s = .next (((if bit e 142 then z else z.dropHeld c.a0.toNat).askRelease).complete c .ok 0)
    -- a context with one stage holds no request
    ∧ (bit e 142 = false → ∀ d q, d < 4 → q ∈ ((z.dropHeld c.a0.toNat).die d).heldReqs → q.func ≠ c.a0.toNat))
  ∧ (c.a0.toNat ≤ 64 → xlateLegal (entryOf c) = true → bit (entryOf c) 143 = false → s.runsGraph c.a0.toNat = true →
      exec (.setXlate c) s = .next (s.complete c .state 0))
  ∧ (c.a0.toNat ≤ 64 → c.a1.toNat = 2 → s.quiet c.a0.toNat = true → exec (.shootdown c) s
      = .next (((s.flushFunc c.a0.toNat).dropFunc c.a0.toNat).complete c .ok 0))
  ∧ (c.a0.toNat ≤ 64 → c.a1.toNat < 4 → s.quiet c.a0.toNat = false → exec (.shootdown c) s = .next (s.postAt (s.clk + 1) (.shootdown c)))
  ∧ (c.a0.toNat < 4 → s.writable c.a2.toNat c.a3.toNat = true → exec (.heatRead c) s
      = .next ((s.hostWrite c.a2.toNat ((List.range c.a3.toNat).map (fun i =>
        BitVec.ofNat 8 (Assoc.getD (s.die c.a0.toNat).heat (c.a1.toNat / 65536 + i) 0)))).complete c .ok 0))
  ∧ (c.a0.toNat < 16 → exec (.setDecay c) s = .next ((s.setDev (fun d => { d with decay := c.a0.toNat })).complete c .ok 0))
  ∧ (64 < c.a0.toNat → exec (.migrate c) s = .next (s.complete c .invalid 0))
  ∧ (let leaf := c.a1.toNat
     let e := c.a3.toNat
     let src := pteAddr e
     let dst := c.a4.toNat
     c.a0.toNat ≤ 64 → c.a2.toNat < 2 → leaf % 8 = 0 → s.paKind leaf = .hbm → s.regionOf leaf = none → pteValid e = true → pteLeaf e = true →
     pteMalformed 3 e = false → (c.a2.toNat = 0 → (s.func c.a0.toNat).s2en = false) → s.num leaf 8 = e → dst % 65536 = 0 →
     s.paKind dst = .hbm → s.regionOf dst = none → s.paKind src = .hbm → s.regionOf src = none → s.running (s.homeDie src) < 16 →
     let m : Migration := { die := s.homeDie src, func := c.a0.toNat, stage := 1 + c.a2.toNat, leaf := leaf, expected := e, src := src, dst := dst,
                            copied := 0, cmd := c, waiting := false }
     exec (.migrate c) s = .next ((({ s with uid := s.uid + 1, migrations := Assoc.put s.migrations (s.uid + 1) m } : State).mirrorOn m).post
       (.migrationLineCopy (s.uid + 1))))
  ∧ (∀ spare, bits c.a0.toNat 63 62 = 0 → bits c.a0.toNat 26 0 = 0 → (cmdRow c).stack < 12 → (cmdRow c).row < 6144 →
      exec (.retireRow c spare) s = .next ((s.retire (cmdRow c) 2 spare).complete c .ok 0))
  ∧ (exec (.clearRetlog c true) s = .next ((s.setDev (fun d => { d with retlog := [] })).complete c .ok 0))
  ∧ (exec (.clearRetlog c false) s = .next (s.complete c .signature 0))
  ∧ (∀ pkg port, c.a0.toNat < 16 → exec (.linkTrain c pkg port) s = .next (
      if s.dev.reduced then s.complete c .state 0
      else ((s.setPort c.a0.toNat (fun x => x.trained pkg port s.refc)).postOnce (.portForwardDecision c.a0.toNat)).complete c .ok 0))
  ∧ (∀ x, c.a0.toNat < 64 → c.a1.toNat < 2 ^ 32 → s.dev.assisted.getLsbD 2 = true →
      (s.port (bits c.a0.toNat 3 0)).install (bits c.a0.toNat 4 4) (bits c.a0.toNat 5 5) c.a1.toNat
        (c.a2.toNat + c.a3.toNat * 2 ^ 64 + c.a4.toNat * 2 ^ 128 + c.a5.toNat * 2 ^ 192) = some x →
      exec (.keyInstall c) s = .next ((s.setPort (bits c.a0.toNat 3 0) (fun _ => x)).complete c .ok 0))
  ∧ (c.a0.toNat < 64 → c.a1.toNat < 2 ^ 32 → s.dev.assisted.getLsbD 2 = false → exec (.keyInstall c) s = .next (s.complete c .state 0))
  ∧ (c.a0.toNat < 5 → c.a1.toNat < 2 → s.graphs = [] → exec (.setMode c) s = .next ((s.setDev (fun d =>
      { d with assisted := if c.a1 = 1 then d.assisted ||| (1#6 <<< c.a0.toNat) else d.assisted &&& ~~~ (1#6 <<< c.a0.toNat) })).complete c .ok 0))
  ∧ (c.a0.toNat < 6 → c.a1.toNat < 2 → s.graphs ≠ [] → exec (.setMode c) s = .next (s.complete c .state 0))
  ∧ (let data := quoteBytes s.dev.measured s.dev.life ([c.a0, c.a1, c.a2, c.a3].flatMap (fun a => natLe a.toNat 8))
     s.writable c.a4.toNat data.length = true → exec (.quote c) s = .next ((s.hostWrite c.a4.toNat data).complete c .ok 0))
  ∧ (8 ≤ c.a0.toNat → ∀ ok, exec (.lifecycle c ok) s = .next (s.complete c .invalid 0))
  ∧ (c.a0.toNat < 8 → c.a0.toNat ≠ 4 → ¬ (s.dev.life, c.a0.toNat) ∈ [(0, 1), (1, 2), (2, 3), (3, 2)] → ∀ ok,
      exec (.lifecycle c ok) s = .next (s.complete c .state 0))
  ∧ (c.a0.toNat = 4 ∨ (s.dev.life, c.a0.toNat) ∈ [(0, 1), (1, 2), (2, 3), (3, 2)] →
      -- the owner's key is provisioned at 0 to 1, and erased on the way to 4
      let keyed := if c.a0.toNat = 4 then false else if s.dev.life = 0 then true else s.dev.keyed
      let z := (s.setDev (fun d => { d with life := c.a0.toNat, keyed := keyed })).complete c .ok 0
      exec (.lifecycle c false) s = .next (s.complete c .signature 0)
      ∧ exec (.lifecycle c true) s = .next (z.wipe (!fullService z.dev.verified c.a0.toNat)).rephased)
  ∧ (s.writable c.a0.toNat 64 = true → exec (.health c) s = .next ((s.hostWrite c.a0.toNat (healthRecord s.dev.ageing)).complete c .ok 0))

/-! ## Encoding -/

/-- R29 to R35, R47, Tables 2.1 and 2.7: decoding the words of a well-formed instruction gives it back, with every operand, and leaves the
bytes after it. -/
def Obligations.DecodeEncode : Prop := ∀ (i : Instr) (rest : List Byte),
  i.WF → form i ≠ .none → decode (encodeBytes i ++ rest) = .ok (i, rest)

/-- R29, R33, R49: no bit of a word that decodes is dropped: its instruction's words are the bytes read. A word whose opcode Table 2.7 does
not assign decodes as such. -/
def Obligations.EncodeDecode : Prop :=  (∀ b i rest, decode b = .ok (i, rest) → encodeBytes i ++ rest = b)
  ∧ ∀ w rest, isAssigned (fOp w).toNat = false → decode (bytesOfWord w ++ rest) = .ok (.unassignedOpcode w, rest)

/-- Tables 2.1 and 2.7: words written out field by field from their encodings decode to the instructions they stand for; a word with a bit
that its instruction does not use decodes to none (R33). -/
def Obligations.DecodedWords : Prop :=  let word := fun (op d a b : Nat) => op * 2 ^ 21 + d * 2 ^ 14 + a * 2 ^ 7 + b
  decodeTableWord 32 (word 0x001 0 0 0) = some .nop
  ∧ decodeTableWord 32 (0x002 * 2 ^ 21 + 1 * 2 ^ 20 + 5 * 2 ^ 16 + 1 * 2 ^ 15 + 0x7FFF) = some (.br true 5 true 0x7FFF)
  ∧ decodeTableWord 32 (word 0x087 1 2 3) = some (.pand 1 2 3)
  ∧ decodeTableWord 64 (word 0x11D 9 0 0 + 0xDEADBEEF * 2 ^ 32) = some (.movi 9 0xDEADBEEF)
  ∧ decodeTableWord 32 (word 0x105 127 0 64) = some (.min 127 0 64)
  ∧ decodeTableWord 32 (word 0x18E 15 1 2) = some (.fcmpun 15 1 2)
  ∧ decodeTableWord 32 (0x301 * 2 ^ 21 + 3 * 2 ^ 14 + 5) = some (.xtry 3 5)
  ∧ decodeTableWord 32 (word 0x406 8 9 10) = some (.sth 8 9 10)
  ∧ decodeTableWord 32 (0x505 * 2 ^ 21 + 7 * 2 ^ 14) = some (.accz 7)
  ∧ decodeTableWord 32 (0x702 * 2 ^ 21 + 9) = some (.tmask 9)
  ∧ decodeTableWord 32 (word 0x001 0 0 1) = none

/-! ## Steps -/

/-- R24, R25, R29, R49, R50, R87: where the schedule's turn names a pipe, and the first group of the core in the order of R25 may issue
there, the step executes the instruction that the bytes at its PC decode to (or the one the group holds from a translation wait, R385), with
that group as the issuer; the bytes are those of its code page. A word with a bit that must be 0 raises RESERVED_FIELD in its opcode's pipe;
the word that an ORD prefixes is fetched before that.
The model's own choices here: log entries 1, 6, 10. -/
def Obligations.StepRunsDecoded : Prop :=  (∀ (s : State) (t : Turn) rest core p gid (g0 g : Machine.Group) more z f,
    s.turns = t :: rest → t.move = .pipe core p →
    let y := ({ s with turns := rest } : State).pass t.wait
    let time := askedTime t.time
    let code := askedTime t.code
    let c : Cur := { gid := gid, pipe := p, pre := none, time := time, code := code, stalled := false, bank := 0, poison := [] }
    y.firstDue = false → y.inOrder core = (gid, g0) :: more → y.group gid = some g → g.last.map Prod.fst ≠ some y.clk →
    y.mayIssue gid g = true → y.nextInstr gid g code = (z, f) →
      (∀ i pre u, f = .instr i pre → y.pipeFree g.core (pipe i) p = true → exec i { z with cur := some { c with pre := pre } } = .next u →
        u.cur.map Cur.stalled ≠ some true → step s = .next { u with cur := none })
      ∧ (∀ x k, f = .trap x k → y.pipeFree g.core k p = true → step s = .next ((z.stamp c g).takeTrap gid x))
      ∧ (f = .wait → y.pipeFree g.core .scalar p = true → step s = .next z))
  ∧ (∀ (s : State) gid (g : Machine.Group) code, g.held = none → s.nextInstr gid g code = s.fetchInstr gid code g.pc)
  ∧ (∀ (s : State) gid code a new, let r := s.fetchWord gid code a
      (r.1.fetchBad gid a = none → s.fetchRead gid code a new = r)
      ∧ (∀ w pa, r.2 = .word w → r.1.fetchBad gid a = some pa → s.fetchRead gid code a new = (if new then r.1.poisonEvent pa else r.1, .word w)))
  ∧ (∀ (s z : State) gid code pc w, s.fetchRead gid code pc true = (z, .word w) →
      let other := decide ((pc + 4).toNat % 256 = 0)
      (∀ i, isLForm (fOp w).toNat = false → (fOp w).toNat ≠ 0x40E → decode (bytesOfWord w) = .ok (i, []) →
        s.fetchInstr gid code pc = (z, .instr i none))
      ∧ (∀ e, isLForm (fOp w).toNat = false → (fOp w).toNat ≠ 0x40E → decode (bytesOfWord w) = .error e →
        s.fetchInstr gid code pc = (z, .trap (trapP 0x02) (if isAssigned (fOp w).toNat then pipeOf (fOp w).toNat else .scalar)))
      ∧ (∀ u lit i, isLForm (fOp w).toNat = true → z.fetchRead gid code (pc + 4) other = (u, .word lit) →
          decode (bytesOfWord w ++ bytesOfWord lit) = .ok (i, []) → s.fetchInstr gid code pc = (u, .instr i none))
      ∧ (∀ u next i, (fOp w).toNat = 0x40E → z.fetchRead gid code (pc + 4) other = (u, .word next) →
          decode (bytesOfWord w) = .ok (i, []) → s.fetchInstr gid code pc = (u, .instr i none))
      ∧ (∀ u next e, (fOp w).toNat = 0x40E → z.fetchRead gid code (pc + 4) other = (u, .word next) →
          decode (bytesOfWord w) = .error e → s.fetchInstr gid code pc = (u, .trap (trapP 0x02) (pipeOf 0x40E))))
  ∧ (∀ (s y : State) gid (pc : Va) pa typ, s.translate (s.groupXc gid) (pc.zeroExtend 64) .fetch = (y, .ok pa typ) →
      let core := ((y.group gid).map Machine.Group.core).getD 0
      let z := if 2 ≤ typ then y.touch pa else y.wantLine (dieOfCore core) ((core % 64) / 4) pa
      ((z.bankWait pa).isSome = true → s.fetchWord gid none pc = (z, .busy))
      ∧ (z.bankWait pa = none → (z.line (lineOf pa)).bad = false →
          ∃ w, s.fetchWord gid none pc = (z, .word w) ∧ bytesOfWord w = z.bytes pa 4))

/-- The machine never stops: in every state, reached or not, the step answers a next state, and so does every instruction, event and command where
the group in issue lives. Every exception of the spec is taken, and no instruction is refused.
The model's own choices here: log entry 1. -/
def Obligations.StepNeverStops : Prop := (∀ s : State, ∃ t, step s = .next t)
  ∧ ∀ (i : Instr) (s : State) c g, s.cur = some c → s.group c.gid = some g → ∃ t, exec i s = .next t

/-- Every step keeps the state's form, from every state that has it: equal memories stay equal data, a line's writes stay in the order of
their times, and no team or group is listed twice. -/
def Obligations.FormKept : Prop := ∀ s t : State, s.formed → step s = .next t → t.formed

/-- R7, R421, R422: the machine after reset: memory holds zero everywhere and is in its form; no team lives; it wipes, under reduced
service, at 0.7 GHz, and completes the wipe with its first step. (The clock that starts at 0 is the model's, log entry 3.) -/
def Obligations.ResetState : Prop :=  State.reset.formed ∧ (∀ a, Memory.get State.reset.mem a = 0) ∧ State.reset.groups = [] ∧ State.reset.teams = []
  ∧ State.reset.dev.reduced = true ∧ State.reset.dev.wiping = true ∧ State.reset.dev.mhz = 700 ∧ State.reset.clk = 0
  ∧ ∃ t, step State.reset = .next t ∧ t.dev.wiping = false ∧ t.formed

/-! ## Frames of an issue -/

/-- R25, R28, R123, R366, R397, R399: what every issue records, and nothing else. An instruction's own execution starts with every byte of memory,
every register, every team and every other group as they were; its completion moves the PC, counts it in the skid and in the handler, and
changes nothing else. The statements about single instructions say what happens in between. -/
def Obligations.IssueFrame : Prop := ∀ (s b : State) (i : Instr) c (g : Machine.Group) pc,
  (s.group c.gid = some g → latentOf i g = [] → g.held = none →
    let y := s.begun i c g
    y.mem = s.mem ∧ y.lines = s.lines ∧ y.teams = s.teams ∧ y.dies = s.dies ∧ y.queues = s.queues ∧ y.agenda = s.agenda
    ∧ (∀ k, k ≠ g.core → y.core k = s.core k) ∧ y.core g.core = { s.core g.core with pipes := (y.core g.core).pipes }
    ∧ (∀ k, k ≠ c.gid → y.group k = s.group k)
    ∧ ∃ h, y.group c.gid = some h
      ∧ h = { g with last := some (s.clk, c.pipe), order := s.uid + 1, starve := 0, skip := none, flushing := [], owed := h.owed, times := h.times,
                     soft := g.soft.filter (fun x => !readsPos (useCtx i g) i g x), regerr := { g.regerr with ce := h.regerr.ce } })
  ∧ (let r := b.retired c g pc
    r.mem = b.mem ∧ r.lines = b.lines ∧ r.cores = b.cores ∧ r.dies = b.dies ∧ r.queues = b.queues
    ∧ (∀ k, k ≠ c.gid → r.group k = b.group k)
    ∧ ∀ h, b.group c.gid = some h → ∃ h', r.group c.gid = some h'
      ∧ h' = { h with pc := pc, stop := h'.stop, trap := { h.trap with hcount := h'.trap.hcount } })
end

