-- ==== Sys2Proof/Laws/Memory.lean ====
section
/-!
SUPPORT. The laws of the tables by number and of the byte memory: what a read finds after a write, and that every memory
operation keeps the canonical form.
-/
namespace Sys2Proof.Machine
open Sys2Proof

variable {α : Type}

/-! ## Tables -/

@[simp] theorem Assoc.get_put_same (m : Assoc α) (a : Nat) (x : α) : Assoc.get (Assoc.put m a x) a = some x := by
  induction m with
  | nil => simp [Assoc.put, Assoc.get]
  | cons p r ih =>
    obtain ⟨k, v⟩ := p
    unfold Assoc.put
    split
    · simp [Assoc.get]
    · split
      · simp [Assoc.get]
      · simp [Assoc.get, *]

theorem Assoc.get_put_other (m : Assoc α) {a b : Nat} (x : α) (h : b ≠ a) : Assoc.get (Assoc.put m a x) b = Assoc.get m b := by
  induction m with
  | nil => simp [Assoc.put, Assoc.get, h.symm]
  | cons p r ih =>
    obtain ⟨k, v⟩ := p
    unfold Assoc.put
    split
    · simp [Assoc.get, h.symm]
    · split
      · simp_all [Assoc.get, h.symm]
      · simp [Assoc.get, ih]

@[simp] theorem Assoc.get_upd_same (m : Assoc α) (a : Nat) (f : α → α) : Assoc.get (Assoc.upd m a f) a = (Assoc.get m a).map f := by
  induction m with
  | nil => rfl
  | cons p r ih =>
    obtain ⟨k, v⟩ := p
    unfold Assoc.upd
    split <;> simp_all [Assoc.get]

theorem Assoc.get_upd_other (m : Assoc α) {a b : Nat} (f : α → α) (h : b ≠ a) : Assoc.get (Assoc.upd m a f) b = Assoc.get m b := by
  induction m with
  | nil => rfl
  | cons p r ih =>
    obtain ⟨k, v⟩ := p
    unfold Assoc.upd
    split
    · simp_all [Assoc.get, h.symm]
    · simp [Assoc.get, ih]

theorem Assoc.get_del_other (m : Assoc α) {a b : Nat} (h : b ≠ a) : Assoc.get (Assoc.del m a) b = Assoc.get m b := by
  induction m with
  | nil => rfl
  | cons p r ih =>
    obtain ⟨k, v⟩ := p
    unfold Assoc.del
    split
    · simp_all [Assoc.get, h.symm]
    · simp [Assoc.get, ih]

/-- The keys of a table rise strictly. -/
def Assoc.Rising (m : Assoc α) : Prop := m.Pairwise (fun p q => p.1 < q.1)

theorem Assoc.get_none_of_lt {m : Assoc α} {a : Nat} (h : ∀ p ∈ m, a < p.1) : Assoc.get m a = none := by
  induction m with
  | nil => rfl
  | cons p r ih =>
    obtain ⟨k, v⟩ := p
    have hk : a < k := h (k, v) (by simp)
    simp only [Assoc.get]
    rw [if_neg (by omega)]
    exact ih (fun q hq => h q (by simp [hq]))

theorem Assoc.get_del_same {m : Assoc α} (h : Assoc.Rising m) (a : Nat) : Assoc.get (Assoc.del m a) a = none := by
  induction m with
  | nil => rfl
  | cons p r ih =>
    obtain ⟨k, v⟩ := p
    unfold Assoc.Rising at h
    rw [List.pairwise_cons] at h
    unfold Assoc.del
    split
    · rename_i e
      exact Assoc.get_none_of_lt (fun q hq => by have := h.1 q hq; simp_all)
    · simp [Assoc.get, *]
      exact ih h.2

theorem Assoc.mem_put {m : Assoc α} {a : Nat} {x : α} {p : Nat × α} (h : p ∈ Assoc.put m a x) : p = (a, x) ∨ p ∈ m := by
  induction m with
  | nil => simp_all [Assoc.put]
  | cons q r ih =>
    obtain ⟨k, v⟩ := q
    unfold Assoc.put at h
    split at h
    · simp_all
    · split at h
      · simp_all; tauto
      · simp at h ⊢; rcases h with h | h
        · exact Or.inr (Or.inl h)
        · rcases ih h with h | h <;> simp [h]

theorem Assoc.mem_del {m : Assoc α} {a : Nat} {p : Nat × α} (h : p ∈ Assoc.del m a) : p ∈ m := by
  induction m with
  | nil => simp_all [Assoc.del]
  | cons q r ih =>
    obtain ⟨k, v⟩ := q
    unfold Assoc.del at h
    split at h
    · simp [h]
    · simp at h ⊢; rcases h with h | h
      · exact Or.inl h
      · exact Or.inr (ih h)

theorem Assoc.rising_put {m : Assoc α} (h : Assoc.Rising m) (a : Nat) (x : α) : Assoc.Rising (Assoc.put m a x) := by
  induction m with
  | nil => simp [Assoc.put, Assoc.Rising]
  | cons p r ih =>
    obtain ⟨k, v⟩ := p
    unfold Assoc.Rising at h ih ⊢
    have h' := List.pairwise_cons.1 h
    unfold Assoc.put
    split
    · refine List.pairwise_cons.2 ⟨fun q hq => ?_, h⟩
      rcases List.mem_cons.1 hq with e | e
      · subst e; assumption
      · have := h'.1 q e; simp at this ⊢; omega
    · split
      · exact List.pairwise_cons.2 ⟨fun q hq => by have := h'.1 q hq; simp_all, h'.2⟩
      · refine List.pairwise_cons.2 ⟨fun q hq => ?_, ih h'.2⟩
        rcases Assoc.mem_put hq with e | e
        · subst e; simp; omega
        · exact h'.1 q e

theorem Assoc.rising_del {m : Assoc α} (h : Assoc.Rising m) (a : Nat) : Assoc.Rising (Assoc.del m a) := by
  induction m with
  | nil => exact h
  | cons p r ih =>
    obtain ⟨k, v⟩ := p
    unfold Assoc.Rising at h ih ⊢
    have h' := List.pairwise_cons.1 h
    unfold Assoc.del
    split
    · exact h'.2
    · exact List.pairwise_cons.2 ⟨fun q hq => h'.1 q (Assoc.mem_del hq), ih h'.2⟩

/-! ## Memory -/

/-- The canonical form in the terms of its list: rising addresses, no zero byte. -/
theorem Memory.wf_iff (m : Memory) : Memory.wf m = true ↔ Assoc.Rising m ∧ ∀ c ∈ m, c.2 ≠ 0 := by
  induction m with
  | nil => simp [Memory.wf, Assoc.Rising]
  | cons p r ih =>
    obtain ⟨a, b⟩ := p
    cases r with
    | nil => simp [Memory.wf, Assoc.Rising]
    | cons q r =>
      obtain ⟨a', b'⟩ := q
      simp only [Memory.wf, Bool.and_eq_true, decide_eq_true_eq, ih]
      constructor
      · rintro ⟨⟨h1, h2⟩, h3, h4⟩
        refine ⟨List.pairwise_cons.2 ⟨fun c hc => ?_, h3⟩, fun c hc => ?_⟩
        · rcases List.mem_cons.1 hc with e | e
          · subst e; exact h2
          · have := (List.pairwise_cons.1 h3).1 c e; simp at this ⊢; omega
        · rcases List.mem_cons.1 hc with e | e
          · subst e; exact h1
          · exact h4 c e
      · rintro ⟨h1, h2⟩
        have h := List.pairwise_cons.1 h1
        exact ⟨⟨h2 (a, b) (by simp), h.1 (a', b') (by simp)⟩, h.2, fun c hc => h2 c (by simp [List.mem_cons.1 hc])⟩

/-- Writing a byte keeps the form. -/
theorem Memory.wf_put {m : Memory} (h : Memory.wf m = true) (a : Nat) (b : Byte) : Memory.wf (Memory.put m a b) = true := by
  rw [Memory.wf_iff] at h ⊢
  unfold Memory.put
  split
  · exact ⟨Assoc.rising_del h.1 a, fun c hc => h.2 c (Assoc.mem_del hc)⟩
  · refine ⟨Assoc.rising_put h.1 a b, fun c hc => ?_⟩
    rcases Assoc.mem_put hc with e | e
    · subst e; assumption
    · exact h.2 c e

/-- Writing bytes keeps the form. -/
theorem Memory.wf_write {m : Memory} (h : Memory.wf m = true) (a : Nat) (l : List Byte) : Memory.wf (Memory.write m a l) = true := by
  induction l generalizing m a with
  | nil => exact h
  | cons b r ih => exact ih (Memory.wf_put h a b) (a + 1)

/-- Writing listed cells keeps the form. -/
theorem Memory.wf_cells {m : Memory} (h : Memory.wf m = true) (l : List Host.Cell) :
    Memory.wf (l.foldl (fun (m : Memory) (c : Host.Cell) => Memory.put m c.1 c.2) m) = true := by
  induction l generalizing m with
  | nil => exact h
  | cons c r ih => exact ih (Memory.wf_put h c.1 c.2)

/-- A byte written reads back. -/
theorem Memory.get_put_same {m : Memory} (h : Memory.wf m = true) (a : Nat) (b : Byte) : Memory.get (Memory.put m a b) a = b := by
  unfold Memory.get Memory.put Assoc.getD
  split
  · rw [Assoc.get_del_same ((Memory.wf_iff m).1 h).1]; simp_all
  · simp

/-- Every other byte reads as before. -/
theorem Memory.get_put_other (m : Memory) {a a' : Nat} (b : Byte) (h : a' ≠ a) : Memory.get (Memory.put m a b) a' = Memory.get m a' := by
  unfold Memory.get Memory.put Assoc.getD
  split
  · rw [Assoc.get_del_other m h]
  · rw [Assoc.get_put_other m b h]

/-- Bytes outside the range written read as before. -/
theorem Memory.get_write_outside (m : Memory) (a : Nat) (l : List Byte) {a' : Nat} (h : a' < a ∨ a + l.length ≤ a') :
    Memory.get (Memory.write m a l) a' = Memory.get m a' := by
  induction l generalizing m a with
  | nil => rfl
  | cons b r ih =>
    simp only [List.length_cons] at h
    simp only [Memory.write]
    rw [ih _ _ (by omega), Memory.get_put_other _ _ (by omega)]

/-- A byte inside the range written reads as the byte written there. -/
theorem Memory.get_write_inside {m : Memory} (h : Memory.wf m = true) (a : Nat) (l : List Byte) (i : Nat) (hi : i < l.length) :
    Memory.get (Memory.write m a l) (a + i) = l.getD i 0 := by
  induction l generalizing m a i with
  | nil => simp at hi
  | cons b r ih =>
    simp only [Memory.write]
    cases i with
    | zero => rw [Memory.get_write_outside _ _ _ (by omega)]; simpa using Memory.get_put_same h a b
    | succ i =>
      have := ih (Memory.wf_put h a b) (a + 1) i (by simpa using hi)
      rw [show a + (i + 1) = a + 1 + i from by omega]
      simpa using this

end Sys2Proof.Machine
end

