-- ==== Sys2Proof/Laws/State.lean ====
section
/-!
SUPPORT. What each update of the state leaves alone, field by field, so that no proof unfolds a record update.
-/
namespace Sys2Proof.Machine
open Sys2Proof

@[simp] theorem State.setGroup_clk (s : State) (k : Nat) (f : Group → Group) : (s.setGroup k f).clk = s.clk := rfl
@[simp] theorem State.setGroup_refc (s : State) (k : Nat) (f : Group → Group) : (s.setGroup k f).refc = s.refc := rfl
@[simp] theorem State.setGroup_refrem (s : State) (k : Nat) (f : Group → Group) : (s.setGroup k f).refrem = s.refrem := rfl
@[simp] theorem State.setGroup_dev (s : State) (k : Nat) (f : Group → Group) : (s.setGroup k f).dev = s.dev := rfl
@[simp] theorem State.setGroup_mem (s : State) (k : Nat) (f : Group → Group) : (s.setGroup k f).mem = s.mem := rfl
@[simp] theorem State.setGroup_lines (s : State) (k : Nat) (f : Group → Group) : (s.setGroup k f).lines = s.lines := rfl
@[simp] theorem State.setGroup_slices (s : State) (k : Nat) (f : Group → Group) : (s.setGroup k f).slices = s.slices := rfl
@[simp] theorem State.setGroup_tongs (s : State) (k : Nat) (f : Group → Group) : (s.setGroup k f).tongs = s.tongs := rfl
@[simp] theorem State.setGroup_left (s : State) (k : Nat) (f : Group → Group) : (s.setGroup k f).left = s.left := rfl
@[simp] theorem State.setGroup_teams (s : State) (k : Nat) (f : Group → Group) : (s.setGroup k f).teams = s.teams := rfl
@[simp] theorem State.setGroup_cores (s : State) (k : Nat) (f : Group → Group) : (s.setGroup k f).cores = s.cores := rfl
@[simp] theorem State.setGroup_dies (s : State) (k : Nat) (f : Group → Group) : (s.setGroup k f).dies = s.dies := rfl
@[simp] theorem State.setGroup_ports (s : State) (k : Nat) (f : Group → Group) : (s.setGroup k f).ports = s.ports := rfl
@[simp] theorem State.setGroup_funcs (s : State) (k : Nat) (f : Group → Group) : (s.setGroup k f).funcs = s.funcs := rfl
@[simp] theorem State.setGroup_queues (s : State) (k : Nat) (f : Group → Group) : (s.setGroup k f).queues = s.queues := rfl
@[simp] theorem State.setGroup_stages (s : State) (k : Nat) (f : Group → Group) : (s.setGroup k f).stages = s.stages := rfl
@[simp] theorem State.setGroup_graphs (s : State) (k : Nat) (f : Group → Group) : (s.setGroup k f).graphs = s.graphs := rfl
@[simp] theorem State.setGroup_collTable (s : State) (k : Nat) (f : Group → Group) : (s.setGroup k f).collTable = s.collTable := rfl
@[simp] theorem State.setGroup_colls (s : State) (k : Nat) (f : Group → Group) : (s.setGroup k f).colls = s.colls := rfl
@[simp] theorem State.setGroup_collEarly (s : State) (k : Nat) (f : Group → Group) : (s.setGroup k f).collEarly = s.collEarly := rfl
@[simp] theorem State.setGroup_aborts (s : State) (k : Nat) (f : Group → Group) : (s.setGroup k f).aborts = s.aborts := rfl
@[simp] theorem State.setGroup_regions (s : State) (k : Nat) (f : Group → Group) : (s.setGroup k f).regions = s.regions := rfl
@[simp] theorem State.setGroup_copies (s : State) (k : Nat) (f : Group → Group) : (s.setGroup k f).copies = s.copies := rfl
@[simp] theorem State.setGroup_poolOps (s : State) (k : Nat) (f : Group → Group) : (s.setGroup k f).poolOps = s.poolOps := rfl
@[simp] theorem State.setGroup_nanns (s : State) (k : Nat) (f : Group → Group) : (s.setGroup k f).nanns = s.nanns := rfl
@[simp] theorem State.setGroup_migrations (s : State) (k : Nat) (f : Group → Group) : (s.setGroup k f).migrations = s.migrations := rfl
@[simp] theorem State.setGroup_saved (s : State) (k : Nat) (f : Group → Group) : (s.setGroup k f).saved = s.saved := rfl
@[simp] theorem State.setGroup_agenda (s : State) (k : Nat) (f : Group → Group) : (s.setGroup k f).agenda = s.agenda := rfl
@[simp] theorem State.setGroup_turns (s : State) (k : Nat) (f : Group → Group) : (s.setGroup k f).turns = s.turns := rfl
@[simp] theorem State.setGroup_refused (s : State) (k : Nat) (f : Group → Group) : (s.setGroup k f).refused = s.refused := rfl
@[simp] theorem State.setGroup_hostT (s : State) (k : Nat) (f : Group → Group) : (s.setGroup k f).hostT = s.hostT := rfl
@[simp] theorem State.setGroup_cur (s : State) (k : Nat) (f : Group → Group) : (s.setGroup k f).cur = s.cur := rfl
@[simp] theorem State.setGroup_uid (s : State) (k : Nat) (f : Group → Group) : (s.setGroup k f).uid = s.uid := rfl
@[simp] theorem State.setGroup_free (s : State) (k : Nat) (f : Group → Group) : (s.setGroup k f).free = s.free := rfl

@[simp] theorem State.setTeam_clk (s : State) (k : Nat) (f : Team → Team) : (s.setTeam k f).clk = s.clk := rfl
@[simp] theorem State.setTeam_refc (s : State) (k : Nat) (f : Team → Team) : (s.setTeam k f).refc = s.refc := rfl
@[simp] theorem State.setTeam_refrem (s : State) (k : Nat) (f : Team → Team) : (s.setTeam k f).refrem = s.refrem := rfl
@[simp] theorem State.setTeam_dev (s : State) (k : Nat) (f : Team → Team) : (s.setTeam k f).dev = s.dev := rfl
@[simp] theorem State.setTeam_mem (s : State) (k : Nat) (f : Team → Team) : (s.setTeam k f).mem = s.mem := rfl
@[simp] theorem State.setTeam_lines (s : State) (k : Nat) (f : Team → Team) : (s.setTeam k f).lines = s.lines := rfl
@[simp] theorem State.setTeam_slices (s : State) (k : Nat) (f : Team → Team) : (s.setTeam k f).slices = s.slices := rfl
@[simp] theorem State.setTeam_tongs (s : State) (k : Nat) (f : Team → Team) : (s.setTeam k f).tongs = s.tongs := rfl
@[simp] theorem State.setTeam_left (s : State) (k : Nat) (f : Team → Team) : (s.setTeam k f).left = s.left := rfl
@[simp] theorem State.setTeam_groups (s : State) (k : Nat) (f : Team → Team) : (s.setTeam k f).groups = s.groups := rfl
@[simp] theorem State.setTeam_cores (s : State) (k : Nat) (f : Team → Team) : (s.setTeam k f).cores = s.cores := rfl
@[simp] theorem State.setTeam_dies (s : State) (k : Nat) (f : Team → Team) : (s.setTeam k f).dies = s.dies := rfl
@[simp] theorem State.setTeam_ports (s : State) (k : Nat) (f : Team → Team) : (s.setTeam k f).ports = s.ports := rfl
@[simp] theorem State.setTeam_funcs (s : State) (k : Nat) (f : Team → Team) : (s.setTeam k f).funcs = s.funcs := rfl
@[simp] theorem State.setTeam_queues (s : State) (k : Nat) (f : Team → Team) : (s.setTeam k f).queues = s.queues := rfl
@[simp] theorem State.setTeam_stages (s : State) (k : Nat) (f : Team → Team) : (s.setTeam k f).stages = s.stages := rfl
@[simp] theorem State.setTeam_graphs (s : State) (k : Nat) (f : Team → Team) : (s.setTeam k f).graphs = s.graphs := rfl
@[simp] theorem State.setTeam_collTable (s : State) (k : Nat) (f : Team → Team) : (s.setTeam k f).collTable = s.collTable := rfl
@[simp] theorem State.setTeam_colls (s : State) (k : Nat) (f : Team → Team) : (s.setTeam k f).colls = s.colls := rfl
@[simp] theorem State.setTeam_collEarly (s : State) (k : Nat) (f : Team → Team) : (s.setTeam k f).collEarly = s.collEarly := rfl
@[simp] theorem State.setTeam_aborts (s : State) (k : Nat) (f : Team → Team) : (s.setTeam k f).aborts = s.aborts := rfl
@[simp] theorem State.setTeam_regions (s : State) (k : Nat) (f : Team → Team) : (s.setTeam k f).regions = s.regions := rfl
@[simp] theorem State.setTeam_copies (s : State) (k : Nat) (f : Team → Team) : (s.setTeam k f).copies = s.copies := rfl
@[simp] theorem State.setTeam_poolOps (s : State) (k : Nat) (f : Team → Team) : (s.setTeam k f).poolOps = s.poolOps := rfl
@[simp] theorem State.setTeam_nanns (s : State) (k : Nat) (f : Team → Team) : (s.setTeam k f).nanns = s.nanns := rfl
@[simp] theorem State.setTeam_migrations (s : State) (k : Nat) (f : Team → Team) : (s.setTeam k f).migrations = s.migrations := rfl
@[simp] theorem State.setTeam_saved (s : State) (k : Nat) (f : Team → Team) : (s.setTeam k f).saved = s.saved := rfl
@[simp] theorem State.setTeam_agenda (s : State) (k : Nat) (f : Team → Team) : (s.setTeam k f).agenda = s.agenda := rfl
@[simp] theorem State.setTeam_turns (s : State) (k : Nat) (f : Team → Team) : (s.setTeam k f).turns = s.turns := rfl
@[simp] theorem State.setTeam_refused (s : State) (k : Nat) (f : Team → Team) : (s.setTeam k f).refused = s.refused := rfl
@[simp] theorem State.setTeam_hostT (s : State) (k : Nat) (f : Team → Team) : (s.setTeam k f).hostT = s.hostT := rfl
@[simp] theorem State.setTeam_cur (s : State) (k : Nat) (f : Team → Team) : (s.setTeam k f).cur = s.cur := rfl
@[simp] theorem State.setTeam_uid (s : State) (k : Nat) (f : Team → Team) : (s.setTeam k f).uid = s.uid := rfl
@[simp] theorem State.setTeam_free (s : State) (k : Nat) (f : Team → Team) : (s.setTeam k f).free = s.free := rfl

@[simp] theorem State.setCore_clk (s : State) (k : Nat) (f : Core → Core) : (s.setCore k f).clk = s.clk := rfl
@[simp] theorem State.setCore_refc (s : State) (k : Nat) (f : Core → Core) : (s.setCore k f).refc = s.refc := rfl
@[simp] theorem State.setCore_refrem (s : State) (k : Nat) (f : Core → Core) : (s.setCore k f).refrem = s.refrem := rfl
@[simp] theorem State.setCore_dev (s : State) (k : Nat) (f : Core → Core) : (s.setCore k f).dev = s.dev := rfl
@[simp] theorem State.setCore_mem (s : State) (k : Nat) (f : Core → Core) : (s.setCore k f).mem = s.mem := rfl
@[simp] theorem State.setCore_lines (s : State) (k : Nat) (f : Core → Core) : (s.setCore k f).lines = s.lines := rfl
@[simp] theorem State.setCore_slices (s : State) (k : Nat) (f : Core → Core) : (s.setCore k f).slices = s.slices := rfl
@[simp] theorem State.setCore_tongs (s : State) (k : Nat) (f : Core → Core) : (s.setCore k f).tongs = s.tongs := rfl
@[simp] theorem State.setCore_left (s : State) (k : Nat) (f : Core → Core) : (s.setCore k f).left = s.left := rfl
@[simp] theorem State.setCore_groups (s : State) (k : Nat) (f : Core → Core) : (s.setCore k f).groups = s.groups := rfl
@[simp] theorem State.setCore_teams (s : State) (k : Nat) (f : Core → Core) : (s.setCore k f).teams = s.teams := rfl
@[simp] theorem State.setCore_dies (s : State) (k : Nat) (f : Core → Core) : (s.setCore k f).dies = s.dies := rfl
@[simp] theorem State.setCore_ports (s : State) (k : Nat) (f : Core → Core) : (s.setCore k f).ports = s.ports := rfl
@[simp] theorem State.setCore_funcs (s : State) (k : Nat) (f : Core → Core) : (s.setCore k f).funcs = s.funcs := rfl
@[simp] theorem State.setCore_queues (s : State) (k : Nat) (f : Core → Core) : (s.setCore k f).queues = s.queues := rfl
@[simp] theorem State.setCore_stages (s : State) (k : Nat) (f : Core → Core) : (s.setCore k f).stages = s.stages := rfl
@[simp] theorem State.setCore_graphs (s : State) (k : Nat) (f : Core → Core) : (s.setCore k f).graphs = s.graphs := rfl
@[simp] theorem State.setCore_collTable (s : State) (k : Nat) (f : Core → Core) : (s.setCore k f).collTable = s.collTable := rfl
@[simp] theorem State.setCore_colls (s : State) (k : Nat) (f : Core → Core) : (s.setCore k f).colls = s.colls := rfl
@[simp] theorem State.setCore_collEarly (s : State) (k : Nat) (f : Core → Core) : (s.setCore k f).collEarly = s.collEarly := rfl
@[simp] theorem State.setCore_aborts (s : State) (k : Nat) (f : Core → Core) : (s.setCore k f).aborts = s.aborts := rfl
@[simp] theorem State.setCore_regions (s : State) (k : Nat) (f : Core → Core) : (s.setCore k f).regions = s.regions := rfl
@[simp] theorem State.setCore_copies (s : State) (k : Nat) (f : Core → Core) : (s.setCore k f).copies = s.copies := rfl
@[simp] theorem State.setCore_poolOps (s : State) (k : Nat) (f : Core → Core) : (s.setCore k f).poolOps = s.poolOps := rfl
@[simp] theorem State.setCore_nanns (s : State) (k : Nat) (f : Core → Core) : (s.setCore k f).nanns = s.nanns := rfl
@[simp] theorem State.setCore_migrations (s : State) (k : Nat) (f : Core → Core) : (s.setCore k f).migrations = s.migrations := rfl
@[simp] theorem State.setCore_saved (s : State) (k : Nat) (f : Core → Core) : (s.setCore k f).saved = s.saved := rfl
@[simp] theorem State.setCore_agenda (s : State) (k : Nat) (f : Core → Core) : (s.setCore k f).agenda = s.agenda := rfl
@[simp] theorem State.setCore_turns (s : State) (k : Nat) (f : Core → Core) : (s.setCore k f).turns = s.turns := rfl
@[simp] theorem State.setCore_refused (s : State) (k : Nat) (f : Core → Core) : (s.setCore k f).refused = s.refused := rfl
@[simp] theorem State.setCore_hostT (s : State) (k : Nat) (f : Core → Core) : (s.setCore k f).hostT = s.hostT := rfl
@[simp] theorem State.setCore_cur (s : State) (k : Nat) (f : Core → Core) : (s.setCore k f).cur = s.cur := rfl
@[simp] theorem State.setCore_uid (s : State) (k : Nat) (f : Core → Core) : (s.setCore k f).uid = s.uid := rfl
@[simp] theorem State.setCore_free (s : State) (k : Nat) (f : Core → Core) : (s.setCore k f).free = s.free := rfl

@[simp] theorem State.setDie_clk (s : State) (k : Nat) (f : Die → Die) : (s.setDie k f).clk = s.clk := rfl
@[simp] theorem State.setDie_refc (s : State) (k : Nat) (f : Die → Die) : (s.setDie k f).refc = s.refc := rfl
@[simp] theorem State.setDie_refrem (s : State) (k : Nat) (f : Die → Die) : (s.setDie k f).refrem = s.refrem := rfl
@[simp] theorem State.setDie_dev (s : State) (k : Nat) (f : Die → Die) : (s.setDie k f).dev = s.dev := rfl
@[simp] theorem State.setDie_mem (s : State) (k : Nat) (f : Die → Die) : (s.setDie k f).mem = s.mem := rfl
@[simp] theorem State.setDie_lines (s : State) (k : Nat) (f : Die → Die) : (s.setDie k f).lines = s.lines := rfl
@[simp] theorem State.setDie_slices (s : State) (k : Nat) (f : Die → Die) : (s.setDie k f).slices = s.slices := rfl
@[simp] theorem State.setDie_tongs (s : State) (k : Nat) (f : Die → Die) : (s.setDie k f).tongs = s.tongs := rfl
@[simp] theorem State.setDie_left (s : State) (k : Nat) (f : Die → Die) : (s.setDie k f).left = s.left := rfl
@[simp] theorem State.setDie_groups (s : State) (k : Nat) (f : Die → Die) : (s.setDie k f).groups = s.groups := rfl
@[simp] theorem State.setDie_teams (s : State) (k : Nat) (f : Die → Die) : (s.setDie k f).teams = s.teams := rfl
@[simp] theorem State.setDie_cores (s : State) (k : Nat) (f : Die → Die) : (s.setDie k f).cores = s.cores := rfl
@[simp] theorem State.setDie_ports (s : State) (k : Nat) (f : Die → Die) : (s.setDie k f).ports = s.ports := rfl
@[simp] theorem State.setDie_funcs (s : State) (k : Nat) (f : Die → Die) : (s.setDie k f).funcs = s.funcs := rfl
@[simp] theorem State.setDie_queues (s : State) (k : Nat) (f : Die → Die) : (s.setDie k f).queues = s.queues := rfl
@[simp] theorem State.setDie_stages (s : State) (k : Nat) (f : Die → Die) : (s.setDie k f).stages = s.stages := rfl
@[simp] theorem State.setDie_graphs (s : State) (k : Nat) (f : Die → Die) : (s.setDie k f).graphs = s.graphs := rfl
@[simp] theorem State.setDie_collTable (s : State) (k : Nat) (f : Die → Die) : (s.setDie k f).collTable = s.collTable := rfl
@[simp] theorem State.setDie_colls (s : State) (k : Nat) (f : Die → Die) : (s.setDie k f).colls = s.colls := rfl
@[simp] theorem State.setDie_collEarly (s : State) (k : Nat) (f : Die → Die) : (s.setDie k f).collEarly = s.collEarly := rfl
@[simp] theorem State.setDie_aborts (s : State) (k : Nat) (f : Die → Die) : (s.setDie k f).aborts = s.aborts := rfl
@[simp] theorem State.setDie_regions (s : State) (k : Nat) (f : Die → Die) : (s.setDie k f).regions = s.regions := rfl
@[simp] theorem State.setDie_copies (s : State) (k : Nat) (f : Die → Die) : (s.setDie k f).copies = s.copies := rfl
@[simp] theorem State.setDie_poolOps (s : State) (k : Nat) (f : Die → Die) : (s.setDie k f).poolOps = s.poolOps := rfl
@[simp] theorem State.setDie_nanns (s : State) (k : Nat) (f : Die → Die) : (s.setDie k f).nanns = s.nanns := rfl
@[simp] theorem State.setDie_migrations (s : State) (k : Nat) (f : Die → Die) : (s.setDie k f).migrations = s.migrations := rfl
@[simp] theorem State.setDie_saved (s : State) (k : Nat) (f : Die → Die) : (s.setDie k f).saved = s.saved := rfl
@[simp] theorem State.setDie_agenda (s : State) (k : Nat) (f : Die → Die) : (s.setDie k f).agenda = s.agenda := rfl
@[simp] theorem State.setDie_turns (s : State) (k : Nat) (f : Die → Die) : (s.setDie k f).turns = s.turns := rfl
@[simp] theorem State.setDie_refused (s : State) (k : Nat) (f : Die → Die) : (s.setDie k f).refused = s.refused := rfl
@[simp] theorem State.setDie_hostT (s : State) (k : Nat) (f : Die → Die) : (s.setDie k f).hostT = s.hostT := rfl
@[simp] theorem State.setDie_cur (s : State) (k : Nat) (f : Die → Die) : (s.setDie k f).cur = s.cur := rfl
@[simp] theorem State.setDie_uid (s : State) (k : Nat) (f : Die → Die) : (s.setDie k f).uid = s.uid := rfl
@[simp] theorem State.setDie_free (s : State) (k : Nat) (f : Die → Die) : (s.setDie k f).free = s.free := rfl

@[simp] theorem State.setPort_clk (s : State) (k : Nat) (f : Port → Port) : (s.setPort k f).clk = s.clk := rfl
@[simp] theorem State.setPort_refc (s : State) (k : Nat) (f : Port → Port) : (s.setPort k f).refc = s.refc := rfl
@[simp] theorem State.setPort_refrem (s : State) (k : Nat) (f : Port → Port) : (s.setPort k f).refrem = s.refrem := rfl
@[simp] theorem State.setPort_dev (s : State) (k : Nat) (f : Port → Port) : (s.setPort k f).dev = s.dev := rfl
@[simp] theorem State.setPort_mem (s : State) (k : Nat) (f : Port → Port) : (s.setPort k f).mem = s.mem := rfl
@[simp] theorem State.setPort_lines (s : State) (k : Nat) (f : Port → Port) : (s.setPort k f).lines = s.lines := rfl
@[simp] theorem State.setPort_slices (s : State) (k : Nat) (f : Port → Port) : (s.setPort k f).slices = s.slices := rfl
@[simp] theorem State.setPort_tongs (s : State) (k : Nat) (f : Port → Port) : (s.setPort k f).tongs = s.tongs := rfl
@[simp] theorem State.setPort_left (s : State) (k : Nat) (f : Port → Port) : (s.setPort k f).left = s.left := rfl
@[simp] theorem State.setPort_groups (s : State) (k : Nat) (f : Port → Port) : (s.setPort k f).groups = s.groups := rfl
@[simp] theorem State.setPort_teams (s : State) (k : Nat) (f : Port → Port) : (s.setPort k f).teams = s.teams := rfl
@[simp] theorem State.setPort_cores (s : State) (k : Nat) (f : Port → Port) : (s.setPort k f).cores = s.cores := rfl
@[simp] theorem State.setPort_dies (s : State) (k : Nat) (f : Port → Port) : (s.setPort k f).dies = s.dies := rfl
@[simp] theorem State.setPort_funcs (s : State) (k : Nat) (f : Port → Port) : (s.setPort k f).funcs = s.funcs := rfl
@[simp] theorem State.setPort_queues (s : State) (k : Nat) (f : Port → Port) : (s.setPort k f).queues = s.queues := rfl
@[simp] theorem State.setPort_stages (s : State) (k : Nat) (f : Port → Port) : (s.setPort k f).stages = s.stages := rfl
@[simp] theorem State.setPort_graphs (s : State) (k : Nat) (f : Port → Port) : (s.setPort k f).graphs = s.graphs := rfl
@[simp] theorem State.setPort_collTable (s : State) (k : Nat) (f : Port → Port) : (s.setPort k f).collTable = s.collTable := rfl
@[simp] theorem State.setPort_colls (s : State) (k : Nat) (f : Port → Port) : (s.setPort k f).colls = s.colls := rfl
@[simp] theorem State.setPort_collEarly (s : State) (k : Nat) (f : Port → Port) : (s.setPort k f).collEarly = s.collEarly := rfl
@[simp] theorem State.setPort_aborts (s : State) (k : Nat) (f : Port → Port) : (s.setPort k f).aborts = s.aborts := rfl
@[simp] theorem State.setPort_regions (s : State) (k : Nat) (f : Port → Port) : (s.setPort k f).regions = s.regions := rfl
@[simp] theorem State.setPort_copies (s : State) (k : Nat) (f : Port → Port) : (s.setPort k f).copies = s.copies := rfl
@[simp] theorem State.setPort_poolOps (s : State) (k : Nat) (f : Port → Port) : (s.setPort k f).poolOps = s.poolOps := rfl
@[simp] theorem State.setPort_nanns (s : State) (k : Nat) (f : Port → Port) : (s.setPort k f).nanns = s.nanns := rfl
@[simp] theorem State.setPort_migrations (s : State) (k : Nat) (f : Port → Port) : (s.setPort k f).migrations = s.migrations := rfl
@[simp] theorem State.setPort_saved (s : State) (k : Nat) (f : Port → Port) : (s.setPort k f).saved = s.saved := rfl
@[simp] theorem State.setPort_agenda (s : State) (k : Nat) (f : Port → Port) : (s.setPort k f).agenda = s.agenda := rfl
@[simp] theorem State.setPort_turns (s : State) (k : Nat) (f : Port → Port) : (s.setPort k f).turns = s.turns := rfl
@[simp] theorem State.setPort_refused (s : State) (k : Nat) (f : Port → Port) : (s.setPort k f).refused = s.refused := rfl
@[simp] theorem State.setPort_hostT (s : State) (k : Nat) (f : Port → Port) : (s.setPort k f).hostT = s.hostT := rfl
@[simp] theorem State.setPort_cur (s : State) (k : Nat) (f : Port → Port) : (s.setPort k f).cur = s.cur := rfl
@[simp] theorem State.setPort_uid (s : State) (k : Nat) (f : Port → Port) : (s.setPort k f).uid = s.uid := rfl
@[simp] theorem State.setPort_free (s : State) (k : Nat) (f : Port → Port) : (s.setPort k f).free = s.free := rfl

@[simp] theorem State.setFunc_clk (s : State) (k : Nat) (f : Func → Func) : (s.setFunc k f).clk = s.clk := rfl
@[simp] theorem State.setFunc_refc (s : State) (k : Nat) (f : Func → Func) : (s.setFunc k f).refc = s.refc := rfl
@[simp] theorem State.setFunc_refrem (s : State) (k : Nat) (f : Func → Func) : (s.setFunc k f).refrem = s.refrem := rfl
@[simp] theorem State.setFunc_dev (s : State) (k : Nat) (f : Func → Func) : (s.setFunc k f).dev = s.dev := rfl
@[simp] theorem State.setFunc_mem (s : State) (k : Nat) (f : Func → Func) : (s.setFunc k f).mem = s.mem := rfl
@[simp] theorem State.setFunc_lines (s : State) (k : Nat) (f : Func → Func) : (s.setFunc k f).lines = s.lines := rfl
@[simp] theorem State.setFunc_slices (s : State) (k : Nat) (f : Func → Func) : (s.setFunc k f).slices = s.slices := rfl
@[simp] theorem State.setFunc_tongs (s : State) (k : Nat) (f : Func → Func) : (s.setFunc k f).tongs = s.tongs := rfl
@[simp] theorem State.setFunc_left (s : State) (k : Nat) (f : Func → Func) : (s.setFunc k f).left = s.left := rfl
@[simp] theorem State.setFunc_groups (s : State) (k : Nat) (f : Func → Func) : (s.setFunc k f).groups = s.groups := rfl
@[simp] theorem State.setFunc_teams (s : State) (k : Nat) (f : Func → Func) : (s.setFunc k f).teams = s.teams := rfl
@[simp] theorem State.setFunc_cores (s : State) (k : Nat) (f : Func → Func) : (s.setFunc k f).cores = s.cores := rfl
@[simp] theorem State.setFunc_dies (s : State) (k : Nat) (f : Func → Func) : (s.setFunc k f).dies = s.dies := rfl
@[simp] theorem State.setFunc_ports (s : State) (k : Nat) (f : Func → Func) : (s.setFunc k f).ports = s.ports := rfl
@[simp] theorem State.setFunc_queues (s : State) (k : Nat) (f : Func → Func) : (s.setFunc k f).queues = s.queues := rfl
@[simp] theorem State.setFunc_stages (s : State) (k : Nat) (f : Func → Func) : (s.setFunc k f).stages = s.stages := rfl
@[simp] theorem State.setFunc_graphs (s : State) (k : Nat) (f : Func → Func) : (s.setFunc k f).graphs = s.graphs := rfl
@[simp] theorem State.setFunc_collTable (s : State) (k : Nat) (f : Func → Func) : (s.setFunc k f).collTable = s.collTable := rfl
@[simp] theorem State.setFunc_colls (s : State) (k : Nat) (f : Func → Func) : (s.setFunc k f).colls = s.colls := rfl
@[simp] theorem State.setFunc_collEarly (s : State) (k : Nat) (f : Func → Func) : (s.setFunc k f).collEarly = s.collEarly := rfl
@[simp] theorem State.setFunc_aborts (s : State) (k : Nat) (f : Func → Func) : (s.setFunc k f).aborts = s.aborts := rfl
@[simp] theorem State.setFunc_regions (s : State) (k : Nat) (f : Func → Func) : (s.setFunc k f).regions = s.regions := rfl
@[simp] theorem State.setFunc_copies (s : State) (k : Nat) (f : Func → Func) : (s.setFunc k f).copies = s.copies := rfl
@[simp] theorem State.setFunc_poolOps (s : State) (k : Nat) (f : Func → Func) : (s.setFunc k f).poolOps = s.poolOps := rfl
@[simp] theorem State.setFunc_nanns (s : State) (k : Nat) (f : Func → Func) : (s.setFunc k f).nanns = s.nanns := rfl
@[simp] theorem State.setFunc_migrations (s : State) (k : Nat) (f : Func → Func) : (s.setFunc k f).migrations = s.migrations := rfl
@[simp] theorem State.setFunc_saved (s : State) (k : Nat) (f : Func → Func) : (s.setFunc k f).saved = s.saved := rfl
@[simp] theorem State.setFunc_agenda (s : State) (k : Nat) (f : Func → Func) : (s.setFunc k f).agenda = s.agenda := rfl
@[simp] theorem State.setFunc_turns (s : State) (k : Nat) (f : Func → Func) : (s.setFunc k f).turns = s.turns := rfl
@[simp] theorem State.setFunc_refused (s : State) (k : Nat) (f : Func → Func) : (s.setFunc k f).refused = s.refused := rfl
@[simp] theorem State.setFunc_hostT (s : State) (k : Nat) (f : Func → Func) : (s.setFunc k f).hostT = s.hostT := rfl
@[simp] theorem State.setFunc_cur (s : State) (k : Nat) (f : Func → Func) : (s.setFunc k f).cur = s.cur := rfl
@[simp] theorem State.setFunc_uid (s : State) (k : Nat) (f : Func → Func) : (s.setFunc k f).uid = s.uid := rfl
@[simp] theorem State.setFunc_free (s : State) (k : Nat) (f : Func → Func) : (s.setFunc k f).free = s.free := rfl

@[simp] theorem State.setSlice_clk (s : State) (k : Nat) (f : Slice → Slice) : (s.setSlice k f).clk = s.clk := rfl
@[simp] theorem State.setSlice_refc (s : State) (k : Nat) (f : Slice → Slice) : (s.setSlice k f).refc = s.refc := rfl
@[simp] theorem State.setSlice_refrem (s : State) (k : Nat) (f : Slice → Slice) : (s.setSlice k f).refrem = s.refrem := rfl
@[simp] theorem State.setSlice_dev (s : State) (k : Nat) (f : Slice → Slice) : (s.setSlice k f).dev = s.dev := rfl
@[simp] theorem State.setSlice_mem (s : State) (k : Nat) (f : Slice → Slice) : (s.setSlice k f).mem = s.mem := rfl
@[simp] theorem State.setSlice_lines (s : State) (k : Nat) (f : Slice → Slice) : (s.setSlice k f).lines = s.lines := rfl
@[simp] theorem State.setSlice_tongs (s : State) (k : Nat) (f : Slice → Slice) : (s.setSlice k f).tongs = s.tongs := rfl
@[simp] theorem State.setSlice_left (s : State) (k : Nat) (f : Slice → Slice) : (s.setSlice k f).left = s.left := rfl
@[simp] theorem State.setSlice_groups (s : State) (k : Nat) (f : Slice → Slice) : (s.setSlice k f).groups = s.groups := rfl
@[simp] theorem State.setSlice_teams (s : State) (k : Nat) (f : Slice → Slice) : (s.setSlice k f).teams = s.teams := rfl
@[simp] theorem State.setSlice_cores (s : State) (k : Nat) (f : Slice → Slice) : (s.setSlice k f).cores = s.cores := rfl
@[simp] theorem State.setSlice_dies (s : State) (k : Nat) (f : Slice → Slice) : (s.setSlice k f).dies = s.dies := rfl
@[simp] theorem State.setSlice_ports (s : State) (k : Nat) (f : Slice → Slice) : (s.setSlice k f).ports = s.ports := rfl
@[simp] theorem State.setSlice_funcs (s : State) (k : Nat) (f : Slice → Slice) : (s.setSlice k f).funcs = s.funcs := rfl
@[simp] theorem State.setSlice_queues (s : State) (k : Nat) (f : Slice → Slice) : (s.setSlice k f).queues = s.queues := rfl
@[simp] theorem State.setSlice_stages (s : State) (k : Nat) (f : Slice → Slice) : (s.setSlice k f).stages = s.stages := rfl
@[simp] theorem State.setSlice_graphs (s : State) (k : Nat) (f : Slice → Slice) : (s.setSlice k f).graphs = s.graphs := rfl
@[simp] theorem State.setSlice_collTable (s : State) (k : Nat) (f : Slice → Slice) : (s.setSlice k f).collTable = s.collTable := rfl
@[simp] theorem State.setSlice_colls (s : State) (k : Nat) (f : Slice → Slice) : (s.setSlice k f).colls = s.colls := rfl
@[simp] theorem State.setSlice_collEarly (s : State) (k : Nat) (f : Slice → Slice) : (s.setSlice k f).collEarly = s.collEarly := rfl
@[simp] theorem State.setSlice_aborts (s : State) (k : Nat) (f : Slice → Slice) : (s.setSlice k f).aborts = s.aborts := rfl
@[simp] theorem State.setSlice_regions (s : State) (k : Nat) (f : Slice → Slice) : (s.setSlice k f).regions = s.regions := rfl
@[simp] theorem State.setSlice_copies (s : State) (k : Nat) (f : Slice → Slice) : (s.setSlice k f).copies = s.copies := rfl
@[simp] theorem State.setSlice_poolOps (s : State) (k : Nat) (f : Slice → Slice) : (s.setSlice k f).poolOps = s.poolOps := rfl
@[simp] theorem State.setSlice_nanns (s : State) (k : Nat) (f : Slice → Slice) : (s.setSlice k f).nanns = s.nanns := rfl
@[simp] theorem State.setSlice_migrations (s : State) (k : Nat) (f : Slice → Slice) : (s.setSlice k f).migrations = s.migrations := rfl
@[simp] theorem State.setSlice_saved (s : State) (k : Nat) (f : Slice → Slice) : (s.setSlice k f).saved = s.saved := rfl
@[simp] theorem State.setSlice_agenda (s : State) (k : Nat) (f : Slice → Slice) : (s.setSlice k f).agenda = s.agenda := rfl
@[simp] theorem State.setSlice_turns (s : State) (k : Nat) (f : Slice → Slice) : (s.setSlice k f).turns = s.turns := rfl
@[simp] theorem State.setSlice_refused (s : State) (k : Nat) (f : Slice → Slice) : (s.setSlice k f).refused = s.refused := rfl
@[simp] theorem State.setSlice_hostT (s : State) (k : Nat) (f : Slice → Slice) : (s.setSlice k f).hostT = s.hostT := rfl
@[simp] theorem State.setSlice_cur (s : State) (k : Nat) (f : Slice → Slice) : (s.setSlice k f).cur = s.cur := rfl
@[simp] theorem State.setSlice_uid (s : State) (k : Nat) (f : Slice → Slice) : (s.setSlice k f).uid = s.uid := rfl
@[simp] theorem State.setSlice_free (s : State) (k : Nat) (f : Slice → Slice) : (s.setSlice k f).free = s.free := rfl

@[simp] theorem State.setLine_clk (s : State) (k : Nat) (f : Line → Line) : (s.setLine k f).clk = s.clk := rfl
@[simp] theorem State.setLine_refc (s : State) (k : Nat) (f : Line → Line) : (s.setLine k f).refc = s.refc := rfl
@[simp] theorem State.setLine_refrem (s : State) (k : Nat) (f : Line → Line) : (s.setLine k f).refrem = s.refrem := rfl
@[simp] theorem State.setLine_dev (s : State) (k : Nat) (f : Line → Line) : (s.setLine k f).dev = s.dev := rfl
@[simp] theorem State.setLine_mem (s : State) (k : Nat) (f : Line → Line) : (s.setLine k f).mem = s.mem := rfl
@[simp] theorem State.setLine_slices (s : State) (k : Nat) (f : Line → Line) : (s.setLine k f).slices = s.slices := rfl
@[simp] theorem State.setLine_tongs (s : State) (k : Nat) (f : Line → Line) : (s.setLine k f).tongs = s.tongs := rfl
@[simp] theorem State.setLine_left (s : State) (k : Nat) (f : Line → Line) : (s.setLine k f).left = s.left := rfl
@[simp] theorem State.setLine_groups (s : State) (k : Nat) (f : Line → Line) : (s.setLine k f).groups = s.groups := rfl
@[simp] theorem State.setLine_teams (s : State) (k : Nat) (f : Line → Line) : (s.setLine k f).teams = s.teams := rfl
@[simp] theorem State.setLine_cores (s : State) (k : Nat) (f : Line → Line) : (s.setLine k f).cores = s.cores := rfl
@[simp] theorem State.setLine_dies (s : State) (k : Nat) (f : Line → Line) : (s.setLine k f).dies = s.dies := rfl
@[simp] theorem State.setLine_ports (s : State) (k : Nat) (f : Line → Line) : (s.setLine k f).ports = s.ports := rfl
@[simp] theorem State.setLine_funcs (s : State) (k : Nat) (f : Line → Line) : (s.setLine k f).funcs = s.funcs := rfl
@[simp] theorem State.setLine_queues (s : State) (k : Nat) (f : Line → Line) : (s.setLine k f).queues = s.queues := rfl
@[simp] theorem State.setLine_stages (s : State) (k : Nat) (f : Line → Line) : (s.setLine k f).stages = s.stages := rfl
@[simp] theorem State.setLine_graphs (s : State) (k : Nat) (f : Line → Line) : (s.setLine k f).graphs = s.graphs := rfl
@[simp] theorem State.setLine_collTable (s : State) (k : Nat) (f : Line → Line) : (s.setLine k f).collTable = s.collTable := rfl
@[simp] theorem State.setLine_colls (s : State) (k : Nat) (f : Line → Line) : (s.setLine k f).colls = s.colls := rfl
@[simp] theorem State.setLine_collEarly (s : State) (k : Nat) (f : Line → Line) : (s.setLine k f).collEarly = s.collEarly := rfl
@[simp] theorem State.setLine_aborts (s : State) (k : Nat) (f : Line → Line) : (s.setLine k f).aborts = s.aborts := rfl
@[simp] theorem State.setLine_regions (s : State) (k : Nat) (f : Line → Line) : (s.setLine k f).regions = s.regions := rfl
@[simp] theorem State.setLine_copies (s : State) (k : Nat) (f : Line → Line) : (s.setLine k f).copies = s.copies := rfl
@[simp] theorem State.setLine_poolOps (s : State) (k : Nat) (f : Line → Line) : (s.setLine k f).poolOps = s.poolOps := rfl
@[simp] theorem State.setLine_nanns (s : State) (k : Nat) (f : Line → Line) : (s.setLine k f).nanns = s.nanns := rfl
@[simp] theorem State.setLine_migrations (s : State) (k : Nat) (f : Line → Line) : (s.setLine k f).migrations = s.migrations := rfl
@[simp] theorem State.setLine_saved (s : State) (k : Nat) (f : Line → Line) : (s.setLine k f).saved = s.saved := rfl
@[simp] theorem State.setLine_agenda (s : State) (k : Nat) (f : Line → Line) : (s.setLine k f).agenda = s.agenda := rfl
@[simp] theorem State.setLine_turns (s : State) (k : Nat) (f : Line → Line) : (s.setLine k f).turns = s.turns := rfl
@[simp] theorem State.setLine_refused (s : State) (k : Nat) (f : Line → Line) : (s.setLine k f).refused = s.refused := rfl
@[simp] theorem State.setLine_hostT (s : State) (k : Nat) (f : Line → Line) : (s.setLine k f).hostT = s.hostT := rfl
@[simp] theorem State.setLine_cur (s : State) (k : Nat) (f : Line → Line) : (s.setLine k f).cur = s.cur := rfl
@[simp] theorem State.setLine_uid (s : State) (k : Nat) (f : Line → Line) : (s.setLine k f).uid = s.uid := rfl
@[simp] theorem State.setLine_free (s : State) (k : Nat) (f : Line → Line) : (s.setLine k f).free = s.free := rfl

@[simp] theorem State.setQueue_clk (s : State) (k : Nat) (f : Queue → Queue) : (s.setQueue k f).clk = s.clk := rfl
@[simp] theorem State.setQueue_refc (s : State) (k : Nat) (f : Queue → Queue) : (s.setQueue k f).refc = s.refc := rfl
@[simp] theorem State.setQueue_refrem (s : State) (k : Nat) (f : Queue → Queue) : (s.setQueue k f).refrem = s.refrem := rfl
@[simp] theorem State.setQueue_dev (s : State) (k : Nat) (f : Queue → Queue) : (s.setQueue k f).dev = s.dev := rfl
@[simp] theorem State.setQueue_mem (s : State) (k : Nat) (f : Queue → Queue) : (s.setQueue k f).mem = s.mem := rfl
@[simp] theorem State.setQueue_lines (s : State) (k : Nat) (f : Queue → Queue) : (s.setQueue k f).lines = s.lines := rfl
@[simp] theorem State.setQueue_slices (s : State) (k : Nat) (f : Queue → Queue) : (s.setQueue k f).slices = s.slices := rfl
@[simp] theorem State.setQueue_tongs (s : State) (k : Nat) (f : Queue → Queue) : (s.setQueue k f).tongs = s.tongs := rfl
@[simp] theorem State.setQueue_left (s : State) (k : Nat) (f : Queue → Queue) : (s.setQueue k f).left = s.left := rfl
@[simp] theorem State.setQueue_groups (s : State) (k : Nat) (f : Queue → Queue) : (s.setQueue k f).groups = s.groups := rfl
@[simp] theorem State.setQueue_teams (s : State) (k : Nat) (f : Queue → Queue) : (s.setQueue k f).teams = s.teams := rfl
@[simp] theorem State.setQueue_cores (s : State) (k : Nat) (f : Queue → Queue) : (s.setQueue k f).cores = s.cores := rfl
@[simp] theorem State.setQueue_dies (s : State) (k : Nat) (f : Queue → Queue) : (s.setQueue k f).dies = s.dies := rfl
@[simp] theorem State.setQueue_ports (s : State) (k : Nat) (f : Queue → Queue) : (s.setQueue k f).ports = s.ports := rfl
@[simp] theorem State.setQueue_funcs (s : State) (k : Nat) (f : Queue → Queue) : (s.setQueue k f).funcs = s.funcs := rfl
@[simp] theorem State.setQueue_stages (s : State) (k : Nat) (f : Queue → Queue) : (s.setQueue k f).stages = s.stages := rfl
@[simp] theorem State.setQueue_graphs (s : State) (k : Nat) (f : Queue → Queue) : (s.setQueue k f).graphs = s.graphs := rfl
@[simp] theorem State.setQueue_collTable (s : State) (k : Nat) (f : Queue → Queue) : (s.setQueue k f).collTable = s.collTable := rfl
@[simp] theorem State.setQueue_colls (s : State) (k : Nat) (f : Queue → Queue) : (s.setQueue k f).colls = s.colls := rfl
@[simp] theorem State.setQueue_collEarly (s : State) (k : Nat) (f : Queue → Queue) : (s.setQueue k f).collEarly = s.collEarly := rfl
@[simp] theorem State.setQueue_aborts (s : State) (k : Nat) (f : Queue → Queue) : (s.setQueue k f).aborts = s.aborts := rfl
@[simp] theorem State.setQueue_regions (s : State) (k : Nat) (f : Queue → Queue) : (s.setQueue k f).regions = s.regions := rfl
@[simp] theorem State.setQueue_copies (s : State) (k : Nat) (f : Queue → Queue) : (s.setQueue k f).copies = s.copies := rfl
@[simp] theorem State.setQueue_poolOps (s : State) (k : Nat) (f : Queue → Queue) : (s.setQueue k f).poolOps = s.poolOps := rfl
@[simp] theorem State.setQueue_nanns (s : State) (k : Nat) (f : Queue → Queue) : (s.setQueue k f).nanns = s.nanns := rfl
@[simp] theorem State.setQueue_migrations (s : State) (k : Nat) (f : Queue → Queue) : (s.setQueue k f).migrations = s.migrations := rfl
@[simp] theorem State.setQueue_saved (s : State) (k : Nat) (f : Queue → Queue) : (s.setQueue k f).saved = s.saved := rfl
@[simp] theorem State.setQueue_agenda (s : State) (k : Nat) (f : Queue → Queue) : (s.setQueue k f).agenda = s.agenda := rfl
@[simp] theorem State.setQueue_turns (s : State) (k : Nat) (f : Queue → Queue) : (s.setQueue k f).turns = s.turns := rfl
@[simp] theorem State.setQueue_refused (s : State) (k : Nat) (f : Queue → Queue) : (s.setQueue k f).refused = s.refused := rfl
@[simp] theorem State.setQueue_hostT (s : State) (k : Nat) (f : Queue → Queue) : (s.setQueue k f).hostT = s.hostT := rfl
@[simp] theorem State.setQueue_cur (s : State) (k : Nat) (f : Queue → Queue) : (s.setQueue k f).cur = s.cur := rfl
@[simp] theorem State.setQueue_uid (s : State) (k : Nat) (f : Queue → Queue) : (s.setQueue k f).uid = s.uid := rfl
@[simp] theorem State.setQueue_free (s : State) (k : Nat) (f : Queue → Queue) : (s.setQueue k f).free = s.free := rfl

@[simp] theorem State.setDev_clk (s : State) (f : Device → Device) : (s.setDev f).clk = s.clk := rfl
@[simp] theorem State.setDev_refc (s : State) (f : Device → Device) : (s.setDev f).refc = s.refc := rfl
@[simp] theorem State.setDev_refrem (s : State) (f : Device → Device) : (s.setDev f).refrem = s.refrem := rfl
@[simp] theorem State.setDev_mem (s : State) (f : Device → Device) : (s.setDev f).mem = s.mem := rfl
@[simp] theorem State.setDev_lines (s : State) (f : Device → Device) : (s.setDev f).lines = s.lines := rfl
@[simp] theorem State.setDev_slices (s : State) (f : Device → Device) : (s.setDev f).slices = s.slices := rfl
@[simp] theorem State.setDev_tongs (s : State) (f : Device → Device) : (s.setDev f).tongs = s.tongs := rfl
@[simp] theorem State.setDev_left (s : State) (f : Device → Device) : (s.setDev f).left = s.left := rfl
@[simp] theorem State.setDev_groups (s : State) (f : Device → Device) : (s.setDev f).groups = s.groups := rfl
@[simp] theorem State.setDev_teams (s : State) (f : Device → Device) : (s.setDev f).teams = s.teams := rfl
@[simp] theorem State.setDev_cores (s : State) (f : Device → Device) : (s.setDev f).cores = s.cores := rfl
@[simp] theorem State.setDev_dies (s : State) (f : Device → Device) : (s.setDev f).dies = s.dies := rfl
@[simp] theorem State.setDev_ports (s : State) (f : Device → Device) : (s.setDev f).ports = s.ports := rfl
@[simp] theorem State.setDev_funcs (s : State) (f : Device → Device) : (s.setDev f).funcs = s.funcs := rfl
@[simp] theorem State.setDev_queues (s : State) (f : Device → Device) : (s.setDev f).queues = s.queues := rfl
@[simp] theorem State.setDev_stages (s : State) (f : Device → Device) : (s.setDev f).stages = s.stages := rfl
@[simp] theorem State.setDev_graphs (s : State) (f : Device → Device) : (s.setDev f).graphs = s.graphs := rfl
@[simp] theorem State.setDev_collTable (s : State) (f : Device → Device) : (s.setDev f).collTable = s.collTable := rfl
@[simp] theorem State.setDev_colls (s : State) (f : Device → Device) : (s.setDev f).colls = s.colls := rfl
@[simp] theorem State.setDev_collEarly (s : State) (f : Device → Device) : (s.setDev f).collEarly = s.collEarly := rfl
@[simp] theorem State.setDev_aborts (s : State) (f : Device → Device) : (s.setDev f).aborts = s.aborts := rfl
@[simp] theorem State.setDev_regions (s : State) (f : Device → Device) : (s.setDev f).regions = s.regions := rfl
@[simp] theorem State.setDev_copies (s : State) (f : Device → Device) : (s.setDev f).copies = s.copies := rfl
@[simp] theorem State.setDev_poolOps (s : State) (f : Device → Device) : (s.setDev f).poolOps = s.poolOps := rfl
@[simp] theorem State.setDev_nanns (s : State) (f : Device → Device) : (s.setDev f).nanns = s.nanns := rfl
@[simp] theorem State.setDev_migrations (s : State) (f : Device → Device) : (s.setDev f).migrations = s.migrations := rfl
@[simp] theorem State.setDev_saved (s : State) (f : Device → Device) : (s.setDev f).saved = s.saved := rfl
@[simp] theorem State.setDev_agenda (s : State) (f : Device → Device) : (s.setDev f).agenda = s.agenda := rfl
@[simp] theorem State.setDev_turns (s : State) (f : Device → Device) : (s.setDev f).turns = s.turns := rfl
@[simp] theorem State.setDev_refused (s : State) (f : Device → Device) : (s.setDev f).refused = s.refused := rfl
@[simp] theorem State.setDev_hostT (s : State) (f : Device → Device) : (s.setDev f).hostT = s.hostT := rfl
@[simp] theorem State.setDev_cur (s : State) (f : Device → Device) : (s.setDev f).cur = s.cur := rfl
@[simp] theorem State.setDev_uid (s : State) (f : Device → Device) : (s.setDev f).uid = s.uid := rfl
@[simp] theorem State.setDev_free (s : State) (f : Device → Device) : (s.setDev f).free = s.free := rfl

@[simp] theorem State.post_clk (s : State) (e : Event) : (s.post e).clk = s.clk := rfl
@[simp] theorem State.post_refc (s : State) (e : Event) : (s.post e).refc = s.refc := rfl
@[simp] theorem State.post_refrem (s : State) (e : Event) : (s.post e).refrem = s.refrem := rfl
@[simp] theorem State.post_dev (s : State) (e : Event) : (s.post e).dev = s.dev := rfl
@[simp] theorem State.post_mem (s : State) (e : Event) : (s.post e).mem = s.mem := rfl
@[simp] theorem State.post_lines (s : State) (e : Event) : (s.post e).lines = s.lines := rfl
@[simp] theorem State.post_slices (s : State) (e : Event) : (s.post e).slices = s.slices := rfl
@[simp] theorem State.post_tongs (s : State) (e : Event) : (s.post e).tongs = s.tongs := rfl
@[simp] theorem State.post_left (s : State) (e : Event) : (s.post e).left = s.left := rfl
@[simp] theorem State.post_groups (s : State) (e : Event) : (s.post e).groups = s.groups := rfl
@[simp] theorem State.post_teams (s : State) (e : Event) : (s.post e).teams = s.teams := rfl
@[simp] theorem State.post_cores (s : State) (e : Event) : (s.post e).cores = s.cores := rfl
@[simp] theorem State.post_dies (s : State) (e : Event) : (s.post e).dies = s.dies := rfl
@[simp] theorem State.post_ports (s : State) (e : Event) : (s.post e).ports = s.ports := rfl
@[simp] theorem State.post_funcs (s : State) (e : Event) : (s.post e).funcs = s.funcs := rfl
@[simp] theorem State.post_queues (s : State) (e : Event) : (s.post e).queues = s.queues := rfl
@[simp] theorem State.post_stages (s : State) (e : Event) : (s.post e).stages = s.stages := rfl
@[simp] theorem State.post_graphs (s : State) (e : Event) : (s.post e).graphs = s.graphs := rfl
@[simp] theorem State.post_collTable (s : State) (e : Event) : (s.post e).collTable = s.collTable := rfl
@[simp] theorem State.post_colls (s : State) (e : Event) : (s.post e).colls = s.colls := rfl
@[simp] theorem State.post_collEarly (s : State) (e : Event) : (s.post e).collEarly = s.collEarly := rfl
@[simp] theorem State.post_aborts (s : State) (e : Event) : (s.post e).aborts = s.aborts := rfl
@[simp] theorem State.post_regions (s : State) (e : Event) : (s.post e).regions = s.regions := rfl
@[simp] theorem State.post_copies (s : State) (e : Event) : (s.post e).copies = s.copies := rfl
@[simp] theorem State.post_poolOps (s : State) (e : Event) : (s.post e).poolOps = s.poolOps := rfl
@[simp] theorem State.post_nanns (s : State) (e : Event) : (s.post e).nanns = s.nanns := rfl
@[simp] theorem State.post_migrations (s : State) (e : Event) : (s.post e).migrations = s.migrations := rfl
@[simp] theorem State.post_saved (s : State) (e : Event) : (s.post e).saved = s.saved := rfl
@[simp] theorem State.post_turns (s : State) (e : Event) : (s.post e).turns = s.turns := rfl
@[simp] theorem State.post_refused (s : State) (e : Event) : (s.post e).refused = s.refused := rfl
@[simp] theorem State.post_hostT (s : State) (e : Event) : (s.post e).hostT = s.hostT := rfl
@[simp] theorem State.post_cur (s : State) (e : Event) : (s.post e).cur = s.cur := rfl
@[simp] theorem State.post_uid (s : State) (e : Event) : (s.post e).uid = s.uid := rfl
@[simp] theorem State.post_free (s : State) (e : Event) : (s.post e).free = s.free := rfl

@[simp] theorem State.postAt_clk (s : State) (n : Nat) (e : Event) : (s.postAt n e).clk = s.clk := rfl
@[simp] theorem State.postAt_refc (s : State) (n : Nat) (e : Event) : (s.postAt n e).refc = s.refc := rfl
@[simp] theorem State.postAt_refrem (s : State) (n : Nat) (e : Event) : (s.postAt n e).refrem = s.refrem := rfl
@[simp] theorem State.postAt_dev (s : State) (n : Nat) (e : Event) : (s.postAt n e).dev = s.dev := rfl
@[simp] theorem State.postAt_mem (s : State) (n : Nat) (e : Event) : (s.postAt n e).mem = s.mem := rfl
@[simp] theorem State.postAt_lines (s : State) (n : Nat) (e : Event) : (s.postAt n e).lines = s.lines := rfl
@[simp] theorem State.postAt_slices (s : State) (n : Nat) (e : Event) : (s.postAt n e).slices = s.slices := rfl
@[simp] theorem State.postAt_tongs (s : State) (n : Nat) (e : Event) : (s.postAt n e).tongs = s.tongs := rfl
@[simp] theorem State.postAt_left (s : State) (n : Nat) (e : Event) : (s.postAt n e).left = s.left := rfl
@[simp] theorem State.postAt_groups (s : State) (n : Nat) (e : Event) : (s.postAt n e).groups = s.groups := rfl
@[simp] theorem State.postAt_teams (s : State) (n : Nat) (e : Event) : (s.postAt n e).teams = s.teams := rfl
@[simp] theorem State.postAt_cores (s : State) (n : Nat) (e : Event) : (s.postAt n e).cores = s.cores := rfl
@[simp] theorem State.postAt_dies (s : State) (n : Nat) (e : Event) : (s.postAt n e).dies = s.dies := rfl
@[simp] theorem State.postAt_ports (s : State) (n : Nat) (e : Event) : (s.postAt n e).ports = s.ports := rfl
@[simp] theorem State.postAt_funcs (s : State) (n : Nat) (e : Event) : (s.postAt n e).funcs = s.funcs := rfl
@[simp] theorem State.postAt_queues (s : State) (n : Nat) (e : Event) : (s.postAt n e).queues = s.queues := rfl
@[simp] theorem State.postAt_stages (s : State) (n : Nat) (e : Event) : (s.postAt n e).stages = s.stages := rfl
@[simp] theorem State.postAt_graphs (s : State) (n : Nat) (e : Event) : (s.postAt n e).graphs = s.graphs := rfl
@[simp] theorem State.postAt_collTable (s : State) (n : Nat) (e : Event) : (s.postAt n e).collTable = s.collTable := rfl
@[simp] theorem State.postAt_colls (s : State) (n : Nat) (e : Event) : (s.postAt n e).colls = s.colls := rfl
@[simp] theorem State.postAt_collEarly (s : State) (n : Nat) (e : Event) : (s.postAt n e).collEarly = s.collEarly := rfl
@[simp] theorem State.postAt_aborts (s : State) (n : Nat) (e : Event) : (s.postAt n e).aborts = s.aborts := rfl
@[simp] theorem State.postAt_regions (s : State) (n : Nat) (e : Event) : (s.postAt n e).regions = s.regions := rfl
@[simp] theorem State.postAt_copies (s : State) (n : Nat) (e : Event) : (s.postAt n e).copies = s.copies := rfl
@[simp] theorem State.postAt_poolOps (s : State) (n : Nat) (e : Event) : (s.postAt n e).poolOps = s.poolOps := rfl
@[simp] theorem State.postAt_nanns (s : State) (n : Nat) (e : Event) : (s.postAt n e).nanns = s.nanns := rfl
@[simp] theorem State.postAt_migrations (s : State) (n : Nat) (e : Event) : (s.postAt n e).migrations = s.migrations := rfl
@[simp] theorem State.postAt_saved (s : State) (n : Nat) (e : Event) : (s.postAt n e).saved = s.saved := rfl
@[simp] theorem State.postAt_turns (s : State) (n : Nat) (e : Event) : (s.postAt n e).turns = s.turns := rfl
@[simp] theorem State.postAt_refused (s : State) (n : Nat) (e : Event) : (s.postAt n e).refused = s.refused := rfl
@[simp] theorem State.postAt_hostT (s : State) (n : Nat) (e : Event) : (s.postAt n e).hostT = s.hostT := rfl
@[simp] theorem State.postAt_cur (s : State) (n : Nat) (e : Event) : (s.postAt n e).cur = s.cur := rfl
@[simp] theorem State.postAt_uid (s : State) (n : Nat) (e : Event) : (s.postAt n e).uid = s.uid := rfl
@[simp] theorem State.postAt_free (s : State) (n : Nat) (e : Event) : (s.postAt n e).free = s.free := rfl

@[simp] theorem State.postRef_clk (s : State) (n : Nat) (e : Event) : (s.postRef n e).clk = s.clk := rfl
@[simp] theorem State.postRef_refc (s : State) (n : Nat) (e : Event) : (s.postRef n e).refc = s.refc := rfl
@[simp] theorem State.postRef_refrem (s : State) (n : Nat) (e : Event) : (s.postRef n e).refrem = s.refrem := rfl
@[simp] theorem State.postRef_dev (s : State) (n : Nat) (e : Event) : (s.postRef n e).dev = s.dev := rfl
@[simp] theorem State.postRef_mem (s : State) (n : Nat) (e : Event) : (s.postRef n e).mem = s.mem := rfl
@[simp] theorem State.postRef_lines (s : State) (n : Nat) (e : Event) : (s.postRef n e).lines = s.lines := rfl
@[simp] theorem State.postRef_slices (s : State) (n : Nat) (e : Event) : (s.postRef n e).slices = s.slices := rfl
@[simp] theorem State.postRef_tongs (s : State) (n : Nat) (e : Event) : (s.postRef n e).tongs = s.tongs := rfl
@[simp] theorem State.postRef_left (s : State) (n : Nat) (e : Event) : (s.postRef n e).left = s.left := rfl
@[simp] theorem State.postRef_groups (s : State) (n : Nat) (e : Event) : (s.postRef n e).groups = s.groups := rfl
@[simp] theorem State.postRef_teams (s : State) (n : Nat) (e : Event) : (s.postRef n e).teams = s.teams := rfl
@[simp] theorem State.postRef_cores (s : State) (n : Nat) (e : Event) : (s.postRef n e).cores = s.cores := rfl
@[simp] theorem State.postRef_dies (s : State) (n : Nat) (e : Event) : (s.postRef n e).dies = s.dies := rfl
@[simp] theorem State.postRef_ports (s : State) (n : Nat) (e : Event) : (s.postRef n e).ports = s.ports := rfl
@[simp] theorem State.postRef_funcs (s : State) (n : Nat) (e : Event) : (s.postRef n e).funcs = s.funcs := rfl
@[simp] theorem State.postRef_queues (s : State) (n : Nat) (e : Event) : (s.postRef n e).queues = s.queues := rfl
@[simp] theorem State.postRef_stages (s : State) (n : Nat) (e : Event) : (s.postRef n e).stages = s.stages := rfl
@[simp] theorem State.postRef_graphs (s : State) (n : Nat) (e : Event) : (s.postRef n e).graphs = s.graphs := rfl
@[simp] theorem State.postRef_collTable (s : State) (n : Nat) (e : Event) : (s.postRef n e).collTable = s.collTable := rfl
@[simp] theorem State.postRef_colls (s : State) (n : Nat) (e : Event) : (s.postRef n e).colls = s.colls := rfl
@[simp] theorem State.postRef_collEarly (s : State) (n : Nat) (e : Event) : (s.postRef n e).collEarly = s.collEarly := rfl
@[simp] theorem State.postRef_aborts (s : State) (n : Nat) (e : Event) : (s.postRef n e).aborts = s.aborts := rfl
@[simp] theorem State.postRef_regions (s : State) (n : Nat) (e : Event) : (s.postRef n e).regions = s.regions := rfl
@[simp] theorem State.postRef_copies (s : State) (n : Nat) (e : Event) : (s.postRef n e).copies = s.copies := rfl
@[simp] theorem State.postRef_poolOps (s : State) (n : Nat) (e : Event) : (s.postRef n e).poolOps = s.poolOps := rfl
@[simp] theorem State.postRef_nanns (s : State) (n : Nat) (e : Event) : (s.postRef n e).nanns = s.nanns := rfl
@[simp] theorem State.postRef_migrations (s : State) (n : Nat) (e : Event) : (s.postRef n e).migrations = s.migrations := rfl
@[simp] theorem State.postRef_saved (s : State) (n : Nat) (e : Event) : (s.postRef n e).saved = s.saved := rfl
@[simp] theorem State.postRef_turns (s : State) (n : Nat) (e : Event) : (s.postRef n e).turns = s.turns := rfl
@[simp] theorem State.postRef_refused (s : State) (n : Nat) (e : Event) : (s.postRef n e).refused = s.refused := rfl
@[simp] theorem State.postRef_hostT (s : State) (n : Nat) (e : Event) : (s.postRef n e).hostT = s.hostT := rfl
@[simp] theorem State.postRef_cur (s : State) (n : Nat) (e : Event) : (s.postRef n e).cur = s.cur := rfl
@[simp] theorem State.postRef_uid (s : State) (n : Nat) (e : Event) : (s.postRef n e).uid = s.uid := rfl
@[simp] theorem State.postRef_free (s : State) (n : Nat) (e : Event) : (s.postRef n e).free = s.free := rfl

@[simp] theorem Group.setS_team (g : Group) (r : Nat) (x : Dword) : (g.setS r x).team = g.team := rfl
@[simp] theorem Group.setS_core (g : Group) (r : Nat) (x : Dword) : (g.setS r x).core = g.core := rfl
@[simp] theorem Group.setS_ctx (g : Group) (r : Nat) (x : Dword) : (g.setS r x).ctx = g.ctx := rfl
@[simp] theorem Group.setS_num (g : Group) (r : Nat) (x : Dword) : (g.setS r x).num = g.num := rfl
@[simp] theorem Group.setS_role (g : Group) (r : Nat) (x : Dword) : (g.setS r x).role = g.role := rfl
@[simp] theorem Group.setS_pri (g : Group) (r : Nat) (x : Dword) : (g.setS r x).pri = g.pri := rfl
@[simp] theorem Group.setS_pc (g : Group) (r : Nat) (x : Dword) : (g.setS r x).pc = g.pc := rfl
@[simp] theorem Group.setS_v (g : Group) (r : Nat) (x : Dword) : (g.setS r x).v = g.v := rfl
@[simp] theorem Group.setS_p (g : Group) (r : Nat) (x : Dword) : (g.setS r x).p = g.p := rfl
@[simp] theorem Group.setS_exec (g : Group) (r : Nat) (x : Dword) : (g.setS r x).exec = g.exec := rfl
@[simp] theorem Group.setS_mr (g : Group) (r : Nat) (x : Dword) : (g.setS r x).mr = g.mr := rfl
@[simp] theorem Group.setS_stack (g : Group) (r : Nat) (x : Dword) : (g.setS r x).stack = g.stack := rfl
@[simp] theorem Group.setS_blocks (g : Group) (r : Nat) (x : Dword) : (g.setS r x).blocks = g.blocks := rfl
@[simp] theorem Group.setS_regerr (g : Group) (r : Nat) (x : Dword) : (g.setS r x).regerr = g.regerr := rfl
@[simp] theorem Group.setS_paths (g : Group) (r : Nat) (x : Dword) : (g.setS r x).paths = g.paths := rfl
@[simp] theorem Group.setS_times (g : Group) (r : Nat) (x : Dword) : (g.setS r x).times = g.times := rfl
@[simp] theorem Group.setS_seen (g : Group) (r : Nat) (x : Dword) : (g.setS r x).seen = g.seen := rfl
@[simp] theorem Group.setS_qflags (g : Group) (r : Nat) (x : Dword) : (g.setS r x).qflags = g.qflags := rfl
@[simp] theorem Group.setS_bstatus (g : Group) (r : Nat) (x : Dword) : (g.setS r x).bstatus = g.bstatus := rfl
@[simp] theorem Group.setS_qstatus (g : Group) (r : Nat) (x : Dword) : (g.setS r x).qstatus = g.qstatus := rfl
@[simp] theorem Group.setS_preq (g : Group) (r : Nat) (x : Dword) : (g.setS r x).preq = g.preq := rfl
@[simp] theorem Group.setS_refs (g : Group) (r : Nat) (x : Dword) : (g.setS r x).refs = g.refs := rfl
@[simp] theorem Group.setS_walks (g : Group) (r : Nat) (x : Dword) : (g.setS r x).walks = g.walks := rfl
@[simp] theorem Group.setS_park (g : Group) (r : Nat) (x : Dword) : (g.setS r x).park = g.park := rfl
@[simp] theorem Group.setS_sleep (g : Group) (r : Nat) (x : Dword) : (g.setS r x).sleep = g.sleep := rfl
@[simp] theorem Group.setS_starve (g : Group) (r : Nat) (x : Dword) : (g.setS r x).starve = g.starve := rfl
@[simp] theorem Group.setS_last (g : Group) (r : Nat) (x : Dword) : (g.setS r x).last = g.last := rfl
@[simp] theorem Group.setS_order (g : Group) (r : Nat) (x : Dword) : (g.setS r x).order = g.order := rfl
@[simp] theorem Group.setS_rstpc (g : Group) (r : Nat) (x : Dword) : (g.setS r x).rstpc = g.rstpc := rfl
@[simp] theorem Group.setS_restarts (g : Group) (r : Nat) (x : Dword) : (g.setS r x).restarts = g.restarts := rfl
@[simp] theorem Group.setS_restarted (g : Group) (r : Nat) (x : Dword) : (g.setS r x).restarted = g.restarted := rfl
@[simp] theorem Group.setS_batch (g : Group) (r : Nat) (x : Dword) : (g.setS r x).batch = g.batch := rfl
@[simp] theorem Group.setS_batchTw (g : Group) (r : Nat) (x : Dword) : (g.setS r x).batchTw = g.batchTw := rfl
@[simp] theorem Group.setS_serial (g : Group) (r : Nat) (x : Dword) : (g.setS r x).serial = g.serial := rfl
@[simp] theorem Group.setS_tickets (g : Group) (r : Nat) (x : Dword) : (g.setS r x).tickets = g.tickets := rfl
@[simp] theorem Group.setS_mon (g : Group) (r : Nat) (x : Dword) : (g.setS r x).mon = g.mon := rfl
@[simp] theorem Group.setS_snap (g : Group) (r : Nat) (x : Dword) : (g.setS r x).snap = g.snap := rfl
@[simp] theorem Group.setS_ends (g : Group) (r : Nat) (x : Dword) : (g.setS r x).ends = g.ends := rfl
@[simp] theorem Group.setS_trap (g : Group) (r : Nat) (x : Dword) : (g.setS r x).trap = g.trap := rfl
@[simp] theorem Group.setS_stop (g : Group) (r : Nat) (x : Dword) : (g.setS r x).stop = g.stop := rfl
@[simp] theorem Group.setS_replay (g : Group) (r : Nat) (x : Dword) : (g.setS r x).replay = g.replay := rfl
@[simp] theorem Group.setS_skip (g : Group) (r : Nat) (x : Dword) : (g.setS r x).skip = g.skip := rfl
@[simp] theorem Group.setS_armed (g : Group) (r : Nat) (x : Dword) : (g.setS r x).armed = g.armed := rfl
@[simp] theorem Group.setS_skipAside (g : Group) (r : Nat) (x : Dword) : (g.setS r x).skipAside = g.skipAside := rfl
@[simp] theorem Group.setS_raised (g : Group) (r : Nat) (x : Dword) : (g.setS r x).raised = g.raised := rfl
@[simp] theorem Group.setS_others (g : Group) (r : Nat) (x : Dword) : (g.setS r x).others = g.others := rfl
@[simp] theorem Group.setS_born (g : Group) (r : Nat) (x : Dword) : (g.setS r x).born = g.born := rfl
@[simp] theorem Group.setS_near (g : Group) (r : Nat) (x : Dword) : (g.setS r x).near = g.near := rfl
@[simp] theorem Group.setS_hreplay (g : Group) (r : Nat) (x : Dword) : (g.setS r x).hreplay = g.hreplay := rfl
@[simp] theorem Group.setS_fills (g : Group) (r : Nat) (x : Dword) : (g.setS r x).fills = g.fills := rfl
@[simp] theorem Group.setS_flushing (g : Group) (r : Nat) (x : Dword) : (g.setS r x).flushing = g.flushing := rfl
@[simp] theorem Group.setS_ready (g : Group) (r : Nat) (x : Dword) : (g.setS r x).ready = g.ready := rfl
@[simp] theorem Group.setS_after (g : Group) (r : Nat) (x : Dword) : (g.setS r x).after = g.after := rfl
@[simp] theorem Group.setS_fences (g : Group) (r : Nat) (x : Dword) : (g.setS r x).fences = g.fences := rfl
@[simp] theorem Group.setS_wcTime (g : Group) (r : Nat) (x : Dword) : (g.setS r x).wcTime = g.wcTime := rfl
@[simp] theorem Group.setS_ownTime (g : Group) (r : Nat) (x : Dword) : (g.setS r x).ownTime = g.ownTime := rfl
@[simp] theorem Group.setS_counts (g : Group) (r : Nat) (x : Dword) : (g.setS r x).counts = g.counts := rfl
@[simp] theorem Group.setS_batchLines (g : Group) (r : Nat) (x : Dword) : (g.setS r x).batchLines = g.batchLines := rfl

@[simp] theorem Group.setV_team (g : Group) (r : Nat) (m : Mask) (f : Nat → Word) : (g.setV r m f).team = g.team := rfl
@[simp] theorem Group.setV_core (g : Group) (r : Nat) (m : Mask) (f : Nat → Word) : (g.setV r m f).core = g.core := rfl
@[simp] theorem Group.setV_ctx (g : Group) (r : Nat) (m : Mask) (f : Nat → Word) : (g.setV r m f).ctx = g.ctx := rfl
@[simp] theorem Group.setV_num (g : Group) (r : Nat) (m : Mask) (f : Nat → Word) : (g.setV r m f).num = g.num := rfl
@[simp] theorem Group.setV_role (g : Group) (r : Nat) (m : Mask) (f : Nat → Word) : (g.setV r m f).role = g.role := rfl
@[simp] theorem Group.setV_pri (g : Group) (r : Nat) (m : Mask) (f : Nat → Word) : (g.setV r m f).pri = g.pri := rfl
@[simp] theorem Group.setV_pc (g : Group) (r : Nat) (m : Mask) (f : Nat → Word) : (g.setV r m f).pc = g.pc := rfl
@[simp] theorem Group.setV_s (g : Group) (r : Nat) (m : Mask) (f : Nat → Word) : (g.setV r m f).s = g.s := rfl
@[simp] theorem Group.setV_p (g : Group) (r : Nat) (m : Mask) (f : Nat → Word) : (g.setV r m f).p = g.p := rfl
@[simp] theorem Group.setV_exec (g : Group) (r : Nat) (m : Mask) (f : Nat → Word) : (g.setV r m f).exec = g.exec := rfl
@[simp] theorem Group.setV_mr (g : Group) (r : Nat) (m : Mask) (f : Nat → Word) : (g.setV r m f).mr = g.mr := rfl
@[simp] theorem Group.setV_stack (g : Group) (r : Nat) (m : Mask) (f : Nat → Word) : (g.setV r m f).stack = g.stack := rfl
@[simp] theorem Group.setV_blocks (g : Group) (r : Nat) (m : Mask) (f : Nat → Word) : (g.setV r m f).blocks = g.blocks := rfl
@[simp] theorem Group.setV_regerr (g : Group) (r : Nat) (m : Mask) (f : Nat → Word) : (g.setV r m f).regerr = g.regerr := rfl
@[simp] theorem Group.setV_paths (g : Group) (r : Nat) (m : Mask) (f : Nat → Word) : (g.setV r m f).paths = g.paths := rfl
@[simp] theorem Group.setV_times (g : Group) (r : Nat) (m : Mask) (f : Nat → Word) : (g.setV r m f).times = g.times := rfl
@[simp] theorem Group.setV_seen (g : Group) (r : Nat) (m : Mask) (f : Nat → Word) : (g.setV r m f).seen = g.seen := rfl
@[simp] theorem Group.setV_qflags (g : Group) (r : Nat) (m : Mask) (f : Nat → Word) : (g.setV r m f).qflags = g.qflags := rfl
@[simp] theorem Group.setV_bstatus (g : Group) (r : Nat) (m : Mask) (f : Nat → Word) : (g.setV r m f).bstatus = g.bstatus := rfl
@[simp] theorem Group.setV_qstatus (g : Group) (r : Nat) (m : Mask) (f : Nat → Word) : (g.setV r m f).qstatus = g.qstatus := rfl
@[simp] theorem Group.setV_preq (g : Group) (r : Nat) (m : Mask) (f : Nat → Word) : (g.setV r m f).preq = g.preq := rfl
@[simp] theorem Group.setV_refs (g : Group) (r : Nat) (m : Mask) (f : Nat → Word) : (g.setV r m f).refs = g.refs := rfl
@[simp] theorem Group.setV_walks (g : Group) (r : Nat) (m : Mask) (f : Nat → Word) : (g.setV r m f).walks = g.walks := rfl
@[simp] theorem Group.setV_park (g : Group) (r : Nat) (m : Mask) (f : Nat → Word) : (g.setV r m f).park = g.park := rfl
@[simp] theorem Group.setV_sleep (g : Group) (r : Nat) (m : Mask) (f : Nat → Word) : (g.setV r m f).sleep = g.sleep := rfl
@[simp] theorem Group.setV_starve (g : Group) (r : Nat) (m : Mask) (f : Nat → Word) : (g.setV r m f).starve = g.starve := rfl
@[simp] theorem Group.setV_last (g : Group) (r : Nat) (m : Mask) (f : Nat → Word) : (g.setV r m f).last = g.last := rfl
@[simp] theorem Group.setV_order (g : Group) (r : Nat) (m : Mask) (f : Nat → Word) : (g.setV r m f).order = g.order := rfl
@[simp] theorem Group.setV_rstpc (g : Group) (r : Nat) (m : Mask) (f : Nat → Word) : (g.setV r m f).rstpc = g.rstpc := rfl
@[simp] theorem Group.setV_restarts (g : Group) (r : Nat) (m : Mask) (f : Nat → Word) : (g.setV r m f).restarts = g.restarts := rfl
@[simp] theorem Group.setV_restarted (g : Group) (r : Nat) (m : Mask) (f : Nat → Word) : (g.setV r m f).restarted = g.restarted := rfl
@[simp] theorem Group.setV_batch (g : Group) (r : Nat) (m : Mask) (f : Nat → Word) : (g.setV r m f).batch = g.batch := rfl
@[simp] theorem Group.setV_batchTw (g : Group) (r : Nat) (m : Mask) (f : Nat → Word) : (g.setV r m f).batchTw = g.batchTw := rfl
@[simp] theorem Group.setV_serial (g : Group) (r : Nat) (m : Mask) (f : Nat → Word) : (g.setV r m f).serial = g.serial := rfl
@[simp] theorem Group.setV_tickets (g : Group) (r : Nat) (m : Mask) (f : Nat → Word) : (g.setV r m f).tickets = g.tickets := rfl
@[simp] theorem Group.setV_mon (g : Group) (r : Nat) (m : Mask) (f : Nat → Word) : (g.setV r m f).mon = g.mon := rfl
@[simp] theorem Group.setV_snap (g : Group) (r : Nat) (m : Mask) (f : Nat → Word) : (g.setV r m f).snap = g.snap := rfl
@[simp] theorem Group.setV_ends (g : Group) (r : Nat) (m : Mask) (f : Nat → Word) : (g.setV r m f).ends = g.ends := rfl
@[simp] theorem Group.setV_trap (g : Group) (r : Nat) (m : Mask) (f : Nat → Word) : (g.setV r m f).trap = g.trap := rfl
@[simp] theorem Group.setV_stop (g : Group) (r : Nat) (m : Mask) (f : Nat → Word) : (g.setV r m f).stop = g.stop := rfl
@[simp] theorem Group.setV_replay (g : Group) (r : Nat) (m : Mask) (f : Nat → Word) : (g.setV r m f).replay = g.replay := rfl
@[simp] theorem Group.setV_skip (g : Group) (r : Nat) (m : Mask) (f : Nat → Word) : (g.setV r m f).skip = g.skip := rfl
@[simp] theorem Group.setV_armed (g : Group) (r : Nat) (m : Mask) (f : Nat → Word) : (g.setV r m f).armed = g.armed := rfl
@[simp] theorem Group.setV_skipAside (g : Group) (r : Nat) (m : Mask) (f : Nat → Word) : (g.setV r m f).skipAside = g.skipAside := rfl
@[simp] theorem Group.setV_raised (g : Group) (r : Nat) (m : Mask) (f : Nat → Word) : (g.setV r m f).raised = g.raised := rfl
@[simp] theorem Group.setV_others (g : Group) (r : Nat) (m : Mask) (f : Nat → Word) : (g.setV r m f).others = g.others := rfl
@[simp] theorem Group.setV_owed (g : Group) (r : Nat) (m : Mask) (f : Nat → Word) : (g.setV r m f).owed = g.owed := rfl
@[simp] theorem Group.setV_born (g : Group) (r : Nat) (m : Mask) (f : Nat → Word) : (g.setV r m f).born = g.born := rfl
@[simp] theorem Group.setV_near (g : Group) (r : Nat) (m : Mask) (f : Nat → Word) : (g.setV r m f).near = g.near := rfl
@[simp] theorem Group.setV_hreplay (g : Group) (r : Nat) (m : Mask) (f : Nat → Word) : (g.setV r m f).hreplay = g.hreplay := rfl
@[simp] theorem Group.setV_fills (g : Group) (r : Nat) (m : Mask) (f : Nat → Word) : (g.setV r m f).fills = g.fills := rfl
@[simp] theorem Group.setV_flushing (g : Group) (r : Nat) (m : Mask) (f : Nat → Word) : (g.setV r m f).flushing = g.flushing := rfl
@[simp] theorem Group.setV_ready (g : Group) (r : Nat) (m : Mask) (f : Nat → Word) : (g.setV r m f).ready = g.ready := rfl
@[simp] theorem Group.setV_after (g : Group) (r : Nat) (m : Mask) (f : Nat → Word) : (g.setV r m f).after = g.after := rfl
@[simp] theorem Group.setV_fences (g : Group) (r : Nat) (m : Mask) (f : Nat → Word) : (g.setV r m f).fences = g.fences := rfl
@[simp] theorem Group.setV_wcTime (g : Group) (r : Nat) (m : Mask) (f : Nat → Word) : (g.setV r m f).wcTime = g.wcTime := rfl
@[simp] theorem Group.setV_ownTime (g : Group) (r : Nat) (m : Mask) (f : Nat → Word) : (g.setV r m f).ownTime = g.ownTime := rfl
@[simp] theorem Group.setV_counts (g : Group) (r : Nat) (m : Mask) (f : Nat → Word) : (g.setV r m f).counts = g.counts := rfl
@[simp] theorem Group.setV_batchLines (g : Group) (r : Nat) (m : Mask) (f : Nat → Word) : (g.setV r m f).batchLines = g.batchLines := rfl

@[simp] theorem Group.setPLanes_team (g : Group) (r : Nat) (m x : Mask) : (g.setPLanes r m x).team = g.team := rfl
@[simp] theorem Group.setPLanes_core (g : Group) (r : Nat) (m x : Mask) : (g.setPLanes r m x).core = g.core := rfl
@[simp] theorem Group.setPLanes_ctx (g : Group) (r : Nat) (m x : Mask) : (g.setPLanes r m x).ctx = g.ctx := rfl
@[simp] theorem Group.setPLanes_num (g : Group) (r : Nat) (m x : Mask) : (g.setPLanes r m x).num = g.num := rfl
@[simp] theorem Group.setPLanes_role (g : Group) (r : Nat) (m x : Mask) : (g.setPLanes r m x).role = g.role := rfl
@[simp] theorem Group.setPLanes_pri (g : Group) (r : Nat) (m x : Mask) : (g.setPLanes r m x).pri = g.pri := rfl
@[simp] theorem Group.setPLanes_pc (g : Group) (r : Nat) (m x : Mask) : (g.setPLanes r m x).pc = g.pc := rfl
@[simp] theorem Group.setPLanes_s (g : Group) (r : Nat) (m x : Mask) : (g.setPLanes r m x).s = g.s := rfl
@[simp] theorem Group.setPLanes_v (g : Group) (r : Nat) (m x : Mask) : (g.setPLanes r m x).v = g.v := rfl
@[simp] theorem Group.setPLanes_exec (g : Group) (r : Nat) (m x : Mask) : (g.setPLanes r m x).exec = g.exec := rfl
@[simp] theorem Group.setPLanes_mr (g : Group) (r : Nat) (m x : Mask) : (g.setPLanes r m x).mr = g.mr := rfl
@[simp] theorem Group.setPLanes_stack (g : Group) (r : Nat) (m x : Mask) : (g.setPLanes r m x).stack = g.stack := rfl
@[simp] theorem Group.setPLanes_blocks (g : Group) (r : Nat) (m x : Mask) : (g.setPLanes r m x).blocks = g.blocks := rfl
@[simp] theorem Group.setPLanes_regerr (g : Group) (r : Nat) (m x : Mask) : (g.setPLanes r m x).regerr = g.regerr := rfl
@[simp] theorem Group.setPLanes_paths (g : Group) (r : Nat) (m x : Mask) : (g.setPLanes r m x).paths = g.paths := rfl
@[simp] theorem Group.setPLanes_times (g : Group) (r : Nat) (m x : Mask) : (g.setPLanes r m x).times = g.times := rfl
@[simp] theorem Group.setPLanes_seen (g : Group) (r : Nat) (m x : Mask) : (g.setPLanes r m x).seen = g.seen := rfl
@[simp] theorem Group.setPLanes_qflags (g : Group) (r : Nat) (m x : Mask) : (g.setPLanes r m x).qflags = g.qflags := rfl
@[simp] theorem Group.setPLanes_bstatus (g : Group) (r : Nat) (m x : Mask) : (g.setPLanes r m x).bstatus = g.bstatus := rfl
@[simp] theorem Group.setPLanes_qstatus (g : Group) (r : Nat) (m x : Mask) : (g.setPLanes r m x).qstatus = g.qstatus := rfl
@[simp] theorem Group.setPLanes_preq (g : Group) (r : Nat) (m x : Mask) : (g.setPLanes r m x).preq = g.preq := rfl
@[simp] theorem Group.setPLanes_refs (g : Group) (r : Nat) (m x : Mask) : (g.setPLanes r m x).refs = g.refs := rfl
@[simp] theorem Group.setPLanes_walks (g : Group) (r : Nat) (m x : Mask) : (g.setPLanes r m x).walks = g.walks := rfl
@[simp] theorem Group.setPLanes_park (g : Group) (r : Nat) (m x : Mask) : (g.setPLanes r m x).park = g.park := rfl
@[simp] theorem Group.setPLanes_sleep (g : Group) (r : Nat) (m x : Mask) : (g.setPLanes r m x).sleep = g.sleep := rfl
@[simp] theorem Group.setPLanes_starve (g : Group) (r : Nat) (m x : Mask) : (g.setPLanes r m x).starve = g.starve := rfl
@[simp] theorem Group.setPLanes_last (g : Group) (r : Nat) (m x : Mask) : (g.setPLanes r m x).last = g.last := rfl
@[simp] theorem Group.setPLanes_order (g : Group) (r : Nat) (m x : Mask) : (g.setPLanes r m x).order = g.order := rfl
@[simp] theorem Group.setPLanes_rstpc (g : Group) (r : Nat) (m x : Mask) : (g.setPLanes r m x).rstpc = g.rstpc := rfl
@[simp] theorem Group.setPLanes_restarts (g : Group) (r : Nat) (m x : Mask) : (g.setPLanes r m x).restarts = g.restarts := rfl
@[simp] theorem Group.setPLanes_restarted (g : Group) (r : Nat) (m x : Mask) : (g.setPLanes r m x).restarted = g.restarted := rfl
@[simp] theorem Group.setPLanes_batch (g : Group) (r : Nat) (m x : Mask) : (g.setPLanes r m x).batch = g.batch := rfl
@[simp] theorem Group.setPLanes_batchTw (g : Group) (r : Nat) (m x : Mask) : (g.setPLanes r m x).batchTw = g.batchTw := rfl
@[simp] theorem Group.setPLanes_serial (g : Group) (r : Nat) (m x : Mask) : (g.setPLanes r m x).serial = g.serial := rfl
@[simp] theorem Group.setPLanes_tickets (g : Group) (r : Nat) (m x : Mask) : (g.setPLanes r m x).tickets = g.tickets := rfl
@[simp] theorem Group.setPLanes_mon (g : Group) (r : Nat) (m x : Mask) : (g.setPLanes r m x).mon = g.mon := rfl
@[simp] theorem Group.setPLanes_snap (g : Group) (r : Nat) (m x : Mask) : (g.setPLanes r m x).snap = g.snap := rfl
@[simp] theorem Group.setPLanes_ends (g : Group) (r : Nat) (m x : Mask) : (g.setPLanes r m x).ends = g.ends := rfl
@[simp] theorem Group.setPLanes_trap (g : Group) (r : Nat) (m x : Mask) : (g.setPLanes r m x).trap = g.trap := rfl
@[simp] theorem Group.setPLanes_stop (g : Group) (r : Nat) (m x : Mask) : (g.setPLanes r m x).stop = g.stop := rfl
@[simp] theorem Group.setPLanes_replay (g : Group) (r : Nat) (m x : Mask) : (g.setPLanes r m x).replay = g.replay := rfl
@[simp] theorem Group.setPLanes_skip (g : Group) (r : Nat) (m x : Mask) : (g.setPLanes r m x).skip = g.skip := rfl
@[simp] theorem Group.setPLanes_armed (g : Group) (r : Nat) (m x : Mask) : (g.setPLanes r m x).armed = g.armed := rfl
@[simp] theorem Group.setPLanes_skipAside (g : Group) (r : Nat) (m x : Mask) : (g.setPLanes r m x).skipAside = g.skipAside := rfl
@[simp] theorem Group.setPLanes_raised (g : Group) (r : Nat) (m x : Mask) : (g.setPLanes r m x).raised = g.raised := rfl
@[simp] theorem Group.setPLanes_others (g : Group) (r : Nat) (m x : Mask) : (g.setPLanes r m x).others = g.others := rfl
@[simp] theorem Group.setPLanes_owed (g : Group) (r : Nat) (m x : Mask) : (g.setPLanes r m x).owed = g.owed := rfl
@[simp] theorem Group.setPLanes_born (g : Group) (r : Nat) (m x : Mask) : (g.setPLanes r m x).born = g.born := rfl
@[simp] theorem Group.setPLanes_near (g : Group) (r : Nat) (m x : Mask) : (g.setPLanes r m x).near = g.near := rfl
@[simp] theorem Group.setPLanes_hreplay (g : Group) (r : Nat) (m x : Mask) : (g.setPLanes r m x).hreplay = g.hreplay := rfl
@[simp] theorem Group.setPLanes_fills (g : Group) (r : Nat) (m x : Mask) : (g.setPLanes r m x).fills = g.fills := rfl
@[simp] theorem Group.setPLanes_flushing (g : Group) (r : Nat) (m x : Mask) : (g.setPLanes r m x).flushing = g.flushing := rfl
@[simp] theorem Group.setPLanes_ready (g : Group) (r : Nat) (m x : Mask) : (g.setPLanes r m x).ready = g.ready := rfl
@[simp] theorem Group.setPLanes_after (g : Group) (r : Nat) (m x : Mask) : (g.setPLanes r m x).after = g.after := rfl
@[simp] theorem Group.setPLanes_fences (g : Group) (r : Nat) (m x : Mask) : (g.setPLanes r m x).fences = g.fences := rfl
@[simp] theorem Group.setPLanes_wcTime (g : Group) (r : Nat) (m x : Mask) : (g.setPLanes r m x).wcTime = g.wcTime := rfl
@[simp] theorem Group.setPLanes_ownTime (g : Group) (r : Nat) (m x : Mask) : (g.setPLanes r m x).ownTime = g.ownTime := rfl
@[simp] theorem Group.setPLanes_counts (g : Group) (r : Nat) (m x : Mask) : (g.setPLanes r m x).counts = g.counts := rfl
@[simp] theorem Group.setPLanes_batchLines (g : Group) (r : Nat) (m x : Mask) : (g.setPLanes r m x).batchLines = g.batchLines := rfl

@[simp] theorem Group.setExec_team (g : Group) (x : Mask) : (g.setExec x).team = g.team := rfl
@[simp] theorem Group.setExec_core (g : Group) (x : Mask) : (g.setExec x).core = g.core := rfl
@[simp] theorem Group.setExec_ctx (g : Group) (x : Mask) : (g.setExec x).ctx = g.ctx := rfl
@[simp] theorem Group.setExec_num (g : Group) (x : Mask) : (g.setExec x).num = g.num := rfl
@[simp] theorem Group.setExec_role (g : Group) (x : Mask) : (g.setExec x).role = g.role := rfl
@[simp] theorem Group.setExec_pri (g : Group) (x : Mask) : (g.setExec x).pri = g.pri := rfl
@[simp] theorem Group.setExec_pc (g : Group) (x : Mask) : (g.setExec x).pc = g.pc := rfl
@[simp] theorem Group.setExec_s (g : Group) (x : Mask) : (g.setExec x).s = g.s := rfl
@[simp] theorem Group.setExec_v (g : Group) (x : Mask) : (g.setExec x).v = g.v := rfl
@[simp] theorem Group.setExec_p (g : Group) (x : Mask) : (g.setExec x).p = g.p := rfl
@[simp] theorem Group.setExec_mr (g : Group) (x : Mask) : (g.setExec x).mr = g.mr := rfl
@[simp] theorem Group.setExec_stack (g : Group) (x : Mask) : (g.setExec x).stack = g.stack := rfl
@[simp] theorem Group.setExec_blocks (g : Group) (x : Mask) : (g.setExec x).blocks = g.blocks := rfl
@[simp] theorem Group.setExec_regerr (g : Group) (x : Mask) : (g.setExec x).regerr = g.regerr := rfl
@[simp] theorem Group.setExec_paths (g : Group) (x : Mask) : (g.setExec x).paths = g.paths := rfl
@[simp] theorem Group.setExec_times (g : Group) (x : Mask) : (g.setExec x).times = g.times := rfl
@[simp] theorem Group.setExec_seen (g : Group) (x : Mask) : (g.setExec x).seen = g.seen := rfl
@[simp] theorem Group.setExec_qflags (g : Group) (x : Mask) : (g.setExec x).qflags = g.qflags := rfl
@[simp] theorem Group.setExec_bstatus (g : Group) (x : Mask) : (g.setExec x).bstatus = g.bstatus := rfl
@[simp] theorem Group.setExec_qstatus (g : Group) (x : Mask) : (g.setExec x).qstatus = g.qstatus := rfl
@[simp] theorem Group.setExec_preq (g : Group) (x : Mask) : (g.setExec x).preq = g.preq := rfl
@[simp] theorem Group.setExec_refs (g : Group) (x : Mask) : (g.setExec x).refs = g.refs := rfl
@[simp] theorem Group.setExec_walks (g : Group) (x : Mask) : (g.setExec x).walks = g.walks := rfl
@[simp] theorem Group.setExec_park (g : Group) (x : Mask) : (g.setExec x).park = g.park := rfl
@[simp] theorem Group.setExec_sleep (g : Group) (x : Mask) : (g.setExec x).sleep = g.sleep := rfl
@[simp] theorem Group.setExec_starve (g : Group) (x : Mask) : (g.setExec x).starve = g.starve := rfl
@[simp] theorem Group.setExec_last (g : Group) (x : Mask) : (g.setExec x).last = g.last := rfl
@[simp] theorem Group.setExec_order (g : Group) (x : Mask) : (g.setExec x).order = g.order := rfl
@[simp] theorem Group.setExec_rstpc (g : Group) (x : Mask) : (g.setExec x).rstpc = g.rstpc := rfl
@[simp] theorem Group.setExec_restarts (g : Group) (x : Mask) : (g.setExec x).restarts = g.restarts := rfl
@[simp] theorem Group.setExec_restarted (g : Group) (x : Mask) : (g.setExec x).restarted = g.restarted := rfl
@[simp] theorem Group.setExec_batch (g : Group) (x : Mask) : (g.setExec x).batch = g.batch := rfl
@[simp] theorem Group.setExec_batchTw (g : Group) (x : Mask) : (g.setExec x).batchTw = g.batchTw := rfl
@[simp] theorem Group.setExec_serial (g : Group) (x : Mask) : (g.setExec x).serial = g.serial := rfl
@[simp] theorem Group.setExec_tickets (g : Group) (x : Mask) : (g.setExec x).tickets = g.tickets := rfl
@[simp] theorem Group.setExec_mon (g : Group) (x : Mask) : (g.setExec x).mon = g.mon := rfl
@[simp] theorem Group.setExec_snap (g : Group) (x : Mask) : (g.setExec x).snap = g.snap := rfl
@[simp] theorem Group.setExec_ends (g : Group) (x : Mask) : (g.setExec x).ends = g.ends := rfl
@[simp] theorem Group.setExec_trap (g : Group) (x : Mask) : (g.setExec x).trap = g.trap := rfl
@[simp] theorem Group.setExec_stop (g : Group) (x : Mask) : (g.setExec x).stop = g.stop := rfl
@[simp] theorem Group.setExec_replay (g : Group) (x : Mask) : (g.setExec x).replay = g.replay := rfl
@[simp] theorem Group.setExec_skip (g : Group) (x : Mask) : (g.setExec x).skip = g.skip := rfl
@[simp] theorem Group.setExec_pend (g : Group) (x : Mask) : (g.setExec x).pend = g.pend := rfl
@[simp] theorem Group.setExec_armed (g : Group) (x : Mask) : (g.setExec x).armed = g.armed := rfl
@[simp] theorem Group.setExec_skipAside (g : Group) (x : Mask) : (g.setExec x).skipAside = g.skipAside := rfl
@[simp] theorem Group.setExec_raised (g : Group) (x : Mask) : (g.setExec x).raised = g.raised := rfl
@[simp] theorem Group.setExec_others (g : Group) (x : Mask) : (g.setExec x).others = g.others := rfl
@[simp] theorem Group.setExec_owed (g : Group) (x : Mask) : (g.setExec x).owed = g.owed := rfl
@[simp] theorem Group.setExec_born (g : Group) (x : Mask) : (g.setExec x).born = g.born := rfl
@[simp] theorem Group.setExec_near (g : Group) (x : Mask) : (g.setExec x).near = g.near := rfl
@[simp] theorem Group.setExec_hreplay (g : Group) (x : Mask) : (g.setExec x).hreplay = g.hreplay := rfl
@[simp] theorem Group.setExec_fills (g : Group) (x : Mask) : (g.setExec x).fills = g.fills := rfl
@[simp] theorem Group.setExec_flushing (g : Group) (x : Mask) : (g.setExec x).flushing = g.flushing := rfl
@[simp] theorem Group.setExec_ready (g : Group) (x : Mask) : (g.setExec x).ready = g.ready := rfl
@[simp] theorem Group.setExec_after (g : Group) (x : Mask) : (g.setExec x).after = g.after := rfl
@[simp] theorem Group.setExec_fences (g : Group) (x : Mask) : (g.setExec x).fences = g.fences := rfl
@[simp] theorem Group.setExec_wcTime (g : Group) (x : Mask) : (g.setExec x).wcTime = g.wcTime := rfl
@[simp] theorem Group.setExec_ownTime (g : Group) (x : Mask) : (g.setExec x).ownTime = g.ownTime := rfl
@[simp] theorem Group.setExec_counts (g : Group) (x : Mask) : (g.setExec x).counts = g.counts := rfl
@[simp] theorem Group.setExec_batchLines (g : Group) (x : Mask) : (g.setExec x).batchLines = g.batchLines := rfl

end Sys2Proof.Machine
end

