-- ==== Sys2Proof/Laws/Ops.lean ====
section
/-!
SUPPORT. The laws of the shared operations: what a read of the state finds after an update, and what a write of memory leaves alone.
-/
namespace Sys2Proof.Machine
open Sys2Proof

/-! ## Folds and vectors -/

/-- What each turn of a fold keeps, the fold keeps. -/
theorem foldl_keeps {α β γ : Type} (f : β → γ) (turn : β → α → β) (h : ∀ b a, f (turn b a) = f b) (l : List α) (b : β) :
    f (l.foldl turn b) = f b := by
  induction l generalizing b with
  | nil => rfl
  | cons a r ih => simp [ih, h]

/-- A property that each turn of a fold keeps holds at its end. -/
theorem foldl_inv {α β : Type} (p : β → Prop) (turn : β → α → β) (h : ∀ b a, p b → p (turn b a)) (l : List α) (b : β) (hb : p b) :
    p (l.foldl turn b) := by
  induction l generalizing b with
  | nil => exact hb
  | cons a r ih => exact ih _ (h _ _ hb)

theorem Vector.at0_put_same {α : Type} {n : Nat} (v : Vector α n) {i : Nat} (x d : α) (h : i < n) :
    Vector.at0 (Vector.put v i x) i d = x := by
  have : i < v.toList.length := by simpa using h
  simp only [Vector.at0, Vector.put, Vector.toList_mk, List.getD, List.getElem?_set, this]
  simp

theorem Vector.at0_put_other {α : Type} {n : Nat} (v : Vector α n) {i j : Nat} (x d : α) (h : j ≠ i) :
    Vector.at0 (Vector.put v i x) j d = Vector.at0 v j d := by
  simp [Vector.at0, Vector.put, List.getD, h.symm]

theorem Vector.at0_tab {α : Type} {n : Nat} (f : Nat → α) {i : Nat} (d : α) (h : i < n) : Vector.at0 (tab n f) i d = f i := by
  simp [Vector.at0, tab, h]

theorem Mask.has_lt {m : Mask} {L : Nat} (h : m.has L = true) : L < 128 := by
  by_contra hh
  simp [Mask.has, BitVec.getLsbD_of_ge m L (by omega)] at h

theorem Mask.mem_lanes {m : Mask} {L : Nat} : L ∈ m.lanes ↔ m.has L = true := by
  simp only [Mask.lanes, List.mem_filter, List.mem_range]
  exact ⟨fun h => h.2, fun h => ⟨Mask.has_lt h, h⟩⟩

/-! ## Reads after updates -/

@[simp] theorem State.group_setGroup_same (s : State) (k : Nat) (f : Group → Group) : (s.setGroup k f).group k = (s.group k).map f :=
  Assoc.get_upd_same _ _ _

theorem State.group_setGroup_other (s : State) {k j : Nat} (f : Group → Group) (h : j ≠ k) : (s.setGroup k f).group j = s.group j :=
  Assoc.get_upd_other _ _ h

@[simp] theorem State.team_setTeam_same (s : State) (k : Nat) (f : Team → Team) : (s.setTeam k f).team k = (s.team k).map f :=
  Assoc.get_upd_same _ _ _

theorem State.team_setTeam_other (s : State) {k j : Nat} (f : Team → Team) (h : j ≠ k) : (s.setTeam k f).team j = s.team j :=
  Assoc.get_upd_other _ _ h

@[simp] theorem State.core_setCore_same (s : State) (k : Nat) (f : Core → Core) : (s.setCore k f).core k = f (s.core k) := by
  simp [State.core, State.setCore, Assoc.getD]

theorem State.core_setCore_other (s : State) {k j : Nat} (f : Core → Core) (h : j ≠ k) : (s.setCore k f).core j = s.core j := by
  simp [State.core, State.setCore, Assoc.getD, Assoc.get_put_other _ _ h]

theorem State.die_setDie_same (s : State) {k : Nat} (f : Die → Die) (h : k < 4) : (s.setDie k f).die k = f (s.die k) :=
  Vector.at0_put_same _ _ _ h

theorem State.die_setDie_other (s : State) {k j : Nat} (f : Die → Die) (h : j ≠ k) : (s.setDie k f).die j = s.die j :=
  Vector.at0_put_other _ _ _ h

theorem State.port_setPort_same (s : State) {k : Nat} (f : Port → Port) (h : k < 16) : (s.setPort k f).port k = f (s.port k) :=
  Vector.at0_put_same _ _ _ h

theorem State.port_setPort_other (s : State) {k j : Nat} (f : Port → Port) (h : j ≠ k) : (s.setPort k f).port j = s.port j :=
  Vector.at0_put_other _ _ _ h

@[simp] theorem State.func_setFunc_same (s : State) (k : Nat) (f : Func → Func) : (s.setFunc k f).func k = f (s.func k) := by
  simp [State.func, State.setFunc, Assoc.getD]

theorem State.func_setFunc_other (s : State) {k j : Nat} (f : Func → Func) (h : j ≠ k) : (s.setFunc k f).func j = s.func j := by
  simp [State.func, State.setFunc, Assoc.getD, Assoc.get_put_other _ _ h]

@[simp] theorem State.slice_setSlice_same (s : State) (k : Nat) (f : Slice → Slice) : (s.setSlice k f).slice k = f (s.slice k) := by
  simp [State.slice, State.setSlice, Assoc.getD]

theorem State.slice_setSlice_other (s : State) {k j : Nat} (f : Slice → Slice) (h : j ≠ k) : (s.setSlice k f).slice j = s.slice j := by
  simp [State.slice, State.setSlice, Assoc.getD, Assoc.get_put_other _ _ h]

@[simp] theorem State.line_setLine_same (s : State) (k : Nat) (f : Line → Line) : (s.setLine k f).line k = f (s.line k) := by
  simp [State.line, State.setLine, Assoc.getD]

theorem State.line_setLine_other (s : State) {k j : Nat} (f : Line → Line) (h : j ≠ k) : (s.setLine k f).line j = s.line j := by
  simp [State.line, State.setLine, Assoc.getD, Assoc.get_put_other _ _ h]

/-! ## Writes of memory -/

/-- A write of a line changes memory, the lines' records, the groups that monitor it, and the pool regions' slots, and the host's asks the
line of its home slice or counts its transfer; a reading of the state that looks at none of these finds it unchanged. -/
structure Unwritten {γ : Type} (f : State → γ) : Prop where
  mem : ∀ s m, f { s with mem := m } = f s
  lines : ∀ s m, f { s with lines := m } = f s
  groups : ∀ s m, f { s with groups := m } = f s
  regions : ∀ s m, f { s with regions := m } = f s
  hostT : ∀ s m, f { s with hostT := m } = f s
  slices : ∀ s m, f { s with slices := m } = f s
  agenda : ∀ s m, f { s with agenda := m } = f s
  dies : ∀ s m, f { s with dies := m } = f s

/-- A transfer counted changes a die's count and what is in flight. -/
theorem State.touch_keeps {γ : Type} {f : State → γ} (ha : ∀ s m, f { s with agenda := m } = f s)
    (hd : ∀ s m, f { s with dies := m } = f s) (s : State) (pa : Nat) : f (s.touch pa) = f s := by
  have hp : ∀ s e, f (State.post s e) = f s := fun s e => ha s _
  have hk : ∀ s k g, f (State.setDie s k g) = f s := fun s k g => hd s _
  unfold State.touch
  simp only
  split
  · rfl
  · split
    · rw [hp, hk]
    · rw [hk]

/-- A reading of the state that looks at neither the slices nor the dies nor what is in flight finds no request for a line. -/
theorem State.wantLine_keeps {γ : Type} {f : State → γ} (hs : ∀ s m, f { s with slices := m } = f s)
    (ha : ∀ s m, f { s with agenda := m } = f s) (hd : ∀ s m, f { s with dies := m } = f s) (s : State) (d own pa : Nat) (w : Bool) :
    f (s.wantLine d own pa w) = f s := by
  have hg : ∀ (s : State) k b, f (s.askGrant k b) = f s := by
    intro s k b
    unfold State.askGrant State.postAt
    simp only
    split
    · rfl
    · exact ha s _
  have hk : ∀ s k g, f (State.setSlice s k g) = f s := fun s k g => hs s _
  unfold State.wantLine State.ask
  simp only
  split
  · exact State.touch_keeps ha hd _ _
  · split
    · rfl
    · split
      · rfl
      · split
        · rfl
        · rw [hg, hk]

theorem State.writeLine_keeps {γ : Type} {f : State → γ} (h : Unwritten f) (s : State) (n t : Nat) (l : List Host.Cell)
    (tags : List (Inst × Nat)) : f (s.writeLine n t l tags) = f s := by
  have hk : f (s.keepVersion n t) = f s := by
    unfold State.keepVersion
    split
    · rfl
    · split
      · rfl
      · exact h.regions _ _
  unfold State.writeLine State.wakeMonitors State.setLine
  exact (h.groups _ _).trans ((h.lines _ _).trans ((h.mem _ _).trans hk))

theorem State.storeLine_keeps {γ : Type} {f : State → γ} (h : Unwritten f) (s : State) (n t : Nat) (l : List Host.Cell)
    (tags : List (Inst × Nat)) : f (s.storeLine n t l tags) = f s := by
  unfold State.storeLine
  split
  · rfl
  · rw [foldl_keeps f _ (fun b a => (State.writeLine_keeps h _ _ _ _ _).trans (State.wantLine_keeps h.slices h.agenda h.dies _ _ _ _ _)),
      State.writeLine_keeps h]

theorem State.hostWrite_keeps {γ : Type} {f : State → γ} (h : Unwritten f) (s : State) (n : Nat) (l : List Byte) :
    f (s.hostWrite n l) = f s := by
  unfold State.hostWrite
  refine foldl_keeps f _ (fun b a => ?_) _ _
  rw [h.hostT, State.storeLine_keeps h, State.wantLine_keeps h.slices h.agenda h.dies]

theorem State.postEvent_keeps {γ : Type} {f : State → γ} (h : Unwritten f) (hf : ∀ s m, f { s with funcs := m } = f s) (s : State)
    (fn typ : Nat) (l : List (Nat × Nat × Nat)) : f (s.postEvent fn typ l) = f s := by
  unfold State.postEvent
  simp only
  split
  · rw [State.hostWrite_keeps h]
    exact hf _ _
  · exact hf _ _

/-- What the read of a poisoned line may change: the device's event log, the PF's event ring, and the list of poisoned lines that the
instruction in progress has read. -/
structure Unread {γ : Type} (f : State → γ) : Prop extends Unwritten f where
  dev : ∀ s m, f { s with dev := m } = f s
  funcs : ∀ s m, f { s with funcs := m } = f s
  cur : ∀ s m, f { s with cur := m } = f s

theorem State.poisonRead_keeps {γ : Type} {f : State → γ} (h : Unread f) (s : State) (pa : Nat) : f (s.poisonRead pa) = f s := by
  unfold State.poisonRead State.poisonEvent State.mcEvent State.setDev
  simp only
  split
  · rfl
  · rw [h.cur, State.postEvent_keeps h.toUnwritten h.funcs, h.dev]

theorem State.hostRead_keeps {γ : Type} {f : State → γ} (h : Unread f) (s : State) (n l : Nat) : f (s.hostRead n l) = f s := by
  unfold State.hostRead
  refine foldl_keeps f _ (fun b a => ?_) _ _
  rw [h.hostT]
  exact (h.lines _ _).trans ((State.poisonRead_keeps h _ _).trans (State.wantLine_keeps h.slices h.agenda h.dies _ _ _ _ _))

/-- A write of a line keeps the memory's form. -/
theorem State.writeLine_wf (s : State) (n t : Nat) (l : List Host.Cell) (tags : List (Inst × Nat)) (h : Memory.wf s.mem = true) :
    Memory.wf (s.writeLine n t l tags).mem = true := by
  have hk : (s.keepVersion n t).mem = s.mem := by
    unfold State.keepVersion
    split
    · rfl
    · split <;> rfl
  unfold State.writeLine State.wakeMonitors State.setLine
  simp only [hk]
  exact Memory.wf_cells h _

/-- A request for a line leaves memory alone. -/
@[simp] theorem State.mem_wantLine (s : State) (d own pa : Nat) (w : Bool) : (s.wantLine d own pa w).mem = s.mem :=
  State.wantLine_keeps (f := State.mem) (fun _ _ => rfl) (fun _ _ => rfl) (fun _ _ => rfl) _ _ _ _ _

theorem State.storeLine_wf (s : State) (n t : Nat) (l : List Host.Cell) (tags : List (Inst × Nat)) (h : Memory.wf s.mem = true) :
    Memory.wf (s.storeLine n t l tags).mem = true := by
  unfold State.storeLine
  split
  · exact h
  · exact foldl_inv (fun s : State => Memory.wf s.mem = true) _
      (fun b a hb => State.writeLine_wf _ _ _ _ _ (by simpa using hb)) _ _ (State.writeLine_wf _ _ _ _ _ h)

theorem State.hostWrite_wf (s : State) (n : Nat) (l : List Byte) (h : Memory.wf s.mem = true) : Memory.wf (s.hostWrite n l).mem = true := by
  unfold State.hostWrite
  refine foldl_inv (fun s : State => Memory.wf s.mem = true) _ (fun b a hb => ?_) _ _ h
  exact State.storeLine_wf _ _ _ _ _ (by simpa using hb)

theorem State.postEvent_wf (s : State) (fn typ : Nat) (l : List (Nat × Nat × Nat)) (h : Memory.wf s.mem = true) :
    Memory.wf (s.postEvent fn typ l).mem = true := by
  unfold State.postEvent
  simp only
  split
  · exact State.hostWrite_wf _ _ _ (by simpa using h)
  · simpa using h

end Sys2Proof.Machine
end

