-- ==== Sys2Proof/Laws/Issue.lean ====
section
/-!
SUPPORT. What issuing an instruction can do, by what the gate and the instruction's own execution answer.
-/
namespace Sys2Proof.Machine
open Sys2Proof

/-- The issue of an instruction that starts is its own execution. -/
theorem issue_of_starts {i : Instr} {s : State} {c : Cur} {g : Group} (h : Starts i s c g) (body : Ix → State → Done) :
    issue i s body =
      match body (ixOf s c g) (s.begun i c g) with
      | .stall => .next (s.stalled c)
      | .trap s' x => .next ((s'.setGroup c.gid (fun h => h.holding i (ixOf s c g))).takeTrap c.gid x)
      | .next s' => .next (s'.retired c g (g.pc + BitVec.ofNat 56 (issueBytes i c.pre)))
      | .jump s' pc => .next (s'.retired c g pc)
      | .stay s' => .next (((s'.setGroup c.gid (fun h => h.holding i (ixOf s c g))).leaveActive c.gid).countedBut (opnum i) c.gid g) := by
  obtain ⟨h1, h2, h3, _, h5⟩ := h
  unfold issue
  simp only [h1, h2, h3, h5]
  cases body (ixOf s c g) (s.begun i c g) <;> rfl

/-- Without a held replay an instruction is not issued again. -/
theorem isAgain_of_none {g : Group} (h : g.held = none) : g.isAgain = false := by simp [Group.isAgain, h]

/-! ## The state in which the own execution starts -/

/-- An entry changed to itself. -/
theorem Assoc.upd_self {α : Type} {m : Assoc α} {k : Nat} {f : α → α} (h : ∀ v, Assoc.get m k = some v → f v = v) :
    Assoc.upd m k f = m := by
  induction m with
  | nil => rfl
  | cons p r ih =>
    obtain ⟨a, v⟩ := p
    unfold Assoc.upd
    by_cases hk : a = k
    · simp [hk, h v (by simp [Assoc.get, hk])]
    · simp only [hk, if_false]
      rw [ih (fun v hv => h v (by simpa [Assoc.get, hk] using hv))]

/-- A group that holds no instruction has nothing to mark. -/
theorem State.setGroup_holding_of_none {s : State} {k : Nat} (i : Instr) (x : Ix) (h : ∀ g, s.group k = some g → g.held = none) :
    s.setGroup k (fun g => g.holding i x) = s := by
  unfold State.setGroup
  rw [Assoc.upd_self (fun g hg => by simp [Group.holding, h g hg])]

/-! ## No instruction held -/

/-- A group, where it is in the machine, holds no instruction that goes on. -/
def State.FreeGroup (s : State) (k : Nat) : Prop := ∀ g, s.group k = some g → g.held = none

theorem Assoc.get_map_vals {α : Type} (m : Assoc α) (f : Nat × α → Nat × α) (hf : ∀ p, (f p).1 = p.1) (k : Nat) (v : α)
    (h : Assoc.get (m.map f) k = some v) : ∃ w, Assoc.get m k = some w ∧ v = (f (k, w)).2 := by
  induction m with
  | nil => simp [Assoc.get] at h
  | cons p r ih =>
    obtain ⟨a, w⟩ := p
    have e : f (a, w) = (a, (f (a, w)).2) := Prod.ext (hf _) rfl
    rw [List.map_cons, e] at h
    unfold Assoc.get at h ⊢
    by_cases hk : a = k
    · subst hk
      simp only [if_true] at h ⊢
      exact ⟨w, rfl, by simpa using h.symm⟩
    · simp only [hk, if_false] at h ⊢
      exact ih h

theorem State.FreeGroup.setGroup {s : State} {k : Nat} (h : s.FreeGroup k) (f : Group → Group)
    (hf : ∀ g, g.held = none → (f g).held = none) : (s.setGroup k f).FreeGroup k := by
  intro g hg
  simp only [State.group_setGroup_same, Option.map_eq_some_iff] at hg
  obtain ⟨a, ha, rfl⟩ := hg
  exact hf a (h a ha)

theorem State.FreeGroup.wakeMonitors {s : State} {k : Nat} (h : s.FreeGroup k) (n t : Nat) : (s.wakeMonitors n t).FreeGroup k := by
  intro g hg
  obtain ⟨w, hw, rfl⟩ := Assoc.get_map_vals s.groups _ (by intro p; split <;> (try split) <;> rfl) k g hg
  have := h w hw
  dsimp only
  split <;> (try split) <;> exact this

theorem State.FreeGroup.of_groups {s t : State} {k : Nat} (h : s.FreeGroup k) (e : t.groups = s.groups) : t.FreeGroup k := by
  intro g hg
  exact h g (by simpa [State.group, e] using hg)

theorem State.groups_wantLine (s : State) (d own pa : Nat) (w : Bool) : (s.wantLine d own pa w).groups = s.groups :=
  State.wantLine_keeps (f := State.groups) (fun _ _ => rfl) (fun _ _ => rfl) (fun _ _ => rfl) _ _ _ _ _

theorem State.FreeGroup.writeLine {s : State} {k : Nat} (h : s.FreeGroup k) (n t : Nat) (l : List Host.Cell) (tags : List (Inst × Nat)) :
    (s.writeLine n t l tags).FreeGroup k := by
  unfold State.writeLine
  refine State.FreeGroup.wakeMonitors (h.of_groups ?_) _ _
  unfold State.keepVersion State.setLine
  simp only
  split
  · rfl
  · split <;> rfl

theorem State.FreeGroup.storeLine {s : State} {k : Nat} (h : s.FreeGroup k) (n t : Nat) (l : List Host.Cell) (tags : List (Inst × Nat)) :
    (s.storeLine n t l tags).FreeGroup k := by
  unfold State.storeLine
  split
  · exact h
  · exact foldl_inv (fun s : State => s.FreeGroup k) _
      (fun b a hb => State.FreeGroup.writeLine (hb.of_groups (State.groups_wantLine _ _ _ _ _)) _ _ _ _) _ _ (h.writeLine _ _ _ _)

theorem State.FreeGroup.hostWrite {s : State} {k : Nat} (h : s.FreeGroup k) (a : Nat) (l : List Byte) : (s.hostWrite a l).FreeGroup k := by
  unfold State.hostWrite
  refine foldl_inv (fun s : State => s.FreeGroup k) _ (fun b n hb => ?_) _ _ h
  have h1 : (b.wantLine 0 hostPort (n * 256) true).FreeGroup k := hb.of_groups (State.groups_wantLine _ _ _ _ _)
  exact (h1.storeLine n (Nat.max (b.line n).nextTime (b.hostT + 1)) _ []).of_groups rfl

theorem State.FreeGroup.postEvent {s : State} {k : Nat} (h : s.FreeGroup k) (fn typ : Nat) (l : List (Nat × Nat × Nat)) :
    (s.postEvent fn typ l).FreeGroup k := by
  unfold State.postEvent
  simp only
  split
  · have h1 : (s.setFunc fn (fun f => { f with evtSent := f.evtSent + 1 })).FreeGroup k := h.of_groups rfl
    exact h1.hostWrite _ _
  · exact h.of_groups rfl

theorem State.FreeGroup.recordLatent {s : State} {k : Nat} (h : s.FreeGroup k) (l : List RegPos) : (s.recordLatent k l).FreeGroup k := by
  unfold State.recordLatent
  refine foldl_inv (fun s : State => s.FreeGroup k) _ (fun b x hb => ?_) _ _ h
  have h1 := hb.setGroup (fun g => { g with regerr :=
    { g.regerr with valid := true, latent := satAdd g.regerr.latent 1 255, kind := x.kind.code, reg := x.reg, lane := x.lane } })
    (fun _ h => h)
  simp only
  split
  · exact h1
  · split
    · exact h1
    · refine State.FreeGroup.postEvent ?_ _ _ _
      exact h1.of_groups rfl

/-- The group of an instruction that starts holds none when the instruction's own execution begins. -/
theorem Starts.free_begun {i : Instr} {s : State} {c : Cur} {g : Group} (h : Starts i s c g) : (s.begun i c g).FreeGroup c.gid := by
  obtain ⟨_, hg, _, hh, _⟩ := h
  have h0 : s.FreeGroup c.gid := by
    intro x hx
    rw [hg] at hx
    cases hx
    exact hh
  have ho : ∀ (l : List (Nat × Nat)) (p : Nat → Bool) (x : Group), x.held = none →
      (l.foldl (fun (h : Group) (q : Nat × Nat) => if p q.1 then { h.raiseH q.2 with owed := Assoc.del h.owed q.1 } else h) x).held = none :=
    fun l p x hx => foldl_inv (fun y : Group => y.held = none) _ (fun b a hb => by split <;> exact hb) _ _ hx
  unfold State.begun
  refine State.FreeGroup.recordLatent (State.FreeGroup.setGroup ?_ _ (fun x hx => ?_)) _
  · unfold State.stamp
    simp only [hh]
    refine State.FreeGroup.of_groups (State.FreeGroup.setGroup (h0.of_groups (t := { s with uid := s.uid + 1 }) rfl) _ ?_) rfl
    intro _ h
    exact h
  · exact ho x.owed (fun r => readsPos (useCtx i x) i x { kind := .scalar, reg := r, lane := 0 }) x hx

/-- A precise trap of an instruction that starts is the entry of R396 in the state in which its own execution began. -/
theorem issue_of_starts_trap {i : Instr} {s : State} {c : Cur} {g : Group} (h : Starts i s c g) {body : Ix → State → Done} {x : TrapInfo}
    (hb : body (ixOf s c g) (s.begun i c g) = .trap (s.begun i c g) x) : issue i s body = .next ((s.begun i c g).takeTrap c.gid x) := by
  rw [issue_of_starts h, hb]
  simp only
  rw [State.setGroup_holding_of_none _ _ h.free_begun]

end Sys2Proof.Machine
end

