-- ==== Sys2Proof/Laws/PerInstr.lean ====
section
/-!
SUPPORT. The encoding, instruction by instruction: the decoder reads from the words of each well-formed instruction that
instruction, every field where its form places it (R29 to R34, Tables 2.1 and 2.7).
-/
namespace Sys2Proof.Laws.Enc
open Sys2Proof Sys2Proof.Machine

/-- The literal word of an instruction of form L; 0 for another. -/
def literal (i : Instr) : Word :=
  match form i with
  | .l _ _ lit => lit
  | _ => 0

/-- The first word of a well-formed instruction, with its literal, decodes to the instruction. -/
def Statement (i : Instr) : Prop := i.WF → form i ≠ .none → decodeWord (formWord (form i)) (literal i) = .ok i

/-! ## The fields of the word of a form -/

theorem append_toNat {m n : Nat} (x : BitVec m) (y : BitVec n) : (x ++ y).toNat = x.toNat * 2 ^ n + y.toNat := by
  rw [BitVec.toNat_append, ← Nat.shiftLeft_add_eq_or_of_lt y.isLt, Nat.shiftLeft_eq]

theorem slice_toNat {n w : Nat} (x : BitVec w) (s : Nat) : (x.extractLsb' s n).toNat = x.toNat / 2 ^ s % 2 ^ n := by
  simp [BitVec.extractLsb'_toNat, Nat.shiftRight_eq_div_pow]

theorem slice_low {m n : Nat} (x : BitVec m) (y : BitVec n) : (x ++ y).extractLsb' 0 n = y := by
  apply BitVec.eq_of_toNat_eq
  rw [slice_toNat, append_toNat]
  simp [Nat.mod_eq_of_lt y.isLt]

theorem slice_within {m n : Nat} (x : BitVec m) (y : BitVec n) (s k : Nat) (h : s + k ≤ n) :
    (x ++ y).extractLsb' s k = y.extractLsb' s k := by
  apply BitVec.eq_of_getLsbD_eq
  intro i hi
  have : s + i < n := by omega
  simp [hi, BitVec.getLsbD_append, this]

theorem bit_within {m n : Nat} (x : BitVec m) (y : BitVec n) (k : Nat) (h : k < n) : (x ++ y).getLsbD k = y.getLsbD k := by
  simp [BitVec.getLsbD_append, h]

theorem slice_high {m n : Nat} (x : BitVec m) (y : BitVec n) : (x ++ y).extractLsb' n m = x := by
  apply BitVec.eq_of_toNat_eq
  have hx := x.isLt
  have hy := y.isLt
  rw [slice_toNat, append_toNat, Nat.add_comm, Nat.add_mul_div_right _ _ (Nat.two_pow_pos n), Nat.div_eq_of_lt hy]
  simp [Nat.mod_eq_of_lt hx]

/-- Form T (Table 2.1). -/
theorem of_t {i : Instr} {op : BitVec 11} {d a b : Reg} (hf : form i = .t op d a b)
    (h : ∀ w lit, fOp w = op → fD w = d → fA w = a → fB w = b → decodeWord w lit = .ok i) : Statement i := by
  intro _ _
  rw [hf]
  have := op.isLt
  have := d.isLt
  have := a.isLt
  have := b.isLt
  refine h _ _ ?_ ?_ ?_ ?_ <;> apply BitVec.eq_of_toNat_eq <;>
    simp only [formWord, fOp, fD, fA, fB, slice_toNat, append_toNat] <;> omega

/-- Form K. -/
theorem of_k {i : Instr} {op : BitVec 11} {d : Reg} {k : BitVec 14} (hf : form i = .k op d k)
    (h : ∀ w lit, fOp w = op → fD w = d → fK w = k → (∀ s n, s + n ≤ 14 → w.extractLsb' s n = k.extractLsb' s n) →
      (∀ n, n < 14 → w.getLsbD n = k.getLsbD n) → decodeWord w lit = .ok i) : Statement i := by
  intro _ _
  rw [hf]
  have := op.isLt
  have := d.isLt
  have := k.isLt
  refine h _ _ ?_ ?_ ?_ (fun s n hs => slice_within _ _ _ _ hs) (fun n hn => bit_within _ _ _ hn) <;> apply BitVec.eq_of_toNat_eq <;>
    simp only [formWord, fOp, fD, fK, slice_toNat, append_toNat] <;> omega

/-- Form L. -/
theorem of_l {i : Instr} {op : BitVec 11} {d : Reg} {lit : Word} (hf : form i = .l op d lit)
    (h : ∀ w, fOp w = op → fD w = d → fK w = 0 → decodeWord w lit = .ok i) : Statement i := by
  intro _ _
  have hl : literal i = lit := by simp [literal, hf]
  rw [hf, hl]
  have := op.isLt
  have := d.isLt
  refine h _ ?_ ?_ (slice_low _ _) <;> apply BitVec.eq_of_toNat_eq <;>
    simp only [formWord, fOp, fD, slice_toNat, append_toNat, BitVec.toNat_ofNat] <;> omega

/-- Form B. -/
theorem of_b {i : Instr} {op : BitVec 11} {u : Bool} {p : BitVec 4} {s : Bool} {o : BitVec 15} (hf : form i = .b op u p s o)
    (h : ∀ w lit, fOp w = op → fU w = u → fPred w = p → fSense w = s → fOff w = o → decodeWord w lit = .ok i) : Statement i := by
  intro _ _
  rw [hf]
  have := op.isLt
  have := p.isLt
  have := o.isLt
  refine h _ _ ?_ ?_ ?_ ?_ ?_
  · apply BitVec.eq_of_toNat_eq
    simp only [formWord, fOp, slice_toNat, append_toNat]
    cases u <;> cases s <;> simp <;> omega
  · simp only [formWord, fU, BitVec.getLsbD_append]
    cases u <;> rfl
  · apply BitVec.eq_of_toNat_eq
    simp only [formWord, fPred, slice_toNat, append_toNat]
    cases u <;> cases s <;> simp <;> omega
  · simp only [formWord, fSense, BitVec.getLsbD_append]
    cases s <;> rfl
  · exact slice_low _ _

/-- Form W. -/
theorem of_w {i : Instr} {op : BitVec 11} {l s c : BitVec 5} {t : BitVec 6} (hf : form i = .w op l s c t)
    (h : ∀ w lit, fOp w = op → w.extractLsb' 16 5 = l → w.extractLsb' 11 5 = s → w.extractLsb' 6 5 = c → w.extractLsb' 0 6 = t →
      decodeWord w lit = .ok i) : Statement i := by
  intro _ _
  rw [hf]
  have := op.isLt
  have := l.isLt
  have := s.isLt
  have := c.isLt
  have := t.isLt
  refine h _ _ ?_ ?_ ?_ ?_ ?_ <;> apply BitVec.eq_of_toNat_eq <;> simp only [formWord, fOp, slice_toNat, append_toNat] <;> omega

/-- A step of an engine or of the host has no words. -/
theorem event {i : Instr} (hf : form i = .none) : Statement i := fun _ h => absurd hf h

/-! ## Immediates in part of the field k -/

theorem low4 (k : BitVec 4) : (0#10 ++ k : BitVec 14).extractLsb' 0 4 = k ∧ (0#10 ++ k : BitVec 14).extractLsb' 4 10 = 0 :=
  ⟨slice_low _ _, slice_high _ _⟩

theorem low3 (k : BitVec 3) : (0#11 ++ k : BitVec 14).extractLsb' 0 3 = k ∧ (0#11 ++ k : BitVec 14).extractLsb' 3 11 = 0 :=
  ⟨slice_low _ _, slice_high _ _⟩

theorem low1 (k : Bool) : (0#13 ++ BitVec.ofBool k : BitVec 14).getLsbD 0 = k ∧ (0#13 ++ BitVec.ofBool k : BitVec 14).extractLsb' 1 13 = 0 := by
  cases k <;> decide

theorem ordFields (n : Bool) (o : BitVec 3) (s : BitVec 4) :
    (0#6 ++ BitVec.ofBool n ++ o ++ s : BitVec 14).getLsbD 7 = n ∧ (0#6 ++ BitVec.ofBool n ++ o ++ s : BitVec 14).extractLsb' 4 3 = o
    ∧ (0#6 ++ BitVec.ofBool n ++ o ++ s : BitVec 14).extractLsb' 0 4 = s ∧ (0#6 ++ BitVec.ofBool n ++ o ++ s : BitVec 14).extractLsb' 8 6 = 0 := by
  revert n o s
  decide

theorem fenceFields (o : BitVec 3) (s : BitVec 4) :
    (0#7 ++ o ++ s : BitVec 14).extractLsb' 4 3 = o ∧ (0#7 ++ o ++ s : BitVec 14).extractLsb' 0 4 = s
    ∧ (0#7 ++ o ++ s : BitVec 14).extractLsb' 7 7 = 0 := by
  revert o s
  decide

/-! ## A word with an opcode that Table 2.7 does not assign -/

/-- At an offset that a class does not assign, the class's decoder gives the unassigned word. -/
theorem unassigned_offset (w lit : Word) (o : Nat) :
    (0x13 ≤ o → decodeClass0 o w = .ok (.unassignedOpcode w)) ∧ (0x0F ≤ o → decodeClass1 o w lit = .ok (.unassignedOpcode w))
    ∧ (0x1F ≤ o → decodeClass2 o w lit = .ok (.unassignedOpcode w)) ∧ (0x18 ≤ o → decodeClass3 o w = .ok (.unassignedOpcode w))
    ∧ (0x07 ≤ o → decodeClass4 o w = .ok (.unassignedOpcode w)) ∧ (0x16 ≤ o → decodeClass5 o w lit = .ok (.unassignedOpcode w))
    ∧ (0x0C ≤ o → decodeClass6 o w = .ok (.unassignedOpcode w)) ∧ (0x17 ≤ o → decodeClass7 o w = .ok (.unassignedOpcode w))
    ∧ (0x20 ≤ o → decodeClass8 o w = .ok (.unassignedOpcode w)) ∧ (0x09 ≤ o → decodeClass9 o w = .ok (.unassignedOpcode w))
    ∧ (0x0C ≤ o → decodeClass10 o w lit = .ok (.unassignedOpcode w)) ∧ (0x07 ≤ o → decodeClass11 o w = .ok (.unassignedOpcode w))
    ∧ (0x05 ≤ o → decodeClass12 o w = .ok (.unassignedOpcode w)) ∧ (0x09 ≤ o → decodeClass13 o w = .ok (.unassignedOpcode w))
    ∧ (0x08 ≤ o → decodeClass14 o w = .ok (.unassignedOpcode w)) := by
  refine ⟨?_, ?_, ?_, ?_, ?_, ?_, ?_, ?_, ?_, ?_, ?_, ?_, ?_, ?_, ?_⟩ <;> intro h
  · unfold decodeClass0; split <;> first | rfl | omega
  · unfold decodeClass1; split <;> first | rfl | omega
  · unfold decodeClass2; split <;> first | rfl | omega
  · unfold decodeClass3; split <;> first | rfl | omega
  · unfold decodeClass4; split <;> first | rfl | omega
  · unfold decodeClass5; split <;> first | rfl | omega
  · unfold decodeClass6; split <;> first | rfl | omega
  · unfold decodeClass7; split <;> first | rfl | omega
  · unfold decodeClass8; split <;> first | rfl | omega
  · unfold decodeClass9; split <;> first | rfl | omega
  · unfold decodeClass10; split <;> first | rfl | omega
  · unfold decodeClass11; split <;> first | rfl | omega
  · unfold decodeClass12; split <;> first | rfl | omega
  · unfold decodeClass13; split <;> first | rfl | omega
  · unfold decodeClass14; split <;> first | rfl | omega

theorem unassigned_word (w lit : Word) (h : isAssigned (fOp w).toNat = false) : decodeWord w lit = .ok (.unassignedOpcode w) := by
  have hb := (fOp w).isLt
  obtain ⟨a0, a1, a2, a3, a4, a5, a6, a7, a8, a9, a10, a11, a12, a13, a14⟩ := unassigned_offset w lit ((fOp w).toNat % 128)
  unfold decodeWord
  simp only [isAssigned, decide_eq_false_iff_not, Nat.not_lt] at h
  generalize (fOp w).toNat % 128 = o at *
  generalize hk : (fOp w).toNat / 128 = k at *
  have hc : k < 16 := by omega
  clear hk hb
  interval_cases k
  · exact a0 h
  · exact a1 h
  · exact a2 h
  · exact a3 h
  · exact a4 h
  · exact a5 h
  · exact a6 h
  · exact a7 h
  · exact a8 h
  · exact a9 h
  · exact a10 h
  · exact a11 h
  · exact a12 h
  · exact a13 h
  · exact a14 h
  · rfl

theorem unassigned (w : Word) : Statement (.unassignedOpcode w) := by
  intro h _
  refine unassigned_word w _ ?_
  have : (fOp w).toNat = w.toNat >>> 21 := by
    have := w.isLt
    simp only [fOp, slice_toNat, Nat.shiftRight_eq_div_pow]
    omega
  rw [this]
  simpa [Instr.WF, Instr.wellFormed] using h

theorem illegal_word (x : BitVec 21) : Statement (.illegal x) := by
  intro _ _
  have := x.isLt
  have h0 : fOp (0#11 ++ x : BitVec 32) = 0 := by
    exact (slice_high (0#11) x).trans rfl
  show decodeWord (0#11 ++ x : BitVec 32) 0 = _
  have h1 : (0#11 ++ x : BitVec 32).extractLsb' 0 21 = x := slice_low _ _
  simp [decodeWord, decodeClass0, h0, h1]

/-! ## Each instruction -/

set_option Elab.async false
set_option linter.unusedSimpArgs false

theorem illegal (x : BitVec 21) : Statement (.illegal x) := illegal_word x
theorem unassignedOpcode (w : Word) : Statement (.unassignedOpcode w) := unassigned w
theorem nop : Statement .nop := of_t rfl (by intro _ _ h1 h2 h3 h4; simp [decodeWord, decodeClass0, zeroElse, h1, h2, h3, h4])
theorem br (u : Bool) (pred : BitVec 4) (sense : Bool) (off : BitVec 15) : Statement (.br u pred sense off) := of_b rfl (by intro _ _ h1 h2 h3 h4 h5; simp [decodeWord, decodeClass0, zeroElse, h1, h2, h3, h4, h5])
theorem brp (u : Bool) (pred : BitVec 4) (sense : Bool) (off : BitVec 15) : Statement (.brp u pred sense off) := of_b rfl (by intro _ _ h1 h2 h3 h4 h5; simp [decodeWord, decodeClass0, zeroElse, h1, h2, h3, h4, h5])
theorem brexz (off : BitVec 15) : Statement (.brexz off) := of_b rfl (by intro _ _ h1 h2 h3 h4 h5; simp [decodeWord, decodeClass0, zeroElse, h1, h2, h3, h4, h5])
theorem call (u : Bool) (pred : BitVec 4) (sense : Bool) (off : BitVec 15) : Statement (.call u pred sense off) := of_b rfl (by intro _ _ h1 h2 h3 h4 h5; simp [decodeWord, decodeClass0, zeroElse, h1, h2, h3, h4, h5])
theorem callr (a : Reg) : Statement (.callr a) := of_t rfl (by intro _ _ h1 h2 h3 h4; simp [decodeWord, decodeClass0, zeroElse, h1, h2, h3, h4])
theorem ret : Statement .ret := of_t rfl (by intro _ _ h1 h2 h3 h4; simp [decodeWord, decodeClass0, zeroElse, h1, h2, h3, h4])
theorem jmpr (a : Reg) : Statement (.jmpr a) := of_t rfl (by intro _ _ h1 h2 h3 h4; simp [decodeWord, decodeClass0, zeroElse, h1, h2, h3, h4])
theorem ifp (u : Bool) (pred : BitVec 4) (sense : Bool) (off : BitVec 15) : Statement (.ifp u pred sense off) := of_b rfl (by intro _ _ h1 h2 h3 h4 h5; simp [decodeWord, decodeClass0, zeroElse, h1, h2, h3, h4, h5])
theorem elsep (off : BitVec 15) : Statement (.elsep off) := of_b rfl (by intro _ _ h1 h2 h3 h4 h5; simp [decodeWord, decodeClass0, zeroElse, h1, h2, h3, h4, h5])
theorem endif : Statement .endif := of_t rfl (by intro _ _ h1 h2 h3 h4; simp [decodeWord, decodeClass0, zeroElse, h1, h2, h3, h4])
theorem spawn (d a b : Reg) : Statement (.spawn d a b) := of_t rfl (by intro _ _ h1 h2 h3 h4; simp [decodeWord, decodeClass0, zeroElse, h1, h2, h3, h4])
theorem spawnw (d a b : Reg) : Statement (.spawnw d a b) := of_t rfl (by intro _ _ h1 h2 h3 h4; simp [decodeWord, decodeClass0, zeroElse, h1, h2, h3, h4])
theorem exit : Statement .exit := of_t rfl (by intro _ _ h1 h2 h3 h4; simp [decodeWord, decodeClass0, zeroElse, h1, h2, h3, h4])
theorem yield : Statement .yield := of_t rfl (by intro _ _ h1 h2 h3 h4; simp [decodeWord, decodeClass0, zeroElse, h1, h2, h3, h4])
theorem setpri (k : BitVec 4) : Statement (.setpri k) := of_k rfl (by intro _ _ h1 h2 h3 h4 h5; simp [decodeWord, decodeClass0, zeroElse, h1, h2, h3, h4, h5, low4 k])
theorem sleep (k : BitVec 14) : Statement (.sleep k) := of_k rfl (by intro _ _ h1 h2 h3 h4 h5; simp [decodeWord, decodeClass0, zeroElse, h1, h2, h3, h4, h5])
theorem lnch (d a b : Reg) : Statement (.lnch d a b) := of_t rfl (by intro _ _ h1 h2 h3 h4; simp [decodeWord, decodeClass0, zeroElse, h1, h2, h3, h4])
theorem setmode (lit : Word) : Statement (.setmode lit) := of_l rfl (by intro _ h1 h2 h3; simp [decodeWord, decodeClass1, zeroElse, h1, h2, h3])
theorem setmodes (a : Reg) : Statement (.setmodes a) := of_t rfl (by intro _ _ h1 h2 h3 h4; simp [decodeWord, decodeClass1, zeroElse, h1, h2, h3, h4])
theorem rdmode (d : Reg) : Statement (.rdmode d) := of_t rfl (by intro _ _ h1 h2 h3 h4; simp [decodeWord, decodeClass1, zeroElse, h1, h2, h3, h4])
theorem rdx (d : Reg) : Statement (.rdx d) := of_t rfl (by intro _ _ h1 h2 h3 h4; simp [decodeWord, decodeClass1, zeroElse, h1, h2, h3, h4])
theorem wrx (a : Reg) : Statement (.wrx a) := of_t rfl (by intro _ _ h1 h2 h3 h4; simp [decodeWord, decodeClass1, zeroElse, h1, h2, h3, h4])
theorem prds (d a : Reg) : Statement (.prds d a) := of_t rfl (by intro _ _ h1 h2 h3 h4; simp [decodeWord, decodeClass1, zeroElse, h1, h2, h3, h4])
theorem pwrs (d a : Reg) : Statement (.pwrs d a) := of_t rfl (by intro _ _ h1 h2 h3 h4; simp [decodeWord, decodeClass1, zeroElse, h1, h2, h3, h4])
theorem pand (d a b : Reg) : Statement (.pand d a b) := of_t rfl (by intro _ _ h1 h2 h3 h4; simp [decodeWord, decodeClass1, zeroElse, h1, h2, h3, h4])
theorem por (d a b : Reg) : Statement (.por d a b) := of_t rfl (by intro _ _ h1 h2 h3 h4; simp [decodeWord, decodeClass1, zeroElse, h1, h2, h3, h4])
theorem pxor (d a b : Reg) : Statement (.pxor d a b) := of_t rfl (by intro _ _ h1 h2 h3 h4; simp [decodeWord, decodeClass1, zeroElse, h1, h2, h3, h4])
theorem pandn (d a b : Reg) : Statement (.pandn d a b) := of_t rfl (by intro _ _ h1 h2 h3 h4; simp [decodeWord, decodeClass1, zeroElse, h1, h2, h3, h4])
theorem pnot (d a : Reg) : Statement (.pnot d a) := of_t rfl (by intro _ _ h1 h2 h3 h4; simp [decodeWord, decodeClass1, zeroElse, h1, h2, h3, h4])
theorem pset (d : Reg) (k : Bool) : Statement (.pset d k) := of_k rfl (by
  intro _ _ h1 h2 _ h4 h5
  have h0 := (h5 0 (by omega)).trans (low1 k).1
  simp at h0
  simp [decodeWord, decodeClass1, zeroElse, h0, h1, h2, h4, low1 k])
theorem pcnt (d a : Reg) : Statement (.pcnt d a) := of_t rfl (by intro _ _ h1 h2 h3 h4; simp [decodeWord, decodeClass1, zeroElse, h1, h2, h3, h4])
theorem pffs (d a : Reg) : Statement (.pffs d a) := of_t rfl (by intro _ _ h1 h2 h3 h4; simp [decodeWord, decodeClass1, zeroElse, h1, h2, h3, h4])
theorem add (d a b : Reg) : Statement (.add d a b) := of_t rfl (by intro _ _ h1 h2 h3 h4; simp [decodeWord, decodeClass2, zeroElse, h1, h2, h3, h4])
theorem sub (d a b : Reg) : Statement (.sub d a b) := of_t rfl (by intro _ _ h1 h2 h3 h4; simp [decodeWord, decodeClass2, zeroElse, h1, h2, h3, h4])
theorem mul (d a b : Reg) : Statement (.mul d a b) := of_t rfl (by intro _ _ h1 h2 h3 h4; simp [decodeWord, decodeClass2, zeroElse, h1, h2, h3, h4])
theorem mulh (d a b : Reg) : Statement (.mulh d a b) := of_t rfl (by intro _ _ h1 h2 h3 h4; simp [decodeWord, decodeClass2, zeroElse, h1, h2, h3, h4])
theorem mad (d a b : Reg) : Statement (.mad d a b) := of_t rfl (by intro _ _ h1 h2 h3 h4; simp [decodeWord, decodeClass2, zeroElse, h1, h2, h3, h4])
theorem min (d a b : Reg) : Statement (.min d a b) := of_t rfl (by intro _ _ h1 h2 h3 h4; simp [decodeWord, decodeClass2, zeroElse, h1, h2, h3, h4])
theorem max (d a b : Reg) : Statement (.max d a b) := of_t rfl (by intro _ _ h1 h2 h3 h4; simp [decodeWord, decodeClass2, zeroElse, h1, h2, h3, h4])
theorem abs (d a : Reg) : Statement (.abs d a) := of_t rfl (by intro _ _ h1 h2 h3 h4; simp [decodeWord, decodeClass2, zeroElse, h1, h2, h3, h4])
theorem neg (d a : Reg) : Statement (.neg d a) := of_t rfl (by intro _ _ h1 h2 h3 h4; simp [decodeWord, decodeClass2, zeroElse, h1, h2, h3, h4])
theorem and (d a b : Reg) : Statement (.and d a b) := of_t rfl (by intro _ _ h1 h2 h3 h4; simp [decodeWord, decodeClass2, zeroElse, h1, h2, h3, h4])
theorem or (d a b : Reg) : Statement (.or d a b) := of_t rfl (by intro _ _ h1 h2 h3 h4; simp [decodeWord, decodeClass2, zeroElse, h1, h2, h3, h4])
theorem xor (d a b : Reg) : Statement (.xor d a b) := of_t rfl (by intro _ _ h1 h2 h3 h4; simp [decodeWord, decodeClass2, zeroElse, h1, h2, h3, h4])
theorem not (d a : Reg) : Statement (.not d a) := of_t rfl (by intro _ _ h1 h2 h3 h4; simp [decodeWord, decodeClass2, zeroElse, h1, h2, h3, h4])
theorem shl (d a b : Reg) : Statement (.shl d a b) := of_t rfl (by intro _ _ h1 h2 h3 h4; simp [decodeWord, decodeClass2, zeroElse, h1, h2, h3, h4])
theorem shr (d a b : Reg) : Statement (.shr d a b) := of_t rfl (by intro _ _ h1 h2 h3 h4; simp [decodeWord, decodeClass2, zeroElse, h1, h2, h3, h4])
theorem sar (d a b : Reg) : Statement (.sar d a b) := of_t rfl (by intro _ _ h1 h2 h3 h4; simp [decodeWord, decodeClass2, zeroElse, h1, h2, h3, h4])
theorem clz (d a : Reg) : Statement (.clz d a) := of_t rfl (by intro _ _ h1 h2 h3 h4; simp [decodeWord, decodeClass2, zeroElse, h1, h2, h3, h4])
theorem popc (d a : Reg) : Statement (.popc d a) := of_t rfl (by intro _ _ h1 h2 h3 h4; simp [decodeWord, decodeClass2, zeroElse, h1, h2, h3, h4])
theorem bfx (d a b : Reg) : Statement (.bfx d a b) := of_t rfl (by intro _ _ h1 h2 h3 h4; simp [decodeWord, decodeClass2, zeroElse, h1, h2, h3, h4])
theorem bins (d a b : Reg) : Statement (.bins d a b) := of_t rfl (by intro _ _ h1 h2 h3 h4; simp [decodeWord, decodeClass2, zeroElse, h1, h2, h3, h4])
theorem sel (d a b : Reg) : Statement (.sel d a b) := of_t rfl (by intro _ _ h1 h2 h3 h4; simp [decodeWord, decodeClass2, zeroElse, h1, h2, h3, h4])
theorem cmpeq (d a b : Reg) : Statement (.cmpeq d a b) := of_t rfl (by intro _ _ h1 h2 h3 h4; simp [decodeWord, decodeClass2, zeroElse, h1, h2, h3, h4])
theorem cmpne (d a b : Reg) : Statement (.cmpne d a b) := of_t rfl (by intro _ _ h1 h2 h3 h4; simp [decodeWord, decodeClass2, zeroElse, h1, h2, h3, h4])
theorem cmplt (d a b : Reg) : Statement (.cmplt d a b) := of_t rfl (by intro _ _ h1 h2 h3 h4; simp [decodeWord, decodeClass2, zeroElse, h1, h2, h3, h4])
theorem cmple (d a b : Reg) : Statement (.cmple d a b) := of_t rfl (by intro _ _ h1 h2 h3 h4; simp [decodeWord, decodeClass2, zeroElse, h1, h2, h3, h4])
theorem cmpgt (d a b : Reg) : Statement (.cmpgt d a b) := of_t rfl (by intro _ _ h1 h2 h3 h4; simp [decodeWord, decodeClass2, zeroElse, h1, h2, h3, h4])
theorem cmpge (d a b : Reg) : Statement (.cmpge d a b) := of_t rfl (by intro _ _ h1 h2 h3 h4; simp [decodeWord, decodeClass2, zeroElse, h1, h2, h3, h4])
theorem mov (d a : Reg) : Statement (.mov d a) := of_t rfl (by intro _ _ h1 h2 h3 h4; simp [decodeWord, decodeClass2, zeroElse, h1, h2, h3, h4])
theorem movs (d a : Reg) : Statement (.movs d a) := of_t rfl (by intro _ _ h1 h2 h3 h4; simp [decodeWord, decodeClass2, zeroElse, h1, h2, h3, h4])
theorem movi (d : Reg) (lit : Word) : Statement (.movi d lit) := of_l rfl (by intro _ h1 h2 h3; simp [decodeWord, decodeClass2, zeroElse, h1, h2, h3])
theorem laneid (d : Reg) : Statement (.laneid d) := of_t rfl (by intro _ _ h1 h2 h3 h4; simp [decodeWord, decodeClass2, zeroElse, h1, h2, h3, h4])
theorem fadd (d a b : Reg) : Statement (.fadd d a b) := of_t rfl (by intro _ _ h1 h2 h3 h4; simp [decodeWord, decodeClass3, zeroElse, h1, h2, h3, h4])
theorem fsub (d a b : Reg) : Statement (.fsub d a b) := of_t rfl (by intro _ _ h1 h2 h3 h4; simp [decodeWord, decodeClass3, zeroElse, h1, h2, h3, h4])
theorem fmul (d a b : Reg) : Statement (.fmul d a b) := of_t rfl (by intro _ _ h1 h2 h3 h4; simp [decodeWord, decodeClass3, zeroElse, h1, h2, h3, h4])
theorem fma (d a b : Reg) : Statement (.fma d a b) := of_t rfl (by intro _ _ h1 h2 h3 h4; simp [decodeWord, decodeClass3, zeroElse, h1, h2, h3, h4])
theorem fmin (d a b : Reg) : Statement (.fmin d a b) := of_t rfl (by intro _ _ h1 h2 h3 h4; simp [decodeWord, decodeClass3, zeroElse, h1, h2, h3, h4])
theorem fmax (d a b : Reg) : Statement (.fmax d a b) := of_t rfl (by intro _ _ h1 h2 h3 h4; simp [decodeWord, decodeClass3, zeroElse, h1, h2, h3, h4])
theorem fabs (d a : Reg) : Statement (.fabs d a) := of_t rfl (by intro _ _ h1 h2 h3 h4; simp [decodeWord, decodeClass3, zeroElse, h1, h2, h3, h4])
theorem fneg (d a : Reg) : Statement (.fneg d a) := of_t rfl (by intro _ _ h1 h2 h3 h4; simp [decodeWord, decodeClass3, zeroElse, h1, h2, h3, h4])
theorem fcmpeq (d a b : Reg) : Statement (.fcmpeq d a b) := of_t rfl (by intro _ _ h1 h2 h3 h4; simp [decodeWord, decodeClass3, zeroElse, h1, h2, h3, h4])
theorem fcmpne (d a b : Reg) : Statement (.fcmpne d a b) := of_t rfl (by intro _ _ h1 h2 h3 h4; simp [decodeWord, decodeClass3, zeroElse, h1, h2, h3, h4])
theorem fcmplt (d a b : Reg) : Statement (.fcmplt d a b) := of_t rfl (by intro _ _ h1 h2 h3 h4; simp [decodeWord, decodeClass3, zeroElse, h1, h2, h3, h4])
theorem fcmple (d a b : Reg) : Statement (.fcmple d a b) := of_t rfl (by intro _ _ h1 h2 h3 h4; simp [decodeWord, decodeClass3, zeroElse, h1, h2, h3, h4])
theorem fcmpgt (d a b : Reg) : Statement (.fcmpgt d a b) := of_t rfl (by intro _ _ h1 h2 h3 h4; simp [decodeWord, decodeClass3, zeroElse, h1, h2, h3, h4])
theorem fcmpge (d a b : Reg) : Statement (.fcmpge d a b) := of_t rfl (by intro _ _ h1 h2 h3 h4; simp [decodeWord, decodeClass3, zeroElse, h1, h2, h3, h4])
theorem fcmpun (d a b : Reg) : Statement (.fcmpun d a b) := of_t rfl (by intro _ _ h1 h2 h3 h4; simp [decodeWord, decodeClass3, zeroElse, h1, h2, h3, h4])
theorem frcp (d a : Reg) : Statement (.frcp d a) := of_t rfl (by intro _ _ h1 h2 h3 h4; simp [decodeWord, decodeClass3, zeroElse, h1, h2, h3, h4])
theorem frsq (d a : Reg) : Statement (.frsq d a) := of_t rfl (by intro _ _ h1 h2 h3 h4; simp [decodeWord, decodeClass3, zeroElse, h1, h2, h3, h4])
theorem fsqrt (d a : Reg) : Statement (.fsqrt d a) := of_t rfl (by intro _ _ h1 h2 h3 h4; simp [decodeWord, decodeClass3, zeroElse, h1, h2, h3, h4])
theorem fexp2 (d a : Reg) : Statement (.fexp2 d a) := of_t rfl (by intro _ _ h1 h2 h3 h4; simp [decodeWord, decodeClass3, zeroElse, h1, h2, h3, h4])
theorem flog2 (d a : Reg) : Statement (.flog2 d a) := of_t rfl (by intro _ _ h1 h2 h3 h4; simp [decodeWord, decodeClass3, zeroElse, h1, h2, h3, h4])
theorem fsin (d a : Reg) : Statement (.fsin d a) := of_t rfl (by intro _ _ h1 h2 h3 h4; simp [decodeWord, decodeClass3, zeroElse, h1, h2, h3, h4])
theorem fcos (d a : Reg) : Statement (.fcos d a) := of_t rfl (by intro _ _ h1 h2 h3 h4; simp [decodeWord, decodeClass3, zeroElse, h1, h2, h3, h4])
theorem ftanh (d a : Reg) : Statement (.ftanh d a) := of_t rfl (by intro _ _ h1 h2 h3 h4; simp [decodeWord, decodeClass3, zeroElse, h1, h2, h3, h4])
theorem fclass (d a : Reg) : Statement (.fclass d a) := of_t rfl (by intro _ _ h1 h2 h3 h4; simp [decodeWord, decodeClass3, zeroElse, h1, h2, h3, h4])
theorem cvt (d a b : Reg) : Statement (.cvt d a b) := of_t rfl (by intro _ _ h1 h2 h3 h4; simp [decodeWord, decodeClass4, zeroElse, h1, h2, h3, h4])
theorem pq (d a b : Reg) : Statement (.pq d a b) := of_t rfl (by intro _ _ h1 h2 h3 h4; simp [decodeWord, decodeClass4, zeroElse, h1, h2, h3, h4])
theorem px (d a b : Reg) : Statement (.px d a b) := of_t rfl (by intro _ _ h1 h2 h3 h4; simp [decodeWord, decodeClass4, zeroElse, h1, h2, h3, h4])
theorem topkins (d a b : Reg) : Statement (.topkins d a b) := of_t rfl (by intro _ _ h1 h2 h3 h4; simp [decodeWord, decodeClass4, zeroElse, h1, h2, h3, h4])
theorem keepk (d a b : Reg) : Statement (.keepk d a b) := of_t rfl (by intro _ _ h1 h2 h3 h4; simp [decodeWord, decodeClass4, zeroElse, h1, h2, h3, h4])
theorem fldexp (d a b : Reg) : Statement (.fldexp d a b) := of_t rfl (by intro _ _ h1 h2 h3 h4; simp [decodeWord, decodeClass4, zeroElse, h1, h2, h3, h4])
theorem ffrexp (d a b : Reg) : Statement (.ffrexp d a b) := of_t rfl (by intro _ _ h1 h2 h3 h4; simp [decodeWord, decodeClass4, zeroElse, h1, h2, h3, h4])
theorem sadd (d a b : Reg) : Statement (.sadd d a b) := of_t rfl (by intro _ _ h1 h2 h3 h4; simp [decodeWord, decodeClass5, zeroElse, h1, h2, h3, h4])
theorem ssub (d a b : Reg) : Statement (.ssub d a b) := of_t rfl (by intro _ _ h1 h2 h3 h4; simp [decodeWord, decodeClass5, zeroElse, h1, h2, h3, h4])
theorem smul (d a b : Reg) : Statement (.smul d a b) := of_t rfl (by intro _ _ h1 h2 h3 h4; simp [decodeWord, decodeClass5, zeroElse, h1, h2, h3, h4])
theorem smin (d a b : Reg) : Statement (.smin d a b) := of_t rfl (by intro _ _ h1 h2 h3 h4; simp [decodeWord, decodeClass5, zeroElse, h1, h2, h3, h4])
theorem smax (d a b : Reg) : Statement (.smax d a b) := of_t rfl (by intro _ _ h1 h2 h3 h4; simp [decodeWord, decodeClass5, zeroElse, h1, h2, h3, h4])
theorem sand (d a b : Reg) : Statement (.sand d a b) := of_t rfl (by intro _ _ h1 h2 h3 h4; simp [decodeWord, decodeClass5, zeroElse, h1, h2, h3, h4])
theorem sor (d a b : Reg) : Statement (.sor d a b) := of_t rfl (by intro _ _ h1 h2 h3 h4; simp [decodeWord, decodeClass5, zeroElse, h1, h2, h3, h4])
theorem sxor (d a b : Reg) : Statement (.sxor d a b) := of_t rfl (by intro _ _ h1 h2 h3 h4; simp [decodeWord, decodeClass5, zeroElse, h1, h2, h3, h4])
theorem sshl (d a b : Reg) : Statement (.sshl d a b) := of_t rfl (by intro _ _ h1 h2 h3 h4; simp [decodeWord, decodeClass5, zeroElse, h1, h2, h3, h4])
theorem sshr (d a b : Reg) : Statement (.sshr d a b) := of_t rfl (by intro _ _ h1 h2 h3 h4; simp [decodeWord, decodeClass5, zeroElse, h1, h2, h3, h4])
theorem ssar (d a b : Reg) : Statement (.ssar d a b) := of_t rfl (by intro _ _ h1 h2 h3 h4; simp [decodeWord, decodeClass5, zeroElse, h1, h2, h3, h4])
theorem scmpeq (d a b : Reg) : Statement (.scmpeq d a b) := of_t rfl (by intro _ _ h1 h2 h3 h4; simp [decodeWord, decodeClass5, zeroElse, h1, h2, h3, h4])
theorem scmpne (d a b : Reg) : Statement (.scmpne d a b) := of_t rfl (by intro _ _ h1 h2 h3 h4; simp [decodeWord, decodeClass5, zeroElse, h1, h2, h3, h4])
theorem scmplt (d a b : Reg) : Statement (.scmplt d a b) := of_t rfl (by intro _ _ h1 h2 h3 h4; simp [decodeWord, decodeClass5, zeroElse, h1, h2, h3, h4])
theorem scmple (d a b : Reg) : Statement (.scmple d a b) := of_t rfl (by intro _ _ h1 h2 h3 h4; simp [decodeWord, decodeClass5, zeroElse, h1, h2, h3, h4])
theorem scmpltn (d a b : Reg) : Statement (.scmpltn d a b) := of_t rfl (by intro _ _ h1 h2 h3 h4; simp [decodeWord, decodeClass5, zeroElse, h1, h2, h3, h4])
theorem scmplen (d a b : Reg) : Statement (.scmplen d a b) := of_t rfl (by intro _ _ h1 h2 h3 h4; simp [decodeWord, decodeClass5, zeroElse, h1, h2, h3, h4])
theorem smov (d a : Reg) : Statement (.smov d a) := of_t rfl (by intro _ _ h1 h2 h3 h4; simp [decodeWord, decodeClass5, zeroElse, h1, h2, h3, h4])
theorem smovi (d : Reg) (lit : Word) : Statement (.smovi d lit) := of_l rfl (by intro _ h1 h2 h3; simp [decodeWord, decodeClass5, zeroElse, h1, h2, h3])
theorem saddi (d : Reg) (k : BitVec 14) : Statement (.saddi d k) := of_k rfl (by intro _ _ h1 h2 h3 h4 h5; simp [decodeWord, decodeClass5, zeroElse, h1, h2, h3, h4, h5])
theorem sclz (d a : Reg) : Statement (.sclz d a) := of_t rfl (by intro _ _ h1 h2 h3 h4; simp [decodeWord, decodeClass5, zeroElse, h1, h2, h3, h4])
theorem spopc (d a : Reg) : Statement (.spopc d a) := of_t rfl (by intro _ _ h1 h2 h3 h4; simp [decodeWord, decodeClass5, zeroElse, h1, h2, h3, h4])
theorem xacq (m : BitVec 3) : Statement (.xacq m) := of_k rfl (by intro _ _ h1 h2 h3 h4 h5; simp [decodeWord, decodeClass6, zeroElse, h1, h2, h3, h4, h5, low3 m])
theorem xtry (d : Reg) (m : BitVec 3) : Statement (.xtry d m) := of_k rfl (by intro _ _ h1 h2 h3 h4 h5; simp [decodeWord, decodeClass6, zeroElse, h1, h2, h3, h4, h5, low3 m])
theorem xrel (m : BitVec 3) : Statement (.xrel m) := of_k rfl (by intro _ _ h1 h2 h3 h4 h5; simp [decodeWord, decodeClass6, zeroElse, h1, h2, h3, h4, h5, low3 m])
theorem shfl (d a b : Reg) : Statement (.shfl d a b) := of_t rfl (by intro _ _ h1 h2 h3 h4; simp [decodeWord, decodeClass6, zeroElse, h1, h2, h3, h4])
theorem shflup (d a b : Reg) : Statement (.shflup d a b) := of_t rfl (by intro _ _ h1 h2 h3 h4; simp [decodeWord, decodeClass6, zeroElse, h1, h2, h3, h4])
theorem shfldn (d a b : Reg) : Statement (.shfldn d a b) := of_t rfl (by intro _ _ h1 h2 h3 h4; simp [decodeWord, decodeClass6, zeroElse, h1, h2, h3, h4])
theorem shflx (d a b : Reg) : Statement (.shflx d a b) := of_t rfl (by intro _ _ h1 h2 h3 h4; simp [decodeWord, decodeClass6, zeroElse, h1, h2, h3, h4])
theorem lrd (d a b : Reg) : Statement (.lrd d a b) := of_t rfl (by intro _ _ h1 h2 h3 h4; simp [decodeWord, decodeClass6, zeroElse, h1, h2, h3, h4])
theorem lwr (d a b : Reg) : Statement (.lwr d a b) := of_t rfl (by intro _ _ h1 h2 h3 h4; simp [decodeWord, decodeClass6, zeroElse, h1, h2, h3, h4])
theorem rsum (d a : Reg) : Statement (.rsum d a) := of_t rfl (by intro _ _ h1 h2 h3 h4; simp [decodeWord, decodeClass6, zeroElse, h1, h2, h3, h4])
theorem rmax (d a : Reg) : Statement (.rmax d a) := of_t rfl (by intro _ _ h1 h2 h3 h4; simp [decodeWord, decodeClass6, zeroElse, h1, h2, h3, h4])
theorem scanx (d a : Reg) : Statement (.scanx d a) := of_t rfl (by intro _ _ h1 h2 h3 h4; simp [decodeWord, decodeClass6, zeroElse, h1, h2, h3, h4])
theorem ldsw (d a b : Reg) : Statement (.ldsw d a b) := of_t rfl (by intro _ _ h1 h2 h3 h4; simp [decodeWord, decodeClass7, zeroElse, h1, h2, h3, h4])
theorem ldsd (d a b : Reg) : Statement (.ldsd d a b) := of_t rfl (by intro _ _ h1 h2 h3 h4; simp [decodeWord, decodeClass7, zeroElse, h1, h2, h3, h4])
theorem ldsq (d a b : Reg) : Statement (.ldsq d a b) := of_t rfl (by intro _ _ h1 h2 h3 h4; simp [decodeWord, decodeClass7, zeroElse, h1, h2, h3, h4])
theorem stsw (d a b : Reg) : Statement (.stsw d a b) := of_t rfl (by intro _ _ h1 h2 h3 h4; simp [decodeWord, decodeClass7, zeroElse, h1, h2, h3, h4])
theorem stsd (d a b : Reg) : Statement (.stsd d a b) := of_t rfl (by intro _ _ h1 h2 h3 h4; simp [decodeWord, decodeClass7, zeroElse, h1, h2, h3, h4])
theorem stsq (d a b : Reg) : Statement (.stsq d a b) := of_t rfl (by intro _ _ h1 h2 h3 h4; simp [decodeWord, decodeClass7, zeroElse, h1, h2, h3, h4])
theorem asadd (d a b : Reg) : Statement (.asadd d a b) := of_t rfl (by intro _ _ h1 h2 h3 h4; simp [decodeWord, decodeClass7, zeroElse, h1, h2, h3, h4])
theorem asmin (d a b : Reg) : Statement (.asmin d a b) := of_t rfl (by intro _ _ h1 h2 h3 h4; simp [decodeWord, decodeClass7, zeroElse, h1, h2, h3, h4])
theorem asmax (d a b : Reg) : Statement (.asmax d a b) := of_t rfl (by intro _ _ h1 h2 h3 h4; simp [decodeWord, decodeClass7, zeroElse, h1, h2, h3, h4])
theorem asand (d a b : Reg) : Statement (.asand d a b) := of_t rfl (by intro _ _ h1 h2 h3 h4; simp [decodeWord, decodeClass7, zeroElse, h1, h2, h3, h4])
theorem asor (d a b : Reg) : Statement (.asor d a b) := of_t rfl (by intro _ _ h1 h2 h3 h4; simp [decodeWord, decodeClass7, zeroElse, h1, h2, h3, h4])
theorem asxor (d a b : Reg) : Statement (.asxor d a b) := of_t rfl (by intro _ _ h1 h2 h3 h4; simp [decodeWord, decodeClass7, zeroElse, h1, h2, h3, h4])
theorem asxch (d a b : Reg) : Statement (.asxch d a b) := of_t rfl (by intro _ _ h1 h2 h3 h4; simp [decodeWord, decodeClass7, zeroElse, h1, h2, h3, h4])
theorem ascas (d a b : Reg) : Statement (.ascas d a b) := of_t rfl (by intro _ _ h1 h2 h3 h4; simp [decodeWord, decodeClass7, zeroElse, h1, h2, h3, h4])
theorem binit (a b : Reg) : Statement (.binit a b) := of_t rfl (by intro _ _ h1 h2 h3 h4; simp [decodeWord, decodeClass7, zeroElse, h1, h2, h3, h4])
theorem barr (a : Reg) : Statement (.barr a) := of_t rfl (by intro _ _ h1 h2 h3 h4; simp [decodeWord, decodeClass7, zeroElse, h1, h2, h3, h4])
theorem barrtx (a b : Reg) : Statement (.barrtx a b) := of_t rfl (by intro _ _ h1 h2 h3 h4; simp [decodeWord, decodeClass7, zeroElse, h1, h2, h3, h4])
theorem bwait (a b : Reg) : Statement (.bwait a b) := of_t rfl (by intro _ _ h1 h2 h3 h4; simp [decodeWord, decodeClass7, zeroElse, h1, h2, h3, h4])
theorem btest (d a : Reg) : Statement (.btest d a) := of_t rfl (by intro _ _ h1 h2 h3 h4; simp [decodeWord, decodeClass7, zeroElse, h1, h2, h3, h4])
theorem binv (a : Reg) : Statement (.binv a) := of_t rfl (by intro _ _ h1 h2 h3 h4; simp [decodeWord, decodeClass7, zeroElse, h1, h2, h3, h4])
theorem cpgs (d a b : Reg) : Statement (.cpgs d a b) := of_t rfl (by intro _ _ h1 h2 h3 h4; simp [decodeWord, decodeClass7, zeroElse, h1, h2, h3, h4])
theorem waitc (l s c : BitVec 5) (t : BitVec 6) : Statement (.waitc l s c t) := of_w rfl (by intro _ _ h1 h2 h3 h4 h5; simp [decodeWord, decodeClass7, zeroElse, h1, h2, h3, h4, h5])
theorem waitp (a b : Reg) : Statement (.waitp a b) := of_t rfl (by intro _ _ h1 h2 h3 h4; simp [decodeWord, decodeClass7, zeroElse, h1, h2, h3, h4])
theorem ldb (d a b : Reg) : Statement (.ldb d a b) := of_t rfl (by intro _ _ h1 h2 h3 h4; simp [decodeWord, decodeClass8, zeroElse, h1, h2, h3, h4])
theorem ldh (d a b : Reg) : Statement (.ldh d a b) := of_t rfl (by intro _ _ h1 h2 h3 h4; simp [decodeWord, decodeClass8, zeroElse, h1, h2, h3, h4])
theorem ldw (d a b : Reg) : Statement (.ldw d a b) := of_t rfl (by intro _ _ h1 h2 h3 h4; simp [decodeWord, decodeClass8, zeroElse, h1, h2, h3, h4])
theorem ldd (d a b : Reg) : Statement (.ldd d a b) := of_t rfl (by intro _ _ h1 h2 h3 h4; simp [decodeWord, decodeClass8, zeroElse, h1, h2, h3, h4])
theorem ldq (d a b : Reg) : Statement (.ldq d a b) := of_t rfl (by intro _ _ h1 h2 h3 h4; simp [decodeWord, decodeClass8, zeroElse, h1, h2, h3, h4])
theorem stb (d a b : Reg) : Statement (.stb d a b) := of_t rfl (by intro _ _ h1 h2 h3 h4; simp [decodeWord, decodeClass8, zeroElse, h1, h2, h3, h4])
theorem sth (d a b : Reg) : Statement (.sth d a b) := of_t rfl (by intro _ _ h1 h2 h3 h4; simp [decodeWord, decodeClass8, zeroElse, h1, h2, h3, h4])
theorem stw (d a b : Reg) : Statement (.stw d a b) := of_t rfl (by intro _ _ h1 h2 h3 h4; simp [decodeWord, decodeClass8, zeroElse, h1, h2, h3, h4])
theorem std (d a b : Reg) : Statement (.std d a b) := of_t rfl (by intro _ _ h1 h2 h3 h4; simp [decodeWord, decodeClass8, zeroElse, h1, h2, h3, h4])
theorem stq (d a b : Reg) : Statement (.stq d a b) := of_t rfl (by intro _ _ h1 h2 h3 h4; simp [decodeWord, decodeClass8, zeroElse, h1, h2, h3, h4])
theorem sldw (d a b : Reg) : Statement (.sldw d a b) := of_t rfl (by intro _ _ h1 h2 h3 h4; simp [decodeWord, decodeClass8, zeroElse, h1, h2, h3, h4])
theorem sldd (d a b : Reg) : Statement (.sldd d a b) := of_t rfl (by intro _ _ h1 h2 h3 h4; simp [decodeWord, decodeClass8, zeroElse, h1, h2, h3, h4])
theorem sstw (d a b : Reg) : Statement (.sstw d a b) := of_t rfl (by intro _ _ h1 h2 h3 h4; simp [decodeWord, decodeClass8, zeroElse, h1, h2, h3, h4])
theorem sstd (d a b : Reg) : Statement (.sstd d a b) := of_t rfl (by intro _ _ h1 h2 h3 h4; simp [decodeWord, decodeClass8, zeroElse, h1, h2, h3, h4])
theorem ord (noret : Bool) (order : BitVec 3) (scope : BitVec 4) : Statement (.ord noret order scope) := of_k rfl (by
  intro _ _ h1 h2 _ h4 h5
  have h0 := (h5 7 (by omega)).trans (ordFields noret order scope).1
  simp at h0
  simp [decodeWord, decodeClass8, zeroElse, h0, h1, h2, h4, ordFields noret order scope])
theorem aadd (d a b : Reg) : Statement (.aadd d a b) := of_t rfl (by intro _ _ h1 h2 h3 h4; simp [decodeWord, decodeClass8, zeroElse, h1, h2, h3, h4])
theorem asub (d a b : Reg) : Statement (.asub d a b) := of_t rfl (by intro _ _ h1 h2 h3 h4; simp [decodeWord, decodeClass8, zeroElse, h1, h2, h3, h4])
theorem amin (d a b : Reg) : Statement (.amin d a b) := of_t rfl (by intro _ _ h1 h2 h3 h4; simp [decodeWord, decodeClass8, zeroElse, h1, h2, h3, h4])
theorem amax (d a b : Reg) : Statement (.amax d a b) := of_t rfl (by intro _ _ h1 h2 h3 h4; simp [decodeWord, decodeClass8, zeroElse, h1, h2, h3, h4])
theorem aand (d a b : Reg) : Statement (.aand d a b) := of_t rfl (by intro _ _ h1 h2 h3 h4; simp [decodeWord, decodeClass8, zeroElse, h1, h2, h3, h4])
theorem aor (d a b : Reg) : Statement (.aor d a b) := of_t rfl (by intro _ _ h1 h2 h3 h4; simp [decodeWord, decodeClass8, zeroElse, h1, h2, h3, h4])
theorem axor (d a b : Reg) : Statement (.axor d a b) := of_t rfl (by intro _ _ h1 h2 h3 h4; simp [decodeWord, decodeClass8, zeroElse, h1, h2, h3, h4])
theorem axch (d a b : Reg) : Statement (.axch d a b) := of_t rfl (by intro _ _ h1 h2 h3 h4; simp [decodeWord, decodeClass8, zeroElse, h1, h2, h3, h4])
theorem acas (d a b : Reg) : Statement (.acas d a b) := of_t rfl (by intro _ _ h1 h2 h3 h4; simp [decodeWord, decodeClass8, zeroElse, h1, h2, h3, h4])
theorem ainc (d a b : Reg) : Statement (.ainc d a b) := of_t rfl (by intro _ _ h1 h2 h3 h4; simp [decodeWord, decodeClass8, zeroElse, h1, h2, h3, h4])
theorem adec (d a b : Reg) : Statement (.adec d a b) := of_t rfl (by intro _ _ h1 h2 h3 h4; simp [decodeWord, decodeClass8, zeroElse, h1, h2, h3, h4])
theorem afadd (d a b : Reg) : Statement (.afadd d a b) := of_t rfl (by intro _ _ h1 h2 h3 h4; simp [decodeWord, decodeClass8, zeroElse, h1, h2, h3, h4])
theorem fence (order : BitVec 3) (scope : BitVec 4) : Statement (.fence order scope) := of_k rfl (by intro _ _ h1 h2 h3 h4 h5; simp [decodeWord, decodeClass8, zeroElse, h1, h2, h3, h4, h5, fenceFields order scope])
theorem mona (a b : Reg) : Statement (.mona a b) := of_t rfl (by intro _ _ h1 h2 h3 h4; simp [decodeWord, decodeClass8, zeroElse, h1, h2, h3, h4])
theorem mwt (a : Reg) : Statement (.mwt a) := of_t rfl (by intro _ _ h1 h2 h3 h4; simp [decodeWord, decodeClass8, zeroElse, h1, h2, h3, h4])
theorem pref (a b : Reg) : Statement (.pref a b) := of_t rfl (by intro _ _ h1 h2 h3 h4; simp [decodeWord, decodeClass8, zeroElse, h1, h2, h3, h4])
theorem wcfl : Statement .wcfl := of_t rfl (by intro _ _ h1 h2 h3 h4; simp [decodeWord, decodeClass8, zeroElse, h1, h2, h3, h4])
theorem gath (d a b : Reg) : Statement (.gath d a b) := of_t rfl (by intro _ _ h1 h2 h3 h4; simp [decodeWord, decodeClass9, zeroElse, h1, h2, h3, h4])
theorem gathq (d a b : Reg) : Statement (.gathq d a b) := of_t rfl (by intro _ _ h1 h2 h3 h4; simp [decodeWord, decodeClass9, zeroElse, h1, h2, h3, h4])
theorem pgld (d a : Reg) : Statement (.pgld d a) := of_t rfl (by intro _ _ h1 h2 h3 h4; simp [decodeWord, decodeClass9, zeroElse, h1, h2, h3, h4])
theorem pgfree (a : Reg) : Statement (.pgfree a) := of_t rfl (by intro _ _ h1 h2 h3 h4; simp [decodeWord, decodeClass9, zeroElse, h1, h2, h3, h4])
theorem fopen (d a b : Reg) : Statement (.fopen d a b) := of_t rfl (by intro _ _ h1 h2 h3 h4; simp [decodeWord, decodeClass9, zeroElse, h1, h2, h3, h4])
theorem fadv (d a : Reg) : Statement (.fadv d a) := of_t rfl (by intro _ _ h1 h2 h3 h4; simp [decodeWord, decodeClass9, zeroElse, h1, h2, h3, h4])
theorem fend (d a : Reg) : Statement (.fend d a) := of_t rfl (by intro _ _ h1 h2 h3 h4; simp [decodeWord, decodeClass9, zeroElse, h1, h2, h3, h4])
theorem fclose (a : Reg) : Statement (.fclose a) := of_t rfl (by intro _ _ h1 h2 h3 h4; simp [decodeWord, decodeClass9, zeroElse, h1, h2, h3, h4])
theorem fpos (d a : Reg) : Statement (.fpos d a) := of_t rfl (by intro _ _ h1 h2 h3 h4; simp [decodeWord, decodeClass9, zeroElse, h1, h2, h3, h4])
theorem mxacq : Statement .mxacq := of_t rfl (by intro _ _ h1 h2 h3 h4; simp [decodeWord, decodeClass10, zeroElse, h1, h2, h3, h4])
theorem mxtry (d : Reg) : Statement (.mxtry d) := of_t rfl (by intro _ _ h1 h2 h3 h4; simp [decodeWord, decodeClass10, zeroElse, h1, h2, h3, h4])
theorem mxrel : Statement .mxrel := of_t rfl (by intro _ _ h1 h2 h3 h4; simp [decodeWord, decodeClass10, zeroElse, h1, h2, h3, h4])
theorem mma (d a b : Reg) : Statement (.mma d a b) := of_t rfl (by intro _ _ h1 h2 h3 h4; simp [decodeWord, decodeClass10, zeroElse, h1, h2, h3, h4])
theorem mmas (d a b : Reg) : Statement (.mmas d a b) := of_t rfl (by intro _ _ h1 h2 h3 h4; simp [decodeWord, decodeClass10, zeroElse, h1, h2, h3, h4])
theorem accz (d : Reg) : Statement (.accz d) := of_t rfl (by intro _ _ h1 h2 h3 h4; simp [decodeWord, decodeClass10, zeroElse, h1, h2, h3, h4])
theorem accrd (d a b : Reg) : Statement (.accrd d a b) := of_t rfl (by intro _ _ h1 h2 h3 h4; simp [decodeWord, decodeClass10, zeroElse, h1, h2, h3, h4])
theorem accwr (d a b : Reg) : Statement (.accwr d a b) := of_t rfl (by intro _ _ h1 h2 h3 h4; simp [decodeWord, decodeClass10, zeroElse, h1, h2, h3, h4])
theorem accst (d a b : Reg) : Statement (.accst d a b) := of_t rfl (by intro _ _ h1 h2 h3 h4; simp [decodeWord, decodeClass10, zeroElse, h1, h2, h3, h4])
theorem mfence (d : Reg) : Statement (.mfence d) := of_t rfl (by intro _ _ h1 h2 h3 h4; simp [decodeWord, decodeClass10, zeroElse, h1, h2, h3, h4])
theorem mwaitb (a : Reg) : Statement (.mwaitb a) := of_t rfl (by intro _ _ h1 h2 h3 h4; simp [decodeWord, decodeClass10, zeroElse, h1, h2, h3, h4])
theorem setrst (lit : Word) : Statement (.setrst lit) := of_l rfl (by intro _ h1 h2 h3; simp [decodeWord, decodeClass10, zeroElse, h1, h2, h3])
theorem qenq (d a b : Reg) : Statement (.qenq d a b) := of_t rfl (by intro _ _ h1 h2 h3 h4; simp [decodeWord, decodeClass11, zeroElse, h1, h2, h3, h4])
theorem qenqm (d a b : Reg) : Statement (.qenqm d a b) := of_t rfl (by intro _ _ h1 h2 h3 h4; simp [decodeWord, decodeClass11, zeroElse, h1, h2, h3, h4])
theorem qdeq (d a b : Reg) : Statement (.qdeq d a b) := of_t rfl (by intro _ _ h1 h2 h3 h4; simp [decodeWord, decodeClass11, zeroElse, h1, h2, h3, h4])
theorem qdeqm (d a b : Reg) : Statement (.qdeqm d a b) := of_t rfl (by intro _ _ h1 h2 h3 h4; simp [decodeWord, decodeClass11, zeroElse, h1, h2, h3, h4])
theorem qlen (d a : Reg) : Statement (.qlen d a) := of_t rfl (by intro _ _ h1 h2 h3 h4; simp [decodeWord, decodeClass11, zeroElse, h1, h2, h3, h4])
theorem qseal (a : Reg) : Statement (.qseal a) := of_t rfl (by intro _ _ h1 h2 h3 h4; simp [decodeWord, decodeClass11, zeroElse, h1, h2, h3, h4])
theorem qinfo (d a : Reg) : Statement (.qinfo d a) := of_t rfl (by intro _ _ h1 h2 h3 h4; simp [decodeWord, decodeClass11, zeroElse, h1, h2, h3, h4])
theorem nint (d a b : Reg) : Statement (.nint d a b) := of_t rfl (by intro _ _ h1 h2 h3 h4; simp [decodeWord, decodeClass12, zeroElse, h1, h2, h3, h4])
theorem nann (a b : Reg) : Statement (.nann a b) := of_t rfl (by intro _ _ h1 h2 h3 h4; simp [decodeWord, decodeClass12, zeroElse, h1, h2, h3, h4])
theorem nseal (a : Reg) : Statement (.nseal a) := of_t rfl (by intro _ _ h1 h2 h3 h4; simp [decodeWord, decodeClass12, zeroElse, h1, h2, h3, h4])
theorem ndrop (a : Reg) : Statement (.ndrop a) := of_t rfl (by intro _ _ h1 h2 h3 h4; simp [decodeWord, decodeClass12, zeroElse, h1, h2, h3, h4])
theorem nstat (d a : Reg) : Statement (.nstat d a) := of_t rfl (by intro _ _ h1 h2 h3 h4; simp [decodeWord, decodeClass12, zeroElse, h1, h2, h3, h4])
theorem xagree (d a : Reg) : Statement (.xagree d a) := of_t rfl (by intro _ _ h1 h2 h3 h4; simp [decodeWord, decodeClass13, zeroElse, h1, h2, h3, h4])
theorem xsum (d a : Reg) : Statement (.xsum d a) := of_t rfl (by intro _ _ h1 h2 h3 h4; simp [decodeWord, decodeClass13, zeroElse, h1, h2, h3, h4])
theorem plfill (d a : Reg) : Statement (.plfill d a) := of_t rfl (by intro _ _ h1 h2 h3 h4; simp [decodeWord, decodeClass13, zeroElse, h1, h2, h3, h4])
theorem plcopy (d a : Reg) : Statement (.plcopy d a) := of_t rfl (by intro _ _ h1 h2 h3 h4; simp [decodeWord, decodeClass13, zeroElse, h1, h2, h3, h4])
theorem plcmp (d a : Reg) : Statement (.plcmp d a) := of_t rfl (by intro _ _ h1 h2 h3 h4; simp [decodeWord, decodeClass13, zeroElse, h1, h2, h3, h4])
theorem plred (d a : Reg) : Statement (.plred d a) := of_t rfl (by intro _ _ h1 h2 h3 h4; simp [decodeWord, decodeClass13, zeroElse, h1, h2, h3, h4])
theorem snopen (d a : Reg) : Statement (.snopen d a) := of_t rfl (by intro _ _ h1 h2 h3 h4; simp [decodeWord, decodeClass13, zeroElse, h1, h2, h3, h4])
theorem snclose (a : Reg) : Statement (.snclose a) := of_t rfl (by intro _ _ h1 h2 h3 h4; simp [decodeWord, decodeClass13, zeroElse, h1, h2, h3, h4])
theorem snbind (a : Reg) : Statement (.snbind a) := of_t rfl (by intro _ _ h1 h2 h3 h4; simp [decodeWord, decodeClass13, zeroElse, h1, h2, h3, h4])
theorem trap (k : BitVec 14) : Statement (.trap k) := of_k rfl (by intro _ _ h1 h2 h3 h4 h5; simp [decodeWord, decodeClass14, zeroElse, h1, h2, h3, h4, h5])
theorem tret : Statement .tret := of_t rfl (by intro _ _ h1 h2 h3 h4; simp [decodeWord, decodeClass14, zeroElse, h1, h2, h3, h4])
theorem tmask (k : BitVec 4) : Statement (.tmask k) := of_k rfl (by intro _ _ h1 h2 h3 h4 h5; simp [decodeWord, decodeClass14, zeroElse, h1, h2, h3, h4, h5, low4 k])
theorem tunmask (k : BitVec 4) : Statement (.tunmask k) := of_k rfl (by intro _ _ h1 h2 h3 h4 h5; simp [decodeWord, decodeClass14, zeroElse, h1, h2, h3, h4, h5, low4 k])
theorem rdsr (d : Reg) (k : BitVec 14) : Statement (.rdsr d k) := of_k rfl (by intro _ _ h1 h2 h3 h4 h5; simp [decodeWord, decodeClass14, zeroElse, h1, h2, h3, h4, h5])
theorem wrsr (d : Reg) (k : BitVec 14) : Statement (.wrsr d k) := of_k rfl (by intro _ _ h1 h2 h3 h4 h5; simp [decodeWord, decodeClass14, zeroElse, h1, h2, h3, h4, h5])
theorem clk (d : Reg) : Statement (.clk d) := of_t rfl (by intro _ _ h1 h2 h3 h4; simp [decodeWord, decodeClass14, zeroElse, h1, h2, h3, h4])
theorem brk (k : BitVec 14) : Statement (.brk k) := of_k rfl (by intro _ _ h1 h2 h3 h4 h5; simp [decodeWord, decodeClass14, zeroElse, h1, h2, h3, h4, h5])
theorem deferredTrapDelivery (tid : Nat) : Statement (.deferredTrapDelivery tid) := event rfl
theorem siblingHaltStop (gid : Nat) : Statement (.siblingHaltStop gid) := event rfl
theorem handlerCountExpiry (gid : Nat) : Statement (.handlerCountExpiry gid) := event rfl
theorem starvationEpisode (gid : Nat) : Statement (.starvationEpisode gid) := event rfl
theorem slotDecision (core : Nat) : Statement (.slotDecision core) := event rfl
theorem teamRetirement (tid : Nat) : Statement (.teamRetirement tid) := event rfl
theorem childGridEnd (grid : Nat) : Statement (.childGridEnd grid) := event rfl
theorem sleepExpiry (gid : Nat) : Statement (.sleepExpiry gid) := event rfl
theorem xacqGrant (tid core : Nat) (role : Role) : Statement (.xacqGrant tid core role) := event rfl
theorem compactorCopyDone (core : Nat) : Statement (.compactorCopyDone core) := event rfl
theorem registerDeadlockDetection (tid : Nat) : Statement (.registerDeadlockDetection tid) := event rfl
theorem registerResultLand (gid op : Nat) : Statement (.registerResultLand gid op) := event rfl
theorem anvilOwnershipGrant (core : Nat) : Statement (.anvilOwnershipGrant core) := event rfl
theorem tileOpStart (core op : Nat) : Statement (.tileOpStart core op) := event rfl
theorem tileLineFetch (core op : Nat) : Statement (.tileLineFetch core op) := event rfl
theorem tileOpComplete (core op : Nat) : Statement (.tileOpComplete core op) := event rfl
theorem copyChunkDelivery (op : Nat) : Statement (.copyChunkDelivery op) := event rfl
theorem queueEnqueueStep (r : EnqReq) : Statement (.queueEnqueueStep r) := event rfl
theorem queueDequeueStep (r : DeqReq) : Statement (.queueDequeueStep r) := event rfl
theorem queueReply (r : QReply) : Statement (.queueReply r) := event rfl
theorem spillRefillLanding (queue n : Nat) : Statement (.spillRefillLanding queue n) := event rfl
theorem bellowsSample : Statement .bellowsSample := event rfl
theorem crossbarGrant (die slice : Nat) (writeBack : Bool) : Statement (.crossbarGrant die slice writeBack) := event rfl
theorem l2Request (r : L2Req) : Statement (.l2Request r) := event rfl
theorem l2FillComplete (line : Nat) (bad : Bool) : Statement (.l2FillComplete line bad) := event rfl
theorem l2Writeback (w : WriteBack) : Statement (.l2Writeback w) := event rfl
theorem monitorTimeoutExpiry (gid : Nat) : Statement (.monitorTimeoutExpiry gid) := event rfl
theorem hearthRefreshWindow : Statement .hearthRefreshWindow := event rfl
theorem hearthBankRead (die off : Nat) : Statement (.hearthBankRead die off) := event rfl
theorem hearthWindowLoading (die : Nat) : Statement (.hearthWindowLoading die) := event rfl
theorem cxlTransactionError (pa : Nat) (store : Bool) (time : Nat) : Statement (.cxlTransactionError pa store time) := event rfl
theorem serviceWarpAtomic (a : AtomLane) : Statement (.serviceWarpAtomic a) := event rfl
theorem poolAtomic (a : AtomLane) : Statement (.poolAtomic a) := event rfl
theorem atomicReply (r : AtomReply) : Statement (.atomicReply r) := event rfl
theorem pageWalk (gid : Nat) (va : Dword) (acc : Acc) : Statement (.pageWalk gid va acc) := event rfl
theorem pageRequestRelease (die : Nat) : Statement (.pageRequestRelease die) := event rfl
theorem prqReply (word : Dword) : Statement (.prqReply word) := event rfl
theorem prqHead (func : Nat) (word : Dword) : Statement (.prqHead func word) := event rfl
theorem bar0Write (func off : Nat) (val : Dword) : Statement (.bar0Write func off val) := event rfl
theorem heatSample (die pa : Nat) : Statement (.heatSample die pa) := event rfl
theorem heatDecaySweep (die : Nat) : Statement (.heatDecaySweep die) := event rfl
theorem migrationLineCopy (op : Nat) : Statement (.migrationLineCopy op) := event rfl
theorem migrationFinish (op : Nat) : Statement (.migrationFinish op) := event rfl
theorem rowRetirement (loc : RowLoc) (uncorrectable spare : Bool) : Statement (.rowRetirement loc uncorrectable spare) := event rfl
theorem interestArrival (m : Interest) : Statement (.interestArrival m) := event rfl
theorem interestRetry (m : Interest) (n : Nat) : Statement (.interestRetry m n) := event rfl
theorem interestSlotExpiry (die entry slot : Nat) : Statement (.interestSlotExpiry die entry slot) := event rfl
theorem tileAnswerArrival (m : Answer) : Statement (.tileAnswerArrival m) := event rfl
theorem namedTileDelivery (gid : Nat) (ticket : Word) (m : Answer) : Statement (.namedTileDelivery gid ticket m) := event rfl
theorem ticketExpiry (gid : Nat) (ticket : Word) : Statement (.ticketExpiry gid ticket) := event rfl
theorem nannCopyComplete (op : Nat) : Statement (.nannCopyComplete op) := event rfl
theorem swageCountComplete (tid fib : Nat) : Statement (.swageCountComplete tid fib) := event rfl
theorem flitReceive (port : Nat) (flit tag : List Byte) : Statement (.flitReceive port flit tag) := event rfl
theorem recLandingRetry (port : Nat) : Statement (.recLandingRetry port) := event rfl
theorem ackReceive (port : Nat) (flit tag : List Byte) : Statement (.ackReceive port flit tag) := event rfl
theorem ackSend (port : Nat) : Statement (.ackSend port) := event rfl
theorem retryTimeout (port : Nat) : Statement (.retryTimeout port) := event rfl
theorem portForwardDecision (port : Nat) : Statement (.portForwardDecision port) := event rfl
theorem keySwitchover (port : Nat) : Statement (.keySwitchover port) := event rfl
theorem keySlotRetire (port : Nat) : Statement (.keySlotRetire port) := event rfl
theorem collFlitArrival (port : Nat) (payload : List Byte) : Statement (.collFlitArrival port payload) := event rfl
theorem collectiveTimeout (cid : Nat) : Statement (.collectiveTimeout cid) := event rfl
theorem poolOpLine (op : Nat) : Statement (.poolOpLine op) := event rfl
theorem collectorServe (die : Nat) : Statement (.collectorServe die) := event rfl
theorem preemptStopComplete (die : Nat) : Statement (.preemptStopComplete die) := event rfl
theorem preemptSaveComplete (die : Nat) : Statement (.preemptSaveComplete die) := event rfl
theorem restorePlacement (image : Nat) : Statement (.restorePlacement image) := event rfl
theorem graphRunEnd (graph : Nat) : Statement (.graphRunEnd graph) := event rfl
theorem eventRingRelease (func n : Nat) : Statement (.eventRingRelease func n) := event rfl
theorem reset : Statement .reset := event rfl
theorem wipeComplete : Statement .wipeComplete := event rfl
theorem firmwareVerified : Statement .firmwareVerified := event rfl
theorem powerLimitStep (watts : Nat) : Statement (.powerLimitStep watts) := event rfl
theorem thermalTrip : Statement .thermalTrip := event rfl
theorem ageingSample (a : AgeSample) : Statement (.ageingSample a) := event rfl
theorem unknownCommand (c : Cmd) : Statement (.unknownCommand c) := event rfl
theorem submitGraph (c : Cmd) : Statement (.submitGraph c) := event rfl
theorem endRun (c : Cmd) : Statement (.endRun c) := event rfl
theorem sealQueue (c : Cmd) : Statement (.sealQueue c) := event rfl
theorem restartStage (c : Cmd) : Statement (.restartStage c) := event rfl
theorem hearthDrain (c : Cmd) : Statement (.hearthDrain c) := event rfl
theorem hearthWrite (c : Cmd) : Statement (.hearthWrite c) := event rfl
theorem hearthOpen (c : Cmd) : Statement (.hearthOpen c) := event rfl
theorem setRoute (c : Cmd) : Statement (.setRoute c) := event rfl
theorem clearNames (c : Cmd) : Statement (.clearNames c) := event rfl
theorem setCrucible (c : Cmd) : Statement (.setCrucible c) := event rfl
theorem setXlate (c : Cmd) : Statement (.setXlate c) := event rfl
theorem shootdown (c : Cmd) : Statement (.shootdown c) := event rfl
theorem setColl (c : Cmd) : Statement (.setColl c) := event rfl
theorem setPool (c : Cmd) : Statement (.setPool c) := event rfl
theorem heatRead (c : Cmd) : Statement (.heatRead c) := event rfl
theorem setDecay (c : Cmd) : Statement (.setDecay c) := event rfl
theorem migrate (c : Cmd) : Statement (.migrate c) := event rfl
theorem retireRow (c : Cmd) (spare : Bool) : Statement (.retireRow c spare) := event rfl
theorem clearRetlog (c : Cmd) (sigOk : Bool) : Statement (.clearRetlog c sigOk) := event rfl
theorem preempt (c : Cmd) : Statement (.preempt c) := event rfl
theorem preemptFunction (c : Cmd) : Statement (.preemptFunction c) := event rfl
theorem restore (c : Cmd) : Statement (.restore c) := event rfl
theorem terminate (c : Cmd) : Statement (.terminate c) := event rfl
theorem attach (c : Cmd) : Statement (.attach c) := event rfl
theorem resume (c : Cmd) : Statement (.resume c) := event rfl
theorem linkTrain (c : Cmd) (pkg : Nat) (port : Nat) : Statement (.linkTrain c pkg port) := event rfl
theorem keyInstall (c : Cmd) : Statement (.keyInstall c) := event rfl
theorem setMode (c : Cmd) : Statement (.setMode c) := event rfl
theorem quote (c : Cmd) : Statement (.quote c) := event rfl
theorem lifecycle (c : Cmd) (sigOk : Bool) : Statement (.lifecycle c sigOk) := event rfl
theorem health (c : Cmd) : Statement (.health c) := event rfl
theorem hostPortAccess (pa : Nat) (data : List Byte) (write : Bool) : Statement (.hostPortAccess pa data write) := event rfl
theorem linkKeyManagement (port dir slot linkid key : Nat) : Statement (.linkKeyManagement port dir slot linkid key) := event rfl

end Sys2Proof.Laws.Enc
end

