-- ==== Sys2Proof/Tests/Slice0.lean ====
section
/-!
SUPPORT. The tests of the model: words written out from the spec's encodings, ill-formed terms, single steps with values
worked out from the spec, and for each statement with hypotheses a state and operands that meet them. Expected values are
computed by hand from the rule named; none was read off the model.
-/
set_option Elab.async false
namespace Sys2Proof.Tests
open Sys2Proof Sys2Proof.Machine

/-! ## States of the tests -/

/-- Who issues in the tests' states: the one group, number 2, of team 1. -/
def issuer : Cur := { gid := 2, pipe := 2, pre := none, time := none, code := none, stalled := false, bank := 0, poison := [] }

/-- A trap vector, so that a trap enters a handler (R396). -/
def vectored (g : Group) : Group := { g with trap := { g.trap with tvec := 0x4000 } }

/-- `s` with the team and the group that `State.placeWord` makes, changed, in the middle of an issue. -/
def stand (s : State) (f : Group → Group) (h : Team → Team) : State :=
  { (((s.placeWord []).setGroup 2 (f ∘ vectored)).setTeam 1 h) with cur := some issuer }

/-- The state with the group changed by `f`; with the team changed by `h`; with neither. -/
def withGroup (f : Group → Group) : State := stand State.reset f id
def withTeam (h : Team → Team) : State := stand State.reset id h
def plain : State := stand State.reset id id

/-- The issuing group, and its team. -/
def grp (s : State) : Group := (s.group 2).getD (Group.made 0 0 0 0 .consumer 0 0 [] 0 0 0 0 .running)
def tm (s : State) : Team := (s.team 1).getD (Team.made 0 (.stage 0 0) 0 0 0 [] 0 0 [] 0)

/-- A scalar register, and a vector register whose lanes all hold one word. -/
def sc (r : Nat) (x : Dword) (g : Group) : Group := g.setS r x
def vc (r : Nat) (x : Word) (g : Group) : Group := g.setV r (BitVec.allOnes 128) (fun _ => x)

/-- MR with an element type, a rounding, saturation and flushing: no guard, 8 planes (R36). -/
def mode (etype round : Nat) (sat ftz : Bool) (g : Group) : Group :=
  { g with mr := BitVec.ofNat 32 (0xF + place etype 5 + place round 9 + place (b2n sat) 12 + place (b2n ftz) 13 + place 8 14) }

/-- The next state of an instruction, and its issuing group. -/
def run (i : Instr) (s : State) : State := match exec i s with | .next t => t | _ => s
def after (i : Instr) (s : State) : Group := grp (run i s)

/-- The lane's word of a vector result that is due, by register. -/
def due (g : Group) (r L : Nat) : Option Word :=
  (g.pend.find? (fun p => decide (p.kind = .vec ∧ p.reg = r))).bind (fun p => p.vec.map (fun v => v.lane L))

/-- A decision procedure for the start of an instruction that compares no whole groups. -/
def canStart (s : State) (c : Cur) (i : Instr) : Bool :=
  decide (s.cur = some c) && decide (c.gid = 2) && !(placedByTime i && s.atomicDue 2) &&
    (match s.group 2 with
     | some g => g.held.isNone && (match gate i c.pre g with | .go => true | _ => false)
     | none => false)

theorem starts_of_canStart {s : State} {c : Cur} {i : Instr} (h : canStart s c i = true) : Starts i s c (grp s) := by
  unfold canStart at h
  simp only [Bool.and_eq_true, decide_eq_true_eq, Bool.not_eq_true'] at h
  obtain ⟨⟨⟨h1, hc⟩, h2⟩, h3⟩ := h
  cases hg : s.group 2 with
  | none => simp [hg] at h3
  | some g =>
    have e : grp s = g := by simp [grp, hg]
    rw [hg] at h3
    simp only [Bool.and_eq_true, Option.isNone_iff_eq_none] at h3
    refine ⟨h1, by rw [hc, e]; exact hg, by rw [hc]; exact h2, by rw [e]; exact h3.1, ?_⟩
    rw [e]
    obtain ⟨-, h4⟩ := h3
    revert h4
    cases gate i c.pre g <;> simp

/-- Every instruction of a list starts in a state. -/
theorem starts_all {s : State} {c : Cur} {l : List Instr} (h : l.all (canStart s c) = true) : ∀ i ∈ l, Starts i s c (grp s) :=
  fun i hi => starts_of_canStart (List.all_eq_true.mp h i hi)

/-! ## Words written out from the spec -/

/-- The word of forms T and K by its fields (R30, Table 2.1). -/
abbrev wordT (op d a b : Nat) : Nat := op * 0x200000 + d * 0x4000 + a * 0x80 + b

/-- Words that the spec writes out itself: R92, R164, R220, R253, Table 16.6, R183, R184. -/
theorem test_words_of_the_spec :
    decodeTableWord 32 0x00200000 = some .nop ∧ decodeTableWord 32 0x52627FFF = some (.saddi 9 0x3FFF)
    ∧ decodeTableWord 32 0x40020202 = some (.cvt 8 4 2) ∧ decodeTableWord 32 0xE0000005 = some (.trap 5)
    ∧ decodeTableWord 32 0xE08A0043 = some (.rdsr 40 0x043) ∧ decodeTableWord 32 0xE0A30041 = some (.wrsr 12 0x041)
    ∧ decodeTableWord 32 0xE0C0C000 = some (.clk 3) ∧ decodeTableWord 32 0x81C000C5 = some (.ord true 4 5)
    ∧ decodeTableWord 32 0x83E00000 = some .wcfl ∧ decodeTableWord 32 (0xA1200000 + 7 * 0x4000) = some (.mfence 7)
    ∧ decodeTableWord 32 (0xA1400000 + 7 * 0x80) = some (.mwaitb 7)
    ∧ decodeTableWord 32 (0x72A00000 + 5 * 0x10000 + 4 * 0x800 + 3 * 0x40 + 2) = some (.waitc 5 4 3 2)
    ∧ decodeTableWord 32 0x01600000 = some .endif := by decide +kernel

/-- Class 0 (Table 4.4), forms B and T. -/
theorem test_decode_control :
    decodeTableWord 32 (0x009 * 0x200000 + 1 * 0x100000 + 11 * 0x10000 + 0x8000 + 3) = some (.ifp true 11 true 3)
    ∧ decodeTableWord 32 (wordT 0x00B 0 0 0) = some .endif ∧ decodeTableWord 32 (wordT 0x00C 1 2 3) = some (.spawn 1 2 3)
    ∧ decodeTableWord 32 (wordT 0x00E 0 0 0) = some .exit := by decide +kernel

/-- Class 1 (Table 5.5). -/
theorem test_decode_modes :
    decodeTableWord 64 (wordT 0x080 0 0 0 + 0x2000F * 2 ^ 32) = some (.setmode 0x2000F)
    ∧ decodeTableWord 32 (wordT 0x082 9 0 0) = some (.rdmode 9) := by decide +kernel

/-- Classes 2, 3 and 4 (Tables 6.2, 6.3, 6.7). -/
theorem test_decode_vector :
    decodeTableWord 32 (wordT 0x100 127 1 2) = some (.add 127 1 2) ∧ decodeTableWord 32 (wordT 0x180 1 2 3) = some (.fadd 1 2 3)
    ∧ decodeTableWord 32 (wordT 0x201 8 0 40) = some (.pq 8 0 40) := by decide +kernel

/-- Class 5 (Table 6.11) and class 6 (Tables 5.3, 5.7). -/
theorem test_decode_scalar_and_blocks :
    decodeTableWord 32 (wordT 0x280 1 2 3) = some (.sadd 1 2 3) ∧ decodeTableWord 64 (wordT 0x292 4 0 0 + 0x80000000 * 2 ^ 32) = some (.smovi 4 0x80000000)
    ∧ decodeTableWord 32 (0x300 * 0x200000 + 7) = some (.xacq 7) ∧ decodeTableWord 32 (0x300 * 0x200000 + 8) = none := by decide +kernel

/-- Class 7 (Table 8.1), class 8 (Tables 9.5, 10.3). -/
theorem test_decode_scratch_and_memory :
    decodeTableWord 32 (wordT 0x380 1 2 3) = some (.ldsw 1 2 3) ∧ decodeTableWord 32 (wordT 0x400 1 2 3) = some (.ldb 1 2 3)
    ∧ decodeTableWord 32 (wordT 0x40F 1 2 3) = some (.aadd 1 2 3) := by decide +kernel

/-- Classes 9 to 13 (Tables 13.4, 7.1, 11.5, 12.5, 14.6). -/
theorem test_decode_engines :
    decodeTableWord 32 (wordT 0x480 1 2 3) = some (.gath 1 2 3) ∧ decodeTableWord 32 (wordT 0x500 0 0 0) = some .mxacq
    ∧ decodeTableWord 32 (wordT 0x580 11 2 3) = some (.qenq 11 2 3) ∧ decodeTableWord 32 (wordT 0x600 1 2 4) = some (.nint 1 2 4)
    ∧ decodeTableWord 32 (wordT 0x680 1 2 0) = some (.xagree 1 2) := by decide +kernel

/-- R33, R49: a bit that must be 0; an opcode that Table 2.7 does not assign; ILLEGAL reads no field. -/
theorem test_decode_refused :
    decodeTableWord 32 (wordT 0x00B 0 0 1) = none ∧ decodeTableWord 32 (wordT 0x013 0 0 0) = some (.unassignedOpcode 0x02600000)
    ∧ decodeTableWord 32 0x1FFFFF = some (.illegal 0x1FFFFF) := by decide +kernel

/-! ## Well-formedness: each check refuses an ill-formed term (Table 2.2, R31, R34, R45, R57) -/

theorem test_wf_vector_range : ¬ (Instr.ldq 125 0 0).WF ∧ (Instr.ldq 124 0 0).WF := by decide +kernel
theorem test_wf_scalar_range : ¬ (Instr.spawn 0 0 121).WF ∧ (Instr.spawn 0 0 120).WF := by decide +kernel
theorem test_wf_even_pair : ¬ (Instr.rdx 5).WF ∧ (Instr.rdx 126).WF := by decide +kernel
theorem test_wf_predicate : ¬ (Instr.pand 12 0 0).WF ∧ (Instr.pand 11 0 0).WF := by decide +kernel
theorem test_wf_tile : ¬ (Instr.accz 12).WF ∧ (Instr.accz 11).WF := by decide +kernel
theorem test_wf_fibre : ¬ (Instr.fclose 8).WF ∧ (Instr.fclose 7).WF := by decide +kernel
theorem test_wf_path : ¬ (Instr.waitp 8 0).WF ∧ (Instr.waitp 7 0).WF := by decide +kernel
theorem test_wf_branch : ¬ (Instr.br true 15 false 0).WF ∧ ¬ (Instr.br false 12 false 0).WF ∧ (Instr.br false 15 false 0).WF := by decide +kernel
theorem test_wf_block_mask : ¬ (Instr.xacq 0).WF ∧ (Instr.xacq 7).WF := by decide +kernel
theorem test_wf_order : ¬ (Instr.ord false 5 0).WF ∧ ¬ (Instr.fence 4 0).WF ∧ (Instr.ord false 4 0).WF := by decide +kernel
theorem test_wf_scope : ¬ (Instr.fence 0 10).WF ∧ (Instr.fence 0 9).WF := by decide +kernel
theorem test_wf_special : ¬ (Instr.rdsr 0 0x00A).WF ∧ (Instr.rdsr 0 0x048).WF := by decide +kernel
theorem test_wf_distinct : ¬ (Instr.topkins 1 1 2).WF ∧ (Instr.topkins 1 2 3).WF := by decide +kernel
theorem test_wf_conversion : ¬ (Instr.cvt 0 0 9).WF ∧ (Instr.cvt 0 0 8).WF := by decide +kernel
theorem test_wf_unassigned : ¬ (Instr.unassignedOpcode 0).WF ∧ (Instr.unassignedOpcode 0x02600000).WF := by decide +kernel

/-! ## Single steps, with values from the spec's own examples or worked out by hand from the rule -/

/-- R164's worked values. -/
theorem test_saddi_minus_one : (after (.saddi 9 0x3FFF) plain).sr 9 = 0xFFFFFFFFFFFFFFFF := by decide +kernel
theorem test_smovi_signed : (after (.smovi 4 0x80000000) plain).sr 4 = 0xFFFFFFFF80000000 := by decide +kernel

/-- R162: a count of 64 or more; R161: wrapping. -/
theorem test_sshl_by_64 : (after (.sshl 1 2 3) (withGroup (sc 2 1 ∘ sc 3 64))).sr 1 = 0 := by decide +kernel
theorem test_ssar_by_64 : (after (.ssar 1 2 3) (withGroup (sc 2 0x8000000000000000 ∘ sc 3 64))).sr 1 = 0xFFFFFFFFFFFFFFFF := by decide +kernel
theorem test_ssub_wraps_in_place : (after (.ssub 2 2 3) (withGroup (sc 2 1 ∘ sc 3 2))).sr 2 = 0xFFFFFFFFFFFFFFFF := by decide +kernel
theorem test_smin_signed : (after (.smin 1 2 3) (withGroup (sc 2 0xFFFFFFFFFFFFFFFF ∘ sc 3 1))).sr 1 = 0xFFFFFFFFFFFFFFFF := by decide +kernel
theorem test_sclz_zero : (after (.sclz 1 2) plain).sr 1 = 64 := by decide +kernel

/-- R163: a scalar compare writes all 128 bits. -/
theorem test_scmplt_signed : (after (.scmplt 3 1 2) (withGroup (sc 1 0xFFFFFFFFFFFFFFFF))).pr 3 = BitVec.allOnes 128 := by decide +kernel
theorem test_scmpltn_unsigned : (after (.scmpltn 3 1 2) (withGroup (sc 1 0xFFFFFFFFFFFFFFFF))).pr 3 = 0 := by decide +kernel

/-- R64, R140: fitting with and without saturation, signed and packed. -/
theorem test_add_wraps : ((after (.add 1 2 3) (withGroup (vc 2 0x7FFFFFFF ∘ vc 3 1))).vr 1).lane 127 = 0x80000000 := by decide +kernel
theorem test_add_saturates : ((after (.add 1 2 3) (withGroup (mode 0 0 true false ∘ vc 2 0x7FFFFFFF ∘ vc 3 1))).vr 1).lane 0 = 0x7FFFFFFF := by
  decide +kernel
theorem test_sub_packed_unsigned_saturates :
    ((after (.sub 1 2 3) (withGroup (mode 8 0 true false ∘ vc 2 0x00FF0180 ∘ vc 3 0x01010201))).vr 1).lane 5 = 0x00FE007F := by decide +kernel
theorem test_mulh_signed : ((after (.mulh 1 2 3) (withGroup (vc 2 0xFFFFFFFF ∘ vc 3 1))).vr 1).lane 0 = 0xFFFFFFFF := by decide +kernel
theorem test_abs_of_the_least : ((after (.abs 1 2) (withGroup (mode 0 0 true false ∘ vc 2 0x80000000))).vr 1).lane 0 = 0x7FFFFFFF := by
  decide +kernel

/-- R143's example: the word 0x0008_0004 selects 8 bits from bit 4, here of 0x0000_0F70, signed. BINS puts them back. -/
theorem test_bfx_signed : ((after (.bfx 1 2 3) (withGroup (vc 2 0x0F70 ∘ vc 3 0x00080004))).vr 1).lane 0 = 0xFFFFFFF7 := by decide +kernel
theorem test_bins : ((after (.bins 1 2 3) (withGroup (vc 1 0xFFFFFFFF ∘ vc 2 0x5A ∘ vc 3 0x00080004))).vr 1).lane 0 = 0xFFFFF5AF := by
  decide +kernel

/-- R141: counts at the width. -/
theorem test_shl_by_width : ((after (.shl 1 2 3) (withGroup (vc 2 1 ∘ vc 3 32))).vr 1).lane 0 = 0 := by decide +kernel
theorem test_sar_packed : ((after (.sar 1 2 3) (withGroup (mode 7 0 false false ∘ vc 2 0x80FF4001 ∘ vc 3 0x09010101))).vr 1).lane 0 = 0xFFFF2000 := by
  decide +kernel

/-- R145: a packed compare holds when every element does. -/
theorem test_cmpne_packed_every : (after (.cmpne 1 2 3) (withGroup (mode 7 0 false false ∘ vc 2 0x01020304 ∘ vc 3 0x01000000))).pr 1 = 0 := by
  decide +kernel

/-- R147, R150, R151, in f32: 1 + 1 = 2; 1 + 2^-24 is a tie to even; FSQRT 4 = 2, of -1 a NaN; FEXP2 0 = 1; FRCP of -0 is -Inf. -/
theorem test_fadd : ((after (.fadd 1 2 3) (withGroup (mode 2 0 false false ∘ vc 2 0x3F800000 ∘ vc 3 0x3F800000))).vr 1).lane 0 = 0x40000000 := by
  decide +kernel
theorem test_fadd_tie : ((after (.fadd 1 2 3) (withGroup (mode 2 0 false false ∘ vc 2 0x3F800000 ∘ vc 3 0x33800000))).vr 1).lane 0 = 0x3F800000 := by
  decide +kernel
/-- R65: FMA rounds once: (1 + 2^-23) * (1 - 2^-23) - 1 = -2^-46. -/
theorem test_fma_fused :
    ((after (.fma 1 2 3) (withGroup (mode 2 0 false false ∘ vc 1 0xBF800000 ∘ vc 2 0x3F800001 ∘ vc 3 0x3F7FFFFE))).vr 1).lane 0 = 0xA8800000 := by
  decide +kernel
theorem test_fmin_negative_zero : ((after (.fmin 1 2 3) (withGroup (mode 2 0 false false ∘ vc 3 0x80000000))).vr 1).lane 0 = 0x80000000 := by
  decide +kernel
theorem test_fsqrt : ((after (.fsqrt 1 2) (withGroup (mode 2 0 false false ∘ vc 2 0x40800000))).vr 1).lane 0 = 0x40000000 := by decide +kernel
theorem test_fcmpeq_nan : (after (.fcmpeq 1 2 2) (withGroup (mode 2 0 false false ∘ vc 2 0x7FC00000))).pr 1 = 0 := by decide +kernel
theorem test_fclass_subnormal : ((after (.fclass 1 2) (withGroup (mode 2 0 false true ∘ vc 2 1))).vr 1).lane 0 = 0x20 := by decide +kernel

/-- R154's example: 1.5, -200.7, 2.5 and a NaN to i8x4 under RNE; and its reverse. -/
theorem test_cvt_to_bytes : ((after (.cvt 8 4 2) (withGroup (mode 7 0 false false ∘ vc 4 0x3FC00000 ∘ vc 5 0xC348B333 ∘ vc 6 0x40200000
    ∘ vc 7 0x7FC00000))).vr 8).lane 0 = 0x00028002 := by decide +kernel
theorem test_cvt_from_bytes :
    let g := after (.cvt 4 8 7) (withGroup (mode 2 0 false false ∘ vc 8 0x00028002))
    (g.vr 4).lane 0 = 0x40000000 ∧ (g.vr 5).lane 0 = 0xC3000000 ∧ (g.vr 7).lane 0 = 0 := by decide +kernel

/-- Table 6.10: the entry of expert 1, and the step of expert 7. -/
theorem test_keepk : ((after (.keepk 12 1 20) (withGroup (mode 2 0 false false ∘ vc 1 0x3E800000 ∘ vc 20 1))).vr 12).lane 3 = 0xBE800001 := by
  decide +kernel
theorem test_topkins :
    let g := after (.topkins 10 11 12) (withGroup (vc 10 0xBE800001 ∘ vc 11 0xBE800003 ∘ vc 12 0xBF000007))
    (g.vr 10).lane 0 = 0xBF000007 ∧ (g.vr 11).lane 0 = 0xBE800001 ∧ (g.vr 12).lane 0 = 0xBE800003 := by decide +kernel

/-- R72, R155: a block whose largest element is 127: e = 0, the code 127. R156 gives 1 back. R72: an infinite element makes a NaN-block. -/
theorem test_pq_code : ((after (.pq 0 0 10) (withGroup (mode 2 0 false false ∘ vc 3 0x42FE0000))).vr 10).lane 0 = 127 := by decide +kernel
theorem test_pq_special : (after (.pq 0 0 10) (withGroup (mode 2 0 false false ∘ vc 3 0x7F800000))).qflags ≠ 0 := by decide +kernel

/-- R159, R160: 1 * 2^3 = 8; 8 = 0.5 * 2^4. -/
theorem test_fldexp : ((after (.fldexp 1 2 3) (withGroup (mode 2 0 false false ∘ vc 2 0x3F800000 ∘ vc 3 3))).vr 1).lane 0 = 0x41000000 := by
  decide +kernel
theorem test_ffrexp :
    let g := after (.ffrexp 1 2 3) (withGroup (mode 2 0 false false ∘ vc 2 0x41000000))
    (g.vr 1).lane 0 = 0x3F000000 ∧ (g.vr 3).lane 0 = 4 := by decide +kernel

/-- Table 5.8: SCANX and RSUM on lanes 0, 1, 3, 4 and 5 of v5 = 3, 0, 2, 1, 4, 2, under the guard p1. -/
def fiveLanes (g : Group) : Group :=
  { (g.setV 5 (BitVec.allOnes 128) (fun L => BitVec.ofNat 32 ([3, 0, 2, 1, 4, 2].getD L 0))).setP 1 0x3B with mr := 0x00020011 }
theorem test_scanx :
    let v := (after (.scanx 6 5) (withGroup fiveLanes)).vr 6
    v.lane 1 = 3 ∧ v.lane 2 = 0 ∧ v.lane 3 = 3 ∧ v.lane 4 = 4 ∧ v.lane 5 = 8 := by decide +kernel
theorem test_rsum : (after (.rsum 9 5) (withGroup fiveLanes)).sr 9 = 10 := by decide +kernel

/-- R132, R133: SHFLUP by 1 keeps lane 0; LRD takes lane s[b][6:0]. -/
theorem test_shflup : ((after (.shflup 1 5 3) (withGroup (sc 3 1 ∘ fiveLanes))).vr 1).lane 4 = 1 := by decide +kernel
theorem test_lrd_modulo : (after (.lrd 1 5 3) (withGroup (sc 3 132 ∘ fiveLanes))).sr 1 = 4 := by decide +kernel

/-- R130, R131 under the guard p1 = lanes 0, 1, 3, 4, 5. -/
theorem test_pnot_live : (after (.pnot 2 2) (withGroup fiveLanes)).pr 2 = 0x3B := by decide +kernel
theorem test_pcnt : (after (.pcnt 7 1) (withGroup fiveLanes)).sr 7 = 5 := by decide +kernel
theorem test_pffs_none : (after (.pffs 7 2) (withGroup fiveLanes)).sr 7 = 128 := by decide +kernel

/-- R37: a reserved guard leaves MR; bits [31:18] are ignored. -/
theorem test_setmode_reserved : (after (.setmode 0x0002000C) plain).mr = 0x0002000F ∧ (after (.setmode 0x0002000C) plain).trap.code = 0x02 := by
  decide +kernel
theorem test_setmode_ignores_high : (after (.setmode 0xFFFE0000) plain).mr = 0x00020000 := by decide +kernel

/-- R31, R93, R95: BR back by one word; CALLR s126 jumps to the old link value. -/
theorem test_br_back : (after (.br false 15 false 0x7FFF) plain).pc = 0x1FFFFC := by decide +kernel
theorem test_callr_link : let g := after (.callr 126) (withGroup (sc 126 0x4003)); g.pc = 0x4000 ∧ g.sr 126 = 0x200004 := by decide +kernel
theorem test_br_uniformity : (after (.br true 1 true 2) (withGroup fun g => { fiveLanes g with mr := 0x0002000F })).trap.code = 0x04 := by decide +kernel

/-- R96: IFP on p2 = 0 takes the branch of Table 4.6 and pushes; ENDIF restores; a pop of the empty stack traps. -/
theorem test_ifp_empty : let g := after (.ifp false 2 true 2) plain
    g.exec = 0 ∧ g.pc = 0x200008 ∧ g.stack = [{ saved := BitVec.allOnes 128, other := BitVec.allOnes 128 }] := by decide +kernel
theorem test_endif_empty : (after .endif plain).trap.code = 0x05 := by decide +kernel

/-- R97, R98: the new group holds the lowest free number, its PC and arguments. R100: the last EXIT leaves no group. -/
theorem test_spawn : let s := run (.spawn 9 10 20) (withGroup (sc 10 0x4003 ∘ sc 21 77))
    (grp s).sr 9 = 1 ∧ (s.groups.map (fun p => (p.2.num, p.2.pc.toNat, (p.2.sr 1).toNat))).getLast? = some (1, 0x4000, 77) := by decide +kernel
theorem test_exit : (run .exit plain).groups.length = 0 := by decide +kernel

/-- R201, Table 8.2: a store, an atomic in lane order on one word, a range fault with the lane's offset. -/
theorem test_stsw : (tm (run (.stsw 1 2 3) (withGroup (sc 2 8 ∘ vc 1 0xA1B2C3D4)))).word32 8 = 0xA1B2C3D4 := by decide +kernel
theorem test_asadd_all_lanes : let s := run (.asadd 1 2 3) (withGroup (vc 1 1))
    (tm s).word32 0 = 128 ∧ ((grp s).vr 1).lane 127 = 127 := by decide +kernel
theorem test_ldsd_misaligned : let g := after (.ldsd 1 2 3) (withGroup (sc 2 4)); g.trap.code = 0x20 ∧ g.trap.taddr = 4 := by decide +kernel
theorem test_ldsw_range : let g := after (.ldsw 1 2 3) (withGroup (sc 2 16384)); g.trap.code = 0x21 ∧ g.trap.taddr = 16384 := by decide +kernel

/-- R205, R207, R208 on a word that expects one arrival: BINIT, then BARR, which completes the phase and goes on. -/
theorem test_binit : (tm (run (.binit 1 2) (withGroup (sc 1 64 ∘ sc 2 1)))).word64 64 = 0x8000040000000000 := by decide +kernel
def oneBarrier (t : Team) : Team := { t.putScratch 64 (natLe 0x8000040000000000 8) with tags := [64] }
theorem test_barr_completes : let s := run (.barr 1) (stand State.reset (sc 1 64) oneBarrier)
    (tm s).word64 64 = 0xC000040000000000 ∧ (grp s).park = none ∧ (grp s).bstatus = true := by decide +kernel
theorem test_btest_phase : (after (.btest 3 1) (stand State.reset (sc 1 64) oneBarrier)).pr 3 = 0 := by decide +kernel

/-- R241: little-endian, zero-extended; an aligned store reaches memory; a misaligned one traps with its address and stores nothing. -/
theorem test_ldh : let g := after (.ldh 1 2 3) (stand { State.reset with mem := Memory.write [] 0x1000 [0x34, 0x12, 0x56] } (sc 2 0x1000) id)
    due g 1 0 = some 0x1234 := by decide +kernel
theorem test_std_mem : let s := run (.sstd 1 2 3) (withGroup (sc 1 0x1122334455667788 ∘ sc 2 0x1000))
    s.num 0x1000 8 = 0x1122334455667788 ∧ Memory.wf s.mem = true := by decide +kernel
theorem test_stw_misaligned : let s := run (.stw 1 2 3) (withGroup (sc 2 0x1002 ∘ vc 1 1))
    (grp s).trap.code = 0x28 ∧ (grp s).trap.taddr = 0x1002 ∧ s.num 0x1000 4 = 0 := by decide +kernel

/-- R268, Table 10.3: a lane of AINC at its unit, whose x is 0: the word wraps to 0. -/
def incAtZero : AtomLane :=
  { gid := 2, core := 0, op := 9, lane := 0, pa := 0x1000, kind := .inc, x := 0, y := 0, mr := 0, order := .relaxed, scope := 9, noret := false, vd := 1,
    seq := 0 }
theorem test_ainc_wraps : (plain.performAtomic incAtZero).num 0x1000 4 = 0 := by decide +kernel

/-- R183, R192, R407: MFENCE's number, RSTPC's label, CLK. -/
theorem test_mfence : let g := after (.mfence 7) (withGroup fun g => { g with batch := 5 }); g.sr 7 = 5 ∧ g.batch = 6 := by decide +kernel
theorem test_setrst : (after (.setrst 2) plain).rstpc = 0x200009 := by decide +kernel
theorem test_clk : (after (.clk 3) (stand { State.reset with clk := 77 } id id)).sr 3 = 77 := by decide +kernel

/-- R166, R175: the Anvil's ownership; MMA without it is ANVIL_NOT_OWNED (0x18). -/
theorem test_mxacq : ((run .mxacq plain).core 0).owner = some 2 := by decide +kernel
theorem test_mma_not_owned : (after (.mma 0 2 4) plain).trap.code = 0x18 := by decide +kernel

/-- R402, R403: TRAP's number and the PC after it; a second trap inside the handler ends the team (R400). -/
theorem test_trap : let g := after (.trap 5) plain
    g.trap.code = 0x06 ∧ g.trap.tinfo = 5 ∧ g.trap.tpc = 0x200004 ∧ g.pc = 0x4000 := by decide +kernel
theorem test_double_fault : (run (.trap 5) (withGroup fun g => { g with trap := { g.trap with inh := true } })).groups.length = 0 := by
  decide +kernel

/-- R373: SNBIND of an id that is not open is SNAPSHOT_CLOSED (0x43). R281: QLEN of a handle that names no part is QUEUE_INVALID (0x30). -/
theorem test_snbind_closed : (after (.snbind 1) (withGroup (sc 1 9))).trap.code = 0x43 := by decide +kernel
theorem test_qlen_invalid : (after (.qlen 1 2) plain).trap.code = 0x30 := by decide +kernel

/-- R348: AES-256-GCM, the zero key and IV with 16 zero bytes: test case 14 of the GCM specification. -/
theorem test_gcm : gcmSeal (List.replicate 32 0) 0 [] (List.replicate 16 0)
    = (beBytes 16 0xcea7403d4d606b6e074ec5d3baf39d18, beBytes 16 0xd0d1c8a799996bf0265b98b5d48ab919) := by decide +kernel
/-- R410: SHAKE256 of the empty string (FIPS 202's example values). -/
theorem test_shake256 : (shake512 []).take 16 = natLe 0x24eb3e74eb3f3b23138da80b2bddb946 16 := by decide +kernel

/-- R297, R316: NSTAT of a number that names no ticket gives 7. R335: FPOS of a closed fibre is FIBRE_STATE (0x3A). -/
theorem test_nstat_none : (after (.nstat 1 2) plain).sr 1 = 7 := by decide +kernel
theorem test_fpos_closed : (after (.fpos 1 2) plain).trap.code = 0x3A := by decide +kernel


/-! ## Witnesses: for each statement with hypotheses, a state and operands that meet them

`ok s i p` says that `i` starts in `s` and that `p` holds of the issuing group, of its team and of the state in which the execution begins;
`ok_starts` turns it into the hypotheses as the statements write them. -/

def ok (s : State) (i : Instr) (p : Group → Team → State → Bool := fun _ _ _ => true) : Bool :=
  canStart s issuer i && match (s.begun i issuer (grp s)).team (grp s).team with
    | some t => p (grp s) t (s.begun i issuer (grp s))
    | none => false

theorem ok_starts {s : State} {i : Instr} {p : Group → Team → State → Bool} (h : ok s i p = true) :
    Starts i s issuer (grp s)
      ∧ ∃ t, (s.begun i issuer (grp s)).team (grp s).team = some t ∧ p (grp s) t (s.begun i issuer (grp s)) = true := by
  unfold ok at h
  simp only [Bool.and_eq_true] at h
  obtain ⟨h1, h2⟩ := h
  refine ⟨starts_of_canStart h1, ?_⟩
  split at h2
  · exact ⟨_, ‹_›, h2⟩
  · simp at h2

theorem group_grp {s : State} (h : (s.group 2).isSome = true) : s.group 2 = some (grp s) := by
  obtain ⟨g, e⟩ := Option.isSome_iff_exists.mp h
  simp [grp, e]

theorem team_tm {s : State} (h : (s.team 1).isSome = true) : s.team 1 = some (tm s) := by
  obtain ⟨t, e⟩ := Option.isSome_iff_exists.mp h
  simp [tm, e]

/-- Lanes 0 and 2 alone; offsets of 16 bytes a lane in v3; the f32 mode. -/
def lanes2 (g : Group) : Group := { g with exec := 5 }
def offs (g : Group) : Group := g.setV 3 (BitVec.allOnes 128) (fun L => BitVec.ofNat 32 (16 * L))
def inF32 : State := withGroup (mode 2 0 false false)

/-- Bytes placed in memory before the team and the group are. -/
def memA (l : List (Nat × List Byte)) : State := { State.reset with mem := l.foldl (fun m p => Memory.write m p.1 p.2) [] }

theorem witness_ScalarArithmetic : ∀ i ∈ [Instr.sadd 1 2 3, .ssub 1 2 3, .smul 1 2 3, .smin 1 2 3, .smax 1 2 3, .sand 1 2 3, .sor 1 2 3, .sxor 1 2 3,
    .sshl 1 2 3, .sshr 1 2 3, .ssar 1 2 3, .smov 1 2, .sclz 1 2, .spopc 1 2, .smovi 1 5, .saddi 1 5, .scmpeq 1 2 3, .scmpne 1 2 3, .scmplt 1 2 3,
    .scmple 1 2 3, .scmpltn 1 2 3, .scmplen 1 2 3], Starts i plain issuer (grp plain) := starts_all (by decide +kernel)

theorem witness_PredicatesAndModes : (∀ i ∈ [Instr.pand 1 2 3, .por 1 2 3, .pxor 1 2 3, .pandn 1 2 3, .pnot 1 2, .pset 1 true, .pcnt 1 2, .pffs 1 2,
    .setmode 0x2000F, .setmode 0xC, .setmodes 2, .rdmode 1, .rdx 2, .wrx 2, .prds 2 1, .pwrs 1 2], Starts i plain issuer (grp plain))
    ∧ mrLegal 0x2000F = true ∧ mrLegal 0xC = false ∧ mrLegal (((grp plain).sr 2).extractLsb' 0 32) = false
    ∧ ok (withGroup (sc 2 0x2000F)) (.setmodes 2) (fun g _ _ => mrLegal ((g.sr 2).extractLsb' 0 32)) :=
  ⟨starts_all (by decide +kernel), by decide +kernel⟩

theorem witness_VectorArithmetic : ∀ i ∈ [Instr.add 1 2 3, .sub 1 2 3, .mul 1 2 3, .mulh 1 2 3, .mad 1 2 3, .min 1 2 3, .max 1 2 3, .abs 1 2, .neg 1 2],
    Starts i plain issuer (grp plain) := starts_all (by decide +kernel)

theorem witness_VectorBits : ∀ i ∈ [Instr.and 1 2 3, .or 1 2 3, .xor 1 2 3, .not 1 2, .shl 1 2 3, .shr 1 2 3, .sar 1 2 3, .clz 1 2, .popc 1 2, .bfx 1 2 3,
    .bins 1 2 3, .sel 1 2 3, .mov 1 2, .movs 1 2, .movi 1 5, .laneid 1], Starts i plain issuer (grp plain) := starts_all (by decide +kernel)

theorem witness_VectorCompares : (∀ i ∈ [Instr.cmpeq 1 2 3, .cmpne 1 2 3, .cmplt 1 2 3, .cmple 1 2 3, .cmpgt 1 2 3, .cmpge 1 2 3],
    Starts i plain issuer (grp plain)) ∧ ∀ i ∈ [Instr.fcmpeq 1 2 3, .fcmpne 1 2 3, .fcmplt 1 2 3, .fcmple 1 2 3, .fcmpgt 1 2 3, .fcmpge 1 2 3, .fcmpun 1 2 3],
    Starts i inF32 issuer (grp inF32) := ⟨starts_all (by decide +kernel), starts_all (by decide +kernel)⟩

theorem witness_FloatArithmetic : ∀ i ∈ [Instr.fadd 1 2 3, .fsub 1 2 3, .fmul 1 2 3, .fma 1 2 3, .fmin 1 2 3, .fmax 1 2 3, .fabs 1 2, .fneg 1 2, .fclass 1 2],
    Starts i inF32 issuer (grp inF32) := starts_all (by decide +kernel)

theorem witness_FloatFunctions : ∀ i ∈ [Instr.fsqrt 1 2, .frcp 1 2, .frsq 1 2, .fexp2 1 2, .flog2 1 2, .fsin 1 2, .fcos 1 2, .ftanh 1 2],
    Starts i inF32 issuer (grp inF32) := starts_all (by decide +kernel)

theorem witness_Conversions : ∀ i ∈ [Instr.cvt 8 4 0, .cvt 8 4 8, .pq 0 0 10, .px 0 0 10, .topkins 1 2 3, .keepk 1 2 3, .fldexp 1 2 3, .ffrexp 1 2 3],
    Starts i inF32 issuer (grp inF32) := starts_all (by decide +kernel)

theorem witness_LaneMoves : ∀ i ∈ [Instr.shfl 1 2 3, .shflup 1 2 3, .shfldn 1 2 3, .shflx 1 2 3, .lrd 1 2 3, .lwr 1 2 3, .rsum 1 2, .rmax 1 2, .scanx 1 2],
    Starts i plain issuer (grp plain) := starts_all (by decide +kernel)

/-- A mask stack of 16 entries, the top one with no other lane; and one whose top has. -/
def fullStack (g : Group) : Group := { g with stack := List.replicate 16 { saved := 1, other := 0 } }
def oneEntry (g : Group) : Group := { g with stack := [{ saved := 7, other := 1 }] }
/-- LIVE is mixed over p1. -/
def mixed : State := withGroup (fun g => g.setP 1 0x3B)

theorem witness_ControlTransfers :
    (∀ i ∈ [Instr.nop, .br false 15 false 4, .br false 0 true 4, .br false 0 false 4, .brp false 0 true 4, .brp false 0 false 4, .call false 15 false 4,
      .call false 0 true 4, .call false 0 false 4, .brexz 4, .callr 1, .jmpr 1, .ret, .ifp false 0 true 4, .ifp true 0 false 4, .elsep 4, .endif],
      Starts i plain issuer (grp plain))
    ∧ (∀ i ∈ [Instr.br true 1 true 4, .brp true 1 true 4, .call true 1 true 4, .ifp true 1 true 4], Starts i mixed issuer (grp mixed))
    ∧ ((grp plain).liveNow &&& (grp plain).pr 0 = 0 ∧ (grp mixed).liveNow &&& (grp mixed).pr 1 ≠ 0
        ∧ (grp mixed).liveNow &&& (grp mixed).pr 1 ≠ (grp mixed).liveNow ∧ (grp plain).stack = [])
    ∧ ok (withGroup (fun g => { g with exec := 0 })) (.brexz 4) (fun g _ _ => decide (g.exec = 0))
    ∧ ok (withGroup fullStack) (.ifp false 0 false 4) (fun g _ _ => decide (16 ≤ g.stack.length))
    ∧ ok (withGroup fullStack) (.elsep 4) (fun g _ _ => decide (g.stack.head?.map MaskEntry.other = some 0))
    ∧ ok (withGroup oneEntry) (.elsep 4) (fun g _ _ => decide (g.stack.head?.map MaskEntry.other = some 1))
    ∧ ok (withGroup oneEntry) .endif (fun g _ _ => decide (g.stack ≠ [])) :=
  ⟨starts_all (by decide +kernel), starts_all (by decide +kernel), by decide +kernel⟩

/-- A team of 96 groups has no room for another. -/
def crowded : State := { plain with groups := (List.range 96).map (fun n => (n + 2, { grp plain with num := n, ctx := n })) }
def hasRoom (z : State) (g : Group) : Bool :=
  decide (0 < z.freeContexts g.core) && decide (0 < z.freeBlocks g.core) && decide ((z.teamGroups g.team).length < 96)

theorem witness_GroupLives :
    ok plain (.spawn 1 2 8) (fun g _ y => hasRoom y g && (y.lowestNumber g.team).isSome)
    ∧ ok plain (.spawnw 1 2 8) (fun g _ y => hasRoom y g && (y.lowestNumber g.team).isSome)
    ∧ ok crowded (.spawn 1 2 8) (fun g _ y => !hasRoom y g) ∧ ok crowded (.spawnw 1 2 8) (fun g _ y => !hasRoom y g)
    ∧ ∀ i ∈ [Instr.exit, .yield, .setpri 3, .sleep 0, .sleep 5], ok plain i = true := by decide +kernel

/-- A grid descriptor of one team of one consumer group, at 0x1000: valid; and with an entry that is not aligned. -/
def readsAt (va n : Nat) (p : State → List Byte → Bool) (y : State) : Bool :=
  match y.readLines (y.groupXc 2) (grp y).time (fun _ => 0) (BitVec.ofNat 64 va) n with
  | (z, .ok d) => p z d
  | _ => false

/-- A launch descriptor of one team of one group, at 0x1000; the die's table full or empty. -/
def fullDie : Die := { Die.fresh with grids := (List.range 256).map (fun k => (k, gridOf [] 0 0 0 0 [])) }
def launching (n : Nat) (full : Bool) : State :=
  stand ((memA [(0x1000, natLe n 64)]).setDie 0 (fun d => if full then fullDie else d)) (sc 2 0x1000) id
def oneTeam : Nat := 2 ^ 128 + 2 ^ 144 + 2 ^ 174 + 2 ^ 256
def launchable (y : State) (g : Group) (t : Team) (full : Bool) : Bool := readsAt 0x1000 64 (fun z d =>
  launchValid d (gridOf d (z.graphOf t) t.func t.life g.time ((List.range 8).map (fun n => g.sr (8 + n))))
    && ((Assoc.lowestFree (z.die 0).grids 0 256).isNone == full)) y

theorem witness_ChildLaunch :
    ok (withGroup (sc 2 0x1001)) (.lnch 1 2 8) (fun g _ _ => decide ((g.sr 2).toNat % 64 ≠ 0))
    ∧ ok (launching oneTeam false) (.lnch 1 2 8) (fun g t y => launchable y g t false)
    ∧ ok (launching oneTeam true) (.lnch 1 2 8) (fun g t y => launchable y g t true)
    ∧ ok (launching 0 false) (.lnch 1 2 8) (fun g t y => readsAt 0x1000 64 (fun z d => !launchValid d
        (gridOf d (z.graphOf t) t.func t.life g.time ((List.range 8).map (fun n => g.sr (8 + n))))) y) := by decide +kernel

/-- A reserve with a count, a cap and a line. -/
def reserve (n cap : Nat) (l : List BlockWait) : State := withTeam (fun t => t.setReserve 0 .consumer (fun _ => { count := n, cap := cap, line := l }))
def waiter9 : BlockWait := { gid := 9, want := 1, pri := 3, cycle := 0 }
def granted (y : State) (g : Group) (m : BitVec 3) : Bool := ((y.drawReserve g (blockCount m)).cutGrant 2 m).isSome

theorem witness_RegisterBlocks :
    (∀ i ∈ [Instr.xacq 3, .xtry 1 3, .xrel 3], ok (reserve 1 1 []) i (fun g t _ => decide ((t.reserve g.core g.role).cap < 2)) = true)
    ∧ (∀ i ∈ [Instr.xacq 1, .xtry 1 1], ok (withGroup (fun g => g.giveBlocks [(1, 1)])) i (fun g _ _ => decide (blockCount (1 &&& ~~~ g.xheld) = 0)) = true)
    ∧ (∀ i ∈ [Instr.xacq 3, .xtry 1 3], ok (reserve 2 2 []) i (fun g t y =>
        decide ((t.reserve g.core g.role).line = []) && decide (2 ≤ (t.reserve g.core g.role).count) && granted y g 3
        && !(y.core g.core).moving.any (fun w => decide (w.gid = 2))) = true)
    ∧ (∀ i ∈ [Instr.xacq 3, .xtry 1 3], ok (reserve 2 2 [waiter9]) i (fun g t _ => decide ((t.reserve g.core g.role).line ≠ [])
        && (t.reserve g.core g.role).line.all (fun w => decide (w.gid ≠ 2))) = true)
    ∧ (∀ i ∈ [Instr.xacq 3, .xtry 1 3], ok (reserve 1 2 []) i (fun g t _ => decide ((t.reserve g.core g.role).count < 2)
        && decide (2 ≤ (t.reserve g.core g.role).cap)) = true) := by decide +kernel

/-- The group in its handler, and its team. -/
def handling : State := stand State.reset (fun g => { g with trap := { g.trap with inh := true } }) (fun t => { t with halt := .handler 2 })

theorem witness_TrapInstructions :
    (∀ i ∈ [Instr.illegal 5, .unassignedOpcode 0x02600000, .trap 5, .tret, .tmask 3, .tunmask 3], ok plain i (fun g _ _ => !g.trap.inh) = true)
    ∧ ok plain (.brk 5) (fun g t _ => !t.attach && !g.trap.inh)
    ∧ ok (withTeam (fun t => { t with attach := true })) (.brk 5) (fun g t _ => t.attach && decide (g.stop = .running))
    ∧ ok handling .tret (fun g _ _ => g.trap.inh) := by decide +kernel

theorem witness_SpecialRegisters :
    [(0 : BitVec 14), 0x010, 0x020, 0x040, 0x048].all (fun k => ok plain (.rdsr 1 k) (fun g t y => (y.readSpecial 2 g t k.toNat).isSome))
    ∧ ∀ i ∈ [Instr.wrsr 1 0x042, .wrsr 1 0x048, .clk 1], ok plain i = true := by decide +kernel

theorem witness_TrapEntry :
    ((plain.group 2).isSome ∧ (plain.team 1).isSome ∧ (grp plain).team = 1 ∧ (tm plain).halt = .none ∧ (grp plain).trap.inh = false
      ∧ (grp plain).trap.tvec ≠ 0 ∧ (grp plain).park = none)
    ∧ ((handling.group 2).isSome ∧ (handling.team 1).isSome ∧ (grp handling).team = 1 ∧ (tm handling).ended = none
      ∧ (grp handling).trap.inh = true ∧ (handling.groups.map Prod.fst).Nodup) := by decide +kernel

/-- Group 2, number 0, beside group 3 of its team, number 1. -/
def beside (s : State) (f : Group → Group) : State := { s with groups := s.groups ++ [(3, f { grp s with num := 1, ctx := 1 })] }
def other (s : State) : Group := (s.group 3).getD (grp s)
/-- Group 3 has entered its handler in cycle 0; it is cycle `n`. -/
def taken (n : Nat) : State := beside (stand { State.reset with clk := n } (fun g => { g with stop := .skid 0 }) (fun t => { t with halt := .handler 3 }))
  (fun g => { g with pc := g.trap.tvec, stop := .running, trap := { g.trap with inh := true, tpc := 0x300000 } })

theorem witness_TrapEntry_siblings :
    (let s := beside plain (fun g => { g with park := some (.barrier 8 true) })
     s.atWait (other s) = true ∧ (other s).team = 1 ∧ (other s).stop = .running ∧ (s.groups.map Prod.fst).Nodup)
    ∧ ([0, 1].all (fun n => decide ((tm (taken n)).halt = .handler 3) && decide ((other (taken n)).team = 1) && !(grp (taken n)).trap.inh
        && decide ((grp (taken n)).park = none) && decide ((other (taken n)).park = none) && decide ((grp (taken n)).trap.tvec ≠ 0)) = true)
    ∧ (other (taken 0)).trap.inh = true ∧ (other (taken 0)).raised = (taken 0).clk ∧ (grp (taken 0)).num < (other (taken 0)).num
    ∧ (other (taken 1)).raised ≠ (taken 1).clk ∧ ((taken 0).groups.map Prod.fst).Nodup := by decide +kernel

/-- R397: a sibling parked at a barrier stops at once with TPC at its wait. R398: of two groups that trap in one cycle the lower number
has the handler; in a later cycle the trap stays pending. -/
theorem test_parked_sibling : let s := (beside plain (fun g => { g with park := some (.barrier 8 true), pc := 0x400000 })).takeTrap 2 (trapP 0x06)
    (other s).stop = .stopped ∧ (other s).trap.tpc = 0x400000 ∧ (other s).trap.count = 0 ∧ (tm s).halt = .handler 2 := by decide +kernel
theorem test_same_cycle : let s := (taken 0).takeTrap 2 (trapP 0x06)
    (tm s).halt = .handler 2 ∧ (tm s).pending = [3] ∧ (other s).pc = 0x300000 ∧ (grp s).trap.inh = true := by decide +kernel
theorem test_later_trap : let s := (taken 1).takeTrap 2 (trapP 0x06)
    (tm s).halt = .handler 3 ∧ (tm s).pending = [2] ∧ (grp s).stop = .stopped := by decide +kernel

theorem witness_TrapReturn_pending :
    let s := beside (stand State.reset (fun g => { g with trap := { g.trap with inh := true } }) (fun t => { t with halt := .handler 2, pending := [3] }))
      (fun g => { g with stop := .stopped })
    (tm s).pending = [3] ∧ (other s).team = 1 ∧ (other s).trap.tvec ≠ 0 ∧ (grp s).stop = .running ∧ (grp s).trap.inh = true
      ∧ (grp s).armed = none ∧ (grp s).replay.isNone = true := by decide +kernel

theorem witness_TrapReturn :
    (handling.group 2).isSome ∧ (handling.team 1).isSome ∧ (grp handling).team = 1 ∧ (grp handling).trap.inh = true ∧ (tm handling).pending = []
      ∧ (tm handling).held = [] ∧ handling.collecting 1 = false ∧ (grp handling).armed = none ∧ (grp handling).replay.isNone = true := by decide +kernel

/-- What each check needs, before the next one passes. -/
def checked (s : State) (i : Instr) : Nat :=
  let g := grp s
  if placedByTime i && s.atomicDue 2 then 0
  else if g.trap.inh && !handlerMay (opnum i) then 1
  else if !fieldsLegal (useCtx i g) i then 2
  else if g.isAgain then 0
  else if !acceptsEtype (opnum i) (mrSat g.mr) (mrEtype g.mr) then 3
  else if !blocksHeld (useCtx i g) i g then 4
  else if awaits (useCtx i g) i g || pathFull i none g then 5
  else if (g.bad.find? (fun x => readsPos (useCtx i g) i g x && consumesPos i g g.liveNow x)).isSome then 6
  else 7
def busyPath (g : Group) : Group := (List.range 63).foldl (fun g k => g.raisePath 0 (1000 + k) 0) g

theorem witness_IssueChecks :
    plain.cur = some issuer ∧ checked handling (.trap 1) ≠ 0 ∧ checked handling (.ldw 1 2 3) = 1 ∧ checked plain (.pand 13 1 1) = 2
    ∧ checked (withGroup (mode 8 0 false false)) (.fadd 1 2 3) = 3 ∧ checked plain (.add 40 2 3) = 4
    ∧ checked (withGroup busyPath) (.ldw 1 2 3) = 5
    ∧ checked (withGroup (fun g => { g with bad := [{ kind := .scalar, reg := 2, lane := 0 }] })) (.smov 1 2) = 6 := by decide +kernel

theorem witness_RegisterFrame :
    ∀ i ∈ [Instr.add 1 2 3, .sadd 1 2 3, .pand 1 2 3, .lwr 1 2 3, .wrx 2, .setmode 0x2000F, .laneid 1],
      (registerOnly i && !illegalMode i (grp plain) && decide (latentOf i (grp plain) = [])
        && (match exec i plain with | .next _ => true | _ => false) && ok plain i) = true := by decide +kernel

/-- Every live lane has a property; lane 0 does not. -/
def everyLane (g : Group) (p : Nat → Bool) : Bool := g.liveNow.lanes.all p
def scratchFine (g : Group) (t : Team) (z : Nat) (store : Bool) (L : Nat) : Bool :=
  let o := scratchAt g 2 3 L
  decide (o % z = 0) && decide (o + z ≤ 16384 * t.units) && (if store then !t.overlapsTag o z else (t.poisonIn o z).isNone)
def atEnd : State := withGroup (offs ∘ lanes2 ∘ sc 2 16368)

theorem witness_ScratchLoads : ∀ p ∈ [(Instr.ldsw 4 2 3, 4), (Instr.ldsd 4 2 3, 8), (Instr.ldsq 4 2 3, 16)],
    ok (withGroup offs) p.1 (fun g t _ => everyLane g (scratchFine g t p.2 false)) = true
    ∧ ok (withGroup (sc 2 1)) p.1 (fun g t _ => !scratchFine g t p.2 false 0 && g.liveNow.has 0) = true
    ∧ ok atEnd p.1 (fun g t _ => scratchFine g t p.2 false 0 && !scratchFine g t p.2 false 2 && g.liveNow.has 2) = true
    ∧ ok (withTeam (fun t => { t with sbad := [0] })) p.1 (fun g t _ => !scratchFine g t p.2 false 0) = true
    ∧ latentOf p.1 (grp (withGroup offs)) = [] ∧ ((withGroup offs).team (grp (withGroup offs)).team).isSome := by decide +kernel

theorem witness_ScratchStores : ∀ p ∈ [(Instr.stsw 4 2 3, 4), (Instr.stsd 4 2 3, 8), (Instr.stsq 4 2 3, 16)],
    ok (withGroup offs) p.1 (fun g t _ => everyLane g (scratchFine g t p.2 true) && Memory.wf t.scratch) = true
    ∧ ok (withGroup (sc 2 1)) p.1 (fun g t _ => !scratchFine g t p.2 true 0 && g.liveNow.has 0) = true
    ∧ ok atEnd p.1 (fun g t _ => scratchFine g t p.2 true 0 && !scratchFine g t p.2 true 2 && g.liveNow.has 2) = true
    ∧ ok (withTeam (fun t => { t with tags := [0] })) p.1 (fun g t _ => !scratchFine g t p.2 true 0) = true := by decide +kernel

theorem witness_ScratchAtomics : ∀ i ∈ [Instr.asadd 4 2 3, .asmin 4 2 3, .asmax 4 2 3, .asand 4 2 3, .asor 4 2 3, .asxor 4 2 3, .asxch 4 2 3, .ascas 4 2 3],
    ok (withGroup offs) i (fun g t _ => everyLane g (fun L => scratchFine g t 4 true L && scratchFine g t 4 false L)) = true := by decide +kernel

/-- A barrier word at offset 64, and s2. -/
def atBarrier (w : Nat) (x : Dword) : State := stand State.reset (sc 1 64 ∘ sc 2 x) (fun t => { t.putScratch 64 (natLe w 8) with tags := [64] })
def named (g : Group) (t : Team) : Bool :=
  decide ((g.sr 1).toNat = 64) && decide (64 + 8 ≤ 16384 * t.units) && t.tagged 64 && (t.poisonIn 64 8).isNone && Memory.wf t.scratch
def waits64 (g : Group) : Group := { g with park := some (.barrier 64 true) }

theorem witness_BarrierInit :
    ok (withGroup (sc 1 16376 ∘ sc 2 0x3FFF)) (.binit 1 2) (fun g t y => decide ((g.sr 1).toNat + 8 = 16384 * t.units) && Memory.wf t.scratch
        && !t.tagged 16376 && decide (y.waitersOn 1 16376 = []) && decide ((g.sr 2).toNat + 1 = 2 ^ 14))
    ∧ ok (atBarrier 0x8000040000000000 0) (.binit 1 2) (fun g t _ => named g t && decide ((g.sr 2).toNat = 0))
    ∧ ok (atBarrier 0x8000040000000000 0x4000) (.binit 1 2) (fun g t _ => named g t && decide (2 ^ 14 ≤ (g.sr 2).toNat))
    ∧ (Memory.wf (tm plain).scratch = true ∧ (-(2 ^ 27) : Int) ≤ (⟨false, false, false, 16383, 16383, 2 ^ 27 - 1⟩ : Barrier).pending) := by decide +kernel

theorem witness_Barriers :
    (∀ i ∈ [Instr.barr 1, .barrtx 1 2, .bwait 1 2, .btest 3 1, .binv 1], ok (atBarrier 0x8000080000000000 1) i (fun g t _ => named g t
        && !(t.barrier 64).inv && decide ((t.barrier 64).arrivals ≠ (t.barrier 64).expected) && decide ((t.barrier 64).pending + 1 ≤ 2 ^ 27 - 1)) = true)
    ∧ (∀ i ∈ [Instr.barr 1, .barrtx 1 2, .binv 1], ok (atBarrier 0xA000080000000000 0) i (fun g t _ => named g t && (t.barrier 64).inv) = true)
    ∧ (∀ i ∈ [Instr.barr 1, .barrtx 1 2], ok (atBarrier 0x8000040010000000 0) i (fun g t _ => named g t && !(t.barrier 64).inv
        && decide ((t.barrier 64).arrivals = (t.barrier 64).expected)) = true)
    ∧ (let s := stand State.reset waits64 (fun t => { t with tags := [64] })
       (s.team 1).isSome ∧ Memory.wf (tm s).scratch = true ∧ (grp s).team = 1 ∧ (grp s).park = some (.barrier 64 true)) := by decide +kernel

/-- A copy's operands: scratch offset, address, length word, barrier word. -/
def copying (dst src len : Nat) (bv : Dword) (h : Team → Team) : State :=
  stand State.reset (sc 4 (BitVec.ofNat 64 dst) ∘ sc 1 (BitVec.ofNat 64 src) ∘ sc 2 (BitVec.ofNat 64 len) ∘ sc 3 bv) h
def barrier64 (w : Nat) (t : Team) : Team := { t.putScratch 64 (natLe w 8) with tags := [64] }
def copyFine (dst len : Nat) (t : Team) (y s : State) : Bool :=
  decide (dst + len ≤ 16384 * t.units) && !t.overlapsTag dst len && decide (y.uid = s.uid + 1)

theorem witness_CopiesAndPathWaits :
    (let s := copying 0 4096 16384 (BitVec.allOnes 64) id
     ok s (.cpgs 4 1 2) (fun _ t y => copyFine 0 16384 t y s))
    ∧ (let s := copying 256 4096 4096 64 (barrier64 0x8000080000000000)
       ok s (.cpgs 4 1 2) (fun _ t y => copyFine 256 4096 t y s && t.tagged 64 && (t.poisonIn 64 8).isNone && !(t.barrier 64).inv
         && decide ((t.barrier 64).pending + 4096 ≤ 2 ^ 27 - 1)))
    ∧ (let s := copying 256 4096 4096 64 id
       ok s (.cpgs 4 1 2) (fun _ t y => copyFine 256 4096 t y s && !t.tagged 64))
    ∧ (let s := copying 256 4096 4096 64 (barrier64 0xA000080000000000)
       ok s (.cpgs 4 1 2) (fun _ t y => copyFine 256 4096 t y s && t.tagged 64 && (t.poisonIn 64 8).isNone && (t.barrier 64).inv))
    ∧ ok plain (.waitc 0 0 0 0) (fun g _ _ => (List.range 4).all (fun k => decide (g.counter k = 0)))
    ∧ ok plain (.waitp 2 1) (fun g _ _ => decide (g.counter 2 ≤ (g.sr 1).toNat))
    ∧ ok (withGroup busyPath) (.waitc 62 0 0 0) (fun g _ _ => decide (62 < g.counter 0))
    ∧ ok (withGroup busyPath) (.waitp 0 1) (fun g _ _ => decide ((g.sr 1).toNat < g.counter 0)) := by decide +kernel

/-- The lanes of an access translate, and accessing them neither faults nor waits for an owner (`Reaches`, `performLanes`). -/
def reaching (s : State) (i : Instr) (acc : Acc) (path : Nat) (f : Ix → State → Nat → Target → State × LaneRes) (c : Cur := issuer) : Bool :=
  let g := grp s
  let y := (s.begun i c g).setGroup 2 (fun h => h.raisePath path (s.uid + 1) 0)
  let r := y.translateLanes (y.groupXc 2) acc (g.liveNow.lanes.map (fun L => (L, laneAt g 2 3 L)))
  r.2.faults.isEmpty && r.2.waits.isEmpty && r.2.pages.isEmpty && r.2.ok.all (fun q => !(r.1.line (lineOf q.pa)).bad)
    && (let p := (performLanes (f (ixOf s c g)) r.2.ok [] r.1).2
        p.faults.isEmpty && p.owned.isEmpty && !p.wait)
def aligned (g : Group) (z : Nat) : Bool := everyLane g (fun L => decide ((laneAt g 2 3 L).toNat % z = 0))
def quietState (s : State) (i : Instr) : Bool :=
  decide (latentOf i (grp s) = []) && s.migrations.isEmpty && s.cores.all (fun p => p.2.combine.isEmpty)
def fetching : State := stand (memA [(0x1000, [1, 2, 3, 4, 5])]) (offs ∘ lanes2 ∘ sc 2 0x1000) id

theorem witness_VectorAccesses_loads :
    ∀ p ∈ [(Instr.ldb 4 2 3, 1), (Instr.ldh 4 2 3, 2), (Instr.ldw 4 2 3, 4), (Instr.ldd 4 2 3, 8), (Instr.ldq 4 2 3, 16)],
    ok fetching p.1 (fun g _ _ => aligned g p.2 && quietState fetching p.1) = true
      ∧ reaching fetching p.1 .read 0 (fun x s last tg => s.loadLane x p.2 last tg) = true := by decide +kernel

theorem witness_VectorAccesses_stores :
    ∀ p ∈ [(Instr.stb 4 2 3, 1, 1), (Instr.sth 4 2 3, 2, 1), (Instr.stw 4 2 3, 4, 1), (Instr.std 4 2 3, 8, 2), (Instr.stq 4 2 3, 16, 4)],
    ok fetching p.1 (fun g _ _ => aligned g p.2.1 && quietState fetching p.1) = true
      ∧ reaching fetching p.1 .write 1 (fun x s last tg => s.storeLane x
          (((List.range p.2.2).flatMap (fun j => natLe ((x.g.vr (4 + j)).lane tg.lane).toNat 4)).take p.2.1) last tg) = true := by decide +kernel

theorem witness_VectorAccesses_misaligned :
    ∀ p ∈ [(Instr.ldh 4 2 3, 2), (Instr.ldw 4 2 3, 4), (Instr.ldd 4 2 3, 8), (Instr.ldq 4 2 3, 16), (Instr.sth 4 2 3, 2), (Instr.stw 4 2 3, 4),
      (Instr.std 4 2 3, 8), (Instr.stq 4 2 3, 16)],
    ok (withGroup (sc 2 0x1001)) p.1 (fun g _ _ => decide ((laneAt g 2 3 0).toNat % p.2 ≠ 0) && g.liveNow.has 0) = true := by decide +kernel

def wholeReaches (s : State) (i : Instr) (acc : Acc) (path : Nat) (f : Ix → State → Target → State × LaneRes) : Bool :=
  let g := grp s
  match (s.begun i issuer g).translate ((s.begun i issuer g).groupXc 2) (wholeAt g 2 3) acc with
  | (y, .ok pa typ) =>
    (match f (ixOf s issuer g) (y.setGroup 2 (fun h => h.raisePath path (s.uid + 1) 0)) { lane := whole, va := wholeAt g 2 3, pa := pa, typ := typ } with
     | (_, .ok _ _) => true
     | _ => false)
  | _ => false

theorem witness_WholeGroupAccesses :
    (∀ p ∈ [(Instr.sldw 4 2 3, 4), (Instr.sldd 4 2 3, 8)], ok fetching p.1 (fun g _ _ => decide ((wholeAt g 2 3).toNat % p.2 = 0)) = true
      ∧ wholeReaches fetching p.1 .read 0 (fun x s tg => s.loadLane x p.2 0 tg) = true)
    ∧ (∀ p ∈ [(Instr.sstw 4 2 3, 4), (Instr.sstd 4 2 3, 8)], ok fetching p.1 (fun g _ _ => decide ((wholeAt g 2 3).toNat % p.2 = 0)) = true
      ∧ wholeReaches fetching p.1 .write 1 (fun x s tg => s.storeLane x (natLe (x.g.sr 4).toNat p.2) 0 tg) = true)
    ∧ ∀ i ∈ [Instr.sldw 4 2 3, .sldd 4 2 3, .sstw 4 2 3, .sstd 4 2 3],
      ok (withGroup (sc 2 0x1001)) i (fun g _ _ => decide ((wholeAt g 2 3).toNat % 4 ≠ 0)) = true := by decide +kernel

/-- Line 16 with two writes, a lease and no owner. -/
def written9 : Version := { time := 9, old := [(4096, 3)], tags := [], moved := false }
def written : State :=
  { plain with lines := [(16, { Line.fresh with versions := [written9, { written9 with time := 4, old := [] }], rtime := 7 })] }
def target (pa : Nat) : Target := { lane := 0, va := BitVec.ofNat 64 pa, pa := pa, typ := 0 }

theorem witness_LoadLane : (written.group 2).isSome ∧ (target 4097).typ = 0 ∧ (written.line (lineOf 4097)).owners = []
    ∧ (written.line (lineOf 4097)).bad = false ∧ (grp written).snap = none
    ∧ (written.core (ixOf written issuer (grp written)).g.core).combine = [] ∧ written.afterAtoms (ixOf written issuer (grp written)) 0 16 false = false
    ∧ viewsOf (grp written) 0 (written.line 16) (written.instOf 2 (grp written) 0 9) = [] := by decide +kernel

theorem witness_StoreAndHistory : Memory.wf written.mem = true ∧ (written.group 2).isSome ∧ (written.line (lineOf 4351)).owners = []
    ∧ written.migrations = [] ∧ (grp written).mon = none ∧ 4351 % 256 + [(5 : Byte)].length ≤ 256
    ∧ ((written.line (lineOf 4351)).versions.map Version.time).Pairwise (· ≥ ·) ∧ 6 ∉ (written.line 16).versions.map Version.time
    ∧ written.afterAtoms (ixOf written issuer (grp written)) 0 16 true = false
    ∧ viewsOf (grp written) 0 (written.line 16) (written.instOf 2 (grp written) 0 9) = []
    ∧ ([(4096, (7 : Byte)), (4351, 2)].map Prod.fst).Nodup ∧ lineOf 4096 = 16 ∧ lineOf 4351 = 16 := by decide +kernel

/-- A combining buffer of the group; the same while its line is owned; and an ORD's second word. -/
def combining (o : List Owner) : State := { plain with
  cores := [(0, { Core.fresh with combine := [{ gid := 2, team := 1, line := 16, data := [(3, 5)], ops := [9] }] })], lines := [(16, { Line.fresh with owners := o })] }
def paired (w : Nat) : State := { plain with mem := Memory.write plain.mem 0x200004 (natLe w 4) }
def second (s : State) : Option Word := match s.fetchWord 2 none ((grp s).pc + 4) with | (z, .word w) => (z.group 2).map (fun _ => w) | _ => none

theorem witness_FencesAndPairs :
    (∀ i ∈ [Instr.fence 0 5, .fence 3 0, .wcfl], ok (combining []) i (fun _ _ y => !y.flushBlocked 2) = true
      ∧ ok (combining [{ op := 9, tw := 5, core := 0 }]) i (fun _ _ y => y.flushBlocked 2) = true)
    ∧ ok plain (.pref 2 3)
    ∧ plain.cur = some issuer ∧ (grp plain).trap.inh = false ∧ fieldsLegal (useCtx (.ord false 5 0) (grp plain)) (.ord false 5 0) = false
    ∧ fieldsLegal (useCtx (.ord true 4 0) (grp plain)) (.ord true 4 0) = true
    ∧ second plain = some 0 ∧ second (paired (0x402 * 2 ^ 21 + 2 ^ 14)) = some (0x402 * 2 ^ 21 + 2 ^ 14)
    ∧ ordPairs 0 = false ∧ ordPairs 0x402 = true ∧ admitsOrder 0x402 false 4 = true
    ∧ (match decode (bytesOfWord (0x402 * 2 ^ 21 + 2 ^ 14)) with | .ok (_, []) => true | _ => false) = true := by decide +kernel

def atomicsAt : State := withGroup (offs ∘ lanes2 ∘ sc 2 0x1000)
def owedReplies : State := { atomicsAt with agenda := List.replicate 8 { at_ := 0, onRef := false, ev := .atomicReply { gid := 2, op := 9, lane := 0, vd := 1, old := 0, bad := false } } }

theorem witness_Atomics :
    (∀ p ∈ [(Instr.aadd 4 2 3, AtomOp.add, 1), (Instr.asub 4 2 3, .sub, 1), (Instr.amin 4 2 3, .min, 1), (Instr.amax 4 2 3, .max, 1),
      (Instr.aand 4 2 3, .and, 1), (Instr.aor 4 2 3, .or, 1), (Instr.axor 4 2 3, .xor, 1), (Instr.axch 4 2 3, .xch, 1), (Instr.acas 4 2 3, .cas, 2),
      (Instr.ainc 4 2 3, .inc, 1), (Instr.adec 4 2 3, .dec, 1)],
      ok atomicsAt p.1 (fun g _ y => aligned g 4 && everyLane g (fun L => decide (y.repliesDue 2 L < 8))) = true
      ∧ reaching atomicsAt p.1 .atomic 0 (fun x s _ tg => s.sendAtomic x p.2.1 4 ((List.range p.2.2).map (fun j => x.g.vr (4 + j))) tg) = true)
    ∧ (let s := withGroup (mode 2 0 false false ∘ offs ∘ lanes2 ∘ sc 2 0x1000)
       ok s (.afadd 4 2 3) (fun g _ y => aligned g 4 && everyLane g (fun L => decide (y.repliesDue 2 L < 8))) = true
       ∧ reaching s (.afadd 4 2 3) .atomic 0 (fun x s _ tg => s.sendAtomic x .fadd 4 ((List.range 1).map (fun j => x.g.vr (4 + j))) tg) = true)
    ∧ (let c : Cur := { issuer with pre := some (prefixOf true 4 5) }
       let s : State := { atomicsAt with cur := some c }
       canStart s c (.aadd 4 2 3) = true ∧ noResult c.pre = true ∧ aligned (grp s) 4 = true
         ∧ reaching s (.aadd 4 2 3) .atomic 1 (fun x s _ tg => s.sendAtomic x .add 4 [x.g.vr 4] tg) c = true)
    ∧ ok (withGroup (sc 2 0x1002)) (.aadd 4 2 3) (fun g _ _ => decide ((laneAt g 2 3 0).toNat % 4 ≠ 0) && g.liveNow.has 0)
    ∧ ok owedReplies (.aadd 4 2 3) (fun g _ y => g.liveNow.has 0 && decide (8 ≤ y.repliesDue 2 0))
    ∧ (Memory.wf plain.mem = true ∧ (plain.group 2).isSome ∧ (plain.line 16).bad = false ∧ plain.migrations = [] ∧ incAtZero.pa % 4 = 0
        ∧ incAtZero.noret = false ∧ ((plain.line 16).versions.map Version.time).Pairwise (· ≥ ·)) := by decide +kernel

/-- A monitor armed at time 5 on line 16, which was last written at `w`; s2 holds the timeout. -/
def monitoring (n : Dword) (w : Nat) : State :=
  { withGroup (fun g => { sc 2 n g with mon := some { line := 16, time := 5, coarse := false } }) with
    lines := [(16, { Line.fresh with versions := [{ written9 with time := w, old := [] }] })] }
def armedAt (s : State) (p : State → Nat → Nat → Bool) : Bool :=
  let g := grp s
  let y := s.begun (.mona 2 3) issuer g
  match g.live.first with
  | some L => (match y.translate (y.groupXc 2) (laneAt g 2 3 L) .read with | (z, .ok pa typ) => p z pa typ | _ => false)
  | none => false
/-- The page of VA 0x10000 shows the Hearth. -/
def hearthPage (s : State) : State := { s with mem := Memory.write s.mem (0x100000 + 8192 + 8) (natLe (0x10000000000 + 0x73) 8) }

theorem witness_Monitors :
    ok (withGroup (fun g => { g with exec := 0 })) (.mona 2 3) (fun g _ _ => decide (g.live = 0))
    ∧ ok atomicsAt (.mona 2 3) ∧ armedAt atomicsAt (fun z pa typ => decide (typ < 2) && decide (z.paKind pa ≠ .hearth) && (z.regionOf pa).isNone)
    ∧ ok plain (.mwt 2) (fun g _ _ => decide (g.mon = none))
    ∧ ok (monitoring 100 6) (.mwt 2) (fun _ _ y => decide (5 < (y.line 16).wtime))
    ∧ [(0 : Dword), 0xFFFFFFFFFFFFFFFF, 100].all (fun n => ok (monitoring n 5) (.mwt 2) (fun _ _ y => decide ((y.line 16).wtime ≤ 5))) := by
  decide +kernel

/-- A descriptor of 64 bytes at 0x1000, which s2 names, and data from 0x2000 on. -/
def described (n : Nat) (f : Group → Group) (h : Team → Team) : State :=
  stand (memA [(0x1000, natLe n 64), (0x2000, (List.range 64).map (BitVec.ofNat 8))]) (sc 2 0x1000 ∘ f) h
/-- A dense matrix of 16 by 4 elements, and a stored index. -/
def dense : Nat := 0x2000 + 2 * 2 ^ 195 + 2 ^ 224 + 3 * 2 ^ 240 + 16 * 2 ^ 256
def csr : Nat := 0x2000 + 0x3000 * 2 ^ 64 + 0x2800 * 2 ^ 128 + 3 * 2 ^ 192 + 2 * 2 ^ 195 + 2 ^ 224 + 3 * 2 ^ 240
def coords (g : Group) : Group := lanes2 (g.setV 3 (BitVec.allOnes 128) (fun L => BitVec.ofNat 32 (if L = 2 then 0x10001 else 0)))
def describes (s : State) (va : Nat) (p : State → List Byte → Bool) (y : State) : Bool :=
  match handleRead (ixOf s issuer (grp s)) va y with
  | (z, .ok d) => p z d
  | _ => false
def gathered (s : State) (g : Group) (y : State) : Bool := describes s 0x1000 (fun z desc =>
  let h := Handle.ofBytes desc
  let q := g.liveNow.lanes.foldl ((ixOf s issuer g).gatherLane h (g.vr 3))
    { s := z.setGroup 2 (fun h => h.raisePath 4 (s.uid + 1) 0), vals := [], faults := [], addrs := [], waits := [], busy := false, pages := [] }
  (handleFault desc).isNone && q.faults.isEmpty && q.waits.isEmpty && !q.busy
    && everyLane g (fun L => decide (((g.vr 3).lane L).toNat % 65536 < h.rows ∧ ((g.vr 3).lane L).toNat / 65536 < h.cols))) y

theorem witness_Gathers :
    (∀ i ∈ [Instr.gath 4 2 3, .gathq 4 2 3], ok (described dense coords id) i (fun g _ y => gathered (described dense coords id) g y) = true
      ∧ ok (withGroup (sc 2 0x1001)) i = true
      ∧ ok (described (dense + 2 ^ 400) id id) i (fun _ _ y => describes (described (dense + 2 ^ 400) id id) 0x1000 (fun _ d => (handleFault d).isSome) y) = true)
    ∧ ok (described dense (vc 3 0x40000) id) (.gath 4 2 3) (fun g _ y => g.liveNow.has 0 && describes (described dense (vc 3 0x40000) id) 0x1000 (fun _ d =>
        (handleFault d).isNone && decide ((Handle.ofBytes d).cols ≤ ((g.vr 3).lane 0).toNat / 65536)) y) := by decide +kernel

/-- A pattern program of Table 13.1's shape, loaded in slot 0; a fibre open on it in f1. -/
def prog : List Word := [0x02000000, 0x00070007, 0x04000000, 0x0001FFFF, 0]
def programmed (ws : List Word) (va : Dword) (h : Team → Team) : State := stand (memA [(0x1000, ws.flatMap (fun w => natLe w.toNat 4))]) (sc 2 va) h
def fibre0 (counting : Bool) : Fibre :=
  { src := .pattern prog false, trans := false, row0 := 0, col0 := 0, rspan := 8, cspan := 8, count := 3, major := 0, row := none, exhausted := false,
    counting := counting, time := 0 }
def loaded (t : Team) : Team := { t with patterns := [(0, { words := prog, inv := false })] }
def opened (c : Bool) : State := stand State.reset (lanes2 ∘ sc 2 (patHandle false 0 0)) (fun t => { loaded t with fibres := [(1, fibre0 c)] })
def slot0Free (t : Team) (y : State) : Bool := decide (Assoc.lowestFree t.patterns 0 16 = some 0) && decide (y.patternSlots t.home < 16)
def eight : Team → Team := fun t => { t with fibres := (List.range 8).map (fun n => (n, fibre0 false)) }
/-- Another team of the same home core holds its 8 contexts. -/
def contexts8 : State := { opened false with teams := (1, loaded (tm plain)) :: [(9, eight (tm plain))] }

theorem witness_Fibres_programs :
    ok (programmed prog 0x1002 id) (.pgld 1 2) (fun g _ _ => decide ((g.sr 2).toNat % 4 ≠ 0))
    ∧ ok (programmed prog 0x1000 (fun t => { t with patterns := (List.range 16).map (fun n => (n, { words := [], inv := false })) })) (.pgld 1 2)
        (fun _ t _ => decide (Assoc.lowestFree t.patterns 0 16 = none))
    ∧ (let s := programmed prog 0x1000 id
       ok s (.pgld 1 2) (fun g t y => slot0Free t y && match readProgram (ixOf s issuer g) 0x1000 64 [] y with | (_, .ok (_, .ok _ _ _)) => true | _ => false))
    ∧ (let s := programmed [0xFF000000] 0x1000 id
       ok s (.pgld 1 2) (fun g t y => slot0Free t y && match readProgram (ixOf s issuer g) 0x1000 64 [] y with | (_, .ok (_, .bad _ _)) => true | _ => false))
    ∧ ok plain (.pgfree 2) (fun g t _ => (t.handle (g.sr 2)).isNone) ∧ ok (opened false) (.pgfree 2) (fun g t _ => (t.handle (g.sr 2)).isSome) := by
  decide +kernel

theorem witness_Fibres_open :
    ok contexts8 (.fopen 2 2 3) (fun _ t y => !Assoc.has t.fibres 2 && decide (8 ≤ y.swageContexts t.home))
    ∧ ok (opened false) (.fopen 1 2 3) (fun g t _ => Assoc.has t.fibres 1 && (g.sr 2).getLsbD 63 && (t.handle (g.sr 2)).isSome
        && decide (bits (g.sr 3).toNat 63 52 = 0))
    ∧ ok (stand State.reset (sc 2 (patHandle false 0 0) ∘ sc 3 0x8000000000000000) loaded) (.fopen 1 2 3) (fun g t _ =>
        (t.handle (g.sr 2)).any (fun p => !p.2.inv) && bit (g.sr 3).toNat 63 && decide (bits (g.sr 3).toNat 62 52 = 0))
    ∧ ok (withGroup (sc 2 (patHandle false 0 5))) (.fopen 1 2 3) (fun g t _ => (g.sr 2).getLsbD 63 && (t.handle (g.sr 2)).isNone)
    ∧ ok (described csr id id) (.fopen 1 2 3) (fun g _ y => !(g.sr 2).getLsbD 63 && describes (described csr id id) 0x1000 (fun _ d =>
        (handleFault d).isNone && decide ((Handle.ofBytes d).fmt = 3)) y) := by decide +kernel

theorem witness_Fibres_reads :
    (∀ i ∈ [Instr.fadv 4 1, .fend 2 1, .fpos 3 1], ok (opened false) i (fun _ t _ => (Assoc.get t.fibres 1).any (fun f => !f.counting)) = true
      ∧ ok plain i (fun _ t _ => (Assoc.get t.fibres 1).isNone) = true)
    ∧ ok (opened true) (.fadv 4 1) (fun _ t _ => (Assoc.get t.fibres 1).any Fibre.counting) ∧ ok plain (.fclose 1)
    ∧ ok (opened false) (.fadv 4 1) (fun g _ y => match (fibre0 false).next (ixOf (opened false) issuer g) g.liveNow.lanes.length y with
        | (_, .ok _) => true | _ => false) := by decide +kernel

/-- The Anvil with an owner and a line; with operations in its queue. -/
def anvil (k : Option Nat) (l : List Nat) : State := { plain with cores := [(0, { Core.fresh with owner := k, line := l })] }
def tileop : TileOp :=
  { id := 9, gid := 2, team := 1, tile := 0, live := 0, mr := 0, kind := .accz, batch := 3, opc := 0, time := 0, tw := 0, started := false, todo := [],
    got := [], phase := 0, fetched := 0, eaten := 0, eats := none, due := [], stuck := false, pins := [], owned := [] }
def tiling (n : Nat) (s : State) : State := { s with cores := [(0, { Core.fresh with owner := some 2, tileq := List.replicate n tileop })] }

theorem witness_AnvilOwnershipAndBatches :
    (∀ i ∈ [Instr.mxacq, .mxtry 1, .mxrel], ok (anvil (some 2) []) i = true ∧ ok (anvil none []) i = true ∧ ok (anvil (some 5) []) i = true)
    ∧ (∀ i ∈ [Instr.mxacq, .mxtry 1], ok (anvil (some 5) (List.replicate 16 7)) i = true ∧ ok (anvil none [7]) i = true)
    ∧ ok (anvil (some 2) [7]) .mxrel ∧ (∀ i ∈ [Instr.mfence 1, .setrst 0, .setrst 5, .mwaitb 2], ok plain i = true)
    ∧ ok (tiling 1 (withGroup (fun g => { sc 2 3 g with batch := 4 }))) (.mwaitb 2) (fun g _ y =>
        (y.core (y.anvilOf g)).tileq.any (fun o => decide (o.gid = 2 ∧ o.kind = .accz ∧ o.batch ≤ 3 ∧ o.batch < g.batch))) := by decide +kernel

/-- A format block with one K-block, and the fibre it names. -/
def fmtBlock : Nat := 1024 * 2 ^ 128 + 2048 * 2 ^ 160 + 2 * 2 ^ 230 + 2 ^ 235
def multiplying (n : Nat) (a : Dword) : State := tiling 0 (described n (sc 3 a ∘ sc 4 0x4000) (fun t => { t with fibres := [(0, { fibre0 false with count := 0 })] }))
def room (t : Team) (y : State) (tile : Nat) : Bool := decide ((y.core t.home).tileq.length < 32) && decide (tile < t.ntiles)

theorem witness_TileOperations :
    (∀ i ∈ [Instr.accz 0, .accrd 8 0 3, .accwr 0 8 3, .accst 0 2 3, .mma 0 2 3, .mmas 0 2 3],
      ok (tiling 32 plain) i (fun _ t y => decide (32 ≤ (y.core t.home).tileq.length)) = true)
    ∧ (∀ i ∈ [Instr.accz 0, .accrd 8 0 3, .accwr 0 8 3], ok plain i (fun _ t y => room t y 0) = true)
    ∧ ok (withGroup (sc 3 1025)) (.accst 0 2 3) (fun g t y => room t y 0 && decide (bits (g.sr 3).toNat 31 0 % 64 ≠ 0))
    ∧ ok (withGroup (sc 3 1024)) (.accst 0 2 3) (fun g t y => room t y 0 && decide (bits (g.sr 3).toNat 63 32 = 0) && decide (rowBytes 0 ≤ 1024))
    ∧ (∀ i ∈ [Instr.mma 0 2 3, .mmas 0 2 3], ok plain i (fun _ t y => decide ((y.core t.home).owner ≠ some 2)) = true
      ∧ ok (multiplying fmtBlock 0x2000) i (fun _ t y => decide ((y.core t.home).owner = some 2) && room t y 0) = true
      ∧ ok (multiplying fmtBlock 0x2001) i (fun g _ _ => decide ((g.sr 3).toNat % 256 ≠ 0)) = true
      ∧ ok (tiling 0 (withGroup (sc 2 0x1001))) i (fun g _ _ => decide ((g.sr 2).toNat % 64 ≠ 0)) = true)
    ∧ (∀ i ∈ [Instr.mma 11 2 3, .mmas 11 2 3], ok (multiplying fmtBlock 0x2000) i (fun _ t y => decide ((y.core t.home).owner = some 2) && decide (t.ntiles ≤ 11)) = true)
    ∧ ok (multiplying fmtBlock 0x2000) (.mma 0 2 3) (fun _ _ y => readsAt 0x1000 64 (fun z d => fmtValid d false && !(z.dev.reduced && decide (4 < (Fmt.ofBytes d).bplanes))) y)
    ∧ ok (multiplying fmtBlock 0x2000) (.mmas 0 2 3) (fun g t y => readsAt 0x1000 64 (fun z d => fmtValid d true
        && (Assoc.get t.fibres (Fmt.ofBytes d).fibre).any (fun f => match presentOf (Fmt.ofBytes d) f (ixOf (multiplying fmtBlock 0x2000) issuer g) z with
          | (_, .ok _) => true | _ => false)) y)
    ∧ ok (tiling 0 (described fmtBlock (sc 3 0x2000) id)) (.mmas 0 2 3) (fun _ t _ => t.fibres.isEmpty) := by decide +kernel

/-- Queue part 2, whose handle is 128; s2 holds it. -/
def queue0 : Queue :=
  { graph := 0, func := 0, rsize := 0, lcap := 1, slice := 0, linger := 65535, spillu := 0, spillbase := 0, peers := [], ring := [], spill := [], spillHead := 0, transit := 0,
    sealed := false, sealTime := 0, waiting := [], sample := ⟨0, false, false, false⟩, taken := ⟨0, false, false, false⟩ }
def rec0 : Rec := { words := [1, 2, 3, 4], bad := false, tick := 0, time := 3 }
def queued (q : Queue) (f : Group → Group) : State := { withGroup (sc 2 128 ∘ f) with queues := [(2, q)], agenda := [] }
def names2 (y : State) (g : Group) : Bool := (y.handleOf (y.fnOf 2) (g.sr 2)).any (fun p => decide (p.1 = 2))
def recFine (g : Group) (t : Team) (base : Nat) : Bool := everyLane g (fun L => decide (base % 16 = 0) && decide (base + L * 16 + 16 ≤ 16384 * t.units)
  && (t.poisonIn (base + L * 16) 16).isNone && !t.overlapsTag (base + L * 16) 16)

theorem witness_QueueInstructions :
    (∀ i ∈ [Instr.qenq 4 2 3, .qenqm 4 2 3, .qdeq 4 2 3, .qdeqm 4 2 3, .qlen 1 2, .qseal 2, .qinfo 1 2],
      ok plain i (fun g _ y => (y.handleOf (y.fnOf 2) (g.sr 2)).isNone) = true
      ∧ ok (queued queue0 id) i (fun g t y => names2 y g && recFine g t 0) = true
      ∧ ok (queued { queue0 with sealed := true } (fun g => { g with exec := 0 })) i (fun g _ y => names2 y g && decide (g.liveNow = 0)) = true) := by
  decide +kernel

/-- The name words in s2 and s3, two words in s4 and s5, and a route of every tensor. -/
def naming (w0 w1 d0 d1 : Nat) (f : Group → Group) : State :=
  (withGroup (sc 2 (BitVec.ofNat 64 w0) ∘ sc 3 (BitVec.ofNat 64 w1) ∘ sc 4 (BitVec.ofNat 64 d0) ∘ sc 5 (BitVec.ofNat 64 d1) ∘ f)).setDie 0
    (fun d => { d with routes := [(0, BitVec.ofNat 64 (2 ^ 63))], crucible := 4 })
def key0 : NameKey := { func := 0, tensor := 1, tile := 2, iter := 3 }
def ticket0 (st : Nat) : Ticket :=
  { serial := 5, key := key0, off := 0, len := 64, bar := none, status := st, got := 32, expiry := none, retries := 1, op := 77, time := 9, dest := 0 }
def tile0 : RegTile := { key := key0, bytes := [], len := 16, bad := [], ready := true, op := 0, time := 0 }
def nameWords : Nat := 2 + 2 ^ 32

theorem witness_NamedTiles :
    ok (naming nameWords 3 (64 + 16 * 2 ^ 32) (2 ^ 64 - 1) id) (.nint 1 2 4) (fun g t y => decide (g.sr 5 = BitVec.allOnes 64) && !t.overlapsTag 64 16
        && decide (64 + 16 ≤ 16384 * t.units) && (y.nameDir 0 1).isSome)
    ∧ ok (naming nameWords 3 0x2000 16 id) (.nann 2 4) (fun _ t y => decide (y.fnOf 2 = t.func) && y.homed 0 1 && decide (y.regOf 0 key0 = none)
        && decide ((y.horizon 0 key0).1 = none) && decide (tileLines 16 ≤ (y.die 0).freeLines) && decide ((y.die 0).registry.length < 16384))
    ∧ ok ((naming nameWords 3 0x2000 16 id).setDie 0 (fun x => { x with registry := [tile0] })) (.nann 2 4) (fun _ _ y => decide (y.regOf 0 key0 ≠ none))
    ∧ ok (naming nameWords (5 + 4 * 2 ^ 32 + 2 ^ 48) 0 0 id) (.nseal 2) (fun _ _ y => y.homed 0 1 && decide (4 ≤ Nat.max ((y.horizon 0 { key0 with tile := 0, iter := 0 }).1.getD 5) 5))
    ∧ (∀ i ∈ [Instr.ndrop 2, .nstat 1 2], ok plain i (fun g _ _ => (g.ticketOf 0).isNone) = true
      ∧ ok (naming 5 0 0 0 (fun g => { g with tickets := [(5, ticket0 0)] })) i (fun g _ _ => (g.ticketOf 5).any (fun k => decide (k.status = 0))) = true
      ∧ ok (naming 5 0 0 0 (fun g => { g with tickets := [(5, ticket0 1)] })) i (fun g _ _ => (g.ticketOf 5).any (fun k => decide (k.status = 1))) = true)
    ∧ ok (naming 5 0 0 0 (fun g => { g with tickets := [(5, ticket0 0)] })) (.ndrop 2) (fun _ _ y => !y.ticketFirst 2 5 5)
    ∧ ok { naming 5 0 0 0 (fun g => { g with tickets := [(5, ticket0 0)] }) with agenda := [{ at_ := 0, onRef := false, ev := .ticketExpiry 2 5 }] }
        (.ndrop 2) (fun _ _ y => y.ticketFirst 2 5 5) := by
  decide +kernel

/-- Collective 1 is set; an operation of it is in progress. -/
def collecting1 (n : Nat) : State := { described n id id with collTable := [(1, 2 ^ 63 + 2 ^ 62)] }
def coll0 : Coll := (ixOf plain issuer (grp plain)).collOf plain false 1 (natLe (2 ^ 256) 64)
def sumBlock : Nat := 0x2000 + 0x2400 * 2 ^ 64 + 0x2800 * 2 ^ 128 + 2 ^ 256

theorem witness_CollectiveIssue : ∀ p ∈ [(Instr.xagree 1 2, false, 2 ^ 256), (Instr.xsum 1 2, true, sumBlock)],
    ok (withGroup (sc 2 0x1001)) p.1 = true
    ∧ ok (collecting1 (p.2.2 + 2 ^ 510)) p.1 (fun _ _ y => readsAt 0x1000 64 (fun z d => !collLegal z p.2.1 d) y) = true
    ∧ ok (collecting1 p.2.2) p.1 (fun g _ y => decide (g.liveNow ≠ 0) && readsAt 0x1000 64 (fun z d => collLegal z p.2.1 d && !Assoc.has z.colls 1) y) = true
    ∧ ok { collecting1 p.2.2 with colls := [(1, coll0)] } p.1 (fun _ _ y => readsAt 0x1000 64 (fun z d => collLegal z p.2.1 d && Assoc.has z.colls 1) y) = true := by
  decide +kernel

/-- A near-memory operation reads a descriptor that suits it. -/
def poolReads (i : Instr) (kind n : Nat) : Bool :=
  ok (described n id id) i (fun _ _ y => readsAt 0x1000 64 (fun _ d => poolReserved (leNat d) && poolLegal kind (leNat d)) y)

theorem witness_PoolIssue :
    poolReads (.plfill 1 2) 0 (0x2000 + 64 * 2 ^ 160 + 7 * 2 ^ 192) ∧ poolReads (.plcopy 1 2) 1 (0x2000 + 0x4000 * 2 ^ 64 + 64 * 2 ^ 160)
    ∧ poolReads (.plcmp 1 2) 2 (0x2000 + 0x4000 * 2 ^ 64 + 64 * 2 ^ 160) ∧ poolReads (.plred 1 2) 3 (0x4000 * 2 ^ 64 + 64 * 2 ^ 160 + 2 ^ 256)
    ∧ ok (withGroup (sc 2 0x1001)) (.plfill 1 2)
    ∧ ok (described (2 ^ 511) id id) (.plcopy 1 2) (fun _ _ y => readsAt 0x1000 64 (fun _ d => !poolReserved (leNat d)) y)
    ∧ ok (described 0 id id) (.plred 1 2) (fun _ _ y => readsAt 0x1000 64 (fun _ d => poolReserved (leNat d) && !poolLegal 3 (leNat d)) y) := by
  decide +kernel

/-- Pool region 3 with an open snapshot of id 5; s2 holds a number. -/
def region0 : Region :=
  { valid := true, atomic := false, base := 0x20000000000, units := 1, vbase := 0x20000010000, vunits := 1, func := 0, snaps := [5], slots := [], top := 5 }
def pooled (n : Dword) (r : Region) : State := { withGroup (sc 2 n) with regions := [(3, r)] }

theorem witness_Snapshots :
    ok (pooled 64 region0) (.snopen 1 2) (fun g _ _ => decide (64 ≤ (g.sr 2).toNat))
    ∧ ok (pooled 3 { region0 with vunits := 0 }) (.snopen 1 2) (fun _ _ y => (y.region 3).valid && decide ((y.region 3).vunits = 0))
    ∧ ok (pooled 3 region0) (.snopen 1 2) (fun _ _ y => (y.region 3).valid && decide ((y.region 3).func = y.fnOf 2) && decide ((y.region 3).snaps.length < 16))
    ∧ (∀ i ∈ [Instr.snclose 2, .snbind 2], ok (pooled 9 region0) i (fun _ _ y => (y.openIn 9).isNone) = true
      ∧ ok (pooled 5 region0) i (fun _ _ y => (y.openIn 5).any (fun p => decide (p.2.func = y.fnOf 2))) = true)
    ∧ ok (pooled 0 region0) (.snbind 2) (fun g _ _ => decide ((g.sr 2).toNat = 0))
    ∧ ok (pooled 5 { region0 with func := 1 }) (.snbind 2) (fun _ _ y => (y.openIn 5).any (fun p => decide (p.2.func ≠ y.fnOf 2))) := by decide +kernel

/-- The group, or its team, changed, with no issue in progress. -/
def idle (f : Group → Group) (h : Team → Team) : State := { stand State.reset f h with cur := none }
def quiet : State := idle id id
def heldTrap : Held := { gid := 2, cat := 0, addr := 5, info := 6, op := 7 }
def cmd0 : Cmd := { func := 0, op := 0x02, tag := 0, rsv := 0, a0 := 0, a1 := 0, a2 := 0, a3 := 0, a4 := 0, a5 := 0, a6 := 0 }
def req0 : PreReq := { team := 1, func := 0, pri := 0, image := 0x40000, size := 65536, cmd := cmd0, listEntry := none }
def collector (ph : PrePhase) (s : State) : State := s.setDie 0 (fun d => { d with serving := some (req0, ph) })
def lined (w : List BlockWait) (n : Nat) : State := idle (fun g => { g with park := some .blocks })
  (fun t => t.setReserve 0 .consumer (fun _ => { count := n, cap := 3, line := w }))
def waiter2 (m : BitVec 3) : BlockWait := { gid := 2, want := m, pri := 0, cycle := 0 }
def due9 : State := idle (fun g => { g with pend := [{ op := 9, kind := .scalar, reg := 1, lanes := BitVec.allOnes 128, vec := none, num := some 5, bad := 0 }] }) id
def parkedAnvil : State := { idle (fun g => { g with park := some .anvil }) id with cores := [(0, { Core.fresh with line := [2, 5] })] }
def moving1 : State := { quiet with cores := [(0, { Core.fresh with moving := [{ src := 1, dst := 2, gid := 2, want := 1 }] })] }

/-- An operation of the group waits for line 16, whose fill is in flight. -/
def missing16 : State := { quiet with slices := [(quiet.homeSlice 4096, { Slice.fresh with misses := [16] })] }
def filling : State := missing16.setGroup 2 (fun g => { g with fills := [{ op := 9, lane := 0, line := 16 }] })

theorem witness_GroupEvents :
    ((quiet.group 2).isSome ∧ (grp quiet).team = 1 ∧ (quiet.team 1).isSome)
    ∧ (let s := idle id (fun t => { t with held := [heldTrap] })
       (tm s).halt = .none ∧ (tm s).ended = none ∧ (s.nextHeld 1 ((tm s).held.filter (s.receives 1))).isSome)
    ∧ (let s := idle (fun g => { g with last := some (0, 2) }) (fun t => { t with held := [heldTrap] })
       (tm s).halt = .none ∧ (tm s).ended = none ∧ (tm s).held = [heldTrap] ∧ s.receiver 1 heldTrap = some 2 ∧ (grp s).park = none
       ∧ (grp s).sleep = none ∧ (grp s).last.map Prod.fst = some s.clk ∧ (grp s).trap.tmask.getLsbD heldTrap.cat = false)
    ∧ (let s := idle (fun g => { g with stop := .skid 9 }) id
       (grp s).stop = .skid 9 ∧ (grp s).park = none)
    ∧ (let s := collector .stopping (idle id (fun t => { t with halt := .handler 2, preCount := 4096 }))
       (s.die 0).serving = some (req0, .stopping) ∧ (tm s).halt = .handler 2 ∧ 4096 ≤ (tm s).preCount)
    ∧ (grp (idle (fun g => { g with sleep := some 0 }) id)).sleep = some 0
    ∧ ((tm (lined [waiter2 7] 2)).reserve 0 .consumer).count < blockCount (waiter2 7).want
    ∧ (let r := (tm (lined [waiter2 1] 2)).reserve 0 .consumer
       (tm (lined [waiter2 1] 2)).halt = .none ∧ r.line = [waiter2 1] ∧ blockCount (waiter2 1).want ≤ r.count)
    ∧ (moving1.core 0).moving ≠ [] ∧ quiet.deadlocked 1 = false
    ∧ (lined [waiter2 7] 2).deadlocked 1 = true ∧ (lined [waiter2 7] 2).firstParked 1 = some 2
    ∧ due9.fillDue 2 9 = false ∧ (due9.setGroup 2 (fun g => { g.land 9 with fills := [] })).opDue 2 9 = false ∧ filling.fillDue 2 9 = true
    ∧ (grp (idle (fun g => { g with park := some (.monitor (some 0)) }) id)).park = some (.monitor (some 0))
    ∧ (parkedAnvil.core 0).owner = none ∧ (parkedAnvil.core 0).line = [2, 5] ∧ (grp parkedAnvil).park = some .anvil := by decide +kernel

/-- Stage 0 on core 0, fed by queue part 2, of graph run 0; a child grid that has ended; the device in full service. -/
def stage0 : Stage :=
  { graph := 0, func := 0, cores := 1, life := 0, restart := 0, batch := 1, weight := 1, acc := 1, scratch := 1, cblocks := 0, pblocks := 0, cgroups := 1,
    pgroups := 0, outs := [], inq := 2, outHandles := [], inHandle := 128, arg := 5, stksize := 0, stkbase := 0, tvec := 0, entry := 0x2000, launches := 7,
    stopped := false }
def grid0 (living : Nat) : Grid :=
  { graph := 0, func := 0, clusters := 1, doneVa := 0, restart := 0, weight := 1, acc := 0, scratch := 1, cblocks := 0, pblocks := 0, cgroups := 1, pgroups := 0,
    teams := 2, tvec := 0, entry := 0x2000, args := [], life := 0, launched := 2, living := living, broken := false, time := 0, doneTime := 0, adding := false, after := [] }
def graphRun (s : State) : State := { s with graphs := [(0, { func := 0, stopped := false, ending := [] })] }
def inService (s : State) : State := { s with dev := { s.dev with reduced := false, wiping := false } }
def fullPart : Queue := { queue0 with ring := [rec0, rec0], sample := ⟨2, false, true, false⟩, taken := ⟨2, false, true, false⟩ }
def scheduling : State := graphRun { inService State.reset with queues := [(2, fullPart)], stages := [(0, stage0)] }
def gridded (n : Nat) : State := quiet.setDie 0 (fun d => { d with grids := [(0, grid0 n)] })

theorem witness_LaunchEvents :
    ({ quiet with teams := (List.range 24).map (fun n => (n + 1, tm plain)) } : State).beforeTaking.freeTeamSlots 0 = 0
    ∧ (scheduling.beforeTaking.freeTeamSlots 0 ≠ 0 ∧ scheduling.coreRuns 0 = true
        ∧ ((scheduling.beforeTaking.candidates 0).foldl better none).any (fun c => decide (c.what = .stage 0) && scheduling.reserved 0 c) = true
        ∧ (Assoc.get scheduling.stages 0).isSome ∧ (scheduling.fits 0 stage0.need).isSome)
    ∧ (let s : State := { scheduling with teams := (List.range 24).map (fun n => (n + 1, { tm plain with since := 1 })) }
       s.beforeTaking.freeTeamSlots 0 ≠ 0 ∧ s.coreRuns 0 = true
         ∧ ((s.beforeTaking.candidates 0).foldl better none).any (fun c => !s.reserved 0 c) = true
         ∧ ((s.beforeTaking.candidates 0).filter (s.reserved 0)).isEmpty = true)
    ∧ (let s : State := { opened true with cur := none }
       ((s.team 1).bind (fun t => Assoc.get t.fibres 1)).isSome)
    ∧ (quiet.team 1).isSome ∧ quiet.teamGroups 1 ≠ []
    ∧ (let s : State := { quiet with groups := [] }
       s.teamGroups 1 = [] ∧ (tm s).orphans = [] ∧ (tm s).held = [] ∧ (s.core 0).combine = [] ∧ (s.teams.map Prod.fst).Nodup)
    ∧ (grid0 0).teams ≤ (grid0 0).launched ∧ (grid0 0).living = 0 ∧ (grid0 1).living ≠ 0 ∧ Assoc.get ((gridded 1).die 0).grids 0 = some (grid0 1)
    ∧ (Assoc.get scheduling.queues 2).isSome ∧ (graphRun quiet).graphLives 0 = true
    ∧ (graphRun State.reset).graphLives 0 = false ∧ (graphRun State.reset).inputsDrained 0 = true := by decide +kernel

/-- The team halted and stopped for its collector; its image; a restore that waits. -/
def halted : State := idle (fun g => { g with stop := .stopped }) (fun t => { t with halt := .preempt })
def saved0 : Saved := { id := 1, team := tm plain, groups := [(2, grp plain)], copies := [], pools := [], header := 0, size := 65536, digest := [] }
def restoring : State := { inService State.reset with saved := [(0x40000, saved0)], dev := { (inService State.reset).dev with restores := [(0x40000, cmd0)] } }
def requested (s : State) : State := s.setDie 0 (fun d => { d with preQueue := [req0] })

theorem witness_PreemptionEvents :
    ((collector .stopping quiet).die 0).serving.isSome
    ∧ (((requested quiet).die 0).serving = none ∧ nextReq ((requested quiet).die 0).preQueue = some req0 ∧ (requested quiet).team 1 ≠ none
        ∧ (tm quiet).ended = none ∧ (requested State.reset).team 1 = none)
    ∧ (let s := collector .stopping quiet
       s.teamGroups 1 ≠ [] ∧ s.allStopped 1 (tm s) = false)
    ∧ (let s := collector .stopping halted
       s.teamGroups 1 ≠ [] ∧ s.allStopped 1 (tm s) = true ∧ (s.stopEngines 1 (tm s)).enginesDone 1 (tm s) = true)
    ∧ (let s := { collector .saving halted with saved := [(0x40000, saved0)] }
       (s.die 0).serving = some (req0, .saving) ∧ (s.team 1).isSome ∧ (Assoc.get s.saved 0x40000).isSome ∧ (tm s).ended = none ∧ (s.teams.map Prod.fst).Nodup)
    ∧ restoring.dev.restores.find? (fun r => decide (r.1 = 0x40000)) = some (0x40000, cmd0) ∧ (restoring.findRestore saved0) = none
    ∧ ({ restoring with stages := [(0, stage0)] } : State).findRestore saved0 ≠ none := by decide +kernel

/-- Operations of the engines in flight. -/
def tiled (k : TileKind) (todo : List Nat) : State := { quiet with cores := [(0, { Core.fresh with tileq := [{ tileop with kind := k, todo := todo }] })] }
def copy0 (n : Nat) : Copy := { gid := 2, team := 1, func := 0, dst := 0, src := 0x1000, len := n, bar := none, chunks := 0, time := 0, waiting := false }
def copying9 (n : Nat) : State := { quiet with copies := [(9, copy0 n)] }
def announcing : State := { quiet with nanns := [(9, { gid := 2, die := 0, key := key0, src := 0x1000, len := 16, time := 0 })] }
/-- Lines held by their home slices, where a read finds them at once. -/
def cached (s : State) (lines : List Nat) : State :=
  lines.foldl (fun s n => s.setSlice (s.homeSlice (n * 256)) (fun x => { x with present := x.present ++ [(n, false)] })) s
def ranged (s : State) (va n : Nat) : Bool :=
  let s := cached s ((List.range 16).map (16 + ·))
  match s.engineRange (s.engineXc 1 2 9) 0 va n with
  | (_, .ok _ [] _) => true
  | _ => false
def mmaKind : TileKind := .mma (Fmt.ofBytes (natLe fmtBlock 64)) 0x2000 0x4000 [0]

theorem witness_EngineEvents :
    ((tiled .accz []).tileOf 0 9).isSome ∧ tileop.started = false ∧ tileop.stuck = false
    ∧ (let s := tiled mmaKind [0x2000]
       let o := { tileop with kind := mmaKind, todo := [0x2000] }
       let a := s.arrayStep 0 o (Fmt.ofBytes (natLe fmtBlock 64)) 0x2000 0x4000 [0]
       (s.tileOf 0 9).isSome ∧ (s.tileArrivals 0 o).isNone ∧ (a.tileOf 0 9).map TileOp.todo = some [0x2000] ∧ (match a.translate (a.engineXc 1 2 9) 0x2000 .read with
         | (z, .ok pa typ) => decide (typ < 2) && (z.regionOf pa).isNone && (z.bankWait pa).isNone && (z.takePin 0 0x2000 pa).isSome && !(z.line (lineOf pa)).bad
         | _ => false) = true)
    ∧ ranged (copying9 16) 0x1000 16 ∧ ranged (copying9 8192) 0x1000 4096 ∧ (tm quiet).overlapsTag 0 4096 = false
    ∧ queue0.sealed = false ∧ queue0.spill = [] ∧ queue0.ring.length < 2 ^ queue0.lcap ∧ (queued queue0 id).isDrained 2 queue0 = false
    ∧ (queued queue0 id).agenda = [] ∧ fullPart.ring ≠ [] ∧ (grp quiet).pend.length = 0 ∧ ranged announcing 0x1000 16 := by decide +kernel

/-- Requests, lines and windows of the memory system. -/
def request0 : L2Req := { line := 16, port := 3, write := false, pref := false }
def slices0 : State := { quiet with slices := [(0, { Slice.fresh with reqs := [request0] })] }
def draining : State := quiet.setDie 0 (fun d => { d with window := .draining })
def expanded : State := { inService quiet with dev := { (inService quiet).dev with windows := [(0, 0x8000000000000, 65536)] } }
def reply0 : AtomReply := { gid := 2, op := 9, lane := 0, vd := 1, old := 7, bad := false }
def replying : State := idle (fun g => { g with pend := [{ op := 9, kind := .vec, reg := 1, lanes := 1, vec := none, num := none, bad := 0 }] }) id
/-- A store at time 9 to an expander's line, over a byte of 3; and line 16 in its home slice. -/
def failingStore : State :=
  { expanded with lines := [(lineOf 0x8000000000100, { Line.fresh with versions := [{ written9 with old := [(0x8000000000100, 3)] }] })] }
def atHome : State := { quiet with agenda := [], slices := [(quiet.homeSlice 4096, { Slice.fresh with present := [(16, false)] })] }
def ownedLine : State := { quiet with lines := [(16, { Line.fresh with owners := [{ op := 9, tw := 5, core := 0 }] })] }

theorem witness_MemoryEvents :
    (quiet.slice 0).granted ≤ quiet.clk ∧ (List.range 23).all (fun p => ((quiet.slice 0).offered p).isNone) ∧ (slices0.slice 0).offered 3 = some request0
    ∧ (slices0.slice 0).keptReqs [] (slices0.slice 0).reqs = [request0]
    ∧ grantTo (slices0.slice 0).lrg (slices0.slice 0).turn ((List.range 23).filter (fun p => ((slices0.slice 0).offered p).isSome)) = some 3
    ∧ ({ quiet with slices := [(0, { Slice.fresh with granted := 1 })] } : State).clk < 1
    ∧ 16 ∉ (quiet.slice (quiet.homeSlice 4096)).misses ∧ 16 ∈ (missing16.slice (missing16.homeSlice 4096)).misses
    ∧ (draining.die 0).window = .draining ∧ draining.hearthMarked 0 = false ∧ (idle id (fun t => { t with hearth := 1 })).hearthMarked 0 = true
    ∧ expanded.paKind 0x8000000000100 = .cxl ∧ failingStore.paKind 0x8000000000100 = .cxl
    ∧ (failingStore.line (lineOf 0x8000000000100)).versions.all (fun v => v.old.all (fun c => decide (lineOf c.1 = lineOf 0x8000000000100))) = true
    ∧ atHome.agenda = [] ∧ atHome.lineToCome incAtZero.pa = false ∧ (atHome.line (lineOf incAtZero.pa)).owners = []
    ∧ (ownedLine.line (lineOf incAtZero.pa)).owners ≠ [] ∧ (quiet.line (lineOf incAtZero.pa)).owners = []
    ∧ (replying.group 2).isSome ∧ (grp replying).pend.any (fun p => decide (p.op = reply0.op ∧ p.kind = .vec ∧ p.reg = 1) && p.lanes.has 0) = true := by
  decide +kernel

/-- Page requests, pending and held; heat; a migration of page 0x10000 to 0x20000 after `n` lines. -/
def pageReq0 : PageReq := { func := 0, granule := 5, acc := .read, level := 3, tbl := false, gen := 3, waiters := [] }
def reply3 : Dword := 0x1800
def pending0 : State := quiet.setDie 0 (fun d => { d with preqs := [(0, pageReq0)] })
def holding0 : State := quiet.setDie 0 (fun d => { d with heldReqs := [pageReq0] })
def heated : State := quiet.setDie 0 (fun d => { d with heat := [(0, 9), (1, 1)] })
def migration0 (n : Nat) : Migration :=
  { die := 0, func := 0, stage := 1, leaf := 0x3000, expected := 0x10073, src := 0x10000, dst := 0x20000, copied := n, cmd := cmd0, waiting := false }
def migrating (n : Nat) : State := { quiet with migrations := [(9, migration0 n)] }

theorem witness_PagingEvents :
    (quiet.group 2).isSome ∧ (quiet.die 0).heldReqs = [] ∧ (holding0.die 0).heldReqs = [pageReq0] ∧ (holding0.placeReq 0 pageReq0).isSome
    ∧ Assoc.get (quiet.die (bits reply3.toNat 10 9)).preqs (bits reply3.toNat 8 0) = none
    ∧ Assoc.get (pending0.die (bits reply3.toNat 10 9)).preqs (bits reply3.toNat 8 0) = some pageReq0
    ∧ pageReq0.gen = bits reply3.toNat 15 11 ∧ pageReq0.func = bits reply3.toNat 24 18 ∧ bits reply3.toNat 17 16 < 2 ∧ bits reply3.toNat 63 25 = 0
    ∧ quiet.dev.assisted.getLsbD 3 = false ∧ quiet.dev.assisted.getLsbD 4 = false ∧ quiet.paKind 0x1000 = .hbm ∧ Assoc.get (heated.die 0).heat 0 = some 9
    ∧ Memory.wf (migrating 255).mem = true ∧ ((migrating 255).line (0x10000 / 256 + 255)).owners = [] ∧ ((migrating 255).line (0x20000 / 256 + 255)).owners = []
    ∧ ((migrating 256).line (lineOf 0x3000)).owners = [] ∧ (migrating 256).pageBusy 0x10000 = false
    ∧ ((migrating 256).flushPage 0x10000).num 0x3000 8 ≠ 0x10073 ∧ quiet.dev.corrected = []
    ∧ quiet.dev.hasFailed (cmdRow cmd0) = false ∧ ({ quiet.dev with failed := [cmdRow cmd0] } : Device).hasFailed (cmdRow cmd0) = true := by decide +kernel

/-- Interests, answers and entries of the pending-interest table. -/
def interest0 : Interest := { die := 0, key := key0, who := .ticket 2 5, expiry := none, refresh := false }
def answer0 : Answer := { die := 0, entry := 4, key := key0, status := 1, tile := [], bad := [], time := 0, via := none }
def entered (w : Requester) (k : Option Nat) (more : Bool) : State := quiet.setDie 0 (fun d =>
  { d with pit := [(4, { key := key0, born := 0, slots := (0, (w, k)) :: (if more then [(1, (w, k))] else []), sent := none, tries := 0, held := [] })] })
def ticketed (k : Ticket) : State := idle (fun g => { g with tickets := [(5, k)] }) id
def registered : State := (ticketed (ticket0 0)).setDie 0 (fun d => { d with routes := [(0, BitVec.ofNat 64 (2 ^ 63))], registry := [tile0] })

theorem witness_NameEvents :
    (quiet.findTicket 2 5).any (fun x => decide (x.2.status = 0)) = false
    ∧ (registered.findTicket 2 5).any (fun x => decide (x.2.status = 0)) = true ∧ registered.homed 0 1 = true ∧ (registered.registryAnswer 0 key0).isSome
    ∧ (Assoc.get ((entered (.upstream 8 1) (some 9) false).die 0).pit 4).isSome ∧ quiet.tick = 0
    ∧ Assoc.get (quiet.die 0).pit 4 = none
    ∧ ((Assoc.get ((entered (.ticket 2 5) none false).die 0).pit 4).map PitEntry.slots = some [(0, .ticket 2 5, none)]) ∧ quiet.isSaved 2 = false
    ∧ quiet.findTicket 2 5 = none ∧ (let s : State := { quiet with groups := [], saved := [(0x40000, saved0)] }
       s.findTicket 2 5 = none ∧ s.isSaved 2 = true ∧ s.heldAnswer 2 5 = none)
    ∧ ((ticketed (ticket0 1)).findTicket 2 5).any (fun x => decide (x.2.status ≠ 0)) = true
    ∧ ((ticketed { ticket0 0 with expiry := some 0 }).findTicket 2 5).any (fun x => decide (x.2.status = 0 ∧ x.2.expiry = some 0)) = true := by decide +kernel

/-- A port that is up, with live keys; a flit. -/
def key1 : KeySlot := { live := true, linkid := 1, key := 2, ctr := 3, exhausted := false }
def up (f : Port → Port) (s : State) : State := s.setPort 15 (fun x => f { x with up := true, txKeys := Vector.replicate 2 key1, rxKeys := Vector.replicate 2 key1 })
def flit0 : Flit := { typ := 3, seq := 0, slot := 0, dpkg := 0, spkg := 0, arg := 0, ctr := 5, rsv := false, payload := List.replicate 224 0, image := [] }
def collFlit : List Byte := [0, 0, 1, 0] ++ List.replicate 220 0

/-- R344, R348: the bytes of a flit sealed under a slot's key are opened by the port that holds the key; bytes of no key, and of an ACK, fail. -/
theorem witness_LinkEvents_accepts : let x := (up id quiet).port 15
    let r := x.opened (sealFlit flit0 key1)
    (r.1.typ, r.1.seq, r.1.slot, r.1.rsv, r.1.dpkg, x.tagPasses r.1 r.2) = (3, x.rxSeq, x.rxSlot, false, quiet.dev.pkg, true) := by decide +kernel
theorem witness_LinkEvents_fails : let x := (up (fun x => { x with fails := 2 }) quiet).port 15
    let r := x.opened (natLe (flitHeader { flit0 with slot := 1 }) 16 ++ List.replicate 240 0)
    (r.1.typ, r.1.seq, r.2, x.fails) = (3, x.rxSeq, false, 2) := by decide +kernel
theorem witness_LinkEvents_ack : let x := quiet.port 15
    let r := x.opened (natLe (flitHeader { flit0 with typ := 5 }) 16 ++ List.replicate 240 0)
    (r.1.typ, r.2) = (5, false) := by decide +kernel

theorem witness_LinkEvents :
    (quiet.port 15).up = false ∧ flit0.seq = (quiet.port 15).rxSeq ∧ ({ flit0 with seq := 7 } : Flit).seq ≠ (quiet.port 15).rxSeq
    ∧ ((up (fun x => { x with fails := 2 }) quiet).port 15).fails = 2
    ∧ (let x := (up id quiet).port 15
       x.up = true ∧ x.sinceAck < 15 ∧ x.retiring = none ∧ x.heldRecs = []
         ∧ x.sinceAck = 0 ∧ x.creditsDue = 0 ∧ x.retry = [] ∧ x.canForm 4 1 = true ∧ (Vector.at0 x.txKeys 1 KeySlot.empty).live = true)
    ∧ ((up (fun x => { x with sinceAck := 3 }) quiet).port 15).canForm 5 1 = true
    ∧ linkStart (5 * ((up (fun x => { x with retry := [flit0] }) quiet).port 15).progress / 8 + 1024) ≤ ({ quiet with refc := 2000 } : State).refc
    ∧ quiet.linkNow < ((up (fun x => { x with claimed := 5 }) quiet).port 15).claimed
    ∧ ((up (fun x => { x with retiring := some 64 }) quiet).port 15).retiring = some 64 ∧ quiet.dev.assisted.getLsbD 2 = false
    ∧ ((quiet.port 15).install 0 1 5 6).isSome ∧ quiet.collValid (payNum (List.replicate 224 0) 2 1) = false
    ∧ (let s : State := { quiet with collTable := [(1, 2 ^ 63)], colls := [(1, coll0)] }
       payNum collFlit 3 1 < 4 ∧ payNum collFlit 2 1 = 1 ∧ s.collValid 1 = true ∧ (Assoc.get s.colls 1).isSome ∧ coll0.issued + 2 ^ 26 ≤ 2 ^ 26) := by
  decide +kernel

/-- A command that passes every check, or is changed. -/
def calm : State := { quiet with dev := { quiet.dev with wiping := false } }
def shaped (c : Cmd) : Bool := (cmdShape c.op.toNat).any (fun p => (!p.1 || decide (c.func = 0)) && decide (c.rsv = 0)
  && ((cmdArgs c).drop p.2).all (fun a => decide (a = 0)))

theorem passes_of_shaped {s : State} {c : Cmd} (h : s.dev.wiping = false) (hc : shaped c = true) : passes s c := by
  unfold shaped at hc
  cases e : cmdShape c.op.toNat with
  | none => simp [e] at hc
  | some p =>
    obtain ⟨pf, n⟩ := p
    simp [e] at hc
    obtain ⟨⟨h1, h2⟩, h3⟩ := hc
    refine ⟨h, pf, n, e, ?_, h2, h3⟩
    intro hp; subst hp; simpa using h1

theorem witness_DeviceEvents : quiet.writable 0x1000 3 = true ∧ quiet.writable 0x10000000000 3 = false ∧ (quiet.func 0).heldEvents = []
    ∧ ownedLine.owned 0x1000 3 = true ∧ quiet.owned 0x1000 3 = false
    ∧ calm.dev.wiping = false ∧ 1 ≤ quiet.dev.life ∧ quiet.dev.life ≤ 3 ∧ quiet.dev.reduced = true := by decide +kernel

theorem witness_CommandChecks : cmdShape cmd0.op.toNat = some (false, 1) ∧ cmdShape 0x10 = some (true, 1) ∧ quiet.dev.wiping = true ∧ calm.dev.wiping = false
    ∧ ({ cmd0 with op := 0x10, func := 1 } : Cmd).func ≠ 0 ∧ ({ cmd0 with rsv := 1 } : Cmd).rsv ≠ 0
    ∧ (∃ a, a ∈ (cmdArgs { cmd0 with a1 := 1 }).drop 1 ∧ a ≠ 0) :=
  ⟨by decide, by decide, by decide, by decide, by decide, by decide, 1, by decide, by decide⟩

/-- A run, a queue part, a stage, in a machine that does not wipe; a team at a breakpoint. -/
def running0 : State := { graphRun calm with queues := [(2, queue0)], stages := [(0, stage0)] }
def broken0 : State := calm.setTeam 1 (fun t => { t with halt := .breakpoint 2 })
def loading0 : State := calm.setDie 0 (fun d => { d with window := .loading })
def teamCmd (op : Byte) (f : Cmd → Cmd) : Cmd := f { cmd0 with op := op, a0 := BitVec.ofNat 64 (tm quiet).id }
def okSub (s : State) (c : Cmd) : Bool := match s.submission c with | .ok _ => true | .error _ => false

theorem witness_RunCommands :
    [0x01, 0x02, 0x03, 0x04, 0x10, 0x11, 0x12, 0x18, 0x19, 0x1A, 0x28, 0x29, 0x38, 0x39, 0x3A, 0x3B, 0x3C].all (fun op => shaped { cmd0 with op := op })
    ∧ okSub calm { cmd0 with op := 0x01 } = true ∧ okSub calm { cmd0 with op := 0x01, a1 := 70000 } = false ∧ shaped { cmd0 with op := 0x01, a1 := 70000 } = true
    ∧ running0.dev.wiping = false ∧ (Assoc.get running0.graphs 0).isSome ∧ (Assoc.get running0.queues (handleKey 128)).isSome
    ∧ (running0.handleOf 0 128).any (fun p => decide (p.1 = handleKey 128)) ∧ (Assoc.get running0.stages 0).isSome ∧ (calm.die 0).window = .opened
    ∧ (loading0.die 0).window = .loading ∧ shaped { cmd0 with op := 0x11, a0 := 0x1000, a2 := 256 } = true ∧ calm.paKind 0x1000 ≠ .none
    ∧ routeLegal 0 0x8000000000000000 = true ∧ 4096 * 0 ≤ (calm.die 0).usedLines
    ∧ calm.poolLegal 0 (entryOf { cmd0 with op := 0x29 }) (regionOfEntry { cmd0 with op := 0x29 } (entryOf { cmd0 with op := 0x29 })) = true
    ∧ ((calm.teamById 0 (tm quiet).id).map Prod.fst = some 1)
    ∧ shaped (teamCmd 0x38 (fun c => { c with a1 := 1, a2 := 0x40000, a3 := 65536 })) = true ∧ calm.imageArea (tm quiet).home 0x40000 65536 = true
    ∧ calm.imageSize 1 (calm.progressRecords 1) ≤ 65536 ∧ (calm.die (dieOfCore (tm quiet).home)).preQueue.length < 16
    ∧ calm.reported 1 (tm calm) = some 2 ∧ (calm.group 2).isSome ∧ calm.dev.life = 2 ∧ (tm broken0).halt = .breakpoint 2 ∧ (tm calm).halt = .none
    ∧ calm.owned 0x1000 256 = false ∧ ownedLine.owned 0x1000 256 = true ∧ calm.owned 0x40000 saved0.size = false ∧ calm.funcTeams 5 = []
    ∧ saved0.groups ≠ [] ∧ (restoring.dev.restores.all (fun r => decide (r.1 ≠ 0x50000))) = true := by decide +kernel

/-- A migration's leaf at 0x3000; rows, keys and modes. -/
def leafed : State := { calm with mem := Memory.write calm.mem 0x3000 (natLe 0x10073 8) }
def sentAtomic : Due := { at_ := 0, onRef := false, ev := .serviceWarpAtomic { incAtZero with gid := 2 } }
def assisting : State := { calm with dev := { calm.dev with assisted := 4 }, agenda := [sentAtomic] }

theorem witness_DeviceCommands :
    [0x20, 0x21, 0x30, 0x31, 0x32, 0x33, 0x34, 0x40, 0x41, 0x48, 0x50, 0x51, 0x52].all (fun op => shaped { cmd0 with op := op })
    ∧ (let c : Cmd := { cmd0 with op := 0x20, a0 := 1, a1 := 0x100000, a3 := 0x8000 }
       shaped c = true ∧ xlateLegal (entryOf c) = true ∧ bit (entryOf c) 143 = true ∧ calm.quiet 1 = true)
    ∧ (xlateLegal 0x100000 = true ∧ bit 0x100000 143 = false ∧ running0.runsGraph 0 = true ∧ calm.runsGraph 0 = false)
    ∧ calm.quiet 0 = true ∧ assisting.quiet 0 = false ∧ calm.writable 0x1000 10 = true
    ∧ (leafed.paKind 0x3000 = .hbm ∧ leafed.regionOf 0x3000 = none ∧ pteValid 0x10073 = true ∧ pteLeaf 0x10073 = true ∧ pteMalformed 3 0x10073 = false
        ∧ leafed.num 0x3000 8 = 0x10073 ∧ leafed.paKind 0x20000 = .hbm ∧ leafed.regionOf 0x20000 = none ∧ pteAddr 0x10073 = 0x10000
        ∧ (leafed.func 0).s2en = false ∧ leafed.running (leafed.homeDie 0x10000) < 16)
    ∧ (cmdRow cmd0).stack < 12 ∧ (cmdRow cmd0).row < 6144 ∧ assisting.dev.assisted.getLsbD 2 = true ∧ calm.dev.assisted.getLsbD 2 = false
    ∧ ((assisting.port 5).install 0 0 77 9).isSome ∧ calm.graphs = [] ∧ running0.graphs ≠ [] ∧ lifeStep calm.dev.life 1 = false ∧ lifeStep calm.dev.life 3 = true := by
  decide +kernel

/-! ## Witnesses of further clauses -/

theorem test_rdsr_unlisted : isSpecial 0x00A = false ∧ [Instr.rdsr 1 0x00A, .wrsr 1 0x00A].all (fun i => decide ((after i plain).trap.code = 0x02)) = true := by
  decide +kernel

theorem witness_TrapEntry_no_handler : let s := withGroup (fun g => { g with trap := { g.trap with tvec := 0 } })
    (s.group 2).isSome ∧ (s.team 1).isSome ∧ (grp s).team = 1 ∧ (tm s).halt = .none ∧ (grp s).trap.inh = false ∧ (grp s).trap.tvec = 0
      ∧ (grp s).park = none := by decide +kernel

theorem witness_IssueChecks_handle : let s := withGroup (fun g => { g with pend :=
      [{ op := 9, kind := .scalar, reg := 2, lanes := BitVec.allOnes 128, vec := none, num := none, bad := 0 }] })
    (grp s).isAgain = false ∧ handleDue (.qdeq 4 2 3) (grp s) = true := by decide +kernel

/-- An engine owns the line of the group's combining buffer, at 0x3000. -/
def blocked (s : State) : State := { s with
  cores := [(0, { Core.fresh with combine := [{ gid := 2, team := 1, line := 48, data := [(3, 5)], ops := [9] }] })],
  lines := [(48, { Line.fresh with owners := [{ op := 9, tw := 5, core := 0 }] })] }

theorem witness_blocked_flushes :
    (∀ i ∈ [Instr.spawn 1 2 8, .spawnw 1 2 8], ok (blocked plain) i (fun g _ y => hasRoom y g && y.flushBlocked 2) = true
      ∧ ok plain i (fun g _ y => hasRoom y g && !y.flushBlocked 2 && ((y.flushGroup 2).lowestNumber g.team).isSome) = true)
    ∧ ok (blocked plain) .exit (fun _ _ y => y.flushBlocked 2) ∧ ok (combining []) .exit (fun _ _ y => !y.flushBlocked 2)
    ∧ ok (blocked (launching oneTeam false)) (.lnch 1 2 8) (fun g t y => launchable y g t false && readsAt 0x1000 64 (fun z _ => z.flushBlocked 2) y)
    ∧ ok (launching oneTeam false) (.lnch 1 2 8) (fun _ _ y => readsAt 0x1000 64 (fun z _ => !z.flushBlocked 2) y)
    ∧ (∀ i ∈ [Instr.qenq 4 2 3, .qenqm 4 2 3, .qseal 2], ok (blocked (queued queue0 id)) i (fun g t y => names2 y g && recFine g t 0 && y.flushBlocked 2
        && !y.enqueueDue 2 2 && decide (g.liveNow ≠ 0)) = true
      ∧ ok (queued queue0 id) i (fun g _ y => names2 y g && !y.flushBlocked 2 && !y.enqueueDue 2 2 && decide (g.liveNow ≠ 0)) = true)
    ∧ ok (blocked (naming nameWords 3 0x2000 16 id)) (.nann 2 4) (fun _ t y => y.homed 0 1 && decide (y.regOf 0 key0 = none) && y.flushBlocked 2) := by
  decide +kernel

theorem witness_QueueInstructions_seal :
    ok (queued { queue0 with sealed := true } id) (.qseal 2) (fun g _ y => names2 y g && !y.enqueueDue 2 2)
    ∧ (let e : EnqReq := { gid := 2, op := 9, queue := 2, pd := 1, live := 1, recs := [], time := 0 }
       ok { queued queue0 id with agenda := [{ at_ := 0, onRef := false, ev := .queueEnqueueStep e }] } (.qseal 2) (fun g _ y => names2 y g && y.enqueueDue 2 2)) := by
  decide +kernel

/-- The group stood at its wait when its team was halted: the counter has fallen since. -/
def stood (g : Group) : Group := { g with stop := .skid 0, counts := [5] }

theorem witness_CopiesAndPathWaits_halted :
    (∀ i ∈ [Instr.waitc 2 0 0 0, .waitp 0 1], ok (withGroup stood) i (fun g _ _ => g.stoodAt [(0, if i = .waitp 0 1 then 0 else 2)]) = true
      ∧ ok plain i (fun g _ _ => !g.stoodAt [(0, 0), (1, 0), (2, 0), (3, 0)]) = true) := by decide +kernel

/-- Another group's FADV of f1, at its PC, waits for its page. -/
def fadvHeld : Replay :=
  { pc := 0x200000, op := 9, ea := Vector.replicate 128 0, data := [], live := 1, done := 0, mr := 0, faults := [], waits := [(0, some 5)], faulted := false,
    instr := some (.fadv 4 1, none), regs := [], vregs := [], low := [] }
def waitingFadv : State := beside (opened false) (fun g => { g with replay := some fadvHeld, pc := 0x200000 })

theorem witness_Fibres_order :
    ∀ i ∈ [Instr.fopen 1 2 3, .fadv 4 1, .fpos 3 1, .fclose 1], ok waitingFadv i (fun g _ y => (ixOf waitingFadv issuer g).behind y 1) = true
      ∧ ok (opened false) i (fun g _ y => !(ixOf (opened false) issuer g).behind y 1) = true := by decide +kernel

theorem witness_GroupEvents_stops :
    ((idle id (fun t => { t with halt := .handler 2 })).unhandled 2 = true)
    ∧ (let s := idle (fun g => { g with stop := .skid 3, park := some (.engine 9) }) id
       s.unhandled 2 = false ∧ s.inside (grp s) = true ∧ (grp s).stop = .skid 3)
    ∧ (idle (fun g => { g with stop := .skid 9 }) id).unhandled 2 = false
    ∧ ({ quiet with groups := [] } : State).buffersLeft 1 = false := by decide +kernel

/-- An operation of the Anvil that has started, of lanes 0 and 2. -/
def finishing (k : TileKind) (f : Group → Group) : State := { idle f (fun t => { t with tiles := Vector.put t.tiles 0 [(0, 0x3F800000), (513, 7)] }) with
  cores := [(0, { Core.fresh with tileq := [{ tileop with kind := k, live := 5, started := true }] })] }
def accrdDue (g : Group) : Group := { g with pend := (List.range 8).map (fun j =>
  ({ op := 9, kind := .vec, reg := 20 + j, lanes := 5, vec := none, num := none, bad := 0 } : Pend)) }
/-- What every completion needs: the operation is found, its team lives, and it has started. -/
def completes (s : State) : Bool := (s.tileOf 0 9).any (fun o => (s.team o.team).isSome && !o.stuck && o.started)

theorem witness_EngineEvents_tiles :
    [TileKind.accz, .accwr (List.replicate 8 VReg.zero) 8, mmaKind].all (fun k => completes (finishing k id)) = true
    ∧ (let s := finishing (.accrd 20 0) accrdDue
       completes s = true ∧ (grp s).pend.all (fun x => decide (x.op = 9)) = true ∧ (grp s).pend.length = 8)
    ∧ (let s := finishing (.accst 0x2000 1024 1) id
       completes s = true ∧ (tm s).tbad = [] ∧ (match s.accTargets { tileop with kind := .accst 0x2000 1024 1, live := 5, started := true }
           (accLines 5 0x2000 1024 1) with | (_, .ok l) => decide (l ≠ []) | _ => false) = true)
    ∧ ([(0, 4), (258, 5)] : List (Nat × Nat)).Pairwise (fun a b => a.1 < b.1) ∧ rowBytes 1 ≤ 1024 ∧ 0x2000 + 128 * 1024 ≤ 2 ^ 64
    ∧ (quiet.line 16).wtime ≤ quiet.rowTime tileop 16 := by decide +kernel

/-- A reply is due to the group: of an enqueue with mask p1, or of a dequeue. -/
def enqueuing : State := idle (fun g => { g with pend := [{ op := 9, kind := .pred, reg := 1, lanes := 5, vec := none, num := none, bad := 0 }] }) id
def dequeuing : State := idle (fun g => { g with park := some (.dequeue 9) }) id
/-- Pool region 3, over two sources in HBM that differ at byte 70, and an operation of kind `k` on them. -/
def pool0 (k len : Nat) : PoolOp :=
  { gid := 2, team := 1, func := 0, kind := k, dst := 0x302000, src := 0x304000, len := len, value := 7, rop := 0, sd := 1, done := 0, data := [], kept := none,
    unit := none, time := 0, tw := 1, owned := [], waiting := false }
def pooling (p : PoolOp) : State := cached { quiet with
  poolOps := [(9, p)], regions := [(3, { region0 with base := 0x300000, vbase := 0x310000 })],
  mem := Memory.write (Memory.write quiet.mem 0x302000 [1, 2]) 0x304000 [1, 2] } [0x3020, 0x3040]
def poolPlace (p : PoolOp) (ok : List (Nat × Nat) → State → Bool) : Bool :=
  let s := pooling p
  match s.poolPlaces 9 p (if p.kind ≤ 1 then .write else .read) p.unit (if p.kind = 3 then p.src else p.dst) (Nat.min 256 p.len) with
  | (z, .ok l) => ok l z
  | _ => false

theorem witness_EngineEvents_queues :
    ((enqueuing.group 2).isSome ∧ (grp enqueuing).pend.all (fun x => decide (x.op = 9 ∧ x.reg = 1 ∧ x.lanes = 5)) = true)
    ∧ ((dequeuing.group 2).isSome ∧ (grp dequeuing).park = some (.dequeue 9) ∧ Memory.wf (tm dequeuing).scratch = true
        ∧ (tm dequeuing).overlapsTag (64 + 2 * 16) 16 = false)
    ∧ [pool0 0 128, pool0 1 128, pool0 2 128, pool0 3 128].all (fun p => poolPlace p (fun l _ => decide (l.length = 1))) = true
    ∧ poolPlace (pool0 0 128) (fun l z => l.all (fun p => decide ((z.line (lineOf p.1)).owners = []))) = true
    ∧ poolPlace (pool0 3 128) (fun l z => match z.poolRead 9 (pool0 3 128) l with | (_, _, none) => true | _ => false) = true
    ∧ poolPlace (pool0 1 128) (fun _ z => match z.poolPlaces 9 (pool0 1 128) .read (some 0) 0x304000 128 with
        | (y, .ok l) => (match y.poolSource 9 (pool0 1 128) 0x304000 l with | (_, _, _, w) => !w) | _ => false) = true
    ∧ firstDiff [(1 : Byte), 2, 3] [1, 2, 4] = some 2
    ∧ (match (pooling { pool0 0 128 with dst := 0x200 }).poolPlaces 9 { pool0 0 128 with dst := 0x200 } .write none 0x200 128 with
        | (_, .fault _ _) => true | _ => false) = true := by decide +kernel

/-- A slice whose banks are full, and that holds a PREF's request; an operation that waits for the fill of line 16, or of an expander's line. -/
def fullBank : Vector Bank 4 := Vector.replicate 4 { setWait := [], bypass := List.replicate 32 request0 }
def prefetching : Slice := { Slice.fresh with reqs := [{ request0 with pref := true }, { request0 with line := 17 }], banks := fullBank }
def awaiting (n : Nat) (s : State) : State := s.setGroup 2 (fun g => { g with
  fills := [{ op := 9, lane := 0, line := n }], pend := [{ op := 9, kind := .vec, reg := 1, lanes := 5, vec := none, num := none, bad := 0 }] })

theorem witness_MemoryEvents_fills :
    (prefetching.reqs.head?.map L2Req.pref = some true ∧ prefetching.takes { request0 with pref := true } = false)
    ∧ (16 ∈ (filling.slice (filling.homeSlice 4096)).misses ∧ (grp filling).fills = [{ op := 9, lane := 0, line := 16 }])
    ∧ ((awaiting (lineOf 0x8000000000100) expanded).paKind 0x8000000000100 = .cxl
        ∧ (grp (awaiting (lineOf 0x8000000000100) expanded)).fills.map Fill.line = [lineOf 0x8000000000100])
    ∧ (missing16.lineToCome incAtZero.pa = true ∧ (let s : State := { quiet with agenda := [{ at_ := 0, onRef := false, ev := .serviceWarpAtomic incAtZero }] }
          s.atomBefore { incAtZero with op := 99 } = true)
        ∧ quiet.atomBefore incAtZero = false) := by decide +kernel

/-- A chain of entries of VA 0x1234567, whose last is `e`; the same, of its second stage. -/
def chained (l : List Nat) : State :=
  let mem := l.zipIdx.foldl (fun m p => Memory.write m (0x100000 + 0x2000 * p.2 + 8 * bits 0x1234567 (55 - 10 * p.2) (46 - 10 * p.2)) (natLe p.1 8)) ([] : List Host.Cell)
  { quiet with mem := mem, funcs := [(0, { quiet.func 0 with s2root := 0x100000, prqbase := 0x40000, prqlog := 0 })] }
def nonLeaf (n : Nat) : Nat := 0x100000 + 0x2000 * n + 1
def walked (n : Nat) : Nat := 0x100000 + 0x2000 * n + 8 * bits 0x1234567 (55 - 10 * n) (46 - 10 * n)
def chain4 (e : Nat) : State := chained [nonLeaf 1, nonLeaf 2, nonLeaf 3, e]
/-- The entries above level `n` are read and name tables; that of level `n` is `e`. -/
def reached (s : State) (n e : Nat) : Bool := s.num (walked n) 8 == e && decide (s.paKind (walked n) = .hbm) && (s.regionOf (walked n)).isNone
  && !(s.line (lineOf (walked n))).bad && (List.range n).all (fun k => decide (s.num (walked k) 8 = nonLeaf (k + 1)) && decide (s.paKind (walked k) = .hbm))
def xcOf2 : Xc := { fn := 0, core := 0, gid := 2, waiter := .group 2, team := 1 }
def tlb0 : Tlb :=
  { func := 0, va := 0x1230000, pa := 0x70000, ipa := 0, log := 16, s1 := { rd := true, w := true, x := true, typ := 1 }, s2 := { rd := true, w := true, x := true, typ := 0 } }
def twoStages (s : State) : State := { s with funcs := [(0, { s.func 0 with s2en := true, prqbase := 0x40000, prqlog := 0 })] }

theorem witness_PagingEvents_walks :
    [0x50073, 0x50043, 0x50001, 0].all (fun e => reached (chain4 e) 3 e) = true ∧ reached (chained [0]) 0 0 = true
    ∧ ((chain4 0x50073).core 0).tlb = [] ∧ ((chain4 0x50073).die 0).tlb = [] ∧ ((chain4 0x50073).die 0).walkCache = [] ∧ ((chain4 0x50073).func 0).s2en = false
    ∧ (chain4 0x50073).paKind 0x54567 = .hbm ∧ ((chain4 0x50073).func 0).s1root = 0x100000 ∧ (chain4 0).refused = []
    ∧ tlb0.covers 0 0x1234567 = true ∧ quiet.paKind (0x70000 + 0x1234567 % 2 ^ 16) = .hbm ∧ tlb0.s1.permits .read = true ∧ tlb0.s2.permits .read = true := by
  decide +kernel

theorem witness_PagingEvents_requests :
    (let s := twoStages quiet
     (s.die 0).heldReqs = [] ∧ (s.die 0).preqs = [] ∧ s.ringFull 0 = false ∧ Memory.wf s.mem = true ∧ s.migrations = [] ∧ (s.func 0).prqbase % 16 = 0)
    ∧ (let s := twoStages holding0
       (s.die 0).heldReqs = [pageReq0] ∧ (s.func 0).s2en = true ∧ (s.placeReq 0 pageReq0).isSome)
    ∧ (holding0.func 0).s2en = false
    ∧ (let s := { migrating 256 with mem := Memory.write quiet.mem 0x3000 (natLe 0x10073 8) }
       let z := s.flushPage 0x10000
       Memory.wf s.mem = true ∧ (s.line (lineOf 0x3000)).owners = [] ∧ s.pageBusy 0x10000 = false ∧ z.num 0x3000 8 = 0x10073 ∧ (z.line (lineOf 0x3000)).bad = false
         ∧ pteAddr 0x10073 = 0x10000 ∧ 0x20000 % 8192 = 0 ∧ z.mirrors (lineOf 0x3000) = []) := by decide +kernel

/-- The home of the tensor is this die; or the interest goes on to die 1; or its way is not known. -/
def routed (w : Nat) (p : Assoc PitEntry) : State := (ticketed (ticket0 0)).setDie 0 (fun d => { d with routes := [(0, BitVec.ofNat 64 w)], pit := p })
def entry0 (l : List (Nat × Requester × Option Nat)) : PitEntry := { key := key0, born := 0, slots := l, sent := some 9, tries := 0, held := [] }
def interest1 : Interest := { interest0 with who := .upstream 6 8, expiry := some 5 }

theorem lowestFree_none (m : Assoc PitEntry) (n : Nat) : ∀ a, (∀ k, a ≤ k → k < a + n → Assoc.has m k = true) → Assoc.lowestFree m a n = none := by
  induction n with
  | zero => intro a _; rfl
  | succ n ih =>
    intro a h
    simp only [Assoc.lowestFree, h a (le_refl a) (by omega), if_true]
    exact ih (a + 1) (fun k h1 h2 => h k (by omega) (by omega))

theorem has_mapped (p : PitEntry) (k : Nat) : ∀ l : List Nat, k ∈ l → Assoc.has (l.map (fun n => (n, p))) k = true := by
  intro l
  induction l with
  | nil => simp
  | cons n l ih =>
    intro h
    by_cases e : n = k
    · simp [Assoc.has, Assoc.get, e]
    · have := ih (by simpa [Ne.symm e] using h)
      simpa [Assoc.has, Assoc.get, e] using this

theorem witness_NameEvents_full : Assoc.lowestFree ((List.range 16384).map (fun n => (n, entry0 []))) 0 16384 = none :=
  lowestFree_none _ _ _ (fun k _ hk => has_mapped _ k _ (List.mem_range.mpr (by omega)))

theorem witness_NameEvents_entries :
    ((routed (2 ^ 63) []).findTicket 2 5).any (fun x => decide (x.2.status = 0)) = true
    ∧ (routed (2 ^ 63) []).nameDir 0 1 = some 0 ∧ (routed (2 ^ 63 + 5) []).nameDir 0 1 = some 5 ∧ (routed 0 []).nameDir 0 1 = none
    ∧ (routed (2 ^ 63 + 6) []).nameDir 0 1 = some 6
    ∧ (routed (2 ^ 63) []).registryAnswer 0 key0 = none ∧ Assoc.lowestFree ((routed (2 ^ 63) []).die 0).pit 0 16384 = some 0
    ∧ (let s := routed (2 ^ 63) [(0, entry0 [(0, .upstream 5 3, some 4)])]
       (s.die 0).pit.filter (fun (q : Nat × PitEntry) => decide (q.2.key = key0)) = [(0, entry0 [(0, .upstream 5 3, some 4)])]
         ∧ Assoc.lowestFree (entry0 [(0, .upstream 5 3, some 4)]).slots 0 8 = some 1)
    ∧ (entry0 [(0, .upstream 5 3, some 4), (2, .ticket 2 5, none)]).held = [] ∧ (routed 0 []).isSaved 2 = false
    ∧ later interest1.expiry (entry0 []).sent = false := by decide +kernel

theorem witness_LinkEvents_ack_passes : let x := (up (fun x => { x with retry := [{ flit0 with seq := 7 }, { flit0 with seq := 8 }] }) quiet).port 15
    let r := x.opened (sealFlit { flit0 with typ := 5, payload := [7, 1, 2, 0] ++ List.replicate 220 0 } key1)
    (r.1.typ, r.1.rsv, r.1.dpkg, x.tagPasses r.1 r.2) = (5, false, quiet.dev.pkg, true) ∧ payNum r.1.payload 0 1 = 7 := by decide +kernel

/-- A port that is up in tick 1, with part 2 of stage 0, whose peer `h` lies across it. -/
def linking (h b : Nat) : State := up (fun x => { x with credits := 2, nbrPkg := bits h 31 20 })
  { running0 with refc := running0.tickLen, queues := [(2, { queue0 with ring := [rec0, rec0, rec0], peers := [h], sample := ⟨b, false, false, false⟩ })] }

theorem witness_LinkEvents_units :
    (let x := (up (fun x => { x with out := [(4, 0, [])] }) quiet).port 15
     x.up = true ∧ x.claimed ≤ quiet.linkNow ∧ x.out = [(4, 0, [])] ∧ x.canForm 4 1 = true)
    ∧ (let s := linking 5 9
       (s.port 15).up = true ∧ (s.port 15).claimed ≤ s.linkNow ∧ (s.port 15).out = [] ∧ s.tick ≠ 0 ∧ (s.queues.map Prod.fst).Pairwise (· < ·)
         ∧ s.partWeight 2 = some 1 ∧ (s.port 15).credits = 2 ∧ (s.port 15).canForm 1 (unitFlits 0) = true ∧ unitRecords 0 ≤ 3
         ∧ (s.port 15).forwardedSince (s.tick - 1) (fun _ => true) = 0)
    ∧ (let s := up (fun x => { x with heldRecs := [(2, [[1, 2, 3, 4]])] }) { quiet with queues := [(2, queue0)] }
       (s.port 15).heldRecs = [(2, [[1, 2, 3, 4]])] ∧ (queue0.place rec0).isSome ∧ ({ queue0 with ring := [rec0, rec0] }.place rec0) = none
         ∧ s.agenda.any (fun d => decide (d.ev = .recLandingRetry 15)) = false) := by decide +kernel

/-- The peer's last sample is a free value: where it says that the peer is not sealed, the part is eligible once it holds more than the peer. -/
theorem witness_LinkEvents_eligible (h : Nat) (_ : (Config.peerSample h 0).2.2.1 = false) : let b := (Config.peerSample h 0).1 + 1
    (Assoc.get (linking h b).queues 2).map (fun q => (q.sample.b, q.peers)) = some (b, [h])
      ∧ 0 < (1 : Int) * (((b : Int) - (0 : Nat)) - ((Config.peerSample h 0).1 + (0 : Nat))) := by
  refine ⟨rfl, ?_⟩
  omega

theorem witness_DeviceEvents_read : (linesOf 0x1000 3).all (fun n => !(quiet.line n).bad) = true ∧ quiet.owned 0x1000 3 = false := by decide +kernel

/-- PREEMPT of every team of function `f`, with `n` entries of an image list at 0x80000; the list names an area at 0x40000 for the team. -/
def preempting (f n : Nat) : Cmd := { cmd0 with op := 0x38, a0 := BitVec.ofNat 64 f, a1 := 8, a2 := 0x80000, a3 := BitVec.ofNat 64 n }
def listed (size : Nat) : State := { calm with mem := Memory.write calm.mem 0x80000 (natLe (0x40000 + size * 2 ^ 64) 16) }
def enough (s : State) (c : Cmd) : Bool :=
  let z := s.hostRead 0x80000 (16 * c.a3.toNat)
  let teams := z.funcTeams c.a0.toNat
  decide (teams.length ≤ c.a3.toNat) && teams.all (fun p => z.imageArea p.2.home (bits (z.num 0x80000 16) 51 0) (Nat.max 1 (bits (z.num 0x80000 16) 95 64))
    && decide (z.imageSize p.1 (z.progressRecords p.1) ≤ bits (z.num 0x80000 16) 95 64))

theorem witness_RunCommands_preempt :
    shaped (preempting 0 1) = true ∧ shaped { preempting 0 1 with a2 := 0x80001 } = true ∧ (0x80001 : Dword).toNat % 64 ≠ 0
    ∧ (linesOf 0x80000 16).all (fun m => decide (calm.paKind (m * 256) = .hbm)) = true ∧ calm.owned 0x80000 16 = false
    ∧ { calm with lines := [(lineOf 0x80000, { Line.fresh with owners := [{ op := 9, tw := 5, core := 0 }] })] }.owned 0x80000 16 = true
    ∧ enough (listed 65536) (preempting 0 1) = true ∧ ((listed 65536).hostRead 0x80000 16).funcTeams 0 ≠ []
    ∧ enough (listed 16) (preempting 0 1) = false ∧ enough calm (preempting 5 1) = true ∧ (calm.hostRead 0x80000 16).funcTeams 5 = []
    ∧ (((listed 65536).hostRead 0x80000 16).die 0).preQueue.length + 1 ≤ 16
    ∧ (let s := (listed 65536).setDie 0 (fun d => { d with preQueue := List.replicate 16 req0 })
       enough s (preempting 0 1) = true ∧ 16 < ((s.hostRead 0x80000 16).die 0).preQueue.length + 1) := by decide +kernel

theorem witness_RunCommands_images :
    (let s : State := { calm with saved := [(0x40000, saved0)] }
     Assoc.get s.saved 0x50000 = none ∧ (s.saved.find? (fun p => decide (leNat (s.bytes 0x50000 64) = p.2.header) && decide (p.2.digest = []))).map Prod.fst = some 0x40000
       ∧ saved0.groups ≠ [] ∧ saved0.team.func = 0 ∧ s.dev.restores = [] ∧ s.owned 0x50000 saved0.size = false)
    ∧ (calm.dev.reduced = true ∧ shaped { cmd0 with op := 0x10, a0 := 1 } = true ∧ shaped { cmd0 with op := 0x11, a1 := 0x20000000 } = true
        ∧ (0x20000000 : Dword).toNat / 2 ^ 29 = 1) := by decide +kernel

theorem witness_DeviceCommands_modes :
    (let c : Cmd := { cmd0 with op := 0x20, a0 := 1, a1 := 0x100000, a3 := 0x8000 }
     bit (entryOf c) 142 = false ∧ bit (entryOf { c with a3 := 0xC000, a4 := 4 }) 142 = true ∧ xlateLegal (entryOf { c with a3 := 0xC000, a4 := 4 }) = true)
    ∧ [0, 2, 4, 7, 8].all (fun n => shaped { cmd0 with op := 0x51, a0 := BitVec.ofNat 64 n }) = true ∧ calm.dev.life = 2
    ∧ (2, 3) ∈ [(0, 1), (1, 2), (2, 3), (3, 2)] ∧ ¬ (2, 0) ∈ [(0, 1), (1, 2), (2, 3), (3, 2)] ∧ ¬ (2, 7) ∈ [(0, 1), (1, 2), (2, 3), (3, 2)] := by decide +kernel

/-- f32 numbers of each clause: 4, -4, 3, the integer -5, 2048, 20, a NaN. -/
theorem witness_FloatFunctions_numbers :
    [0x40800000, 0xC0800000, 0x40400000, 0xC0A00000, 0x45000000, 0x41A00000].all (fun x => match Fp.f32.decode (Fp.f32.flush false x) with
      | .num v => decide (v.m ≠ 0) | _ => false) = true
    ∧ (match Fp.f32.decode 0x40800000 with | .num v => !v.neg && decide (v.m = 2 ^ Nat.log2 v.m) && decide (v.e + Nat.log2 v.m < 10) | _ => false) = true
    ∧ (match Fp.f32.decode 0xC0800000 with | .num v => v.neg | _ => false) = true
    ∧ (match Fp.f32.decode 0xC0A00000 with | .num v => v.eq (Exact.ofInt (-5)) | _ => false) = true
    ∧ (match Fp.f32.decode 0x45000000 with | .num v => decide (10 ≤ v.e + Nat.log2 v.m) | _ => false) = true
    ∧ (match Fp.f32.decode 0x41A00000 with | .num v => !Exact.lt { v with neg := false } ⟨false, 19, -1⟩ | _ => false) = true
    ∧ (match Fp.f32.decode 0x40400000 with | .num v => Exact.lt { v with neg := false } ⟨false, 19, -1⟩ | _ => false) = true
    ∧ Fp.f32.decode 0x7FC00000 = .nan := by decide +kernel

theorem witness_DecodeEncode : (Instr.movi 9 0xDEADBEEF).WF ∧ form (.movi 9 0xDEADBEEF) ≠ .none ∧ (Instr.br true 11 true 0x7FFF).WF
    ∧ (Instr.ldq 124 127 127).WF ∧ form (.ldq 124 127 127) ≠ .none := by decide +kernel

theorem witness_EncodeDecode : (match decode (bytesOfWord 0x00200000 ++ [7]) with | .ok (i, [7]) => decide (i = .nop) | _ => false) = true
    ∧ isAssigned 0x013 = false := by decide +kernel

/-- What a turn that names a pipe needs for the group in front to issue, and what its word turns out to be. -/
def turning (s : State) (p : State → Group → Nat → Fetched → Bool) : Bool :=
  match s.turns with
  | t :: rest =>
    let y := ({ s with turns := rest } : State).pass t.wait
    (match t.move, y.inOrder 0 with
     | .pipe 0 k, (2, _) :: _ => (match y.group 2 with
       | some g => !y.firstDue && decide (g.last.map Prod.fst ≠ some y.clk) && y.mayIssue 2 g && !y.pipeBusy 0 k
           && (match y.nextInstr 2 g (askedTime t.code) with | (z, f) => p z g k f && (f.pipe.getD .scalar |> fun q => y.pipeFree 0 q k))
       | none => false)
     | _, _ => false)
  | [] => false
def placed (w : Nat) : State := State.reset.withFetchWord 32 w
/-- The same, in a function with a second stage that backs nothing. -/
def unbacked : State := (placed 0x200000).setFunc 0 (fun f => { f with s2en := true, s2root := 0x300000, prqbase := 0x4000000000000, prqlog := 1 })

theorem witness_StepRunsDecoded :
    turning (placed 0x200000) (fun z g k f => match f with
      | .instr i none => (match exec i { z with cur := some { issuer with pipe := k } } with
          | .next u => decide (u.cur.map Cur.stalled ≠ some true) | _ => false) && decide (g.pc = 0x200000)
      | _ => false)
    ∧ turning (placed 0x200001) (fun _ _ _ f => match f with | .trap _ .scalar => true | _ => false)
    ∧ turning (placed 0x20E00001) (fun _ _ k f => match f with | .trap _ .vector => decide (k = 0) | _ => false)
    ∧ turning unbacked (fun _ _ _ f => match f with | .wait => true | _ => false)
    ∧ (grp (placed 0x200000)).held.isNone = true ∧ (fOp 0x81C000C5).toNat = 0x40E
    ∧ (let s := placed (0x11D * 2 ^ 21)
       isLForm 0x11D = true ∧ isLForm 0x001 = false ∧ (match s.fetchWord 2 none 0x200000 with
         | (z, .word w) => decide (w = BitVec.ofNat 32 (0x11D * 2 ^ 21)) && (match z.fetchWord 2 none 0x200004 with | (_, .word _) => true | _ => false)
         | _ => false) = true ∧ (match s.translate (s.groupXc 2) 0x200000 .fetch with
         | (y, .ok pa _) => !((y.wantLine 0 0 pa).line (lineOf pa)).bad && ((y.wantLine 0 0 pa).bankWait pa).isNone | _ => false) = true) := by
  decide +kernel

theorem witness_StepRunsDecoded_poison :
    (let s : State := { placed 0x200000 with lines := [(lineOf 0x200000, { Line.fresh with bad := true })] }
     (s.fetchBad 2 0x200000).isSome ∧ ((placed 0x200000).fetchBad 2 0x200000) = none) := by decide +kernel

theorem witness_FormKept : State.reset.formed ∧ written.formed ∧ (match step State.reset with | .next _ => true | _ => false) = true := by
  unfold State.formed State.memWf
  decide +kernel

theorem witness_StepNeverStops : plain.cur = some issuer ∧ (plain.group issuer.gid).isSome := by decide +kernel

theorem witness_IssueFrame : (plain.group 2).isSome ∧ latentOf (.add 1 2 3) (grp plain) = [] ∧ (grp plain).held.isNone = true := by decide +kernel

end Sys2Proof.Tests
end

section
/-!
PROOF that the frame of the register-only instructions holds of every well-formed one (R4, R43, R113, R124): one relation between
the group before and after, kept by each update of a register, by what every issue records, and so by each instruction.
-/
namespace Sys2Proof.Machine
open Sys2Proof

/-! ## Reads of a register after a write of another -/

theorem Group.sr_setS_other (g : Group) {r q : Nat} (x : Dword) (h : q ≠ r) : (g.setS r x).sr q = g.sr q :=
  Vector.at0_put_other _ _ _ h

theorem Group.vr_setV_other (g : Group) {r q : Nat} (m : Mask) (f : Nat → Word) (h : q ≠ r) : (g.setV r m f).vr q = g.vr q :=
  Vector.at0_put_other _ _ _ h

theorem Group.pr_setPLanes_other (g : Group) {r q : Nat} (m x : Mask) (h : q ≠ r) : (g.setPLanes r m x).pr q = g.pr q :=
  Vector.at0_put_other _ _ _ h

theorem VReg.lane_of_ge (v : VReg) {L : Nat} (h : 128 ≤ L) : v.lane L = 0 := by
  simp [VReg.lane, Vector.at0, List.getD, h]

/-- A write of a vector register leaves the lanes outside its mask alone, in every register (R43). -/
theorem Group.lane_setV_of_not_has (g : Group) {r q L : Nat} {m : Mask} (f : Nat → Word) (h : m.has L = false) :
    ((g.setV r m f).vr q).lane L = (g.vr q).lane L := by
  by_cases hq : q = r
  · subst hq
    by_cases hr : q < 128
    · have hv : (g.setV q m f).vr q = tab 128 (fun L => if m.has L then f L else (g.vr q).lane L) := Vector.at0_put_same _ _ _ hr
      by_cases hL : L < 128
      · rw [hv]
        exact (Vector.at0_tab _ _ hL).trans (by simp [h])
      · rw [VReg.lane_of_ge _ (by omega), VReg.lane_of_ge _ (by omega)]
    · have hv : ∀ v : Vector VReg 128, Vector.at0 v q VReg.zero = VReg.zero := fun v => by
        simp [Vector.at0, List.getD, Nat.le_of_not_lt hr]
      simp [Group.vr, hv]
  · rw [Group.vr_setV_other _ _ _ hq]

/-! ## The relation -/

/-- LWR, which writes its one lane whatever LIVE holds (R133). -/
def writesAnyLane : Instr → Bool
  | .lwr _ _ _ => true
  | _ => false

/-- WRX, which writes EXEC (R129). -/
def writesExec : Instr → Bool
  | .wrx _ => true
  | _ => false

/-- SETMODE and SETMODES, which write MR (R37). -/
def writesMode : Instr → Bool
  | .setmode _ => true
  | .setmodes _ => true
  | _ => false

/-- PQ, which writes QFLAGS (R155). -/
def writesFlags : Instr → Bool
  | .pq _ _ _ => true
  | _ => false

/-- `b` is `a` but for what the register-only instruction `i`, issued by the group `g`, may write, and what every issue records. -/
structure Keeps (i : Instr) (g a b : Group) : Prop where
  rest : b.withRegistersOf g = a.withRegistersOf g
  scalar : ∀ r, writesScalar i g r = false → b.sr r = a.sr r
  vector : ∀ r, writesVector i g r = false → b.vr r = a.vr r
  lanes : ∀ r L, writesAnyLane i = false → g.liveNow.has L = false → (b.vr r).lane L = (a.vr r).lane L
  pred : ∀ r, writesPred i g r = false → b.pr r = a.pr r
  exec : writesExec i = false → b.exec = a.exec
  mode : writesMode i = false → b.mr = a.mr
  flags : writesFlags i = false → b.qflags = a.qflags

namespace Keeps
variable {i : Instr} {g a b d : Group}

theorem refl (i : Instr) (g a : Group) : Keeps i g a a :=
  ⟨rfl, fun _ _ => rfl, fun _ _ => rfl, fun _ _ _ _ => rfl, fun _ _ => rfl, fun _ => rfl, fun _ => rfl, fun _ => rfl⟩

theorem trans (h : Keeps i g a b) (k : Keeps i g b d) : Keeps i g a d where
  rest := k.rest.trans h.rest
  scalar r w := (k.scalar r w).trans (h.scalar r w)
  vector r w := (k.vector r w).trans (h.vector r w)
  lanes r L w m := (k.lanes r L w m).trans (h.lanes r L w m)
  pred r w := (k.pred r w).trans (h.pred r w)
  exec w := (k.exec w).trans (h.exec w)
  mode w := (k.mode w).trans (h.mode w)
  flags w := (k.flags w).trans (h.flags w)

/-- An update of what every issue records alone. -/
theorem of_regs (hr : b.withRegistersOf g = a.withRegistersOf g) (hs : b.s = a.s) (hv : b.v = a.v) (hp : b.p = a.p)
    (he : b.exec = a.exec) (hm : b.mr = a.mr) (hq : b.qflags = a.qflags) : Keeps i g a b where
  rest := hr
  scalar _ _ := by simp only [Group.sr, hs]
  vector _ _ := by simp only [Group.vr, hv]
  lanes _ _ _ _ := by simp only [Group.vr, hv]
  pred _ _ := by simp only [Group.pr, hp]
  exec _ := he
  mode _ := hm
  flags _ := hq

theorem setS {r : Nat} (h : writesScalar i g r = true) (a : Group) (x : Dword) : Keeps i g a (a.setS r x) where
  rest := rfl
  scalar q hq := a.sr_setS_other x (by rintro rfl; simp [h] at hq)
  vector _ _ := rfl
  lanes _ _ _ _ := rfl
  pred _ _ := rfl
  exec _ := rfl
  mode _ := rfl
  flags _ := rfl

theorem setV {r : Nat} {m : Mask} (h : writesVector i g r = true)
    (hm : ∀ L, writesAnyLane i = false → g.liveNow.has L = false → m.has L = false) (a : Group) (f : Nat → Word) :
    Keeps i g a (a.setV r m f) where
  rest := rfl
  scalar _ _ := rfl
  vector q hq := a.vr_setV_other m f (by rintro rfl; simp [h] at hq)
  lanes _ L w hL := a.lane_setV_of_not_has f (hm L w hL)
  pred _ _ := rfl
  exec _ := rfl
  mode _ := rfl
  flags _ := rfl

/-- A vector register written in LIVE (R43). -/
theorem setV_live {r : Nat} (h : writesVector i g r = true) (a : Group) (f : Nat → Word) : Keeps i g a (a.setV r g.liveNow f) :=
  setV h (fun _ _ hL => hL) a f

theorem setPLanes {r : Nat} (h : writesPred i g r = true) (a : Group) (m x : Mask) : Keeps i g a (a.setPLanes r m x) where
  rest := rfl
  scalar _ _ := rfl
  vector _ _ := rfl
  lanes _ _ _ _ := rfl
  pred q hq := a.pr_setPLanes_other m x (by rintro rfl; simp [h] at hq)
  exec _ := rfl
  mode _ := rfl
  flags _ := rfl

theorem setExec (h : writesExec i = true) (a : Group) (x : Mask) : Keeps i g a (a.setExec x) where
  rest := rfl
  scalar _ _ := rfl
  vector _ _ := rfl
  lanes _ _ _ _ := rfl
  pred _ _ := rfl
  exec w := by simp [h] at w
  mode _ := rfl
  flags _ := rfl

theorem setMode (h : writesMode i = true) (a : Group) (x : Word) (l k : List RegPos) :
    Keeps i g a { a with mr := x, bad := l, soft := k } where
  rest := rfl
  scalar _ _ := rfl
  vector _ _ := rfl
  lanes _ _ _ _ := rfl
  pred _ _ := rfl
  exec _ := rfl
  mode w := by simp [h] at w
  flags _ := rfl

theorem setFlags (h : writesFlags i = true) (a : Group) (x : BitVec 3) : Keeps i g a { a with qflags := x } where
  rest := rfl
  scalar _ _ := rfl
  vector _ _ := rfl
  lanes _ _ _ _ := rfl
  pred _ _ := rfl
  exec _ := rfl
  mode _ := rfl
  flags w := by simp [h] at w

theorem foldl {α : Type} {f : Group → α → Group} :
    ∀ (l : List α) (a : Group), (∀ x ∈ l, ∀ a, Keeps i g a (f a x)) → Keeps i g a (l.foldl f a)
  | [], a, _ => refl i g a
  | x :: l, a, h => (h x (.head _) a).trans (foldl l _ (fun y hy => h y (.tail _ hy)))

end Keeps

/-! ## Destinations by the operands that name them -/

section
variable {i : Instr} {g : Group} {q : Reg} {rd : Bool}

theorem writesScalar_of_mem {n r : Nat} (h : Use.s q n rd true ∈ uses (useCtx i g) i) (h1 : q.toNat ≤ r) (h2 : r < q.toNat + n) :
    writesScalar i g r = true :=
  List.any_eq_true.2 ⟨_, h, by simp [h1, h2]⟩

theorem writesScalar_of_mem_even {r : Nat} (h : Use.even q rd true ∈ uses (useCtx i g) i) (hr : r = q.toNat ∨ r = q.toNat + 1) :
    writesScalar i g r = true :=
  List.any_eq_true.2 ⟨_, h, by simp [hr]⟩

theorem writesVector_of_mem {n r : Nat} (h : Use.v q n rd true ∈ uses (useCtx i g) i) (h1 : q.toNat ≤ r) (h2 : r < q.toNat + n) :
    writesVector i g r = true :=
  List.any_eq_true.2 ⟨_, h, by simp [h1, h2]⟩

theorem writesPred_of_mem (h : Use.p q rd true ∈ uses (useCtx i g) i) : writesPred i g q.toNat = true :=
  List.any_eq_true.2 ⟨_, h, by simp⟩

end

/-! ## What the state keeps -/

/-- `t` is `s` but for the issuing group `k`, which keeps what `Keeps` says, and what lies outside the groups and memory. -/
structure FrameOf (i : Instr) (g : Group) (k : Nat) (s t : State) : Prop where
  own : ∃ h, t.group k = some h ∧ Keeps i g g h
  others : ∀ j, j ≠ k → t.group j = s.group j
  mem : t.mem = s.mem

namespace FrameOf
variable {i : Instr} {g : Group} {k : Nat} {s t : State}

theorem refl (i : Instr) (h : s.group k = some g) : FrameOf i g k s s := ⟨⟨g, h, Keeps.refl i g g⟩, fun _ _ => rfl, rfl⟩

theorem setGroup (h : FrameOf i g k s t) {f : Group → Group} (hf : ∀ a, Keeps i g a (f a)) : FrameOf i g k s (t.setGroup k f) := by
  obtain ⟨⟨a, ha, ka⟩, ho, hm⟩ := h
  exact ⟨⟨f a, by simp [ha], ka.trans (hf a)⟩, fun j hj => (State.group_setGroup_other _ _ hj).trans (ho j hj), hm⟩

theorem of_groups_mem (h : FrameOf i g k s t) {u : State} (hg : u.groups = t.groups) (hm : u.mem = t.mem) : FrameOf i g k s u := by
  have hgroup : ∀ j, u.group j = t.group j := fun j => by simp [State.group, hg]
  obtain ⟨⟨a, ha, ka⟩, ho, hmem⟩ := h
  exact ⟨⟨a, (hgroup k).trans ha, ka⟩, fun j hj => (hgroup j).trans (ho j hj), hm.trans hmem⟩

theorem setTeam (h : FrameOf i g k s t) (tid : Nat) (f : Team → Team) : FrameOf i g k s (t.setTeam tid f) := h.of_groups_mem rfl rfl

theorem setCore (h : FrameOf i g k s t) (core : Nat) (f : Core → Core) : FrameOf i g k s (t.setCore core f) := h.of_groups_mem rfl rfl

theorem postOnce (h : FrameOf i g k s t) (e : Event) : FrameOf i g k s (t.postOnce e) := by
  unfold State.postOnce
  split
  · exact h
  · exact h.of_groups_mem rfl rfl

end FrameOf

/-! ## What every issue records -/

/-- The issue's own record (R25, R28). -/
theorem FrameOf.stamp {i : Instr} {s : State} {c : Cur} {g : Group} (hg : s.group c.gid = some g) (hh : g.held = none) :
    FrameOf i g c.gid s (s.stamp c g) := by
  unfold State.stamp
  simp only [hh]
  have huid : FrameOf i g c.gid s { s with uid := s.uid + 1 } := (FrameOf.refl i hg).of_groups_mem rfl rfl
  refine (huid.setGroup (fun a => ?_)).setCore _ _
  exact Keeps.of_regs rfl rfl rfl rfl rfl rfl rfl

/-- The results of pool operations that it reads, ordered (R366). -/
theorem Keeps.orderReads (i : Instr) (g a : Group) : Keeps i g a (a.orderReads i) := by
  unfold Group.orderReads
  refine Keeps.foldl _ _ (fun p _ b => ?_)
  split
  · exact Keeps.of_regs rfl rfl rfl rfl rfl rfl rfl
  · exact Keeps.refl i g b

/-- The single-bit errors that it corrects (R123). -/
theorem Keeps.correct (i : Instr) (g a : Group) (p : RegPos → Bool) : Keeps i g a (a.correct p) :=
  Keeps.of_regs rfl rfl rfl rfl rfl rfl rfl

/-- Where nothing is recorded as latent, the own execution starts in a state that keeps the frame. -/
theorem FrameOf.begun {i : Instr} {s : State} {c : Cur} {g : Group} (hg : s.group c.gid = some g) (hh : g.held = none)
    (hl : latentOf i g = []) : FrameOf i g c.gid s (s.begun i c g) := by
  unfold State.begun
  rw [hl]
  exact (FrameOf.stamp hg hh).setGroup (fun a => (Keeps.orderReads i g a).trans (Keeps.correct i g _ _))

/-- The counts in a skid and in a handler (R397, R399). -/
theorem Keeps.counts (i : Instr) (g a : Group) (st : Stop) (inh : Bool) (n : Nat) :
    Keeps i g a { a with stop := st, trap := if inh then { a.trap with hcount := n } else a.trap } := by
  refine Keeps.of_regs ?_ rfl rfl rfl rfl rfl rfl
  cases inh <;> rfl

theorem FrameOf.counted {i : Instr} {g : Group} {k : Nat} {s t : State} (h : FrameOf i g k s t) (g0 : Group) :
    FrameOf i g k s (t.counted k g0) := by
  unfold State.counted
  split
  · exact h
  · simp only
    split
    · split
      · exact ((h.setGroup (fun a => Keeps.counts i g a _ _ _)).setTeam _ _).postOnce _
      · exact (h.setGroup (fun a => Keeps.counts i g a _ _ _)).setTeam _ _
    · exact h.setGroup (fun a => Keeps.counts i g a _ _ _)

theorem FrameOf.retired {i : Instr} {g : Group} {s t : State} {c : Cur} (h : FrameOf i g c.gid s t) (g0 : Group) (pc : Va) :
    FrameOf i g c.gid s (t.retired c g0 pc) := by
  refine (h.setGroup (fun a => ?_)).counted g0
  exact Keeps.of_regs rfl rfl rfl rfl rfl rfl rfl

/-! ## The instructions' own executions -/

/-- A group that holds no instruction is seen as it stands. -/
theorem ixOf_g {s : State} {c : Cur} {g : Group} (h : g.held = none) : (ixOf s c g).g = g := by simp [ixOf, Group.atIssue, h]

/-- The own execution updates the issuing group alone, and keeps its frame; SETMODE and SETMODES are given a legal mode. -/
def UpdatesWithin (i : Instr) (body : Ix → State → Done) : Prop :=
  ∀ s c g, g.held = none → illegalMode i g = false → ∀ t,
    ∃ f : Group → Group, body (ixOf s c g) t = .next (t.setGroup c.gid f) ∧ ∀ a, Keeps i g a (f a)

/-- An instruction that is the issue of such an execution keeps the frame. -/
theorem UpdatesWithin.frameOf {i : Instr} {body : Ix → State → Done} {s : State} {c : Cur} {g : Group} (hb : UpdatesWithin i body)
    (hs : Starts i s c g) (hm : illegalMode i g = false) (hl : latentOf i g = []) :
    ∃ t, issue i s body = .next t ∧ FrameOf i g c.gid s t := by
  obtain ⟨-, hgroup, -, hheld, -⟩ := id hs
  obtain ⟨f, hf, hk⟩ := hb s c g hheld hm (s.begun i c g)
  exact ⟨_, (issue_of_starts hs body).trans (by rw [hf]), ((FrameOf.begun hgroup hheld hl).setGroup hk).retired g _⟩

namespace UpdatesWithin
variable {i : Instr} {d : Reg}

theorem of_upd {f : Ix → Group → Group}
    (h : ∀ x g, x.g = g → x.live = g.liveNow → ∀ a, Keeps i g a (f x a)) : UpdatesWithin i (fun x s => x.upd s (f x)) :=
  fun s c g hh _ _ => ⟨f (ixOf s c g), rfl, h (ixOf s c g) g (ixOf_g hh) rfl⟩

/-- A vector result in the lanes of LIVE. -/
theorem lanes (hd : ∀ c, ∃ rd, Use.v d 1 rd true ∈ uses c i) (w : Ix → Nat → Word) : UpdatesWithin i (fun x s => x.lanes s d (w x)) :=
  of_upd (fun x g _ hlive a => by
    obtain ⟨_, hu⟩ := hd (useCtx i g)
    rw [hlive]
    exact Keeps.setV_live (writesVector_of_mem hu le_rfl (by omega)) a _)

/-- A predicate result. -/
theorem pred (hd : ∀ c, ∃ rd, Use.p d rd true ∈ uses c i) (m v : Ix → Mask) :
    UpdatesWithin i (fun x s => x.upd s (fun h => h.setPLanes d.toNat (m x) (v x))) :=
  of_upd (fun x g _ _ a => by
    obtain ⟨_, hu⟩ := hd (useCtx i g)
    exact Keeps.setPLanes (writesPred_of_mem hu) a _ _)

/-- A scalar result. -/
theorem scalar (hd : ∀ c, ∃ rd, Use.s d 1 rd true ∈ uses c i) (v : Ix → Dword) :
    UpdatesWithin i (fun x s => x.upd s (fun h => h.setS d.toNat (v x))) :=
  of_upd (fun x g _ _ a => by
    obtain ⟨_, hu⟩ := hd (useCtx i g)
    exact Keeps.setS (writesScalar_of_mem hu le_rfl (by omega)) a _)

/-- A result in an even pair of scalars (R35). -/
theorem pair (hd : ∀ c, ∃ rd, Use.even d rd true ∈ uses c i) (v : Ix → Mask) :
    UpdatesWithin i (fun x s => x.upd s (fun h => h.setPair d.toNat (v x))) :=
  of_upd (fun x g _ _ a => by
    obtain ⟨_, hu⟩ := hd (useCtx i g)
    exact (Keeps.setS (writesScalar_of_mem_even hu (.inl rfl)) a _).trans (Keeps.setS (writesScalar_of_mem_even hu (.inr rfl)) _ _))

/-- A legal mode written. -/
theorem mode (hi : writesMode i = true) (v : Ix → Word)
    (hv : ∀ x g, x.g = g → illegalMode i g = false → mrLegal (v x) = true) : UpdatesWithin i (fun x s => x.writeMr s (v x)) := by
  intro s c g hh hm t
  have hlegal := hv (ixOf s c g) g (ixOf_g hh) hm
  refine ⟨_, by simp only [Ix.writeMr, hlegal, if_true]; rfl, fun a => Keeps.setMode hi a _ _ _⟩

end UpdatesWithin

/-! ## Which instructions are register-only -/

/-- An opcode of classes 1 to 6, but that of XACQ, XTRY or XREL. -/
def registerOpcode (n : Nat) : Bool :=
  decide (1 ≤ n / 128) && decide (n / 128 ≤ 6) && !(decide (n / 128 = 6) && decide (n % 128 ≤ 2)) && isAssigned n

theorem any_registerOpcode_of_registerOnly {i : Instr} (h : registerOnly i = true) : (opcode i).any registerOpcode = true := by
  cases ho : opcode i with
  | none => exact absurd h (by simp [registerOnly, opnum, ho])
  | some n => simpa [registerOnly, opnum, ho, registerOpcode] using h

theorem registerOnly_illegal (x : BitVec 21) : registerOnly (.illegal x) = false := by
  have hz : opnum (.illegal x) = 0 := by
    show (0#11 ++ x).toNat >>> 21 = 0
    rw [BitVec.toNat_append, Nat.shiftRight_eq_div_pow]
    simpa using x.isLt
  simp [registerOnly, hz]

/-- A word that is rightly labelled unassigned is not register-only. -/
theorem registerOnly_unassignedOpcode {w : Word} (hw : (Instr.unassignedOpcode w).WF) : registerOnly (.unassignedOpcode w) = false := by
  have hw : (!isAssigned (opnum (.unassignedOpcode w))) = true := hw
  have hu : isAssigned (opnum (.unassignedOpcode w)) = false := by simpa only [Bool.not_eq_true'] using hw
  simp [registerOnly, hu]

/-! ## The instructions with results of their own shape -/

namespace UpdatesWithin

/-- LWR: one lane, whatever LIVE holds (R133). -/
theorem lwr (d a b : Reg) (m : Ix → Mask) (w : Ix → Nat → Word) :
    UpdatesWithin (.lwr d a b) (fun x s => x.upd s (fun h => h.setV d.toNat (m x) (w x))) :=
  of_upd (fun _ _ _ _ h => Keeps.setV (writesVector_of_mem (.head _) le_rfl (by omega)) (fun _ hL => by simp [writesAnyLane] at hL) h _)

/-- CVT: as many registers as the destination type needs (R153). -/
theorem cvt (d a b : Reg) (w : Ix → Nat → Nat → Word) :
    UpdatesWithin (.cvt d a b) (fun x s => x.upd s (fun h =>
      (List.range (cvtDst b.toNat x.et)).foldl (fun h j => h.setV (d.toNat + j) x.live (w x j)) h)) :=
  of_upd (fun x g hg hlive h => Keeps.foldl _ _ (fun j hj k => by
    have hj : j < cvtDst b.toNat x.et := List.mem_range.1 hj
    rw [Ix.et, hg] at hj
    rw [hlive]
    exact Keeps.setV_live (writesVector_of_mem (.head _) (by omega) (by simp only [useCtx]; omega)) k _))

/-- PQ: the planes, the scale word, then QFLAGS (R155). -/
theorem execPq (d a b : Reg) : ∃ body, (∀ s, Machine.execPq d a b s = issue (.pq d a b) s body) ∧ UpdatesWithin (.pq d a b) body :=
  ⟨_, fun _ => rfl, of_upd (fun x g hg hlive h => by
    rw [hg, hlive]
    refine ((Keeps.foldl _ _ (fun p hp k => ?_)).trans (Keeps.setV_live ?_ _ _)).trans (Keeps.setFlags rfl _ _)
    · have hp : p < mrPlanes g.mr := List.mem_range.1 hp
      exact Keeps.setV_live (writesVector_of_mem (.head _) (by omega) (by simp only [useCtx]; omega)) k _
    · exact writesVector_of_mem (.tail _ (.tail _ (.head _))) le_rfl (by omega))⟩

/-- PX: 32 registers (R156). -/
theorem px (d a b : Reg) (w : Ix → Nat → Nat → Word) :
    UpdatesWithin (.px d a b) (fun x s => x.upd s (fun h =>
      (List.range 32).foldl (fun h j => h.setV (d.toNat + j) x.live (w x j)) h)) :=
  of_upd (fun x g _ hlive h => Keeps.foldl _ _ (fun j hj k => by
    have hj : j < 32 := List.mem_range.1 hj
    rw [hlive]
    exact Keeps.setV_live (writesVector_of_mem (.head _) (by omega) (by omega)) k _))

/-- TOPKINS: the three entries in rank order (R158). -/
theorem topkins (d a b : Reg) (u v w : Ix → Nat → Word) :
    UpdatesWithin (.topkins d a b) (fun x s => x.upd s (fun h =>
      ((h.setV d.toNat x.live (u x)).setV a.toNat x.live (v x)).setV b.toNat x.live (w x))) :=
  of_upd (fun x g _ hlive h => by
    rw [hlive]
    exact ((Keeps.setV_live (writesVector_of_mem (.head _) le_rfl (by omega)) h _).trans
      (Keeps.setV_live (writesVector_of_mem (.tail _ (.head _)) le_rfl (by omega)) _ _)).trans
      (Keeps.setV_live (writesVector_of_mem (.tail _ (.tail _ (.head _))) le_rfl (by omega)) _ _))

/-- FFREXP: fractions and exponents (R160). -/
theorem ffrexp (d a b : Reg) (u v : Ix → Nat → Word) :
    UpdatesWithin (.ffrexp d a b) (fun x s => x.upd s (fun h => (h.setV d.toNat x.live (u x)).setV b.toNat x.live (v x))) :=
  of_upd (fun x g _ hlive h => by
    rw [hlive]
    exact (Keeps.setV_live (writesVector_of_mem (.head _) le_rfl (by omega)) h _).trans
      (Keeps.setV_live (writesVector_of_mem (.tail _ (.tail _ (.head _))) le_rfl (by omega)) _ _))

end UpdatesWithin

/-! ## The frame -/

/-- Every well-formed register-only instruction is the issue of an update of its group within the frame. -/
theorem exec_updatesWithin {i : Instr} (hr : registerOnly i = true) (hw : i.WF) :
    ∃ body, (∀ s, exec i s = issue i s body) ∧ UpdatesWithin i body := by
  have hop := any_registerOpcode_of_registerOnly hr
  cases i with
  | add d | sub d | mul d | mulh d | mad d | min d | max d | abs d | neg d | and d | or d | xor d | not d | shl d | shr d | sar d
  | clz d | popc d | bfx d | bins d | sel d | mov d | movs d | movi d | laneid d | fadd d | fsub d | fmul d | fma d | fmin d
  | fmax d | fabs d | fneg d | frcp d | frsq d | fsqrt d | fexp2 d | flog2 d | fsin d | fcos d | ftanh d | fclass d | keepk d
  | fldexp d | shfl d | shflup d | shfldn d | shflx d | scanx d =>
    exact ⟨_, fun _ => by unfold exec; rfl, UpdatesWithin.lanes (d := d) (fun _ => ⟨_, .head _⟩) _⟩
  | pand d | por d | pxor d | pandn d | pnot d | pset d | pwrs d | cmpeq d | cmpne d | cmplt d | cmple d | cmpgt d | cmpge d
  | fcmpeq d | fcmpne d | fcmplt d | fcmple d | fcmpgt d | fcmpge d | fcmpun d | scmpeq d | scmpne d | scmplt d | scmple d
  | scmpltn d | scmplen d =>
    exact ⟨_, fun _ => by unfold exec; rfl, UpdatesWithin.pred (d := d) (fun _ => ⟨_, .head _⟩) _ _⟩
  | sadd d | ssub d | smul d | smin d | smax d | sand d | sor d | sxor d | sshl d | sshr d | ssar d | smov d | smovi d | saddi d
  | sclz d | spopc d | rdmode d | pcnt d | pffs d | lrd d | rsum d | rmax d =>
    exact ⟨_, fun _ => by unfold exec; rfl, UpdatesWithin.scalar (d := d) (fun _ => ⟨_, .head _⟩) _⟩
  | rdx d | prds d => exact ⟨_, fun _ => by unfold exec; rfl, UpdatesWithin.pair (d := d) (fun _ => ⟨_, .head _⟩) _⟩
  | wrx a => exact ⟨_, fun _ => by unfold exec; rfl, UpdatesWithin.of_upd (fun _ _ _ _ h => Keeps.setExec rfl h _)⟩
  | setmode lit =>
    exact ⟨_, fun _ => by unfold exec; rfl, UpdatesWithin.mode rfl (fun _ => lit) (fun _ _ _ hm => by simpa [illegalMode] using hm)⟩
  | setmodes a =>
    exact ⟨_, fun _ => by unfold exec; rfl, UpdatesWithin.mode rfl (fun x => (x.g.sr a.toNat).extractLsb' 0 32)
      (fun _ _ hg hm => by simpa [illegalMode, hg] using hm)⟩
  | lwr d a b => exact ⟨_, fun _ => by unfold exec; rfl, UpdatesWithin.lwr d a b _ _⟩
  | cvt d a b => exact ⟨_, fun _ => by unfold exec; rfl, UpdatesWithin.cvt d a b _⟩
  | pq d a b => exact UpdatesWithin.execPq d a b
  | px d a b => exact ⟨_, fun _ => by unfold exec; rfl, UpdatesWithin.px d a b _⟩
  | topkins d a b => exact ⟨_, fun _ => by unfold exec; rfl, UpdatesWithin.topkins d a b _ _ _⟩
  | ffrexp d a b => exact ⟨_, fun _ => by unfold exec; rfl, UpdatesWithin.ffrexp d a b _ _⟩
  | illegal x => simp [registerOnly_illegal] at hr
  | unassignedOpcode w => simp [registerOnly_unassignedOpcode hw] at hr
  | _ => exact absurd hop Bool.false_ne_true

/-- What `Obligations.RegisterFrame` means to say holds of every well-formed register-only instruction, and it always answers such a
next state: the registers that are no destination, vector lanes outside LIVE (but LWR's), the mask stack, the trap registers, the path
counters, every other group and all of memory are as before (R4, R43, R113, R124). -/
theorem registerFrame_of_wellFormed {i : Instr} {s : State} {c : Cur} {g : Group} (hw : i.WF) (hr : registerOnly i = true)
    (hm : illegalMode i g = false) (hs : Starts i s c g) (hl : latentOf i g = []) :
    ∃ t, exec i s = .next t ∧ FrameOf i g c.gid s t := by
  obtain ⟨body, hexec, hbody⟩ := exec_updatesWithin hr hw
  rw [hexec]
  exact hbody.frameOf hs hm hl

end Sys2Proof.Machine
end

section
/-!
REFUTATION of `Obligations.RegisterFrame`: it fails of a term that no word decodes to, an ill-formed one, and of such terms only
(`registerFrame_of_wellFormed`).
-/
namespace Sys2Proof.Machine
open Sys2Proof

/-! ## The counterexample

`registerOnly` goes by the opcode in the word, and a term `.unassignedOpcode w` may carry a word whose opcode is assigned. No
decoder makes such a term (`Instr.wellFormed` refuses it), but the statement quantifies over it: it counts as ADD, passes the
checks of issue, and its meaning is the trap of R49, which writes TCAUSE. -/

/-- A word labelled unassigned traps with ILLEGAL_OPCODE, whatever its opcode is (R49). -/
theorem exec_unassignedOpcode_of_starts {w : Word} {s : State} {c : Cur} {g : Group} (h : Starts (.unassignedOpcode w) s c g) :
    exec (.unassignedOpcode w) s = .next ((s.begun (.unassignedOpcode w) c g).takeTrap c.gid (trapP 0x01)) :=
  issue_of_starts_trap (body := fun _ s => .trap s (trapP 0x01)) h rfl

/-- The word of ADD v0, v0, v0 (opcode 0x100), labelled unassigned. -/
def unassignedAdd : Instr := .unassignedOpcode 0x20000000

/-- Who issues: group 2, the one group of the machine. -/
def loneIssuer : Cur := { gid := 2, pipe := 2, pre := none, time := none, code := none, stalled := false, bank := 0, poison := [] }

/-- A machine after reset that issues for a group just made. -/
def loneIssue : State := { State.reset.placeWord [] with cur := some loneIssuer }

/-- That group. -/
def loneGroup : Group := (loneIssue.group 2).getD (Group.made 0 0 0 0 .consumer 0 0 [] 0 0 0 0 .running)

theorem unassignedAdd_registerOnly : registerOnly unassignedAdd = true := by decide +kernel

theorem unassignedAdd_illFormed : unassignedAdd.wellFormed = false := by decide +kernel

theorem unassignedAdd_starts : Starts unassignedAdd loneIssue loneIssuer loneGroup := ⟨rfl, rfl, rfl, rfl, by decide +kernel⟩

/-- TCAUSE holds no cause before the trap, and ILLEGAL_OPCODE after it. -/
theorem unassignedAdd_writes_tcause :
    loneGroup.trap.code = 0
      ∧ (((loneIssue.begun unassignedAdd loneIssuer loneGroup).takeTrap 2 (trapP 0x01)).group 2).map (fun h => h.trap.code) = some 1 := by
  decide +kernel

/-- Refutes O19: a term `.unassignedOpcode w` whose word has ADD's opcode counts as register-only, but traps, so a trap register
of its group changes. -/
theorem not_registerFrame : ¬ Obligations.RegisterFrame := by
  unfold Obligations.RegisterFrame
  intro frame
  obtain ⟨⟨h, hgroup, hrest, -⟩, -⟩ := frame unassignedAdd loneIssue loneIssuer loneGroup _ unassignedAdd_registerOnly rfl
    unassignedAdd_starts rfl (exec_unassignedOpcode_of_starts unassignedAdd_starts)
  have hsame : (h.withRegistersOf loneGroup).trap.code = loneGroup.trap.code := congrArg (fun x : Group => x.trap.code) hrest
  obtain ⟨hbefore, hafter⟩ := unassignedAdd_writes_tcause
  have hcode : some h.trap.code = some 1 := (congrArg (Option.map fun x : Group => x.trap.code) hgroup).symm.trans hafter
  exact absurd (hcode.symm.trans (congrArg some (hsame.trans hbefore))) (by decide)

end Sys2Proof.Machine
end

section
/-!
PROOF that an instruction that fails a check of issue traps or waits, with no effect of its own (R24, R49, R50, R124, R399): one
equation for each check of the gate, and what the issue answers where the gate does not let the instruction go.
-/
namespace Sys2Proof.Machine
open Sys2Proof

/-! ## The issue of an instruction that does not pass -/

section
variable {i : Instr} {body : Ix → State → Done} {s : State} {c : Cur} {g : Group}
  (hcur : s.cur = some c) (hgroup : s.group c.gid = some g) (hplaced : (placedByTime i && s.atomicDue c.gid) = false)
include hcur hgroup hplaced

theorem issue_of_gate_trap {x : TrapInfo} (h : gate i c.pre g = .trap x) :
    issue i s body = .next ((s.stamp c g).takeTrap c.gid x) := by
  simp [issue, hcur, hgroup, hplaced, h]

theorem issue_of_gate_stall (h : gate i c.pre g = .stall) : issue i s body = .next (s.stalled c) := by
  simp [issue, hcur, hgroup, hplaced, h]

end

/-! ## The checks in their order -/

section
variable {i : Instr} {pre : Option Prefix} {g : Group}

/-- A queue handle that has not landed is waited for before any check (R24, R281). -/
theorem gate_of_handleDue (hagain : g.isAgain = false) (hdue : handleDue i g = true) : gate i pre g = .stall := by
  simp [gate, hagain, hdue]

variable (hlanded : (!g.isAgain && handleDue i g) = false)
include hlanded

/-- In a handler an instruction outside Table 16.2 is refused (R399). -/
theorem gate_of_not_handlerMay (hinh : g.trap.inh = true) (hmay : handlerMay (opnum i) = false) :
    gate i pre g = .trap (trapP 0x80) := by
  simp [gate, hlanded, hinh, hmay]

variable (hpermitted : (g.trap.inh && !handlerMay (opnum i)) = false)
include hpermitted

/-- Step 3 of R50, for the fields and ranges. -/
theorem gate_of_not_fieldsLegal (hfields : fieldsLegal (useCtx i g.atIssue) i = false) : gate i pre g = .trap (trapP 0x02) := by
  simp [gate, hlanded, hpermitted, hfields]

end

/-! The checks of an instruction that does not go on with a held done-mask. -/

section
variable {i : Instr} {pre : Option Prefix} {g : Group} (hagain : g.isAgain = false) (hdue : handleDue i g = false)
  (hpermitted : (g.trap.inh && !handlerMay (opnum i)) = false) (hfields : fieldsLegal (useCtx i g.atIssue) i = true)
include hagain hdue hpermitted hfields

/-- Step 5 of R50. -/
theorem gate_of_not_acceptsEtype (hetype : acceptsEtype (opnum i) (mrSat g.mr) (mrEtype g.mr) = false) :
    gate i pre g = .trap (trapP 0x02) := by
  simp [gate, hagain, hdue, hpermitted, hfields, hetype]

variable (hetype : acceptsEtype (opnum i) (mrSat g.mr) (mrEtype g.mr) = true)
include hetype

/-- Step 6 of R50. -/
theorem gate_of_not_blocksHeld (hblocks : blocksHeld (useCtx i g.atIssue) i g = false) : gate i pre g = .trap (trapP 0x10) := by
  simp [gate, hagain, hdue, hpermitted, hfields, hetype, hblocks]

variable (hblocks : blocksHeld (useCtx i g.atIssue) i g = true)
include hblocks

omit hdue in
/-- The readiness of R24 and R219. -/
theorem gate_of_not_ready (hwaits : awaits (useCtx i g.atIssue) i g = true ∨ pathFull i pre g = true) : gate i pre g = .stall := by
  simp [gate, hagain, hpermitted, hfields, hetype, hblocks, hwaits]

/-- The poison of R124: the first poisoned place that is consumed. -/
theorem gate_of_poison (hawaits : awaits (useCtx i g.atIssue) i g = false) (hpath : pathFull i pre g = false) {x : RegPos}
    (hbad : g.bad.find? (fun x => readsPos (useCtx i g.atIssue) i g x && consumesPos i g g.liveNow x) = some x) :
    gate i pre g = .trap (trapPA 0x13 (BitVec.ofNat 64 x.word) 0) := by
  simp [gate, hagain, hdue, hpermitted, hfields, hetype, hblocks, hawaits, hpath, hbad]

end

/-- Settles O18: the checks of the gate in their order, each with what the issue answers where it fails. -/
theorem issueChecks : Obligations.IssueChecks := by
  intro i body s c g hcur hgroup hplaced
  have traps {x} := issue_of_gate_trap (body := body) (x := x) hcur hgroup hplaced
  have waits := issue_of_gate_stall (body := body) hcur hgroup hplaced
  refine ⟨fun hagain hdue => waits (gate_of_handleDue hagain hdue), fun hhandle => ?_⟩
  have hlanded : (!g.isAgain && handleDue i g) = false := by rcases hhandle with h | h <;> simp [h]
  have permitted (h : g.trap.inh = true → handlerMay (opnum i) = true) : (g.trap.inh && !handlerMay (opnum i)) = false := by
    simpa using h
  refine ⟨fun hinh hmay => traps (gate_of_not_handlerMay hlanded hinh hmay),
    fun hmay hfields => traps (gate_of_not_fieldsLegal hlanded (permitted hmay) hfields), fun hmay hfields hagain => ?_⟩
  have hdue : handleDue i g = false := by simpa [hagain] using hlanded
  have hpermitted := permitted hmay
  refine ⟨fun hetype => traps (gate_of_not_acceptsEtype hagain hdue hpermitted hfields hetype), fun hetype => ?_⟩
  refine ⟨fun hblocks => traps (gate_of_not_blocksHeld hagain hdue hpermitted hfields hetype hblocks), fun hblocks => ?_⟩
  exact ⟨fun hwaits => waits (gate_of_not_ready hagain hpermitted hfields hetype hblocks hwaits),
    fun hawaits hpath _ hbad => traps (gate_of_poison hagain hdue hpermitted hfields hetype hblocks hawaits hpath hbad)⟩

end Sys2Proof.Machine
end

section
/-!
PROOF of what every issue and every completion records, and nothing else (R25, R28, R123, R366, R397, R399).
-/
namespace Sys2Proof.Machine
open Sys2Proof

/-! ## The issue's own record -/

/-- What the issue records in the issuing group (R25, R28). -/
def Group.stamped (g : Group) (s : State) (c : Cur) : Group :=
  { g with last := some (s.clk, c.pipe), order := s.uid + 1, starve := 0, skip := none, flushing := [] }

/-- Where the group holds no instruction, the issue's record is the key drawn, the group's record and the use of the pipe. -/
theorem State.stamp_of_held_none {s : State} {c : Cur} {g : Group} (hheld : g.held = none) :
    s.stamp c g = (({ s with uid := s.uid + 1 } : State).setGroup c.gid (fun h => h.stamped s c)).setCore g.core
      (fun x => { x with pipes := Vector.put x.pipes c.pipe (s.clk + 1) }) := by
  simp only [State.stamp, hheld]
  rfl

/-- The results of pool operations that an instruction reads are ordered in the threads' times and owed no more; nothing else changes
(R366). -/
theorem Group.orderReads_eq (g : Group) (i : Instr) : ∃ o t, g.orderReads i = { g with owed := o, times := t } := by
  unfold Group.orderReads
  refine foldl_inv (fun h : Group => ∃ o t, h = { g with owed := o, times := t }) _ (fun h p hh => ?_) g.owed g ⟨_, _, rfl⟩
  obtain ⟨o, t, rfl⟩ := hh
  split <;> exact ⟨_, _, rfl⟩

/-- The issuing group as its own execution finds it. -/
def Group.begun (g : Group) (s : State) (i : Instr) (c : Cur) : Group :=
  ((g.stamped s c).orderReads i).correct (readsPos (useCtx i g) i g)

/-- Beside the issue's record only the results owed, the threads' times and the single-bit errors of the words it reads (R123, R366). -/
theorem Group.begun_eq (g : Group) (s : State) (i : Instr) (c : Cur) :
    g.begun s i c = { g with last := some (s.clk, c.pipe), order := s.uid + 1, starve := 0, skip := none, flushing := [],
                             owed := (g.begun s i c).owed, times := (g.begun s i c).times,
                             soft := g.soft.filter (fun x => !readsPos (useCtx i g) i g x),
                             regerr := { g.regerr with ce := (g.begun s i c).regerr.ce } } := by
  obtain ⟨o, t, hreads⟩ := (g.stamped s c).orderReads_eq i
  unfold Group.begun
  rw [hreads]
  rfl

/-! ## The state in which the own execution starts -/

@[simp] theorem State.core_setGroup (s : State) (k : Nat) (f : Group → Group) (j : Nat) : (s.setGroup k f).core j = s.core j := rfl
@[simp] theorem State.group_setCore (s : State) (k : Nat) (f : Core → Core) (j : Nat) : (s.setCore k f).group j = s.group j := rfl

section
variable {s : State} {i : Instr} {c : Cur} {g : Group} (hlatent : latentOf i g = []) (hheld : g.held = none)
include hlatent hheld

/-- Where the group holds no instruction and nothing is latent, the own execution starts with the key drawn, the pipe used and the
issuing group changed. -/
theorem State.begun_eq : s.begun i c g =
    ((({ s with uid := s.uid + 1 } : State).setGroup c.gid (fun h => h.stamped s c)).setCore g.core
      (fun x => { x with pipes := Vector.put x.pipes c.pipe (s.clk + 1) })).setGroup c.gid
      (fun h => (h.orderReads i).correct (readsPos (useCtx i h) i h)) := by
  rw [State.begun, hlatent, State.stamp_of_held_none hheld]
  rfl

/-- A reading of the state that looks at neither the keys drawn nor the groups nor the cores finds it unchanged. -/
theorem State.begun_keeps {γ : Type} {f : State → γ} (h : ∀ (s : State) u m n, f { s with uid := u, groups := m, cores := n } = f s) :
    f (s.begun i c g) = f s := by
  rw [State.begun_eq hlatent hheld]
  exact h s _ _ _

theorem State.core_begun_same :
    (s.begun i c g).core g.core = { s.core g.core with pipes := Vector.put (s.core g.core).pipes c.pipe (s.clk + 1) } := by
  rw [State.begun_eq hlatent hheld, State.core_setGroup, State.core_setCore_same]
  rfl

theorem State.core_begun_other {k : Nat} (hk : k ≠ g.core) : (s.begun i c g).core k = s.core k := by
  rw [State.begun_eq hlatent hheld, State.core_setGroup, State.core_setCore_other _ _ hk]
  rfl

theorem State.group_begun_same (hgroup : s.group c.gid = some g) : (s.begun i c g).group c.gid = some (g.begun s i c) := by
  have hkeyed : ({ s with uid := s.uid + 1 } : State).group c.gid = some g := hgroup
  rw [State.begun_eq hlatent hheld, State.group_setGroup_same, State.group_setCore, State.group_setGroup_same, hkeyed]
  rfl

theorem State.group_begun_other {k : Nat} (hk : k ≠ c.gid) : (s.begun i c g).group k = s.group k := by
  rw [State.begun_eq hlatent hheld, State.group_setGroup_other _ _ hk, State.group_setCore, State.group_setGroup_other _ _ hk]
  rfl

end

/-! ## The counts of a completion -/

/-- The counts change groups, teams and what is in flight (R397, R399, R412): a reading of the state that looks at none of these finds
it unchanged. -/
theorem State.counted_keeps {γ : Type} {f : State → γ}
    (h : ∀ (s : State) m n l, f { s with groups := m, teams := n, agenda := l } = f s) (s : State) (k : Nat) (g : Group) :
    f (s.counted k g) = f s := by
  have hgroup : ∀ s k u, f (State.setGroup s k u) = f s := fun s k u => h s _ s.teams s.agenda
  have hteam : ∀ s k u, f (State.setTeam s k u) = f s := fun s k u => h s s.groups _ s.agenda
  have honce : ∀ s e, f (State.postOnce s e) = f s := fun s e => by
    unfold State.postOnce
    split
    · rfl
    · exact h s s.groups s.teams _
  unfold State.counted
  simp only
  split
  · rfl
  · split
    · split
      · rw [honce, hteam, hgroup]
      · rw [hteam, hgroup]
    · rw [hgroup]

theorem State.retired_keeps {γ : Type} {f : State → γ}
    (h : ∀ (s : State) m n l, f { s with groups := m, teams := n, agenda := l } = f s) (s : State) (c : Cur) (g : Group) (pc : Va) :
    f (s.retired c g pc) = f s :=
  (State.counted_keeps h _ _ _).trans (h s _ s.teams s.agenda)

@[simp] theorem State.groups_postOnce (s : State) (e : Event) : (s.postOnce e).groups = s.groups := by
  unfold State.postOnce
  split <;> rfl

/-- The group `h` after a completion has counted in it, where `g0` is the group at issue (R397, R399). -/
def Group.counted (g0 h : Group) : Group :=
  if g0.isAgain then h
  else { h with stop := (match g0.stop, h.stop with
                  | .skid n, .skid _ => .skid (n + 1)
                  | _, x => x),
                trap := if g0.trap.inh && h.trap.inh then { h.trap with hcount := satAdd h.trap.hcount 1 4096 } else h.trap }

/-- Only the counts in the skid and in the handler change. -/
theorem Group.counted_eq (g0 h : Group) :
    g0.counted h = { h with stop := (g0.counted h).stop, trap := { h.trap with hcount := (g0.counted h).trap.hcount } } := by
  unfold Group.counted
  split
  · rfl
  · split <;> rfl

/-- Of the groups only the one counted changes. -/
theorem State.groups_counted (s : State) (k : Nat) (g : Group) : (s.counted k g).groups = (s.setGroup k g.counted).groups := by
  unfold State.counted Group.counted
  simp only
  split
  · exact (Assoc.upd_self fun _ _ => rfl).symm
  · split
    · split
      · exact State.groups_postOnce _ _
      · rfl
    · rfl

theorem State.group_counted_same (s : State) (k : Nat) (g : Group) : (s.counted k g).group k = (s.group k).map g.counted := by
  rw [State.group, State.groups_counted]
  exact State.group_setGroup_same _ _ _

theorem State.group_counted_other (s : State) {k j : Nat} (g : Group) (hj : j ≠ k) : (s.counted k g).group j = s.group j := by
  rw [State.group, State.groups_counted]
  exact State.group_setGroup_other _ _ hj

theorem State.group_retired_same (s : State) (c : Cur) (g : Group) (pc : Va) :
    (s.retired c g pc).group c.gid = (s.group c.gid).map (fun h => g.counted { h with pc := pc }) := by
  rw [State.retired, State.group_counted_same, State.group_setGroup_same, Option.map_map]
  rfl

theorem State.group_retired_other (s : State) (c : Cur) (g : Group) (pc : Va) {k : Nat} (hk : k ≠ c.gid) :
    (s.retired c g pc).group k = s.group k := by
  rw [State.retired, State.group_counted_other _ _ hk, State.group_setGroup_other _ _ hk]

/-- Settles O60: the issue's record and the completion's, each read field by field. -/
theorem issueFrame : Obligations.IssueFrame := by
  intro s b i c g pc
  refine ⟨fun hgroup hlatent hheld => ?_, ?_⟩
  · have outside {γ : Type} (f : State → γ) := State.begun_keeps (f := f) (s := s) (c := c) hlatent hheld
    refine ⟨outside State.mem fun _ _ _ _ => rfl, outside State.lines fun _ _ _ _ => rfl, outside State.teams fun _ _ _ _ => rfl,
      outside State.dies fun _ _ _ _ => rfl, outside State.queues fun _ _ _ _ => rfl, outside State.agenda fun _ _ _ _ => rfl,
      fun _ hk => State.core_begun_other hlatent hheld hk, ?_,
      fun _ hk => State.group_begun_other hlatent hheld hk,
      ⟨g.begun s i c, State.group_begun_same hlatent hheld hgroup, g.begun_eq s i c⟩⟩
    rw [State.core_begun_same hlatent hheld]
  · have outside {γ : Type} (f : State → γ) (h) := State.retired_keeps (f := f) h b c g pc
    refine ⟨outside State.mem fun _ _ _ _ => rfl, outside State.lines fun _ _ _ _ => rfl, outside State.cores fun _ _ _ _ => rfl,
      outside State.dies fun _ _ _ _ => rfl, outside State.queues fun _ _ _ _ => rfl,
      fun _ hk => State.group_retired_other _ _ _ _ hk, fun h hgroup => ?_⟩
    exact ⟨g.counted { h with pc := pc }, by rw [State.group_retired_same, hgroup]; rfl, Group.counted_eq _ _⟩

end Sys2Proof.Machine
end

section
/-!
PROOF that a step executes the instruction at the PC of the group that R25 selects, or the one it holds (R24, R25, R29, R49, R50, R87,
R385): the turn of a pipe, what the group's next instruction is, and what the fetch of its words reads.
-/
namespace Sys2Proof.Machine
open Sys2Proof

/-! ## The turn of a pipe -/

/-- A turn of a pipe, where no event comes first, is what the first group of its core in the order of R25 does, if it can issue. -/
theorem step_of_tryIssue {s : State} {t : Turn} {rest : List Turn} {core p gid : Nat} {g0 : Group} {more : List (Nat × Group)}
    {o : Host.Outcome State Fault Refusal} (hturns : s.turns = t :: rest) (hmove : t.move = .pipe core p)
    (hfirst : (({ s with turns := rest } : State).pass t.wait).firstDue = false)
    (horder : (({ s with turns := rest } : State).pass t.wait).inOrder core = (gid, g0) :: more)
    (htry : (({ s with turns := rest } : State).pass t.wait).tryIssue (askedTime t.time) (askedTime t.code) [p] gid = some o) :
    step s = o := by
  simp [step, hturns, State.playTurn, hmove, hfirst, State.issueCore, horder, htry]

section
variable {y z : State} {gid p : Nat} {g : Group} {f : Fetched} {time code : Option Nat} (hgroup : y.group gid = some g)
  (hlast : g.last.map Prod.fst ≠ some y.clk) (hmay : y.mayIssue gid g = true) (hnext : y.nextInstr gid g code = (z, f))
include hgroup hlast hmay hnext

/-- A group whose next instruction, or trap, suits the free pipe runs it there (R24, R87). -/
theorem State.tryIssue_eq_runIn {k : Pipe} (hpipe : f.pipe = some k) (hfree : y.pipeFree g.core k p = true) :
    y.tryIssue time code [p] gid = z.runIn time code gid g p f := by
  cases f with
  | instr _ _ | trap _ _ => simp [State.tryIssue, hgroup, hlast, hmay, hnext, hpipe, hfree]
  | wait | busy => cases hpipe

/-- A group whose fetch waits for a translation parks in the turn of the scalar/control pipe. -/
theorem State.tryIssue_of_wait (hwait : f = .wait) (hfree : y.pipeFree g.core .scalar p = true) :
    y.tryIssue time code [p] gid = some (.next z) := by
  simp [State.tryIssue, hgroup, hlast, hmay, hnext, hwait, hfree]

end

/-- An instruction that does not wait runs as `exec` says, and its issue is over (R24). -/
theorem State.runIn_of_exec {z u : State} {time code : Option Nat} {gid p : Nat} {g : Group} {i : Instr} {pre : Option Prefix}
    (hexec : exec i { z with cur := some { gid := gid, pipe := p, pre := pre, time := time, code := code, stalled := false, bank := 0,
                                           poison := [] } } = .next u) (hstalled : u.cur.map Cur.stalled ≠ some true) :
    z.runIn time code gid g p (.instr i pre) = some (.next { u with cur := none }) := by
  simp [State.runIn, hexec, hstalled]

/-- A group that holds no instruction fetches the one at its PC. -/
theorem State.nextInstr_of_held_none (s : State) (gid : Nat) {g : Group} (code : Option Nat) (hheld : g.held = none) :
    s.nextInstr gid g code = s.fetchInstr gid code g.pc := by
  simp [State.nextInstr, hheld]

/-! ## The instruction that the words decode to -/

/-- A word read from a line that is not poisoned leaves no event. -/
theorem State.fetchRead_of_clean {s : State} {gid : Nat} {code : Option Nat} {a : Va} {new : Bool}
    (hclean : (s.fetchWord gid code a).1.fetchBad gid a = none) : s.fetchRead gid code a new = s.fetchWord gid code a := by
  simp [State.fetchRead, hclean]

/-- A word read from a poisoned line leaves the event of its read, once for the words of one line (R233). -/
theorem State.fetchRead_of_poison {s : State} {gid pa : Nat} {code : Option Nat} {a : Va} {new : Bool} {w : Word}
    (hword : (s.fetchWord gid code a).2 = .word w) (hbad : (s.fetchWord gid code a).1.fetchBad gid a = some pa) :
    s.fetchRead gid code a new = (if new then (s.fetchWord gid code a).1.poisonEvent pa else (s.fetchWord gid code a).1, .word w) := by
  simp [State.fetchRead, hword, hbad]

theorem decoded_of_ok {w : Word} {b : List Byte} {i : Instr} (h : decode b = .ok (i, [])) : decoded w b = .instr i none := by
  simp [decoded, h]

theorem decoded_of_error {w : Word} {b : List Byte} {e : DecodeError} (h : decode b = .error e) :
    decoded w b = .trap (trapP 0x02) (if isAssigned (fOp w).toNat then pipeOf (fOp w).toNat else .scalar) := by
  simp [decoded, h]

section
variable {s z : State} {gid : Nat} {code : Option Nat} {pc : Va} {w : Word} (hread : s.fetchRead gid code pc true = (z, .word w))
include hread

/-- An instruction of one word (R29). -/
theorem State.fetchInstr_single (hform : isLForm (fOp w).toNat = false) (hord : (fOp w).toNat ≠ 0x40E) :
    s.fetchInstr gid code pc = (z, decoded w (bytesOfWord w)) := by
  simp [State.fetchInstr, hread, hform, hord]

variable {u : State} {next : Word}
  (hsecond : z.fetchRead gid code (pc + 4) (decide ((pc + 4).toNat % 256 = 0)) = (u, .word next))
include hsecond

/-- An instruction of form L, with its literal (R29). -/
theorem State.fetchInstr_literal (hform : isLForm (fOp w).toNat = true) :
    s.fetchInstr gid code pc = (u, decoded w (bytesOfWord w ++ bytesOfWord next)) := by
  simp only [State.fetchInstr, hread, hform, Bool.true_or, if_true, hsecond]

/-- An ORD, whose pair's second word is fetched with it (R46). -/
theorem State.fetchInstr_ord (hord : (fOp w).toNat = 0x40E) : s.fetchInstr gid code pc = (u, decoded w (bytesOfWord w)) := by
  have hform : isLForm 0x40E = false := by decide
  simp only [State.fetchInstr, hread, hord, hform, decide_true, Bool.or_true, if_true, hsecond, Bool.false_eq_true, if_false, List.append_nil]

end

/-! ## The word of four bytes -/

/-- Four bytes read as a little-endian word are the bytes of that word (R2, R29). -/
theorem bytesOfWord_leNat (b0 b1 b2 b3 : Byte) : bytesOfWord (BitVec.ofNat 32 (leNat [b0, b1, b2, b3])) = [b0, b1, b2, b3] := by
  have h0 := b0.isLt
  have h1 := b1.isLt
  have h2 := b2.isLt
  have h3 := b3.isLt
  simp only [bytesOfWord, leNat, List.cons.injEq, and_true]
  refine ⟨?_, ?_, ?_, ?_⟩ <;> apply BitVec.eq_of_toNat_eq <;>
    simp only [Laws.Enc.slice_toNat, BitVec.toNat_ofNat] <;> omega

theorem State.bytesOfWord_bytes (s : State) (pa : Nat) : bytesOfWord (BitVec.ofNat 32 (leNat (s.bytes pa 4))) = s.bytes pa 4 :=
  bytesOfWord_leNat _ _ _ _

/-- The state in which a fetch that has its translation reads: the transfer of an uncached page is counted, or the line requested
(R239). -/
def State.fetched (y : State) (gid pa typ : Nat) : State :=
  let core := ((y.group gid).map Group.core).getD 0
  if 2 ≤ typ then y.touch pa else y.wantLine (dieOfCore core) ((core % 64) / 4) pa

section
variable {s y : State} {gid pa typ : Nat} {pc : Va} (htrans : s.translate (s.groupXc gid) (pc.zeroExtend 64) .fetch = (y, .ok pa typ))
include htrans

/-- A word in a Hearth bank in refresh is waited for (R235). -/
theorem State.fetchWord_of_bankWait {code : Option Nat} (hbank : ((y.fetched gid pa typ).bankWait pa).isSome = true) :
    s.fetchWord gid code pc = (y.fetched gid pa typ, .busy) := by
  unfold State.fetched at hbank ⊢
  simp [State.fetchWord, htrans, hbank]

/-- A word of a line that is not poisoned is the four bytes at its address. -/
theorem State.fetchWord_of_clean (hbank : (y.fetched gid pa typ).bankWait pa = none)
    (hline : ((y.fetched gid pa typ).line (lineOf pa)).bad = false) :
    s.fetchWord gid none pc = (y.fetched gid pa typ, .word (BitVec.ofNat 32 (leNat ((y.fetched gid pa typ).bytes pa 4)))) := by
  unfold State.fetched at hbank hline ⊢
  simp [State.fetchWord, htrans, hbank, hline]

end

/-- Settles O56: the turn of a pipe, the next instruction of its group, the decoding of the words fetched, and their bytes. -/
theorem stepRunsDecoded : Obligations.StepRunsDecoded := by
  refine ⟨?_, fun s gid g code hheld => s.nextInstr_of_held_none gid code hheld, ?_, ?_, ?_⟩
  · intro s t rest core p gid g0 g more z f hturns hmove y time code c hfirst horder hgroup hlast hmay hnext
    have turn {o} := step_of_tryIssue (o := o) hturns hmove hfirst horder
    have runs {k} (hpipe : f.pipe = some k) := State.tryIssue_eq_runIn (p := p) (time := time) hgroup hlast hmay hnext hpipe
    refine ⟨fun i pre u hf hfree hexec hstalled => turn ?_, fun x k hf hfree => turn ?_,
      fun hf hfree => turn (State.tryIssue_of_wait hgroup hlast hmay hnext hf hfree)⟩
    · subst hf
      exact (runs rfl hfree).trans (State.runIn_of_exec hexec hstalled)
    · subst hf
      exact runs rfl hfree
  · exact fun s gid code a new => ⟨State.fetchRead_of_clean, fun _ _ => State.fetchRead_of_poison⟩
  · intro s z gid code pc w hread
    refine ⟨fun i hform hord hdec => ?_, fun e hform hord hdec => ?_, fun u lit i hform hsecond hdec => ?_,
      fun u next i hord hsecond hdec => ?_, fun u next e hord hsecond hdec => ?_⟩
    · rw [State.fetchInstr_single hread hform hord, decoded_of_ok hdec]
    · rw [State.fetchInstr_single hread hform hord, decoded_of_error hdec]
    · rw [State.fetchInstr_literal hread hsecond hform, decoded_of_ok hdec]
    · rw [State.fetchInstr_ord hread hsecond hord, decoded_of_ok hdec]
    · have hassigned : isAssigned 0x40E = true := by decide
      rw [State.fetchInstr_ord hread hsecond hord, decoded_of_error hdec, hord, hassigned]
      rfl
  · exact fun s y gid pc pa typ htrans => ⟨State.fetchWord_of_bankWait htrans,
      fun hbank hline => ⟨_, State.fetchWord_of_clean htrans hbank hline, State.bytesOfWord_bytes _ _⟩⟩

end Sys2Proof.Machine
end

section
/-!
PROOF that decoding and encoding agree (R29 to R35, R47, R49): what a word of each form says of the fields of the word, so that each
arm of the decoder is read back, bit by bit; and the bytes of the words.
-/
namespace Sys2Proof.Laws.Enc
open Sys2Proof Sys2Proof.Machine

/-! ## Concatenations and their parts -/

theorem append_eq_append_iff {m n : Nat} {x u : BitVec m} {y v : BitVec n} : x ++ y = u ++ v ↔ x = u ∧ y = v := by
  refine ⟨fun h => ⟨?_, ?_⟩, fun ⟨hx, hy⟩ => hx ▸ hy ▸ rfl⟩
  · rw [← slice_high x y, h, slice_high]
  · rw [← slice_low x y, h, slice_low]

theorem slice_eq_append_iff {k m n : Nat} {w : BitVec k} {s : Nat} {x : BitVec m} {y : BitVec n} :
    w.extractLsb' s (m + n) = x ++ y ↔ w.extractLsb' (s + n) m = x ∧ w.extractLsb' s n = y := by
  rw [← BitVec.extractLsb'_append_extractLsb'_eq_extractLsb' rfl, append_eq_append_iff]

theorem eq_append_iff {m n : Nat} {w : BitVec (m + n)} {x : BitVec m} {y : BitVec n} :
    w = x ++ y ↔ w.extractLsb' n m = x ∧ w.extractLsb' 0 n = y := by
  have h := slice_eq_append_iff (w := w) (s := 0) (x := x) (y := y)
  rwa [BitVec.extractLsb'_eq_self, Nat.zero_add] at h

theorem slice_one_eq_ofBool_iff {k : Nat} {w : BitVec k} {s : Nat} {b : Bool} :
    w.extractLsb' s 1 = BitVec.ofBool b ↔ w.getLsbD s = b := by
  simp [BitVec.eq_of_getLsbD_eq_iff]

/-! ## The fields of a word of each form (Table 2.1) -/

section
variable {w : Word} {op : BitVec 11}

@[simp] theorem formWord_t_eq_iff {d a b : Reg} : formWord (.t op d a b) = w ↔ fOp w = op ∧ fD w = d ∧ fA w = a ∧ fB w = b := by
  rw [formWord, eq_comm, eq_append_iff (m := 11 + 7 + 7) (n := 7), slice_eq_append_iff, slice_eq_append_iff, and_assoc, and_assoc]
  rfl

@[simp] theorem formWord_k_eq_iff {d : Reg} {k : BitVec 14} : formWord (.k op d k) = w ↔ fOp w = op ∧ fD w = d ∧ fK w = k := by
  rw [formWord, eq_comm, eq_append_iff (m := 11 + 7) (n := 14), slice_eq_append_iff, and_assoc]
  rfl

@[simp] theorem formWord_l_eq_iff {d : Reg} {lit : Word} : formWord (.l op d lit) = w ↔ fOp w = op ∧ fD w = d ∧ fK w = 0 :=
  formWord_k_eq_iff

@[simp] theorem formWord_b_eq_iff {u s : Bool} {p : BitVec 4} {o : BitVec 15} :
    formWord (.b op u p s o) = w ↔ fOp w = op ∧ fU w = u ∧ fPred w = p ∧ fSense w = s ∧ fOff w = o := by
  rw [formWord, eq_comm, eq_append_iff (m := 11 + 1 + 4 + 1) (n := 15), slice_eq_append_iff, slice_eq_append_iff,
    slice_eq_append_iff, slice_one_eq_ofBool_iff, slice_one_eq_ofBool_iff, and_assoc, and_assoc, and_assoc]
  rfl

@[simp] theorem formWord_w_eq_iff {l s c : BitVec 5} {t : BitVec 6} :
    formWord (.w op l s c t) = w ↔ fOp w = op ∧ w.extractLsb' 16 5 = l ∧ w.extractLsb' 11 5 = s ∧ w.extractLsb' 6 5 = c
      ∧ w.extractLsb' 0 6 = t := by
  rw [formWord, eq_comm, eq_append_iff (m := 11 + 5 + 5 + 5) (n := 6), slice_eq_append_iff, slice_eq_append_iff,
    slice_eq_append_iff, and_assoc, and_assoc, and_assoc]
  rfl

@[simp] theorem formWord_raw_append_eq_iff {x : BitVec 21} : formWord (.raw (op ++ x)) = w ↔ fOp w = op ∧ w.extractLsb' 0 21 = x := by
  rw [formWord, eq_comm, eq_append_iff (m := 11) (n := 21)]
  rfl

/-! Immediates in part of the field k (Table 2.3). -/

@[simp] theorem fK_eq_low4_iff {k : BitVec 4} : fK w = 0#10 ++ k ↔ w.extractLsb' 4 10 = 0 ∧ w.extractLsb' 0 4 = k :=
  slice_eq_append_iff (m := 10) (n := 4)

@[simp] theorem fK_eq_low3_iff {k : BitVec 3} : fK w = 0#11 ++ k ↔ w.extractLsb' 3 11 = 0 ∧ w.extractLsb' 0 3 = k :=
  slice_eq_append_iff (m := 11) (n := 3)

@[simp] theorem fK_eq_low1_iff {k : Bool} : fK w = 0#13 ++ BitVec.ofBool k ↔ w.extractLsb' 1 13 = 0 ∧ w.getLsbD 0 = k :=
  slice_eq_append_iff.trans (and_congr_right' slice_one_eq_ofBool_iff)

@[simp] theorem fK_eq_fence_iff {o : BitVec 3} {s : BitVec 4} :
    fK w = 0#7 ++ o ++ s ↔ w.extractLsb' 7 7 = 0 ∧ w.extractLsb' 4 3 = o ∧ w.extractLsb' 0 4 = s := by
  rw [fK, slice_eq_append_iff (m := 7 + 3) (n := 4), slice_eq_append_iff, and_assoc]
  rfl

@[simp] theorem fK_eq_ord_iff {n : Bool} {o : BitVec 3} {s : BitVec 4} :
    fK w = 0#6 ++ BitVec.ofBool n ++ o ++ s
      ↔ w.extractLsb' 8 6 = 0 ∧ w.getLsbD 7 = n ∧ w.extractLsb' 4 3 = o ∧ w.extractLsb' 0 4 = s := by
  rw [fK, slice_eq_append_iff (m := 6 + 1 + 3) (n := 4), slice_eq_append_iff, slice_eq_append_iff, slice_one_eq_ofBool_iff, and_assoc,
    and_assoc]
  rfl

end

/-! ## Every arm of the decoder reads all bits of its words -/

/-- The words that an instruction takes whose first word is `w` (R29): form L has a literal after it. -/
def wordsAt (w lit : Word) : List Word := if isLForm (fOp w).toNat then [w, lit] else [w]

/-- Whatever instruction is read from a word and the one after it has these words: no bit of them was dropped (R33). -/
def ReadsAll (w lit : Word) (r : Except DecodeError Instr) : Prop := ∀ i, r = .ok i → encode i = wordsAt w lit

@[simp] theorem readsAll_ok_iff {w lit : Word} {i : Instr} : ReadsAll w lit (.ok i) ↔ encode i = wordsAt w lit := by
  simp [ReadsAll]

@[simp] theorem readsAll_zeroElse_iff {w lit : Word} {p : Prop} [Decidable p] {i : Instr} :
    ReadsAll w lit (zeroElse p i) ↔ (p → encode i = wordsAt w lit) := by
  unfold zeroElse
  split <;> simp [ReadsAll, *]

theorem wordsAt_of_single {w : Word} (lit : Word) (h : isLForm (fOp w).toNat = false) : wordsAt w lit = [w] := by
  simp [wordsAt, h]

/-! Each class by its offsets (Table 2.7): the fields an arm puts into the instruction, with those it checks to be zero, are all that
the form of the instruction asks of the word. -/

section
variable {w lit : Word} {o : Nat}

theorem readsAll_decodeClass0 (ho : o < 0x13) (hop : fOp w = BitVec.ofNat 11 (0x000 + o)) :
    ReadsAll w lit (decodeClass0 o w) := by
  interval_cases o <;> simp +contextual [decodeClass0, encode, form, wordsAt, isLForm, hop]

theorem readsAll_decodeClass1 (ho : o < 0x0F) (hop : fOp w = BitVec.ofNat 11 (0x080 + o)) :
    ReadsAll w lit (decodeClass1 o w lit) := by
  interval_cases o <;> simp +contextual [decodeClass1, encode, form, wordsAt, isLForm, hop]

theorem readsAll_decodeClass2 (ho : o < 0x1F) (hop : fOp w = BitVec.ofNat 11 (0x100 + o)) :
    ReadsAll w lit (decodeClass2 o w lit) := by
  interval_cases o <;> simp +contextual [decodeClass2, encode, form, wordsAt, isLForm, hop]

theorem readsAll_decodeClass3 (ho : o < 0x18) (hop : fOp w = BitVec.ofNat 11 (0x180 + o)) :
    ReadsAll w lit (decodeClass3 o w) := by
  interval_cases o <;> simp +contextual [decodeClass3, encode, form, wordsAt, isLForm, hop]

theorem readsAll_decodeClass4 (ho : o < 0x07) (hop : fOp w = BitVec.ofNat 11 (0x200 + o)) :
    ReadsAll w lit (decodeClass4 o w) := by
  interval_cases o <;> simp +contextual [decodeClass4, encode, form, wordsAt, isLForm, hop]

theorem readsAll_decodeClass5 (ho : o < 0x16) (hop : fOp w = BitVec.ofNat 11 (0x280 + o)) :
    ReadsAll w lit (decodeClass5 o w lit) := by
  interval_cases o <;> simp +contextual [decodeClass5, encode, form, wordsAt, isLForm, hop]

theorem readsAll_decodeClass6 (ho : o < 0x0C) (hop : fOp w = BitVec.ofNat 11 (0x300 + o)) :
    ReadsAll w lit (decodeClass6 o w) := by
  interval_cases o <;> simp +contextual [decodeClass6, encode, form, wordsAt, isLForm, hop]

theorem readsAll_decodeClass7 (ho : o < 0x17) (hop : fOp w = BitVec.ofNat 11 (0x380 + o)) :
    ReadsAll w lit (decodeClass7 o w) := by
  interval_cases o <;> simp +contextual [decodeClass7, encode, form, wordsAt, isLForm, hop]

theorem readsAll_decodeClass8 (ho : o < 0x20) (hop : fOp w = BitVec.ofNat 11 (0x400 + o)) :
    ReadsAll w lit (decodeClass8 o w) := by
  interval_cases o <;> simp +contextual [decodeClass8, encode, form, wordsAt, isLForm, hop]

theorem readsAll_decodeClass9 (ho : o < 0x09) (hop : fOp w = BitVec.ofNat 11 (0x480 + o)) :
    ReadsAll w lit (decodeClass9 o w) := by
  interval_cases o <;> simp +contextual [decodeClass9, encode, form, wordsAt, isLForm, hop]

theorem readsAll_decodeClass10 (ho : o < 0x0C) (hop : fOp w = BitVec.ofNat 11 (0x500 + o)) :
    ReadsAll w lit (decodeClass10 o w lit) := by
  interval_cases o <;> simp +contextual [decodeClass10, encode, form, wordsAt, isLForm, hop]

theorem readsAll_decodeClass11 (ho : o < 0x07) (hop : fOp w = BitVec.ofNat 11 (0x580 + o)) :
    ReadsAll w lit (decodeClass11 o w) := by
  interval_cases o <;> simp +contextual [decodeClass11, encode, form, wordsAt, isLForm, hop]

theorem readsAll_decodeClass12 (ho : o < 0x05) (hop : fOp w = BitVec.ofNat 11 (0x600 + o)) :
    ReadsAll w lit (decodeClass12 o w) := by
  interval_cases o <;> simp +contextual [decodeClass12, encode, form, wordsAt, isLForm, hop]

theorem readsAll_decodeClass13 (ho : o < 0x09) (hop : fOp w = BitVec.ofNat 11 (0x680 + o)) :
    ReadsAll w lit (decodeClass13 o w) := by
  interval_cases o <;> simp +contextual [decodeClass13, encode, form, wordsAt, isLForm, hop]

theorem readsAll_decodeClass14 (ho : o < 0x08) (hop : fOp w = BitVec.ofNat 11 (0x700 + o)) :
    ReadsAll w lit (decodeClass14 o w) := by
  interval_cases o <;> simp +contextual [decodeClass14, encode, form, wordsAt, isLForm, hop]

end

/-! ## Every word -/

theorem isAssigned_of_isLForm {n : Nat} (h : isLForm n = true) : isAssigned n = true := by
  simp only [isLForm, decide_eq_true_eq] at h
  obtain rfl | rfl | rfl | rfl := h <;> rfl

theorem isLForm_eq_false_of_unassigned {n : Nat} (h : isAssigned n = false) : isLForm n = false := by
  by_contra hl
  rw [isAssigned_of_isLForm (by simpa using hl)] at h
  cases h

section
variable {w lit : Word}

theorem readsAll_decodeWord_of_assigned (h : isAssigned (fOp w).toNat = true) : ReadsAll w lit (decodeWord w lit) := by
  have hop : fOp w = BitVec.ofNat 11 ((fOp w).toNat / 128 * 128 + (fOp w).toNat % 128) := by
    rw [Nat.div_add_mod', BitVec.ofNat_toNat, BitVec.setWidth_eq]
  have hclass : (fOp w).toNat / 128 < 16 := by have := (fOp w).isLt; omega
  unfold decodeWord
  simp only [isAssigned, decide_eq_true_eq] at h ⊢
  generalize (fOp w).toNat % 128 = o at *
  generalize (fOp w).toNat / 128 = k at *
  interval_cases k
  · exact readsAll_decodeClass0 h hop
  · exact readsAll_decodeClass1 h hop
  · exact readsAll_decodeClass2 h hop
  · exact readsAll_decodeClass3 h hop
  · exact readsAll_decodeClass4 h hop
  · exact readsAll_decodeClass5 h hop
  · exact readsAll_decodeClass6 h hop
  · exact readsAll_decodeClass7 h hop
  · exact readsAll_decodeClass8 h hop
  · exact readsAll_decodeClass9 h hop
  · exact readsAll_decodeClass10 h hop
  · exact readsAll_decodeClass11 h hop
  · exact readsAll_decodeClass12 h hop
  · exact readsAll_decodeClass13 h hop
  · exact readsAll_decodeClass14 h hop
  · cases h

/-- The words of the instruction that words decode to are these words (R29, R33). -/
theorem encode_of_decodeWord {i : Instr} (h : decodeWord w lit = .ok i) : encode i = wordsAt w lit := by
  by_cases hop : isAssigned (fOp w).toNat = true
  · exact readsAll_decodeWord_of_assigned hop i h
  · replace hop : isAssigned (fOp w).toNat = false := by simpa using hop
    rw [unassigned_word w lit hop] at h
    cases h
    exact (wordsAt_of_single lit (isLForm_eq_false_of_unassigned hop)).symm

end

/-! ## Bytes -/

theorem wordOfBytes_eq_iff {b0 b1 b2 b3 : Byte} {w : Word} : wordOfBytes b0 b1 b2 b3 = w ↔ bytesOfWord w = [b0, b1, b2, b3] := by
  rw [wordOfBytes, eq_comm, eq_append_iff (m := 8 + 8 + 8) (n := 8), slice_eq_append_iff, slice_eq_append_iff]
  simp only [bytesOfWord, List.cons.injEq]
  tauto

/-- The bytes of an instruction's words decode as its first word does, with the literal where it is of form L (R32). -/
theorem decode_wordsAt {w lit : Word} (rest : List Byte) (hlit : isLForm (fOp w).toNat = false → lit = 0) :
    decode ((wordsAt w lit).flatMap bytesOfWord ++ rest) = (decodeWord w lit).map (fun i => (i, rest)) := by
  have hbytes (u : Word) : wordOfBytes (u.extractLsb' 0 8) (u.extractLsb' 8 8) (u.extractLsb' 16 8) (u.extractLsb' 24 8) = u :=
    wordOfBytes_eq_iff.2 rfl
  cases hform : isLForm (fOp w).toNat with
  | true => simp [wordsAt, hform, bytesOfWord, decode, hbytes]
  | false => simp [wordsAt, hform, bytesOfWord, decode, hbytes, hlit hform]

theorem map_pair_eq_ok_iff {r : Except DecodeError Instr} {rest t : List Byte} {i : Instr} :
    r.map (fun j => (j, rest)) = .ok (i, t) ↔ r = .ok i ∧ rest = t := by
  cases r <;> simp [Except.map]

theorem exists_words_of_decode {b rest : List Byte} {i : Instr} (h : decode b = .ok (i, rest)) :
    ∃ w lit, decodeWord w lit = .ok i ∧ b = (wordsAt w lit).flatMap bytesOfWord ++ rest := by
  have hbytes (b0 b1 b2 b3 : Byte) : bytesOfWord (wordOfBytes b0 b1 b2 b3) = [b0, b1, b2, b3] := wordOfBytes_eq_iff.1 rfl
  unfold decode at h
  split at h
  next b0 b1 b2 b3 tail =>
    simp only at h
    split at h
    next hform =>
      split at h
      next c0 c1 c2 c3 tail' =>
        obtain ⟨hword, rfl⟩ := map_pair_eq_ok_iff.1 h
        exact ⟨_, _, hword, by simp [wordsAt, hform, hbytes]⟩
      next => cases h
    next hform =>
      obtain ⟨hword, rfl⟩ := map_pair_eq_ok_iff.1 h
      exact ⟨_, _, hword, by simp [wordsAt, hform, hbytes]⟩
  next => cases h

theorem literal_eq_zero_of_encode {i : Instr} {w : Word} (h : encode i = [w]) : literal i = 0 := by
  cases hform : form i <;> simp [encode, literal, hform] at h ⊢

/-! ## Every instruction -/

/-- The case split over the opcode table, in its order: each row's own law. -/
theorem decodeWord_formWord (i : Instr) : Statement i :=
  i.casesOn illegal unassignedOpcode nop br brp brexz call callr ret jmpr ifp elsep endif spawn spawnw exit yield setpri sleep
    lnch setmode setmodes rdmode rdx wrx prds pwrs pand por pxor pandn pnot pset pcnt pffs add sub mul mulh mad min max abs
    neg and or xor not shl shr sar clz popc bfx bins sel cmpeq cmpne cmplt cmple cmpgt cmpge mov movs movi laneid fadd fsub
    fmul fma fmin fmax fabs fneg fcmpeq fcmpne fcmplt fcmple fcmpgt fcmpge fcmpun frcp frsq fsqrt fexp2 flog2 fsin fcos ftanh
    fclass cvt pq px topkins keepk fldexp ffrexp sadd ssub smul smin smax sand sor sxor sshl sshr ssar scmpeq scmpne scmplt
    scmple scmpltn scmplen smov smovi saddi sclz spopc xacq xtry xrel shfl shflup shfldn shflx lrd lwr rsum rmax scanx ldsw
    ldsd ldsq stsw stsd stsq asadd asmin asmax asand asor asxor asxch ascas binit barr barrtx bwait btest binv cpgs waitc
    waitp ldb ldh ldw ldd ldq stb sth stw std stq sldw sldd sstw sstd ord aadd asub amin amax aand aor axor axch acas ainc
    adec afadd fence mona mwt pref wcfl gath gathq pgld pgfree fopen fadv fend fclose fpos mxacq mxtry mxrel mma mmas accz
    accrd accwr accst mfence mwaitb setrst qenq qenqm qdeq qdeqm qlen qseal qinfo nint nann nseal ndrop nstat xagree xsum
    plfill plcopy plcmp plred snopen snclose snbind trap tret tmask tunmask rdsr wrsr clk brk deferredTrapDelivery
    siblingHaltStop handlerCountExpiry starvationEpisode slotDecision teamRetirement childGridEnd sleepExpiry xacqGrant
    compactorCopyDone registerDeadlockDetection registerResultLand anvilOwnershipGrant tileOpStart tileLineFetch
    tileOpComplete copyChunkDelivery queueEnqueueStep queueDequeueStep queueReply spillRefillLanding bellowsSample
    crossbarGrant l2Request l2FillComplete l2Writeback monitorTimeoutExpiry hearthRefreshWindow hearthBankRead
    hearthWindowLoading cxlTransactionError serviceWarpAtomic poolAtomic atomicReply pageWalk pageRequestRelease prqReply
    prqHead bar0Write heatSample heatDecaySweep migrationLineCopy migrationFinish rowRetirement interestArrival interestRetry
    interestSlotExpiry tileAnswerArrival namedTileDelivery ticketExpiry nannCopyComplete swageCountComplete flitReceive
    recLandingRetry ackReceive ackSend retryTimeout portForwardDecision keySwitchover keySlotRetire collFlitArrival
    collectiveTimeout poolOpLine collectorServe preemptStopComplete preemptSaveComplete restorePlacement graphRunEnd
    eventRingRelease reset wipeComplete firmwareVerified powerLimitStep thermalTrip ageingSample unknownCommand submitGraph
    endRun sealQueue restartStage hearthDrain hearthWrite hearthOpen setRoute clearNames setCrucible setXlate shootdown
    setColl setPool heatRead setDecay migrate retireRow clearRetlog preempt preemptFunction restore terminate attach resume
    linkTrain keyInstall setMode quote lifecycle health hostPortAccess linkKeyManagement

/-- Settles O53: the words of the instruction are those that its first word decodes with. -/
theorem decodeEncode : Obligations.DecodeEncode := by
  intro i rest hwf hform
  have hword : decodeWord (formWord (form i)) (literal i) = .ok i := decodeWord_formWord i hwf hform
  have hwords : encode i = wordsAt (formWord (form i)) (literal i) := encode_of_decodeWord hword
  have hlit (hl : isLForm (fOp (formWord (form i))).toNat = false) : literal i = 0 :=
    literal_eq_zero_of_encode (hwords.trans (wordsAt_of_single _ hl))
  rw [encodeBytes, hwords, decode_wordsAt rest hlit, hword]
  rfl

/-- Settles O54: the bytes that decode are those of the words read, and the instruction has these words. -/
theorem encodeDecode : Obligations.EncodeDecode := by
  refine ⟨fun b i rest h => ?_, fun w rest h => ?_⟩
  · obtain ⟨w, lit, hword, rfl⟩ := exists_words_of_decode h
    rw [encodeBytes, encode_of_decodeWord hword]
  · have hdecode := decode_wordsAt (w := w) rest (fun _ => rfl)
    rwa [wordsAt_of_single 0 (isLForm_eq_false_of_unassigned h), unassigned_word w 0 h] at hdecode

/-- Settles O55, by evaluating the decoder. -/
theorem decodedWords : Obligations.DecodedWords := by
  unfold Obligations.DecodedWords
  exact ⟨rfl, rfl, rfl, rfl, rfl, rfl, rfl, rfl, rfl, rfl, rfl⟩

end Sys2Proof.Laws.Enc
end

section
/-!
REFUTATION of `Obligations.EngineEvents`: its clause on the reply that brings an enqueue's mask says that every other result due to
the group stays due, and the landing of the mask supersedes those due to the same lanes of the same predicate. It fails of such
groups only (`queueReply_enq_of_lanes_free`).
-/
namespace Sys2Proof.Machine
open Sys2Proof

/-! ## What an enqueue's reply lands (R137, R282) -/

/-- The mask of an enqueue's reply as its group waits for it: due to predicate `r` in the lanes `live`. -/
def maskDue (op r : Nat) (live : Mask) : Pend :=
  { op := op, kind := .pred, reg := r, lanes := live, vec := none, num := none, bad := 0 }

/-- A result due, once the number of operation `op` has arrived. -/
def Pend.arrived (op n : Nat) (x : Pend) : Pend := if x.op = op then { x with num := some n } else x

/-- The result is due of operation `op` and can land: what `Group.land` selects. -/
def Pend.landsOf (op : Nat) (x : Pend) : Bool := decide (x.op = op) && (x.vec.isSome || x.num.isSome)

theorem Pend.arrived_of_ne {op n : Nat} {x : Pend} (hne : x.op ≠ op) : x.arrived op n = x := if_neg hne

/-- Once its number has arrived, a result can land if and only if it is the operation's. -/
theorem Pend.landsOf_arrived (op n : Nat) (x : Pend) : (x.arrived op n).landsOf op = decide (x.op = op) := by
  by_cases hop : x.op = op <;> simp [Pend.arrived, Pend.landsOf, hop]

/-- Where one mask is all that an operation has due, its landing writes the mask over the group without that operation's results. -/
theorem Group.land_arrived_of_maskDue {g : Group} {op r n : Nat} {live : Mask}
    (hdue : g.pend.filter (fun x => decide (x.op = op)) = [maskDue op r live]) :
    ({ g with pend := g.pend.map (Pend.arrived op n) } : Group).land op
      = ({ g with pend := g.pend.filter (fun x => decide (x.op ≠ op)) } : Group).setPLanes r live (BitVec.ofNat 128 n) := by
  have hready : (g.pend.map (Pend.arrived op n)).filter (Pend.landsOf op) = [{ maskDue op r live with num := some n }] := by
    simp only [List.filter_map, Function.comp_def, Pend.landsOf_arrived, hdue]
    simp [Pend.arrived, maskDue]
  have hrest : (g.pend.map (Pend.arrived op n)).filter (fun x => !Pend.landsOf op x) = g.pend.filter (fun x => decide (x.op ≠ op)) := by
    simp only [List.filter_map, Function.comp_def, Pend.landsOf_arrived, ← decide_not]
    exact (List.map_congr_left fun x hx => Pend.arrived_of_ne (by simpa using List.of_mem_filter hx)).trans (List.map_id _)
  change ((g.pend.map (Pend.arrived op n)).filter (Pend.landsOf op)).foldl Group.landOne
    { g with pend := (g.pend.map (Pend.arrived op n)).filter fun x => !Pend.landsOf op x } = _
  rw [hready, hrest]
  rfl

/-- An operation of a living group completes at that group. -/
theorem State.finishOp_of_group {s : State} {gid op : Nat} {g : Group} (hgroup : s.group gid = some g) :
    s.finishOp gid op = s.setGroup gid (fun h => h.finish op) := by
  simp [State.finishOp, hgroup]

section
variable {s : State} {gid op : Nat} {pd : Reg} {live ok : Mask} {full closed : Bool} {g : Group}

/-- The reply of an enqueue writes its mask to the predicate, and QSTATUS, and completes the operation (R282). -/
theorem exec_queueReply_enq_of_maskDue (hgroup : s.group gid = some g)
    (hdue : g.pend.filter (fun x => decide (x.op = op)) = [maskDue op pd.toNat live]) :
    ∃ r, exec (.queueReply (.enq gid op pd live ok full closed)) s = .next r
      ∧ r.group gid = some (({ ({ g with pend := g.pend.filter (fun x => decide (x.op ≠ op)) } : Group).setPLanes pd.toNat live ok with
          qstatus := BitVec.ofNat 2 (b2n full + 2 * b2n closed) } : Group).finish op) := by
  refine ⟨_, rfl, ?_⟩
  have hland := Group.land_arrived_of_maskDue (n := ok.toNat) hdue
  rw [BitVec.ofNat_toNat, BitVec.setWidth_eq] at hland
  have hset := State.group_setGroup_same s gid fun h =>
    ({ ({ h with pend := h.pend.map (Pend.arrived op ok.toNat) } : Group).land op with
        qstatus := BitVec.ofNat 2 (b2n full + 2 * b2n closed) } : Group)
  rw [hgroup, Option.map_some, hland] at hset
  exact (congrArg (fun z : State => z.group gid) (State.finishOp_of_group hset)).trans
    ((State.group_setGroup_same ..).trans (congrArg _ hset))

/-- The lanes of a predicate that results due are not due to keep those results (R137). -/
theorem dropPend_of_lanes_free {l : List Pend} {k : RegKind} {r : Nat} {m : Mask}
    (hfree : ∀ x, x ∈ l → x.kind = k → x.reg = r → x.lanes ≠ 0 ∧ x.lanes &&& ~~~ m = x.lanes) : dropPend l k r m = l := by
  refine (List.filterMap_congr fun x hx => ?_).trans (List.filterMap_some (l := l))
  split
  · next hreg =>
    obtain ⟨hsome, hkeep⟩ := hfree x hx hreg.1 hreg.2
    rw [hkeep, if_neg hsome]
  · rfl

/-- A bit of a predicate after its lanes `m` are written. -/
theorem Group.has_pr_setPLanes_same (g : Group) {r : Nat} (m x : Mask) (L : Nat) (hr : r < 12) :
    ((g.setPLanes r m x).pr r).has L = if m.has L then x.has L else (g.pr r).has L := by
  have hpr : (g.setPLanes r m x).pr r = (g.pr r &&& ~~~ m) ||| (x &&& m) := Vector.at0_put_same g.p _ _ hr
  rw [hpr]
  by_cases hm : m.getLsbD L = true
  · simp [Mask.has, hm]
  · simpa [Mask.has, hm] using fun hbit => Mask.has_lt hbit

/-- The refuted clause as it holds: where no other result is due to the lanes that the mask is written to, each stays due. -/
theorem queueReply_enq_of_lanes_free (hgroup : s.group gid = some g) (hpd : pd.toNat < 12)
    (hdue : g.pend.filter (fun x => decide (x.op = op)) = [maskDue op pd.toNat live])
    (hfree : ∀ x, x ∈ g.pend → x.op ≠ op → x.kind = .pred → x.reg = pd.toNat → x.lanes ≠ 0 ∧ x.lanes &&& ~~~ live = x.lanes) :
    ∃ r h, exec (.queueReply (.enq gid op pd live ok full closed)) s = .next r ∧ r.group gid = some h
      ∧ (∀ L, (h.pr pd.toNat).has L = if live.has L then ok.has L else (g.pr pd.toNat).has L)
      ∧ h.qstatus = BitVec.ofNat 2 (b2n full + 2 * b2n closed) ∧ h.pend = g.pend.filter (fun x => decide (x.op ≠ op)) := by
  obtain ⟨r, hexec, hafter⟩ := exec_queueReply_enq_of_maskDue (ok := ok) (full := full) (closed := closed) hgroup hdue
  refine ⟨r, _, hexec, hafter, fun L => Group.has_pr_setPLanes_same _ live ok L hpd, rfl, dropPend_of_lanes_free fun x hx => ?_⟩
  obtain ⟨hmem, hop⟩ := List.mem_filter.mp hx
  exact hfree x hmem (of_decide_eq_true hop)

end

/-! ## The counterexample

`Group.pendWith`, by which instructions make results due, ends the results due before to the same lanes, and so does not make this
group; the statement quantifies over every state, and asks nothing of the group's other results. -/

/-- Results due to the same lanes of predicate 1: of the enqueue 9 that is answered, and of another operation, 10. -/
def masksDue : List Pend := [maskDue 9 1 5, maskDue 10 1 5]

/-- The lone group, with both due. -/
def twiceDueGroup : Group := { loneGroup with pend := masksDue }

/-- A machine with that group. -/
def twiceDue : State := loneIssue.setGroup 2 (fun g => { g with pend := masksDue })

theorem twiceDue_group : twiceDue.group 2 = some twiceDueGroup := rfl

/-- The mask of the enqueue lands, and the result of operation 10 is due no longer. -/
theorem twiceDue_reply_ends_both : ∃ r h, exec (.queueReply (.enq 2 9 1 5 5 false false)) twiceDue = .next r ∧ r.group 2 = some h ∧ h.pend = [] := by
  obtain ⟨r, hexec, hafter⟩ := exec_queueReply_enq_of_maskDue (pd := 1) (live := 5) (ok := 5) (full := false) (closed := false)
    (op := 9) twiceDue_group rfl
  exact ⟨r, _, hexec, hafter, by decide⟩

/-- Refutes O44: the reply to enqueue 9 lands in lanes to which operation 10 has a result due too, and that result is due no longer,
where the clause on the reply says that it is. -/
theorem not_engineEvents : ¬ Obligations.EngineEvents := by
  unfold Obligations.EngineEvents
  intro events
  obtain ⟨-, -, -, -, -, -, -, -, -, -, -, reply, -⟩ := events twiceDue
  obtain ⟨r, h, hexec, hgroup, -, -, hpend⟩ := reply 2 9 1 5 5 false false twiceDueGroup twiceDue_group (by decide) rfl
  obtain ⟨r', h', hexec', hgroup', hempty⟩ := twiceDue_reply_ends_both
  obtain rfl : r = r' := Host.Outcome.next.inj (hexec.symm.trans hexec')
  obtain rfl : h = h' := Option.some.inj (hgroup.symm.trans hgroup')
  exact absurd (hpend.symm.trans hempty) (by decide)

end Sys2Proof.Machine
end

section
/-!
PROOF of the control transfers and the mask stack (R92 to R96): how an issue ends by what the instruction's own execution answers, when
a branch is taken, and each instruction.
-/
namespace Sys2Proof.Machine
open Sys2Proof

/-! ## The ends of an issue -/

section
variable {i : Instr} {s : State} {c : Cur} {g : Group} {body : Ix → State → Done} (h : Starts i s c g)
  (hexec : exec i s = issue i s body)
include h hexec

theorem runsTo_of_next {b : State} (hbody : body (ixOf s c g) (s.begun i c g) = .next b) : RunsTo i s c g b := by
  rw [RunsTo, hexec, issue_of_starts h, hbody]

theorem jumpsTo_of_jump {b : State} {pc : Va} (hbody : body (ixOf s c g) (s.begun i c g) = .jump b pc) : JumpsTo i s c g b pc := by
  rw [JumpsTo, hexec, issue_of_starts h, hbody]

theorem staysAt_of_stay {b : State} (hbody : body (ixOf s c g) (s.begun i c g) = .stay b) : StaysAt i s c g b := by
  rw [StaysAt, hexec, issue_of_starts h, hbody]

theorem trapsWith_of_trap {x : TrapInfo} (hbody : body (ixOf s c g) (s.begun i c g) = .trap (s.begun i c g) x) : TrapsWith i s c g x :=
  hexec.trans (issue_of_starts_trap h hbody)

theorem failsIn_of_trap {b : State} {x : TrapInfo} (hbody : body (ixOf s c g) (s.begun i c g) = .trap b x) : FailsIn i s c g b x := by
  rw [FailsIn, hexec, issue_of_starts h, hbody]

theorem exec_of_stall (hbody : body (ixOf s c g) (s.begun i c g) = .stall) : exec i s = .next (s.stalled c) := by
  rw [hexec, issue_of_starts h, hbody]

end

/-- A group changed to itself. -/
@[simp] theorem State.setGroup_self (s : State) (k : Nat) : s.setGroup k (fun h => h) = s := by
  rw [State.setGroup, Assoc.upd_self fun _ _ => rfl]

section
variable {i : Instr} {s : State} {c : Cur} {g : Group} (h : Starts i s c g)
include h

theorem Starts.held_eq_none : g.held = none := by
  obtain ⟨-, -, -, hheld, -⟩ := h
  exact hheld

/-- The own execution of an instruction that starts sees its group as it stands. -/
theorem Starts.ixOf_g : (ixOf s c g).g = g := Machine.ixOf_g h.held_eq_none

/-- The checks at issue have let only legal fields pass. -/
theorem Starts.fieldsLegal_eq_true : fieldsLegal (useCtx i g.atIssue) i = true := by
  obtain ⟨-, -, -, -, hgate⟩ := h
  cases hfields : fieldsLegal (useCtx i g.atIssue) i with
  | true => rfl
  | false =>
    simp only [gate, hfields] at hgate
    split at hgate
    · cases hgate
    · split at hgate <;> cases hgate

end

/-! ## When a branch is taken (R93) -/

section
variable {x : Ix} {u sense all : Bool} {pred : BitVec 4}

theorem Ix.taken_of_always (hpred : pred = 15) : x.taken u pred sense all = some true := if_pos hpred

theorem Ix.taken_of_pred (hpred : pred ≠ 15) {m : Mask} (hm : x.satisfying x.live pred sense = m) :
    x.taken u pred sense all = if u = true ∧ m ≠ 0 ∧ m ≠ x.live then none
      else some (decide (if all then x.live ≠ 0 ∧ m = x.live else m ≠ 0)) := by
  rw [Ix.taken, if_neg hpred, hm]
  simp only [Bool.and_eq_true, decide_eq_true_eq, and_assoc]
  split
  · rfl
  · cases all <;> simp

end

section
variable {i : Instr} {s b : State} {c : Cur} {g : Group} {body : Ix → State → Done} {u sense all : Bool} {pred : BitVec 4} {pc : Va}
  (h : Starts i s c g) (hexec : exec i s = issue i s body)
  (htrap : (ixOf s c g).taken u pred sense all = none → body (ixOf s c g) (s.begun i c g) = .trap (s.begun i c g) (trapP 0x04))
  (hjump : (ixOf s c g).taken u pred sense all = some true → body (ixOf s c g) (s.begun i c g) = .jump b pc)
  (hnext : (ixOf s c g).taken u pred sense all = some false → body (ixOf s c g) (s.begun i c g) = .next (s.begun i c g))
include h hexec htrap hjump hnext

/-- An instruction with a predicate operand that jumps where it is taken: by pred 15 always, else by the live lanes that satisfy it;
where it asks for uniformity and finds both kinds, it traps (R93). -/
theorem branch_of_starts : let m := g.liveNow &&& (if sense then g.pr pred.toNat else ~~~ g.pr pred.toNat)
    if pred = 15 then JumpsTo i s c g b pc
    else if u = true ∧ m ≠ 0 ∧ m ≠ g.liveNow then TrapsWith i s c g (trapP 0x04)
    else if (if all then g.liveNow ≠ 0 ∧ m = g.liveNow else m ≠ 0) then JumpsTo i s c g b pc
    else RunsTo i s c g (s.begun i c g) := by
  intro m
  have hm : (ixOf s c g).satisfying g.liveNow pred sense = m := by rw [Ix.satisfying, h.ixOf_g]
  by_cases hpred : pred = 15
  · rw [if_pos hpred]
    exact jumpsTo_of_jump h hexec (hjump (Ix.taken_of_always hpred))
  rw [if_neg hpred]
  have htaken : (ixOf s c g).taken u pred sense all = if u = true ∧ m ≠ 0 ∧ m ≠ g.liveNow then none
      else some (decide (if all then g.liveNow ≠ 0 ∧ m = g.liveNow else m ≠ 0)) := Ix.taken_of_pred hpred hm
  by_cases hmixed : u = true ∧ m ≠ 0 ∧ m ≠ g.liveNow
  · rw [if_pos hmixed] at htaken ⊢
    exact trapsWith_of_trap h hexec (htrap htaken)
  rw [if_neg hmixed] at htaken ⊢
  by_cases hyes : if all then g.liveNow ≠ 0 ∧ m = g.liveNow else m ≠ 0
  · rw [if_pos hyes]
    exact jumpsTo_of_jump h hexec (hjump (htaken.trans (congrArg some (decide_eq_true hyes))))
  · rw [if_neg hyes]
    exact runsTo_of_next h hexec (hnext (htaken.trans (congrArg some (decide_eq_false hyes))))

end

/-- BRP has no form that names no predicate (R31). -/
theorem Starts.pred_ne_of_brp {u sense : Bool} {pred : BitVec 4} {off : BitVec 15} {s : State} {c : Cur} {g : Group}
    (h : Starts (.brp u pred sense off) s c g) : pred ≠ 15 := by
  rintro rfl
  exact absurd h.fieldsLegal_eq_true Bool.false_ne_true

/-! ## The mask stack (R96) -/

section
variable {u sense : Bool} {pred : BitVec 4} {off : BitVec 15} {s : State} {c : Cur} {g : Group}

/-- IFP traps on mixed lanes and on a full stack; it pushes, and jumps where no lane is left. -/
theorem ifp_of_starts (h : Starts (.ifp u pred sense off) s c g) :
    let t := g.exec &&& (if sense then g.pr pred.toNat else ~~~ g.pr pred.toNat)
    let b := (s.begun (.ifp u pred sense off) c g).setGroup c.gid (fun h =>
      { h with stack := { saved := g.exec, other := g.exec &&& ~~~ t } :: g.stack, exec := t })
    if u = true ∧ t ≠ 0 ∧ t ≠ g.exec then TrapsWith (.ifp u pred sense off) s c g (trapP 0x04)
    else if 16 ≤ g.stack.length then TrapsWith (.ifp u pred sense off) s c g (trapP 0x05)
    else if t = 0 then JumpsTo (.ifp u pred sense off) s c g b (branchTarget g.pc off)
    else RunsTo (.ifp u pred sense off) s c g b := by
  intro t b
  have ht : (ixOf s c g).satisfying g.exec pred sense = t := by rw [Ix.satisfying, h.ixOf_g]
  split
  · next hmixed =>
    refine trapsWith_of_trap h (by unfold exec; rfl) ?_
    simp only [h.ixOf_g, ht]
    exact if_pos hmixed
  next huniform =>
  split
  · next hfull =>
    refine trapsWith_of_trap h (by unfold exec; rfl) ?_
    simp only [h.ixOf_g, ht]
    rw [if_neg huniform, if_pos hfull]
  next hroom =>
  split
  · next hnone =>
    refine jumpsTo_of_jump h (by unfold exec; rfl) ?_
    simp only [h.ixOf_g, ht]
    rw [if_neg huniform, if_neg hroom]
    exact if_pos hnone
  · next hsome =>
    refine runsTo_of_next h (by unfold exec; rfl) ?_
    simp only [h.ixOf_g, ht]
    rw [if_neg huniform, if_neg hroom]
    exact if_neg hsome

end

/-- Settles O10: the branches by when they are taken, the other transfers, and the mask stack by its top entry. -/
theorem controlTransfers : Obligations.ControlTransfers := by
  refine ⟨⟨fun s c g h => ?nop, fun u pred sense off s c g => ⟨fun h => ?br, fun h => ?brp, fun h => ?call⟩,
      fun off s c g h => ?brexz, fun a s c g h => ?callr, fun a s c g h => ?jmpr, fun s c g h => ?ret⟩,
    fun u pred sense off s c g h => ifp_of_starts h, fun off s c g h => ?elsep, fun s c g h => ?endif⟩
  case nop =>
    rw [State.setGroup_self]
    exact runsTo_of_next h (by unfold exec; rfl) rfl
  case br =>
    exact branch_of_starts (all := false) h (by unfold exec; rfl) (fun htaken => by simp only [htaken])
      (fun htaken => by simp only [htaken, h.ixOf_g]) (fun htaken => by simp only [htaken])
  case brp =>
    have hbrp := branch_of_starts (u := u) (pred := pred) (sense := sense) (all := true) (b := s.begun (.brp u pred sense off) c g)
      (pc := branchTarget g.pc off) h (by unfold exec; rfl) (fun htaken => by simp only [htaken])
      (fun htaken => by simp only [htaken, h.ixOf_g]) (fun htaken => by simp only [htaken])
    exact (if_neg h.pred_ne_of_brp).mp hbrp
  case call =>
    intro b
    exact branch_of_starts (all := false) h (by unfold exec; rfl) (fun htaken => by simp only [htaken])
      (fun htaken => by simp only [htaken, h.ixOf_g]; rfl) (fun htaken => by simp only [htaken])
  case brexz =>
    split
    · next hnone => exact jumpsTo_of_jump h (by unfold exec; rfl) (by simp only [h.ixOf_g]; exact if_pos hnone)
    · next hsome => exact runsTo_of_next h (by unfold exec; rfl) (by simp only [h.ixOf_g]; exact if_neg hsome)
  case callr => exact jumpsTo_of_jump h (by unfold exec; rfl) (by simp only [h.ixOf_g]; rfl)
  case jmpr => exact jumpsTo_of_jump h (by unfold exec; rfl) (by simp only [h.ixOf_g])
  case ret => exact jumpsTo_of_jump h (by unfold exec; rfl) (by simp only [h.ixOf_g])
  case elsep =>
    split
    · next hstack => exact trapsWith_of_trap h (by unfold exec; rfl) (by simp only [h.ixOf_g, hstack])
    next e r hstack =>
    intro b
    split
    · next hnone => exact jumpsTo_of_jump h (by unfold exec; rfl) (by simp only [h.ixOf_g, hstack]; exact if_pos hnone)
    · next hsome => exact runsTo_of_next h (by unfold exec; rfl) (by simp only [h.ixOf_g, hstack]; exact if_neg hsome)
  case endif =>
    split
    · next hstack => exact trapsWith_of_trap h (by unfold exec; rfl) (by simp only [h.ixOf_g, hstack])
    · next e r hstack => exact runsTo_of_next h (by unfold exec; rfl) (by simp only [h.ixOf_g, hstack]; rfl)

end Sys2Proof.Machine
end

section
/-!
PROOF of SPAWN, SPAWNW, EXIT and standing in issue (R97 to R101): an instruction that flushes the group's combining buffers, room for a
group, and the cycle in which SLEEP begins.
-/
namespace Sys2Proof.Machine
open Sys2Proof

/-! ## Instructions that flush -/

section
variable {i : Instr} {s : State} {c : Cur} {g : Group} (h : Starts i s c g) {y : State} (k : State → Nat → Done)

/-- No instruction that flushes issues while an engine owns a line to flush (R261). -/
theorem release_of_blocked (hblocked : y.flushBlocked c.gid = true) : (ixOf s c g).release y k = .stall := if_pos hblocked

include h in
/-- What follows a flush is given the flushed state, and a time at or above every access of the group. -/
theorem Starts.release_of_not_blocked (hfree : y.flushBlocked c.gid = false) : (ixOf s c g).release y k
    = k (y.flushGroup c.gid) (Nat.max g.time ((((y.flushGroup c.gid).group c.gid).map Group.ownTime).getD 0)) := by
  rw [Ix.release, h.ixOf_g]
  exact if_neg (ne_true_of_eq_false hfree)

end

/-! ## Room for a group (R97) -/

theorem State.spawnRoom_iff {s : State} {g : Group} :
    s.spawnRoom g = true ↔ 0 < s.freeContexts g.core ∧ 0 < s.freeBlocks g.core ∧ (s.teamGroups g.team).length < 96 := by
  simp [State.spawnRoom, and_assoc]

/-! ## The cycle of an issue -/

/-- What a poisoned place read without being consumed records (R124) changes its group, the device's log and what the event to the host
writes. -/
theorem State.recordLatent_keeps {γ : Type} {f : State → γ} (h : Unwritten f) (hdev : ∀ s m, f { s with dev := m } = f s)
    (hfuncs : ∀ s m, f { s with funcs := m } = f s) (s : State) (gid : Nat) (l : List RegPos) : f (s.recordLatent gid l) = f s := by
  have hgroup : ∀ s u, f (State.setGroup s gid u) = f s := fun s u => h.groups s _
  have hlog : ∀ s k n, f (State.mcEvent s k n) = f s := fun s k n => hdev s _
  unfold State.recordLatent
  refine foldl_keeps f _ (fun b x => ?_) _ _
  simp only
  split
  · exact hgroup _ _
  · split
    · exact hgroup _ _
    · rw [State.postEvent_keeps h hfuncs, hlog, hgroup]

/-- An issue takes no cycle. -/
theorem State.clk_begun {s : State} {i : Instr} {c : Cur} {g : Group} (hheld : g.held = none) : (s.begun i c g).clk = s.clk := by
  rw [State.begun, State.recordLatent_keeps (f := State.clk) ⟨fun _ _ => rfl, fun _ _ => rfl, fun _ _ => rfl, fun _ _ => rfl,
    fun _ _ => rfl, fun _ _ => rfl, fun _ _ => rfl, fun _ _ => rfl⟩ (fun _ _ => rfl) (fun _ _ => rfl), State.setGroup_clk,
    State.stamp_of_held_none hheld]
  rfl

/-- The state in which a group `n` has been spawned by `g`, whose key is `gid`. -/
def State.spawned (s : State) (gid : Nat) (g : Group) (d a b : Reg) (n : Nat) : State :=
  (s.createGroup g.team g.core n g.role g.pri (codeAddr (g.sr a.toNat)) ((List.range 8).map (fun i => g.sr (b.toNat + i))) 0
    (Nat.max g.time (((s.group gid).map Group.ownTime).getD 0) + 1) (s.atomsBefore gid)).setGroup gid
      (fun h => h.setS d.toNat (BitVec.ofNat 64 n))

section
variable {i : Instr} {s : State} {c : Cur} {g : Group}

/-- The spawner's buffers are flushed, then the new group has the lowest free number, and its accesses come after the spawner's. -/
theorem Starts.release_spawn (h : Starts i s c g) {y : State} {n : Nat} (d a b : Reg) (hfree : y.flushBlocked c.gid = false)
    (hnumber : (y.flushGroup c.gid).lowestNumber g.team = some n) :
    (ixOf s c g).release y (fun s' t => .next (s'.spawn (ixOf s c g) d a b t))
      = .next ((y.flushGroup c.gid).spawned c.gid g d a b n) := by
  rw [h.release_of_not_blocked _ hfree, State.spawn, h.ixOf_g, hnumber]
  rfl

theorem Starts.spawnRoom_iff (h : Starts i s c g) {y : State} : y.spawnRoom (ixOf s c g).g = true ↔
    0 < y.freeContexts g.core ∧ 0 < y.freeBlocks g.core ∧ (y.teamGroups g.team).length < 96 := by
  rw [h.ixOf_g, State.spawnRoom_iff]

end

/-! ## Each instruction -/

/-- Settles O11: each instruction by what it waits for, and what it leaves. -/
theorem groupLives : Obligations.GroupLives := by
  refine ⟨fun d a b s c g => ⟨
      fun h => ⟨fun n hroom hfree hnumber => ?spawn, fun hroom hblocked => ?spawnWaits, fun hfull => ?spawnFull⟩,
      fun h => ⟨fun n hroom hfree hnumber => ?spawnw, fun hwaits => ?spawnwWaits⟩⟩,
    fun s c g h => ⟨fun hfree => ?exit, fun hblocked => ?exitWaits⟩, fun s c g h => ?yield, fun k s c g h => ?setpri,
    fun s c g h => ?sleepZero, fun k s c g hk h => ?sleep⟩
  case spawn =>
    exact runsTo_of_next h (by unfold exec; rfl) ((if_pos (h.spawnRoom_iff.2 hroom)).trans (h.release_spawn d a b hfree hnumber))
  case spawnWaits =>
    exact exec_of_stall h (by unfold exec; rfl) ((if_pos (h.spawnRoom_iff.2 hroom)).trans (release_of_blocked _ hblocked))
  case spawnFull => exact runsTo_of_next h (by unfold exec; rfl) (if_neg (mt h.spawnRoom_iff.1 hfull))
  case spawnw =>
    exact runsTo_of_next h (by unfold exec; rfl) ((if_pos (h.spawnRoom_iff.2 hroom)).trans (h.release_spawn d a b hfree hnumber))
  case spawnwWaits =>
    refine exec_of_stall h (by unfold exec; rfl) ?_
    by_cases hroom : (s.begun (.spawnw d a b) c g).spawnRoom (ixOf s c g).g = true
    · have hblocked := hwaits.resolve_left (not_not_intro (h.spawnRoom_iff.1 hroom))
      exact (if_pos hroom).trans (release_of_blocked _ hblocked)
    · exact if_neg hroom
  case exit =>
    refine staysAt_of_stay h (by unfold exec; rfl) ?_
    simp only [h.ixOf_g]
    exact if_neg (ne_true_of_eq_false hfree)
  case exitWaits => exact exec_of_stall h (by unfold exec; rfl) (if_pos hblocked)
  case yield => exact runsTo_of_next h (by unfold exec; rfl) rfl
  case setpri => exact runsTo_of_next h (by unfold exec; rfl) rfl
  case sleepZero =>
    rw [State.setGroup_self]
    exact runsTo_of_next h (by unfold exec; rfl) rfl
  case sleep =>
    rw [← State.clk_begun (i := .sleep k) (c := c) h.held_eq_none]
    exact runsTo_of_next h (by unfold exec; rfl) (if_neg hk)

end Sys2Proof.Machine
end

section
/-!
PROOF of LNCH (R102, R103, R106): what its read of the descriptor leaves to its own execution, and each way in which it ends.
-/
namespace Sys2Proof.Machine
open Sys2Proof

/-! ## Reads of a descriptor at issue -/

theorem ixOf_gid (s : State) (c : Cur) (g : Group) : (ixOf s c g).gid = c.gid := rfl

section
variable {i : Instr} {s : State} {c : Cur} {g : Group} (h : Starts i s c g)
include h

/-- An instruction that starts has waited for no engine. -/
theorem Starts.lowOf_ixOf (L : Nat) : (ixOf s c g).lowOf L = 0 := by
  simp [Ix.lowOf, h.ixOf_g, h.held_eq_none]

theorem Starts.again_ixOf : (ixOf s c g).again = false := isAgain_of_none h.held_eq_none

/-- A whole-group read that finds its bytes goes on with them (R262). -/
theorem Starts.read_of_ok {y z : State} {va : Dword} {n : Nat} {data : List Byte} (k : State → List Byte → Done)
    (hread : y.readLines (y.groupXc c.gid) g.time (fun _ => 0) va n = (z, .ok data)) : (ixOf s c g).read y va n k = k z data := by
  have hlines : y.readLines (y.groupXc (ixOf s c g).gid) (ixOf s c g).g.time (fun l => (ixOf s c g).lowOf (lowKey l)) va n
      = (z, .ok data) := by
    simp only [h.lowOf_ixOf, h.ixOf_g]
    exact hread
  simp only [Ix.read, Ix.readFrom, hlines, Ix.unheld, h.again_ixOf]
  rfl

/-- A precise trap of an instruction that has not waited. -/
theorem Starts.fail_ixOf (y : State) (x : TrapInfo) : (ixOf s c g).fail y x = .trap y x := by
  simp [Ix.fail, h.again_ixOf]

end

/-- Settles O12: the descriptor's alignment, its bytes, the die's table and the buffers to flush, in this order. -/
theorem childLaunch : Obligations.ChildLaunch := by
  refine fun d a b s c g z data t h => ⟨fun hmisaligned => ?misaligned, fun haligned hread hteam =>
    ⟨fun hinvalid => ?invalid, fun e hvalid hfree => ⟨fun hblocked => ?waits, fun hflush => ?entered⟩, fun hvalid hfull => ?full⟩⟩
  case misaligned =>
    refine trapsWith_of_trap h (by unfold exec; rfl) ?_
    simp only [h.ixOf_g, h.fail_ixOf]
    exact if_pos hmisaligned
  case invalid =>
    refine failsIn_of_trap h (by unfold exec; rfl) ?_
    simp only [h.ixOf_g, ixOf_gid, haligned, ne_eq, not_true, if_false, h.read_of_ok _ hread, hteam, hinvalid, Bool.not_false, if_true]
  case waits =>
    refine exec_of_stall h (by unfold exec; rfl) ?_
    simp only [h.ixOf_g, ixOf_gid, haligned, ne_eq, not_true, if_false, h.read_of_ok _ hread, hteam, hvalid, Bool.not_true,
      Bool.false_eq_true, hfree, release_of_blocked _ hblocked]
  case entered =>
    refine runsTo_of_next h (by unfold exec; rfl) ?_
    simp only [h.ixOf_g, ixOf_gid, haligned, ne_eq, not_true, if_false, h.read_of_ok _ hread, hteam, hvalid, Bool.not_true,
      Bool.false_eq_true, hfree, h.release_of_not_blocked _ hflush, Ix.upd]
  case full =>
    refine runsTo_of_next h (by unfold exec; rfl) ?_
    simp only [h.ixOf_g, ixOf_gid, haligned, ne_eq, not_true, if_false, h.read_of_ok _ hread, hteam, hvalid, Bool.not_true,
      Bool.false_eq_true, hfull, Ix.upd]

end Sys2Proof.Machine
end

section
/-!
PROOF of the predicate and mode instructions and of the moves between lanes (R37, R128 to R135): the rules for an instruction whose own
execution updates its group alone, and each instruction by the update it makes.
-/
namespace Sys2Proof.Machine
open Sys2Proof

/-! ## Updates of the issuing group -/

section
variable {i : Instr} {d : Reg}

/-- What an own execution updates of the group as it sees it, the instruction sets of the group as it stood at issue. -/
theorem sets_of_upd {u : Ix → Group → Group} {f : Group → Group → Group} (hexec : ∀ s, exec i s = issue i s (fun x s => x.upd s (u x)))
    (hu : ∀ x, x.live = x.g.liveNow → u x = f x.g) : Sets i f := by
  intro s c g h
  have hlive : (ixOf s c g).live = (ixOf s c g).g.liveNow := congrArg Group.liveNow h.ixOf_g.symm
  have hupdate : u (ixOf s c g) = f g := (hu _ hlive).trans (congrArg f h.ixOf_g)
  exact runsTo_of_next h (hexec s) (by rw [hupdate]; rfl)

/-- A scalar result. -/
theorem sets_of_scalar {v : Ix → Dword} {w : Group → Dword}
    (hexec : ∀ s, exec i s = issue i s (fun x s => x.upd s (fun h => h.setS d.toNat (v x))))
    (hv : ∀ x, x.live = x.g.liveNow → v x = w x.g) : Sets i (fun g h => h.setS d.toNat (w g)) :=
  sets_of_upd hexec fun x hlive => by rw [hv x hlive]

/-- A vector result in the lanes of LIVE (R43). -/
theorem sets_of_lanes {v : Ix → Nat → Word} {w : Group → Nat → Word} (hexec : ∀ s, exec i s = issue i s (fun x s => x.lanes s d (v x)))
    (hv : ∀ x, x.live = x.g.liveNow → v x = w x.g) : Sets i (fun g h => h.setV d.toNat g.liveNow (w g)) :=
  sets_of_upd hexec fun x hlive => by rw [hv x hlive, hlive]

/-- A predicate formed from two in the lanes of LIVE (R130). -/
theorem sets_of_logic {a b : Reg} {f : Mask → Mask → Mask} (hexec : ∀ s, exec i s = issue i s (fun x s => x.logic s d a b f)) :
    Sets i (fun g h => h.setPLanes d.toNat g.liveNow (f (g.pr a.toNat) (g.pr b.toNat))) :=
  sets_of_upd hexec fun x hlive => by rw [hlive]

end

/-! ## The lanes of two masks -/

theorem Mask.lanes_and (m k : Mask) : (m &&& k).lanes = (List.range 128).filter (fun L => m.has L && k.has L) :=
  List.filter_congr fun _ _ => BitVec.getLsbD_and

theorem Mask.first_and (m k : Mask) : (m &&& k).first = (List.range 128).find? (fun L => m.has L && k.has L) := by
  rw [Mask.first, Mask.lanes_and, List.head?_filter]

/-! ## Writes of MR (R37) -/

theorem Ix.writeMr_of_legal (x : Ix) (s : State) {v : Word} (h : mrLegal v = true) : x.writeMr s v = x.upd s (fun g =>
    { g with mr := v &&& 0x3FFFF, bad := g.bad.filter (fun p => !(decide (p.kind = .special ∧ p.reg = 1))),
             soft := g.soft.filter (fun p => !(decide (p.kind = .special ∧ p.reg = 1))) }) :=
  if_pos h

theorem Ix.writeMr_of_not_legal (x : Ix) (s : State) {v : Word} (h : mrLegal v = false) : x.writeMr s v = .trap s (trapP 0x02) :=
  if_neg (ne_true_of_eq_false h)

/-! ## Each instruction -/

/-- Settles O2: each instruction by the register it writes, and writes of MR by whether it takes the word. -/
theorem predicatesAndModes : Obligations.PredicatesAndModes := by
  refine ⟨fun d a b => ⟨?pand, ?por, ?pxor, ?pandn, ?pnot, fun k => ?pset, ?pcnt, ?pffs⟩,
    fun d a => ⟨fun lit => ⟨fun s c g h hlegal => ?setmode, fun s c g h hlegal => ?setmodeTraps⟩, fun s c g h hlegal => ?setmodes,
      fun s c g h hlegal => ?setmodesTraps, ?rdmode, ?rdx, ?wrx, ?prds, ?pwrs⟩⟩
  case pand | por | pxor => exact sets_of_logic fun _ => by unfold exec; rfl
  case pandn => exact sets_of_logic (f := fun u v => u &&& ~~~ v) fun _ => by unfold exec; rfl
  case pnot => exact sets_of_logic (b := a) (f := fun u _ => ~~~ u) fun _ => by unfold exec; rfl
  case pset => exact sets_of_upd (fun _ => by unfold exec; rfl) fun x hlive => by rw [hlive]
  case pcnt => exact sets_of_scalar (fun _ => by unfold exec; rfl) fun x hlive => by rw [hlive, Mask.count, Mask.lanes_and]
  case pffs => exact sets_of_scalar (fun _ => by unfold exec; rfl) fun x hlive => by rw [hlive, Mask.first_and]
  case setmode => exact runsTo_of_next h (by unfold exec; rfl) (Ix.writeMr_of_legal _ _ hlegal)
  case setmodeTraps => exact trapsWith_of_trap h (by unfold exec; rfl) (Ix.writeMr_of_not_legal _ _ hlegal)
  case setmodes => exact runsTo_of_next h (by unfold exec; rfl) (by rw [h.ixOf_g]; exact Ix.writeMr_of_legal _ _ hlegal)
  case setmodesTraps => exact trapsWith_of_trap h (by unfold exec; rfl) (by rw [h.ixOf_g]; exact Ix.writeMr_of_not_legal _ _ hlegal)
  case rdmode => exact sets_of_scalar (fun _ => by unfold exec; rfl) fun x _ => BitVec.eq_of_toNat_eq (by simp)
  case rdx | wrx | prds | pwrs => exact sets_of_upd (fun _ => by unfold exec; rfl) fun _ _ => rfl

/-- Settles O9: the shuffles and the scan by the word of each live lane, LWR by its one lane, the rest by the scalar they write. -/
theorem laneMoves : Obligations.LaneMoves := by
  refine fun d a b => ⟨?shfl, ?shflup, ?shfldn, ?shflx, ?lrd, ?lwr, ?rsum, ?rmax, ?scanx⟩
  case shfl | shflup | shfldn | shflx => exact sets_of_lanes (fun _ => by unfold exec; rfl) fun _ _ => rfl
  case lrd => exact sets_of_scalar (fun _ => by unfold exec; rfl) fun x _ => BitVec.eq_of_toNat_eq (by simp [Ix.vl])
  case lwr => exact sets_of_upd (fun _ => by unfold exec; rfl) fun _ _ => rfl
  case rsum | rmax => exact sets_of_scalar (fun _ => by unfold exec; rfl) fun x hlive => by rw [hlive]; rfl
  case scanx => exact sets_of_lanes (fun _ => by unfold exec; rfl) fun x hlive => by rw [hlive]; rfl

end Sys2Proof.Machine
end

section
/-!
PROOF of XACQ, XTRY and XREL (R113, R117): joining a wait line, and each way in which their own executions end.
-/
namespace Sys2Proof.Machine
open Sys2Proof

/-! ## Changes that agree on what is there -/

theorem Assoc.upd_congr {α : Type} {m : Assoc α} {k : Nat} {f f' : α → α} (h : ∀ v, Assoc.get m k = some v → f v = f' v) :
    Assoc.upd m k f = Assoc.upd m k f' := by
  induction m with
  | nil => rfl
  | cons p r ih =>
    obtain ⟨a, v⟩ := p
    unfold Assoc.upd
    by_cases hk : a = k
    · rw [if_pos hk, if_pos hk, h v (by simp [Assoc.get, hk])]
    · rw [if_neg hk, if_neg hk, ih fun w hw => h w (by simpa [Assoc.get, hk] using hw)]

/-- Changes that agree on a reserve of a team change the state alike. -/
theorem State.setTeam_setReserve_congr {s : State} {k core : Nat} {role : Role} {t : Team} {f f' : Reserve → Reserve}
    (hteam : s.team k = some t) (h : f (t.reserve core role) = f' (t.reserve core role)) :
    s.setTeam k (fun t => t.setReserve core role f) = s.setTeam k (fun t => t.setReserve core role f') := by
  unfold State.setTeam
  rw [Assoc.upd_congr fun v hv => ?_]
  obtain rfl : t = v := Option.some.inj (hteam.symm.trans hv)
  simp only [Team.setReserve, h]

/-- A group that is not in a wait line joins it (R118). -/
theorem Reserve.join_of_absent {r : Reserve} {w : BlockWait} (h : r.line.all (fun y => decide (y.gid ≠ w.gid)) = true) :
    ({ r with line := if r.line.any (fun y => decide (y.gid = w.gid)) then r.line else joinLine w r.line } : Reserve)
      = { r with line := joinLine w r.line } := by
  have habsent : r.line.any (fun y => decide (y.gid = w.gid)) = false := by simpa using h
  simp [habsent]

/-! ## Each instruction -/

/-- Settles O13: XACQ and XTRY by what the reserve can hold, what it holds, and who waits for it; XREL by the blocks it returns. -/
theorem registerBlocks : Obligations.RegisterBlocks := by
  refine fun d m s c g t => ⟨fun h hteam hmoving => ⟨fun hbudget => ?xacqTraps, fun hcap hnone => ?xacqHeld,
      fun z' hcap hsome hline hcount hcut => ?xacqGranted, fun hcap hsome habsent hshort => ?xacqWaits⟩,
    fun h hteam => ⟨fun hbudget => ?xtryTraps, fun hcap hnone => ?xtryHeld,
      fun z' hcap hsome hline hcount hcut => ?xtryGranted, fun hcap hsome hshort => ?xtryTold⟩, fun h => ?xrel⟩
  case xacqTraps =>
    refine trapsWith_of_trap h (by unfold exec; rfl) ?_
    simp only [h.ixOf_g, hteam]
    exact (if_neg (ne_true_of_eq_false hmoving)).trans (if_pos hbudget)
  case xacqHeld =>
    refine runsTo_of_next h (by unfold exec; rfl) ?_
    simp only [h.ixOf_g, hteam]
    exact (if_neg (ne_true_of_eq_false hmoving)).trans ((if_neg (Nat.not_lt.2 hcap)).trans (if_pos hnone))
  case xacqGranted =>
    refine runsTo_of_next h (by unfold exec; rfl) ?_
    simp only [h.ixOf_g, ixOf_gid, hteam, hcut]
    exact (if_neg (ne_true_of_eq_false hmoving)).trans ((if_neg (Nat.not_lt.2 hcap)).trans ((if_neg hsome).trans
      (if_pos ⟨hline, hcount⟩)))
  case xacqWaits =>
    refine staysAt_of_stay h (by unfold exec; rfl) ?_
    simp only [h.ixOf_g, hteam, State.clk_begun h.held_eq_none]
    refine (if_neg (ne_true_of_eq_false hmoving)).trans ((if_neg (Nat.not_lt.2 hcap)).trans ((if_neg hsome).trans
      ((if_neg hshort).trans ?_)))
    have hjoin := Reserve.join_of_absent (w := { gid := c.gid, want := m &&& ~~~ g.xheld, pri := g.pri, cycle := s.clk }) habsent
    exact congrArg (fun z => Done.stay (State.watchDeadlock z g.team)) (State.setTeam_setReserve_congr hteam hjoin)
  case xtryTraps =>
    refine trapsWith_of_trap h (by unfold exec; rfl) ?_
    simp only [h.ixOf_g, hteam]
    exact if_pos hbudget
  case xtryHeld =>
    refine runsTo_of_next h (by unfold exec; rfl) ?_
    simp only [h.ixOf_g, hteam]
    exact (if_neg (Nat.not_lt.2 hcap)).trans (if_pos hnone)
  case xtryGranted =>
    refine runsTo_of_next h (by unfold exec; rfl) ?_
    simp only [h.ixOf_g, ixOf_gid, hteam, hcut]
    exact (if_neg (Nat.not_lt.2 hcap)).trans ((if_neg hsome).trans (if_pos ⟨hline, hcount⟩))
  case xtryTold =>
    refine runsTo_of_next h (by unfold exec; rfl) ?_
    simp only [h.ixOf_g, hteam]
    exact (if_neg (Nat.not_lt.2 hcap)).trans ((if_neg hsome).trans (if_neg hshort))
  case xrel =>
    refine runsTo_of_next h (by unfold exec; rfl) ?_
    simp only [h.ixOf_g, ixOf_gid, State.setTeam_clk, State.setGroup_clk, State.clk_begun h.held_eq_none]

end Sys2Proof.Machine
end

section
/-!
PROOF of the scalar and the vector arithmetic, the compares, the floating arithmetic and the conversions (R140 to R149, R152 to R164):
the rules for an instruction by the shape of its result, the operations as the spec writes them, and each instruction by its shape.
-/
namespace Sys2Proof.Machine
open Sys2Proof

/-! ## Results by their shape -/

section
variable {i : Instr} {d a b : Reg}

/-- A scalar result of two scalars (R161). -/
theorem sets_of_scalars {f : Dword → Dword → Dword} {w : Group → Dword}
    (hexec : ∀ s, exec i s = issue i s (fun x s => x.scalar s d a b f)) (hf : ∀ g, f (g.sr a.toNat) (g.sr b.toNat) = w g) :
    Sets i (fun g h => h.setS d.toNat (w g)) :=
  sets_of_scalar hexec fun x _ => hf x.g

/-- A compare of two scalars (R163). -/
theorem sets_of_scalarCompare {f : Dword → Dword → Bool} {w : Group → Bool}
    (hexec : ∀ s, exec i s = issue i s (fun x s => x.scalarCompare s d a b f))
    (hf : ∀ g, f (g.sr a.toNat) (g.sr b.toNat) = w g) : Sets i (fun g h => h.setP d.toNat (Mask.all (w g))) :=
  sets_of_upd hexec fun _ _ => by rw [hf]

/-- Elements combined as integers (R140). -/
theorem sets_of_arith {f : Ix → Int → Int → Int → Int} {f' : Group → Int → Int → Int → Int}
    (hexec : ∀ s, exec i s = issue i s (fun x s => x.arith s d a b (f x))) (hf : ∀ x u v z, f x u v z = f' x.g u v z) :
    Sets i (fun g h => h.setV d.toNat g.liveNow (intLane g d a b (f' g))) :=
  sets_of_lanes hexec fun x _ => by
    have hfun : f x = f' x.g := funext₃ (hf x)
    rw [hfun]
    rfl

/-- Elements combined as bits of their width (R141 to R143). -/
theorem sets_of_bitwise {f : Ix → Nat → Nat → Nat → Nat → Nat} {f' : Group → Nat → Nat → Nat → Nat → Nat}
    (hexec : ∀ s, exec i s = issue i s (fun x s => x.bitwise s d a b (f x))) (hf : ∀ x w u c z, f x w u c z = f' x.g w u c z) :
    Sets i (fun g h => h.setV d.toNat g.liveNow (bitLane g d a b (f' g))) :=
  sets_of_lanes hexec fun x _ => by
    have hfun : f x = f' x.g := funext fun w => funext₃ (hf x w)
    rw [hfun]
    rfl

/-- Elements combined as floating numbers (R147, R148). -/
theorem sets_of_float {f : Ix → Fp → Nat → Nat → Nat → Nat} {f' : Fp → Nat → Nat → Nat → Nat → Nat}
    (hexec : ∀ s, exec i s = issue i s (fun x s => x.float s d a b (f x))) (hf : ∀ x p, f x p = f' p (mrRound x.g.mr)) :
    Sets i (fun g h => h.setV d.toNat g.liveNow (floatLane g d a b f')) :=
  sets_of_lanes hexec fun x _ => by
    have hfun : f x = fun p => f' p (mrRound x.g.mr) := funext (hf x)
    rw [hfun]
    rfl

/-- A lane's word from each element of one source (R148, R150 to R152). -/
theorem sets_of_eachElem {v : Ix → Nat → Word} {f : Group → Nat → Nat}
    (hexec : ∀ s, exec i s = issue i s (fun x s => x.lanes s d (v x))) (hv : ∀ x, v x = eachElem x.g a (f x.g)) :
    Sets i (fun g h => h.setV d.toNat g.liveNow (eachElem g a (f g))) :=
  sets_of_lanes hexec fun x _ => hv x

/-- A predicate result in the lanes of LIVE (R145, R149). -/
theorem sets_of_preds {v : Ix → Nat → Bool} {w : Group → Nat → Bool}
    (hexec : ∀ s, exec i s = issue i s (fun x s => x.preds s d (v x))) (hv : ∀ x, v x = w x.g) : Sets i (fun g h => h.setPLanes d.toNat g.liveNow (Mask.of (w g))) :=
  sets_of_upd hexec fun x hlive => by rw [hv x, hlive]

end

/-! ## Operations as the spec writes them -/

/-- SSHL: the product with a power of two, whose low 64 bits are 0 from 64 on (R162). -/
theorem shl64_eq (u c : Dword) : shl64 u c = BitVec.ofNat 64 (u.toNat * 2 ^ c.toNat) := by
  apply BitVec.eq_of_toNat_eq
  by_cases hc : 64 ≤ c.toNat
  · have hdvd : 2 ^ 64 ∣ u.toNat * 2 ^ c.toNat := (pow_dvd_pow 2 hc).mul_left _
    rw [shl64, if_pos hc, BitVec.toNat_ofNat, Nat.mod_eq_zero_of_dvd hdvd]
    rfl
  · rw [shl64, if_neg hc, BitVec.toNat_shiftLeft, BitVec.toNat_ofNat, Nat.shiftLeft_eq]

/-- SSHR: the quotient by a power of two, which is 0 from 2^64 on (R162). -/
theorem shr64_eq (u c : Dword) : shr64 u c = BitVec.ofNat 64 (u.toNat / 2 ^ c.toNat) := by
  apply BitVec.eq_of_toNat_eq
  by_cases hc : 64 ≤ c.toNat
  · have hlt : u.toNat < 2 ^ c.toNat := u.isLt.trans_le (Nat.pow_le_pow_right two_pos hc)
    rw [shr64, if_pos hc, Nat.div_eq_of_lt hlt]
    rfl
  · have hlt : u.toNat / 2 ^ c.toNat < 2 ^ 64 := (Nat.div_le_self _ _).trans_lt u.isLt
    rw [shr64, if_neg hc, BitVec.toNat_ushiftRight, Nat.shiftRight_eq_div_pow, BitVec.toNat_ofNat, Nat.mod_eq_of_lt hlt]

/-- A quotient by a power of two beyond a two's-complement number's magnitude is that by any such power. -/
theorem ediv_two_pow_of_le {z : Int} {n k : Nat} (hlo : -2 ^ n ≤ z) (hhi : z < 2 ^ n) (hk : n ≤ k) : z / 2 ^ k = z / 2 ^ n := by
  have hpow : (2 : Int) ^ n ≤ 2 ^ k := pow_le_pow_right₀ one_le_two hk
  have hn : (0 : Int) < 2 ^ n := by positivity
  rcases lt_or_ge z 0 with hz | hz
  · rw [Int.ediv_eq_neg_one_of_neg_of_le hz (by omega), Int.ediv_eq_neg_one_of_neg_of_le hz (by omega)]
  · rw [Int.ediv_eq_zero_of_lt hz (by omega), Int.ediv_eq_zero_of_lt hz hhi]

theorem sshiftRight_eq_ofInt (u : Dword) (n : Nat) : u.sshiftRight n = BitVec.ofInt 64 (u.toInt / 2 ^ n) := by
  rw [BitVec.sshiftRight, Int.shiftRight_eq_div_pow]
  norm_cast

/-- SSAR: the floor of the quotient by a power of two, which is that by 2^64 from 64 on (R162). -/
theorem sar64_eq (u c : Dword) : sar64 u c = BitVec.ofInt 64 (u.toInt / 2 ^ c.toNat) := by
  rw [sar64, sshiftRight_eq_ofInt]
  split
  · next hc =>
    have hlo : -2 ^ 64 ≤ u.toInt := le_trans (by norm_num) u.le_toInt
    have hhi : u.toInt < 2 ^ 64 := lt_trans u.toInt_lt (by norm_num)
    rw [ediv_two_pow_of_le hlo hhi hc]
  · rfl

theorem shiftLeft_eq_mul (w x c : Nat) : shiftLeft w x c = if w ≤ c then 0 else x * 2 ^ c := by
  rw [shiftLeft, Nat.shiftLeft_eq]

theorem shiftRight_eq_div (w x c : Nat) : shiftRight w x c = if w ≤ c then 0 else x / 2 ^ c := by
  rw [shiftRight, Nat.shiftRight_eq_div_pow]

theorem shiftArith_eq_min (w x c : Nat) : shiftArith w x c = lowBits w (toSigned w x / 2 ^ min w c) := by
  rw [shiftArith, Nat.min_def]

/-! ## Each instruction -/

/-- Settles O1: each instruction by the scalar, or the uniform predicate, that it forms. -/
theorem scalarArithmetic : Obligations.ScalarArithmetic := by
  refine ⟨fun d a b => ⟨?sadd, ?ssub, ?smul, ?smin, ?smax, ?sand, ?sor, ?sxor, ?sshl, ?sshr, ?ssar, ?smov, ?sclz, ?spopc,
    fun lit => ?smovi, fun k => ?saddi⟩, fun d a b => ⟨?scmpeq, ?scmpne, ?scmplt, ?scmple, ?scmpltn, ?scmplen⟩⟩
  case sadd | ssub | smul | sand | sor | sxor => exact sets_of_scalars (fun _ => by unfold exec; rfl) fun _ => rfl
  case smin | smax => exact sets_of_scalars (fun _ => by unfold exec; rfl) fun _ => by simp [BitVec.sle]
  case sshl => exact sets_of_scalars (fun _ => by unfold exec; rfl) fun _ => shl64_eq _ _
  case sshr => exact sets_of_scalars (fun _ => by unfold exec; rfl) fun _ => shr64_eq _ _
  case ssar => exact sets_of_scalars (fun _ => by unfold exec; rfl) fun _ => sar64_eq _ _
  case smov | sclz | spopc | smovi | saddi => exact sets_of_scalar (fun _ => by unfold exec; rfl) fun _ _ => rfl
  case scmpeq | scmplt | scmple | scmpltn | scmplen => exact sets_of_scalarCompare (fun _ => by unfold exec; rfl) fun _ => rfl
  case scmpne => exact sets_of_scalarCompare (fun _ => by unfold exec; rfl) fun _ => decide_not.symm

/-- Settles O3: each instruction by its exact result of the elements as integers. -/
theorem vectorArithmetic : Obligations.VectorArithmetic := by
  refine fun d a b => ⟨?add, ?sub, ?mul, ?mulh, ?mad, ?min, ?max, ?abs, ?neg⟩
  case mulh =>
    exact sets_of_arith (fun _ => by unfold exec; rfl) fun _ _ _ _ => rfl
  case abs => exact sets_of_arith (fun _ => by unfold exec; rfl) fun _ u _ _ => (Int.abs_eq_natAbs u).symm
  case add | sub | mul | mad | min | max | neg => exact sets_of_arith (fun _ => by unfold exec; rfl) fun _ _ _ _ => rfl

/-- Settles O4: words combined bit by bit, elements by their width, and words chosen or moved. -/
theorem vectorBits : Obligations.VectorBits := by
  refine fun d a b => ⟨?and, ?or, ?xor, ?not, ?shl, ?shr, ?sar, ?clz, ?popc, ?bfx, ?bins, ?sel, ?mov, ?movs, fun lit => ?movi, ?laneid⟩
  case and | or | xor | not | sel | mov | movs | movi | laneid => exact sets_of_lanes (fun _ => by unfold exec; rfl) fun _ _ => rfl
  case shl => exact sets_of_bitwise (fun _ => by unfold exec; rfl) fun _ w u c _ => shiftLeft_eq_mul w u c
  case shr => exact sets_of_bitwise (fun _ => by unfold exec; rfl) fun _ w u c _ => shiftRight_eq_div w u c
  case sar => exact sets_of_bitwise (fun _ => by unfold exec; rfl) fun _ w u c _ => shiftArith_eq_min w u c
  case clz | popc | bins => exact sets_of_bitwise (fun _ => by unfold exec; rfl) fun _ _ _ _ _ => rfl
  case bfx =>
    exact sets_of_bitwise (fun _ => by unfold exec; rfl)
      fun _ _ _ _ _ => rfl

/-- Settles O5: each compare by its test of a lane. -/
theorem vectorCompares : Obligations.VectorCompares := by
  refine fun d a b => ⟨?cmpeq, ?cmpne, ?cmplt, ?cmple, ?cmpgt, ?cmpge, ?fcmpeq, ?fcmpne, ?fcmplt, ?fcmple, ?fcmpgt, ?fcmpge, ?fcmpun⟩
  case cmpeq | cmpne | cmplt | cmple | cmpgt | cmpge | fcmpeq | fcmpne | fcmplt | fcmple | fcmpgt | fcmpge | fcmpun =>
    exact sets_of_preds (fun _ => by unfold exec; rfl) fun _ => rfl

/-- Settles O6: results rounded once by their operation on values, and FABS, FNEG and FCLASS by theirs on encodings. -/
theorem floatArithmetic : Obligations.FloatArithmetic := by
  refine fun d a b => ⟨?fadd, ?fsub, ?fmul, ?fma, ?fmin, ?fmax, ?fabs, ?fneg, ?fclass⟩
  case fadd | fsub | fmul | fma | fmin | fmax => exact sets_of_float (fun _ => by unfold exec; rfl) fun _ _ => rfl
  case fabs => exact sets_of_eachElem (fun _ => by unfold exec; rfl) fun _ => rfl
  case fneg => exact sets_of_eachElem (fun _ => by unfold exec; rfl) fun _ => rfl
  case fclass => exact sets_of_eachElem (fun _ => by unfold exec; rfl) fun _ => rfl

/-- What PQ tabulates of the lanes it acts in, by lane: it holds no entry beyond lane 127, and a mask no lane. -/
theorem at0_tab_live {α : Type} (m : Mask) (f : Nat → α) (d : α) (L : Nat) :
    Vector.at0 (tab 128 fun L => if m.has L then f L else d) L d = if m.has L then f L else d := by
  rcases lt_or_ge L 128 with hL | hL
  · exact Vector.at0_tab _ d hL
  · have hhas : m.has L = false := Bool.eq_false_iff.2 fun h => absurd (Mask.has_lt h) (by omega)
    have hlen : (tab 128 fun L => if m.has L then f L else d).toList.length ≤ L := by simpa using hL
    rw [hhas, Vector.at0, List.getD_eq_default _ _ hlen]
    rfl

/-- Settles O8: each instruction by the registers that it writes in turn, of the registers as they stood at issue. -/
theorem conversions : Obligations.Conversions := by
  refine fun d a b => ⟨?cvt, ?pq, ?px, ?topkins, ?keepk, ?fldexp, ?ffrexp⟩
  case cvt | px | topkins | ffrexp => exact sets_of_upd (fun _ => by unfold exec; rfl) fun x hlive => by rw [hlive]; rfl
  case pq =>
    refine sets_of_upd (fun _ => by unfold exec; rfl) fun x hlive => ?_
    simp only [hlive, at0_tab_live]
    rfl
  case keepk => exact sets_of_lanes (fun _ => by unfold exec; rfl) fun _ _ => rfl
  case fldexp =>
    exact sets_of_bitwise (fun _ => by unfold exec; rfl)
      fun _ _ _ _ _ => rfl

end Sys2Proof.Machine
end

section
/-!
PROOF, the numbers behind O7: an exact value as a real number, and what comparing, adding and multiplying exact values means of it.
-/
namespace Sys2Proof.Machine
open Sys2Proof

/-! ## Exact values as real numbers -/

/-- The magnitude of an exact value. -/
noncomputable def Exact.mag (x : Exact) : ℝ := x.m * 2 ^ x.e

/-- The number that an exact value stands for. -/
noncomputable def Exact.val (x : Exact) : ℝ := if x.neg then -x.mag else x.mag

/-- The power of two of an exact value's leading bit. -/
def Exact.top (x : Exact) : Int := x.e + Nat.log2 x.m

theorem Exact.mag_nonneg (x : Exact) : 0 ≤ x.mag := by unfold mag; positivity

theorem Exact.mag_pos {x : Exact} (h : x.m ≠ 0) : 0 < x.mag := by
  have hm : (0 : ℝ) < x.m := by exact_mod_cast Nat.pos_of_ne_zero h
  unfold mag
  positivity

theorem Exact.mag_eq_zero {x : Exact} (h : x.m = 0) : x.mag = 0 := by simp [mag, h]

theorem Exact.val_eq_zero {x : Exact} (h : x.m = 0) : x.val = 0 := by simp [val, mag_eq_zero h]

theorem Exact.val_of_pos {x : Exact} (h : x.neg = false) : x.val = x.mag := by simp [val, h]

@[simp] theorem Exact.abs_val (x : Exact) : |x.val| = x.mag := by
  unfold val
  split <;> simp [abs_of_nonneg x.mag_nonneg]

/-- Two values of one sign are as far apart as their magnitudes. -/
theorem Exact.abs_sub_of_sign {x y : Exact} (h : x.neg = y.neg) : |x.val - y.val| = |x.mag - y.mag| := by
  unfold val
  rw [h]
  split
  · rw [neg_sub_neg, abs_sub_comm]
  · rfl

/-- The integer of an exact value in units of 2^e. -/
theorem Exact.at_mul {x : Exact} {e : Int} (h : e ≤ x.e) : (x.at e : ℝ) * 2 ^ e = x.val := by
  have hmag : ((x.m <<< (x.e - e).toNat : Nat) : ℝ) * 2 ^ e = x.mag := by
    have hpow : (2 : ℝ) ^ (x.e - e).toNat * 2 ^ e = 2 ^ x.e := by
      rw [← zpow_natCast, Int.toNat_of_nonneg (by omega), ← zpow_add₀ two_ne_zero, sub_add_cancel]
    rw [Nat.shiftLeft_eq, mag, ← hpow]
    push_cast
    ring
  unfold Exact.at val
  simp only
  split
  · rw [Int.cast_neg, Int.cast_natCast, neg_mul, hmag]
  · rw [Int.cast_natCast, hmag]

/-- An integer in units of 2^e as an exact value. -/
theorem Exact.val_of_int (t e : Int) : (⟨decide (t < 0), t.natAbs, e⟩ : Exact).val = t * 2 ^ e := by
  have habs : ((t.natAbs : ℕ) : ℝ) = |(t : ℝ)| := by rw [Nat.cast_natAbs, Int.cast_abs]
  unfold val mag
  by_cases ht : t < 0
  · have htr : (t : ℝ) < 0 := by exact_mod_cast ht
    simp [ht, habs, abs_of_neg htr]
  · have htr : (0 : ℝ) ≤ t := by exact_mod_cast not_lt.1 ht
    simp [ht, habs, abs_of_nonneg htr]

theorem Exact.val_ofInt (n : Int) : (Exact.ofInt n).val = n := by
  unfold Exact.ofInt
  rw [val_of_int, zpow_zero, mul_one]

/-- The lower exponent of two is at most each. -/
theorem lower_exp (a b : Int) : (if a < b then a else b) ≤ a ∧ (if a < b then a else b) ≤ b := by split <;> omega

theorem Exact.lt_iff {x y : Exact} : x.lt y = true ↔ x.val < y.val := by
  obtain ⟨hx, hy⟩ := lower_exp x.e y.e
  rw [← at_mul hx, ← at_mul hy, mul_lt_mul_iff_left₀ (by positivity), Int.cast_lt]
  exact decide_eq_true_iff

theorem Exact.eq_iff {x y : Exact} : x.eq y = true ↔ x.val = y.val := by
  obtain ⟨hx, hy⟩ := lower_exp x.e y.e
  rw [← at_mul hx, ← at_mul hy, mul_left_inj' (by positivity), Int.cast_inj]
  exact decide_eq_true_iff

theorem Exact.val_add (mode : Nat) (x y : Exact) : (Exact.add mode x y).val = x.val + y.val := by
  unfold Exact.add
  split
  · next h => rw [val_eq_zero rfl, val_eq_zero h.1, val_eq_zero h.2, add_zero]
  split
  · next h => rw [val_eq_zero h, zero_add]
  split
  · next h => rw [val_eq_zero h, add_zero]
  obtain ⟨hx, hy⟩ := lower_exp x.e y.e
  revert hx hy
  generalize (if x.e < y.e then x.e else y.e) = e
  intro hx hy
  have hsum : ((x.at e + y.at e : Int) : ℝ) * 2 ^ e = x.val + y.val := by rw [Int.cast_add, add_mul, at_mul hx, at_mul hy]
  simp only
  split
  · next h => rw [← hsum, h, val_eq_zero rfl, Int.cast_zero, zero_mul]
  · rw [val_of_int, hsum]

theorem Exact.mag_mul (x y : Exact) : (x.mul y).mag = x.mag * y.mag := by
  unfold mag Exact.mul
  rw [zpow_add₀ two_ne_zero]
  push_cast
  ring

theorem Exact.val_negate (x : Exact) : x.negate.val = -x.val := by
  unfold val Exact.negate
  cases x.neg <;> simp [mag]

/-- The values that `near` takes. -/
theorem near_iff {x y : Exact} {b : Nat} {e : Int} : near x y b e = true ↔ |x.val - y.val| ≤ b * 2 ^ e := by
  have hdist : ({ Exact.add 0 x y.negate with neg := false } : Exact).val = |x.val - y.val| := by
    rw [Exact.val_of_pos rfl, sub_eq_add_neg, ← Exact.val_negate, ← Exact.val_add 0, Exact.abs_val]
    rfl
  have hbound : (⟨false, b, e⟩ : Exact).val = b * 2 ^ e := rfl
  rw [near, Bool.not_eq_true', Bool.eq_false_iff, ne_eq, Exact.lt_iff, hdist, hbound, not_lt]

/-! ## The leading bit -/

theorem Exact.two_zpow_top_le {x : Exact} (h : x.m ≠ 0) : (2 : ℝ) ^ x.top ≤ x.mag := by
  have hlog : (2 : ℝ) ^ Nat.log2 x.m ≤ x.m := by exact_mod_cast Nat.log2_self_le h
  rw [top, add_comm, zpow_add₀ two_ne_zero, zpow_natCast]
  exact mul_le_mul_of_nonneg_right hlog (by positivity)

theorem Exact.mag_lt_two_zpow (x : Exact) : x.mag < 2 ^ (x.top + 1) := by
  have hlog : (x.m : ℝ) < 2 ^ (Nat.log2 x.m + 1) := by exact_mod_cast Nat.lt_log2_self
  rw [top, add_assoc, add_comm, zpow_add₀ two_ne_zero]
  exact mul_lt_mul_of_pos_right (by exact_mod_cast hlog) (by positivity)

/-- A bound on a magnitude bounds its leading bit. -/
theorem Exact.top_lt {x : Exact} {n : Int} (h : x.m ≠ 0) (hmag : x.mag < 2 ^ n) : x.top < n :=
  (zpow_lt_zpow_iff_right₀ one_lt_two).1 ((two_zpow_top_le h).trans_lt hmag)

theorem Exact.le_top {x : Exact} {n : Int} (hmag : 2 ^ n ≤ x.mag) : n ≤ x.top :=
  Int.lt_add_one_iff.1 ((zpow_lt_zpow_iff_right₀ one_lt_two).1 (hmag.trans_lt x.mag_lt_two_zpow))

end Sys2Proof.Machine
end

section
/-!
PROOF, the formats behind O7: an encoding by its fields (R60, R61), and rounding (R62) as the nearest multiple of the spacing.
-/
namespace Sys2Proof.Machine
open Sys2Proof

/-! ## Encodings by their fields -/

/-- The encoding with a sign, an exponent field and a fraction field. -/
def Fp.pack (f : Fp) (neg : Bool) (E F : Nat) : Nat := f.zero neg + E <<< f.fw + F

section
variable {f : Fp} {neg : Bool} {E F : Nat}

theorem Fp.pack_eq : f.pack neg E F = 2 ^ f.fw * (2 ^ f.ew * neg.toNat + E) + F := by
  unfold pack zero signBit
  rw [Nat.shiftLeft_eq]
  cases neg <;> simp [pow_add] <;> ring

theorem Fp.frac_pack (hF : F < 2 ^ f.fw) : f.frac (f.pack neg E F) = F := by
  rw [frac, pack_eq, Nat.mul_add_mod, Nat.mod_eq_of_lt hF]

theorem Fp.pack_div (hF : F < 2 ^ f.fw) : f.pack neg E F / 2 ^ f.fw = 2 ^ f.ew * neg.toNat + E := by
  rw [pack_eq, Nat.mul_add_div (by positivity), Nat.div_eq_of_lt hF, add_zero]

theorem Fp.expo_pack (hE : E < 2 ^ f.ew) (hF : F < 2 ^ f.fw) : f.expo (f.pack neg E F) = E := by
  rw [expo, Nat.shiftRight_eq_div_pow, pack_div hF, Nat.mul_add_mod, Nat.mod_eq_of_lt hE]

theorem Fp.sign_pack (hE : E < 2 ^ f.ew) (hF : F < 2 ^ f.fw) : f.sign (f.pack neg E F) = neg := by
  rw [sign, Nat.testBit_eq_decide_div_mod_eq, add_comm, pow_add, ← Nat.div_div_eq_div_mul, pack_div hF,
    Nat.mul_add_div (by positivity), Nat.div_eq_of_lt hE]
  cases neg <;> rfl

/-- The value of an encoding below the exponent field of all ones (R60). -/
theorem Fp.decode_pack_num (hE : E < 2 ^ f.ew - 1) (hF : F < 2 ^ f.fw) : f.decode (f.pack neg E F) = .num
    (if E = 0 then ⟨neg, F, 1 - (f.bias : Int) - f.fw⟩ else ⟨neg, 2 ^ f.fw + F, (E : Int) - f.bias - f.fw⟩) := by
  have hlt : E < 2 ^ f.ew := by omega
  rw [decode, expo_pack hlt hF, frac_pack hF, sign_pack hlt hF, if_neg (by omega)]
  split <;> rfl

theorem Fp.isSub_pack (hE : E < 2 ^ f.ew) (hF : F < 2 ^ f.fw) : f.isSub (f.pack neg E F) = (decide (E = 0) && decide (F ≠ 0)) := by
  rw [isSub, expo_pack hE hF, frac_pack hF]

theorem Fp.isSub_pack_of_ne_zero (hE : E < 2 ^ f.ew) (hF : F < 2 ^ f.fw) (hne : E ≠ 0) : f.isSub (f.pack neg E F) = false := by
  simp [isSub_pack hE hF, hne]

end

section
variable {f : Fp}

/-- A flush leaves what is not subnormal (R63). -/
theorem Fp.flush_of_not_sub {x : Nat} {ftz : Bool} (h : f.isSub x = false) : f.flush ftz x = x := by simp [flush, h]

theorem Fp.zero_eq_pack (neg : Bool) : f.zero neg = f.pack neg 0 0 := by simp [pack]

theorem Fp.inf_eq_pack (neg : Bool) : f.inf neg = f.pack neg (2 ^ f.ew - 1) 0 := rfl

theorem Fp.two_bias (hew : 2 ≤ f.ew) : 2 * f.bias + 2 = 2 ^ f.ew := by
  have hpos : 1 ≤ 2 ^ (f.ew - 1) := Nat.one_le_two_pow
  have hpow : 2 ^ f.ew = 2 * 2 ^ (f.ew - 1) := by rw [← pow_succ', Nat.sub_add_cancel (by omega)]
  unfold bias
  omega

theorem Fp.bias_pos (hew : 2 ≤ f.ew) : 1 ≤ f.bias := by
  have hpow : 2 ^ 2 ≤ 2 ^ f.ew := Nat.pow_le_pow_right two_pos hew
  have htwo := two_bias hew
  omega

theorem Fp.maxFin_eq_pack (hew : 2 ≤ f.ew) (neg : Bool) : f.maxFin neg = f.pack neg (2 ^ f.ew - 2) (2 ^ f.fw - 1) := by
  have hpos : 1 ≤ 2 ^ f.fw := Nat.one_le_two_pow
  obtain ⟨n, hn⟩ : ∃ n, 2 ^ f.ew = n + 2 := ⟨_, (two_bias hew).symm⟩
  unfold maxFin pack expMask zero
  rw [Nat.shiftLeft_eq, Nat.shiftLeft_eq, hn, show n + 2 - 1 = n + 1 by omega, show n + 2 - 2 = n by omega, add_mul, one_mul]
  omega

theorem Fp.isSub_overflow (hew : 2 ≤ f.ew) (mode : Nat) (neg : Bool) : f.isSub (f.overflow mode neg) = false := by
  have hbias := two_bias hew
  have hpos := bias_pos hew
  have hinf (b : Bool) : f.isSub (f.inf b) = false := by
    rw [inf_eq_pack]
    exact isSub_pack_of_ne_zero (by omega) (by positivity) (by omega)
  have hmax (b : Bool) : f.isSub (f.maxFin b) = false := by
    rw [maxFin_eq_pack hew]
    exact isSub_pack_of_ne_zero (by omega) (Nat.sub_lt (by positivity) one_pos) (by omega)
  unfold overflow
  split
  · exact hmax neg
  · split
    · exact hinf _
    · exact hmax _
  · split
    · exact hmax _
    · exact hinf _
  · exact hinf neg

end

/-! ## Rounding to a spacing -/

/-- A power of two above another, as a multiple of it. -/
theorem two_zpow_of_le {a b : Int} (h : a ≤ b) : (2 : ℝ) ^ b = 2 ^ (b - a).toNat * 2 ^ a := by
  rw [← zpow_natCast, Int.toNat_of_nonneg (by omega), ← zpow_add₀ two_ne_zero, sub_add_cancel]

theorem roundTo_of_le {mode : Nat} {x : Exact} {q : Int} (h : q ≤ x.e) : (roundTo mode x q : ℝ) * 2 ^ q = x.mag := by
  rw [roundTo, if_pos h, Nat.shiftLeft_eq, Exact.mag, two_zpow_of_le h]
  push_cast
  ring

/-- A rounded magnitude is the quotient, or one more. -/
theorem roundTo_of_lt (mode : Nat) {x : Exact} {q : Int} (h : x.e < q) : roundTo mode x q = x.m / 2 ^ (q - x.e).toNat
      ∨ roundTo mode x q = x.m / 2 ^ (q - x.e).toNat + 1 := by
  rw [roundTo, if_neg (not_le.2 h)]
  simp only [Nat.shiftRight_eq_div_pow]
  split
  · exact .inr rfl
  · exact .inl rfl

theorem le_roundTo {mode n : Nat} {x : Exact} {q : Int} (h : n * 2 ^ q ≤ x.mag) : n ≤ roundTo mode x q := by
  rcases le_or_gt q x.e with hq | hq
  · rw [← roundTo_of_le (mode := mode) hq, mul_le_mul_iff_left₀ (by positivity)] at h
    exact_mod_cast h
  · rw [Exact.mag, two_zpow_of_le hq.le, ← mul_assoc, mul_le_mul_iff_left₀ (by positivity)] at h
    have hdiv : n ≤ x.m / 2 ^ (q - x.e).toNat := (Nat.le_div_iff_mul_le (by positivity)).2 (by exact_mod_cast h)
    rcases roundTo_of_lt mode hq with hr | hr <;> omega

theorem roundTo_le {mode n : Nat} {x : Exact} {q : Int} (h : x.mag < n * 2 ^ q) : roundTo mode x q ≤ n := by
  rcases le_or_gt q x.e with hq | hq
  · rw [← roundTo_of_le (mode := mode) hq, mul_lt_mul_iff_left₀ (by positivity)] at h
    exact_mod_cast h.le
  · rw [Exact.mag, two_zpow_of_le hq.le, ← mul_assoc, mul_lt_mul_iff_left₀ (by positivity)] at h
    have hdiv : x.m / 2 ^ (q - x.e).toNat < n := (Nat.div_lt_iff_lt_mul (by positivity)).2 (by exact_mod_cast h)
    rcases roundTo_of_lt mode hq with hr | hr <;> omega

/-- To nearest, a remainder of half a unit or more rounds up, and one of half a unit or less does not (Table 2.6). -/
theorem roundsUp_nearest {neg : Bool} {k r sh : Nat} :
    if roundsUp 0 neg k r sh then 2 ^ sh ≤ 2 * r else 2 * r ≤ 2 ^ sh := by
  by_cases hr : r = 0
  · simp [roundsUp, hr]
  · by_cases hlt : 2 ^ sh < 2 * r
    · simp [roundsUp, hr, hlt, hlt.le]
    · split
      · next h =>
        obtain ⟨heq, -⟩ : 2 * r = 2 ^ sh ∧ k % 2 = 1 := by simpa [roundsUp, hr, hlt] using h
        exact heq.ge
      · exact not_lt.1 hlt

/-- Rounding to nearest errs by at most half the spacing (Table 2.6). -/
theorem roundTo_nearest (x : Exact) (q : Int) : |(roundTo 0 x q : ℝ) * 2 ^ q - x.mag| ≤ 2 ^ q / 2 := by
  rcases le_or_gt q x.e with hq | hq
  · rw [roundTo_of_le hq, sub_self, abs_zero]
    positivity
  · have hunit : (2 : ℝ) ^ q = 2 ^ (q - x.e).toNat * 2 ^ x.e := two_zpow_of_le hq.le
    have hdiv : ((2 : ℝ) ^ (q - x.e).toNat) * (x.m / 2 ^ (q - x.e).toNat : Nat) + (x.m % 2 ^ (q - x.e).toNat : Nat) = x.m := by
      exact_mod_cast Nat.div_add_mod _ _
    have hhalf := roundsUp_nearest (neg := x.neg) (k := x.m / 2 ^ (q - x.e).toNat) (r := x.m % 2 ^ (q - x.e).toNat)
      (sh := (q - x.e).toNat)
    have hrest : ((x.m % 2 ^ (q - x.e).toNat : Nat) : ℝ) < 2 ^ (q - x.e).toNat := by exact_mod_cast Nat.mod_lt _ (by positivity)
    have hunits : |(roundTo 0 x q : ℝ) * 2 ^ (q - x.e).toNat - x.m| ≤ 2 ^ (q - x.e).toNat / 2 := by
      rw [roundTo, if_neg (not_le.2 hq), ← hdiv]
      simp only [Nat.shiftRight_eq_div_pow]
      split at hhalf
      · next hup =>
        have hhalf : (2 : ℝ) ^ (q - x.e).toNat ≤ 2 * (x.m % 2 ^ (q - x.e).toNat : Nat) := by exact_mod_cast hhalf
        rw [if_pos hup, Nat.cast_add_one, abs_le]
        constructor <;> linarith
      · next hup =>
        have hhalf : 2 * ((x.m % 2 ^ (q - x.e).toNat : Nat) : ℝ) ≤ 2 ^ (q - x.e).toNat := by exact_mod_cast hhalf
        have hpos : (0 : ℝ) ≤ (x.m % 2 ^ (q - x.e).toNat : Nat) := Nat.cast_nonneg _
        rw [if_neg hup, abs_le]
        constructor <;> linarith
    calc |(roundTo 0 x q : ℝ) * 2 ^ q - x.mag| = |(roundTo 0 x q : ℝ) * 2 ^ (q - x.e).toNat - x.m| * 2 ^ x.e := by
          rw [hunit, Exact.mag, ← mul_assoc, ← sub_mul, abs_mul, abs_of_pos (show (0 : ℝ) < 2 ^ x.e by positivity)]
      _ ≤ 2 ^ (q - x.e).toNat / 2 * 2 ^ x.e := by gcongr
      _ = 2 ^ q / 2 := by rw [hunit]; ring

/-! ## Rounding to a format -/

section
variable {f : Fp} {x : Exact} {mode : Nat}

/-- The encoding of a normal number by the power of two of its leading bit (R60). -/
theorem Fp.decode_pack_normal {neg : Bool} {F : Nat} {top : Int} (hew : 2 ≤ f.ew) (hlo : 1 - (f.bias : Int) ≤ top) (hhi : top ≤ f.bias)
    (hF : F < 2 ^ f.fw) : (top + f.bias).toNat < 2 ^ f.ew - 1 ∧ (top + f.bias).toNat ≠ 0
      ∧ f.decode (f.pack neg (top + f.bias).toNat F) = .num ⟨neg, 2 ^ f.fw + F, top - f.fw⟩ := by
  have hbias := two_bias hew
  have hlt : (top + f.bias).toNat < 2 ^ f.ew - 1 := by omega
  have hne : (top + f.bias).toNat ≠ 0 := by omega
  have hexp : ((top + f.bias).toNat : Int) - f.bias - f.fw = top - f.fw := by omega
  refine ⟨hlt, hne, ?_⟩
  rw [decode_pack_num hlt hF, if_neg hne, hexp]

/-- The spacing of a format at a value is that of its leading bit, or of the subnormal numbers. -/
theorem Fp.le_ulpExp : 1 - (f.bias : Int) - f.fw ≤ f.ulpExp x ∧ x.top - f.fw ≤ f.ulpExp x := by
  unfold ulpExp Exact.top
  simp only
  split <;> omega

theorem Fp.ulpExp_le {n : Int} (hemin : 1 - (f.bias : Int) ≤ n) (htop : x.top ≤ n) : f.ulpExp x ≤ n - f.fw := by
  unfold ulpExp Exact.top at *
  simp only
  split <;> omega

theorem Fp.ulpExp_of_le (h : 1 - (f.bias : Int) ≤ x.top) : f.ulpExp x = x.top - f.fw := by
  unfold ulpExp Exact.top at *
  simp only
  rw [if_neg (by omega)]

/-- Rounding by the rounded magnitude in units of the format's spacing (R62). -/
theorem Fp.round_eq (hm : x.m ≠ 0) : f.round mode x =
    if roundTo mode x (f.ulpExp x) < 2 ^ f.fw then f.pack x.neg 0 (roundTo mode x (f.ulpExp x))
    else if (f.bias : Int) < f.ulpExp x + f.fw + (if roundTo mode x (f.ulpExp x) = 2 ^ (f.fw + 1) then 1 else 0) then
      f.overflow mode x.neg
    else f.pack x.neg (f.ulpExp x + f.fw + (if roundTo mode x (f.ulpExp x) = 2 ^ (f.fw + 1) then 1 else 0) + f.bias).toNat
      (if roundTo mode x (f.ulpExp x) = 2 ^ (f.fw + 1) then 0 else roundTo mode x (f.ulpExp x) - 2 ^ f.fw) := by
  have hzero (n : Nat) : f.pack x.neg 0 n = f.zero x.neg + n := by simp [pack]
  rw [round, if_neg hm, hzero]
  simp only [decide_eq_true_eq]
  rfl

theorem Fp.roundTo_le_top (x : Exact) (mode : Nat) : roundTo mode x (f.ulpExp x) ≤ 2 ^ (f.fw + 1) := by
  refine roundTo_le (x.mag_lt_two_zpow.trans_le ?_)
  obtain ⟨-, htop⟩ := le_ulpExp (f := f) (x := x)
  calc (2 : ℝ) ^ (x.top + 1) ≤ 2 ^ ((f.fw + 1 : Nat) + f.ulpExp x) := zpow_le_zpow_right₀ one_le_two (by push_cast; omega)
    _ = (2 ^ (f.fw + 1) : Nat) * 2 ^ f.ulpExp x := by rw [zpow_add₀ two_ne_zero, zpow_natCast]; push_cast; rfl

theorem Fp.le_roundTo_of_normal (hm : x.m ≠ 0) (h : 1 - (f.bias : Int) ≤ x.top) : 2 ^ f.fw ≤ roundTo mode x (f.ulpExp x) := by
  refine le_roundTo (le_of_eq_of_le ?_ (Exact.two_zpow_top_le hm))
  rw [ulpExp_of_le h, Nat.cast_pow, Nat.cast_ofNat, ← zpow_natCast, ← zpow_add₀ two_ne_zero, add_sub_cancel]

/-- Rounding overflows, or gives the encoding of the rounded magnitude, with a subnormal one only of a value below the normal numbers. -/
theorem Fp.round_cases (hew : 2 ≤ f.ew) (hm : x.m ≠ 0) : f.round mode x = f.overflow mode x.neg
    ∨ ∃ E F, E < 2 ^ f.ew - 1 ∧ F < 2 ^ f.fw ∧ f.round mode x = f.pack x.neg E F ∧ (1 - (f.bias : Int) ≤ x.top → E ≠ 0)
      ∧ ∃ w : Exact, f.decode (f.pack x.neg E F) = .num w ∧ w.neg = x.neg
        ∧ w.mag = roundTo mode x (f.ulpExp x) * 2 ^ f.ulpExp x := by
  have hbias := two_bias hew
  have hpos := bias_pos hew
  have hk := roundTo_le_top (f := f) x mode
  have hnormal := le_roundTo_of_normal (f := f) (mode := mode) hm
  obtain ⟨hemin, -⟩ := le_ulpExp (f := f) (x := x)
  have hsub : x.top < 1 - (f.bias : Int) → f.ulpExp x = 1 - (f.bias : Int) - f.fw := fun h => by
    unfold ulpExp Exact.top at *
    simp only
    rw [if_pos h]
  rw [round_eq hm]
  generalize roundTo mode x (f.ulpExp x) = k at *
  generalize f.ulpExp x = q at *
  split
  · next hlt =>
    have htop : x.top < 1 - (f.bias : Int) := by
      by_contra hge
      exact absurd (hnormal (not_lt.1 hge)) (not_le.2 hlt)
    refine .inr ⟨0, k, by omega, hlt, rfl, fun h => absurd h (not_le.2 htop), _, decode_pack_num (by omega) hlt, ?_, ?_⟩
    · simp
    · rw [if_pos rfl, hsub htop, Exact.mag]
  · next hge =>
    have hpow : 2 ^ (f.fw + 1) = 2 * 2 ^ f.fw := pow_succ' _ _
    by_cases hup : k = 2 ^ (f.fw + 1)
    · simp only [if_pos hup]
      split
      · exact .inl rfl
      · next hex =>
        obtain ⟨hE, hne, hdec⟩ := decode_pack_normal (neg := x.neg) (F := 0) (top := q + f.fw + 1) hew (by omega) (by omega) (by positivity)
        refine .inr ⟨_, _, hE, by positivity, rfl, fun _ => hne, _, hdec, rfl, ?_⟩
        rw [Exact.mag, hup, hpow, show q + f.fw + 1 - f.fw = q + 1 by omega, zpow_add_one₀ two_ne_zero]
        push_cast
        ring
    · simp only [if_neg hup]
      split
      · exact .inl rfl
      · next hex =>
        obtain ⟨hE, hne, hdec⟩ := decode_pack_normal (neg := x.neg) (F := k - 2 ^ f.fw) (top := q + f.fw + 0) hew (by omega) (by omega)
          (by omega)
        refine .inr ⟨_, _, hE, by omega, rfl, fun _ => hne, _, hdec, rfl, ?_⟩
        rw [Exact.mag, show q + f.fw + 0 - f.fw = q by omega, Nat.add_sub_cancel' (not_lt.1 hge)]

/-- A value at or above the smallest normal number does not round to a subnormal one. -/
theorem Fp.isSub_round (hew : 2 ≤ f.ew) (hm : x.m ≠ 0) (h : 1 - (f.bias : Int) ≤ x.top) : f.isSub (f.round mode x) = false := by
  rcases round_cases (mode := mode) hew hm with hover | ⟨E, F, hE, hF, hround, hne, -⟩
  · rw [hover]
    exact isSub_overflow hew mode _
  · rw [hround]
    exact isSub_pack_of_ne_zero (by omega) hF (hne h)

/-- A zero stays a zero. -/
theorem Fp.decode_round_zero (hew : 2 ≤ f.ew) (hm : x.m = 0) : ∃ w, f.decode (f.round mode x) = .num w ∧ w.m = 0 := by
  have hbias := two_bias hew
  have hpos := bias_pos hew
  refine ⟨⟨x.neg, 0, 1 - (f.bias : Int) - f.fw⟩, ?_, rfl⟩
  rw [round, if_pos hm, zero_eq_pack, decode_pack_num (by omega) (by positivity), if_pos rfl]

/-- Rounding to nearest gives an infinity, or a number within half the spacing. -/
theorem Fp.decode_round_nearest (hew : 2 ≤ f.ew) (hm : x.m ≠ 0) : f.round 0 x = f.inf x.neg
    ∨ ∃ w, f.decode (f.round 0 x) = .num w ∧ |w.val - x.val| ≤ 2 ^ f.ulpExp x / 2 := by
  rcases round_cases (mode := 0) hew hm with hover | ⟨E, F, -, -, hround, -, w, hdec, hneg, hmag⟩
  · exact .inl hover
  · refine .inr ⟨w, hround ▸ hdec, ?_⟩
    rw [Exact.abs_sub_of_sign hneg, hmag]
    exact roundTo_nearest x _

end

end Sys2Proof.Machine
end

section
/-!
PROOF, the results behind O7: values within a bound, quotients and roots kept with a sticky bit, the range of the sine and the
cosine, and the arguments at which a series gives an exact value.
-/
namespace Sys2Proof.Machine
open Sys2Proof

/-! ## Results within a bound (R150, R151) -/

/-- A result for the exact result `y`: the infinity that `y` overflows to, or a number within the bound, or where `nearest` allows it the
nearest value. -/
def Fp.Meets (f : Fp) (q : Nat) (y : Exact) (b : Nat) (e : Int) (nearest : Prop) : Prop :=
  f.round 0 y = f.inf y.neg ∧ q = f.inf y.neg ∨ ∃ w, f.decode q = .num w ∧ (near w y b e = true ∨ nearest ∧ q = f.round 0 y)

section
variable {f : Fp} {y : Exact} {free b : Nat} {e : Int} {nearest : Prop}

theorem Fp.meets_round (hew : 2 ≤ f.ew) (h : (y.m ≠ 0 → (2 : ℝ) ^ f.ulpExp y / 2 ≤ b * 2 ^ e) ∨ nearest) :
    f.Meets (f.round 0 y) y b e nearest := by
  by_cases hm : y.m = 0
  · obtain ⟨w, hdec, hw⟩ := decode_round_zero (mode := 0) hew hm
    refine .inr ⟨w, hdec, .inl (near_iff.2 ?_)⟩
    rw [Exact.val_eq_zero hw, Exact.val_eq_zero hm, sub_self, abs_zero]
    positivity
  · rcases decode_round_nearest hew hm with hinf | ⟨w, hdec, hnear⟩
    · exact .inl ⟨hinf, hinf⟩
    · exact .inr ⟨w, hdec, h.imp (fun hle => near_iff.2 (hnear.trans (hle hm))) fun hn => ⟨hn, rfl⟩⟩

theorem Fp.meets_within (hew : 2 ≤ f.ew) (hmin : (2 : ℝ) ^ (1 - (f.bias : Int) - f.fw) ≤ b * 2 ^ e)
    (h : (y.m ≠ 0 → (2 : ℝ) ^ f.ulpExp y / 2 ≤ b * 2 ^ e) ∨ nearest) : f.Meets (f.within y free b e) y b e nearest := by
  have hround := meets_round hew h
  unfold within
  split
  · next hsmall =>
    rw [Exact.lt_iff, Exact.val_of_pos rfl, Exact.val_of_pos rfl] at hsmall
    have hbias := two_bias hew
    have hpos := bias_pos hew
    refine .inr ⟨⟨y.neg, 0, 1 - (f.bias : Int) - f.fw⟩, ?_, .inl (near_iff.2 ?_)⟩
    · rw [zero_eq_pack, decode_pack_num (by omega) (by positivity), if_pos rfl]
    · rw [Exact.val_eq_zero rfl, zero_sub, abs_neg, Exact.abs_val]
      refine le_trans (le_of_lt hsmall) (le_of_eq_of_le ?_ hmin)
      simp [Exact.mag]
  · split
    · next hinf => exact .inl ⟨hinf, rfl⟩
    · split
      · next c hc =>
        split
        · next hnear => exact .inr ⟨c, hc, .inl hnear⟩
        · exact hround
      · exact hround

end

/-! ## Sticky bits -/

/-- An integer `q` in units of 2^g and a sticky bit below it, standing for a number `R` from `q` up to the next integer, are on `R`'s side of
every number of 26 bits. -/
theorem sticky_compare {c S : Exact} {q : Nat} {g : Int} {R : ℝ} (hc : c.m < 2 ^ 26) (hq : 2 ^ 26 ≤ q) (hlo : q * 2 ^ g ≤ R)
    (hhi : R < (q + 1) * 2 ^ g) {exact : Prop} [Decidable exact] (hexact : exact ↔ R = q * 2 ^ g)
    (hS : S.mag = (2 * q + (if exact then 0 else 1) : Nat) * 2 ^ (g - 1)) :
    (c.mag < S.mag ↔ c.mag < R) ∧ (S.mag < c.mag ↔ R < c.mag) := by
  have hg : (0 : ℝ) < 2 ^ g := by positivity
  have hgrid : c.mag ≤ q * 2 ^ g ∨ (q + 1) * 2 ^ g ≤ c.mag := by
    rcases le_or_gt g c.e with hge | hlt
    · rw [Exact.mag, two_zpow_of_le hge, ← mul_assoc, mul_le_mul_iff_left₀ hg, mul_le_mul_iff_left₀ hg]
      exact_mod_cast Nat.lt_or_ge q (c.m * 2 ^ (c.e - g).toNat) |>.symm
    · left
      have hcm : (c.m : ℝ) ≤ q := by exact_mod_cast (hc.trans_le hq).le
      have hpow : (2 : ℝ) ^ c.e ≤ 2 ^ g := zpow_le_zpow_right₀ one_le_two hlt.le
      exact mul_le_mul hcm hpow (by positivity) (by positivity)
  have hhalf : (2 : ℝ) ^ (g - 1) = 2 ^ g / 2 := zpow_sub_one₀ two_ne_zero g
  rw [hS, hhalf]
  split
  · next h =>
    have hR : ((2 * q + 0 : Nat) : ℝ) * (2 ^ g / 2) = R := by
      rw [hexact.1 h]
      push_cast
      ring
    rw [hR]
    exact ⟨Iff.rfl, Iff.rfl⟩
  · next h =>
    have hlo : q * 2 ^ g < R := lt_of_le_of_ne hlo fun heq => h (hexact.2 heq.symm)
    push_cast
    rcases hgrid with h | h
    · exact ⟨⟨fun _ => by linarith, fun _ => by linarith⟩, ⟨fun _ => by linarith, fun _ => by linarith⟩⟩
    · exact ⟨⟨fun _ => by linarith, fun _ => by linarith⟩, ⟨fun _ => by linarith, fun _ => by linarith⟩⟩

/-- A reciprocal stands on the side of every number of 26 bits on which the exact one does. -/
theorem recip_compare {v c : Exact} (hm : v.m ≠ 0) (hc : c.m < 2 ^ 26) :
    (c.mag < v.recip.mag ↔ c.mag * v.mag < 1) ∧ (v.recip.mag < c.mag ↔ 1 < c.mag * v.mag) := by
  have hmpos : 0 < v.m := Nat.pos_of_ne_zero hm
  have hmr : (0 : ℝ) < v.m := by exact_mod_cast hmpos
  have hmag := Exact.mag_pos hm
  obtain ⟨n, hn⟩ : ∃ n, n = Nat.log2 v.m + 80 := ⟨_, rfl⟩
  obtain ⟨g, hg⟩ : ∃ g : Int, g = -(n : Int) - v.e := ⟨_, rfl⟩
  obtain ⟨q, hq⟩ : ∃ q, q = 2 ^ n / v.m := ⟨_, rfl⟩
  have hmod : v.m * q + 2 ^ n % v.m = 2 ^ n := hq ▸ Nat.div_add_mod _ _
  have hrest : 2 ^ n % v.m < v.m := Nat.mod_lt _ hmpos
  have hunit : (2 : ℝ) ^ n * 2 ^ g * 2 ^ v.e = 1 := by
    rw [hg, ← zpow_natCast, ← zpow_add₀ two_ne_zero, ← zpow_add₀ two_ne_zero,
      show (n : Int) + (-n - v.e) + v.e = 0 by omega, zpow_zero]
  have hR : (2 : ℝ) ^ n / v.m * 2 ^ g = 1 / v.mag := by
    rw [eq_div_iff hmag.ne', Exact.mag, ← hunit]
    field_simp
  have hlarge : 2 ^ 26 ≤ q := by
    rw [hq, Nat.le_div_iff_mul_le hmpos]
    calc 2 ^ 26 * v.m ≤ 2 ^ 26 * 2 ^ (Nat.log2 v.m + 1) := Nat.mul_le_mul_left _ Nat.lt_log2_self.le
      _ ≤ 2 ^ n := by rw [← pow_add]; exact Nat.pow_le_pow_right two_pos (by omega)
  have hlo : (q : ℝ) ≤ 2 ^ n / v.m := by
    rw [le_div_iff₀ hmr]
    exact_mod_cast (by rw [mul_comm]; omega : q * v.m ≤ 2 ^ n)
  have hhi : (2 : ℝ) ^ n / v.m < q + 1 := by
    rw [div_lt_iff₀ hmr]
    exact_mod_cast (by rw [add_mul, mul_comm]; omega : 2 ^ n < (q + 1) * v.m)
  have hexact : 2 ^ n % v.m = 0 ↔ (2 : ℝ) ^ n / v.m * 2 ^ g = q * 2 ^ g := by
    rw [mul_left_inj' (by positivity), div_eq_iff hmr.ne']
    norm_cast
    rw [mul_comm q]
    omega
  have hS : v.recip.mag = (2 * q + (if 2 ^ n % v.m = 0 then 0 else 1) : Nat) * 2 ^ (g - 1) := by
    unfold Exact.recip stickyDiv Exact.mag
    rw [← hn, Nat.one_shiftLeft, ← hq, hg, show -(n : Int) - v.e - 1 = -(n : Int) - 1 - v.e by omega]
  have hcompare := sticky_compare hc hlarge (mul_le_mul_of_nonneg_right hlo (by positivity))
    (mul_lt_mul_of_pos_right hhi (by positivity)) hexact hS
  rwa [hR, lt_div_iff₀ hmag, div_lt_iff₀ hmag] at hcompare

/-- The integer square root, from its bits so far. -/
theorem isqrtAux_spec {k x r : Nat} (hlo : r * r ≤ x) (hhi : x < (r + 2 ^ k) * (r + 2 ^ k)) :
    isqrtAux k x r * isqrtAux k x r ≤ x ∧ x < (isqrtAux k x r + 1) * (isqrtAux k x r + 1) := by
  induction k generalizing r with
  | zero => exact ⟨hlo, hhi⟩
  | succ k ih =>
    unfold isqrtAux
    split
    · next h => exact ih h (by rwa [add_assoc, ← two_mul, ← pow_succ'])
    · next h => exact ih hlo (not_le.1 h)

theorem isqrt_spec (x : Nat) : isqrt x * isqrt x ≤ x ∧ x < (isqrt x + 1) * (isqrt x + 1) := by
  refine isqrtAux_spec (Nat.zero_le _) ?_
  have hlog : x < 2 ^ (Nat.log2 x + 1) := Nat.lt_log2_self
  have hpow : 2 ^ (Nat.log2 x + 1) ≤ 2 ^ ((Nat.log2 x / 2 + 1) + (Nat.log2 x / 2 + 1)) := Nat.pow_le_pow_right two_pos (by omega)
  rw [zero_add, ← pow_add]
  exact hlog.trans_le hpow

/-- A square root is that of an integer of more than 120 bits in units of 2^2E, with a sticky bit. -/
theorem Exact.sqrt_eq {v : Exact} (hm : v.m ≠ 0) : ∃ (m : Nat) (E : Int), v.mag = m * (2 ^ E * 2 ^ E) ∧ 2 ^ 120 ≤ m
    ∧ v.sqrt = ⟨false, 2 * isqrt m + (if isqrt m * isqrt m = m then 0 else 1), E - 1⟩ := by
  have hunits {k : Nat} {E : Int} (h : 2 * E = v.e - k) : v.mag = (v.m <<< k : Nat) * (2 ^ E * 2 ^ E) := by
    have hpow : (2 : ℝ) ^ v.e = 2 ^ k * (2 ^ E * 2 ^ E) := by
      rw [← zpow_natCast, ← zpow_add₀ two_ne_zero, ← zpow_add₀ two_ne_zero]
      congr 1
      omega
    rw [mag, hpow, Nat.shiftLeft_eq]
    push_cast
    ring
  have hlarge {k : Nat} (hk : 120 ≤ k) : 2 ^ 120 ≤ v.m <<< k := by
    rw [Nat.shiftLeft_eq]
    exact (Nat.pow_le_pow_right two_pos hk).trans (Nat.le_mul_of_pos_left _ (Nat.pos_of_ne_zero hm))
  by_cases hodd : (v.e - 120) % 2 ≠ 0
  · refine ⟨v.m <<< 121, (v.e - 120 - 1) / 2, hunits (by omega), hlarge (by omega), ?_⟩
    simp only [Exact.sqrt, if_pos hodd]
  · refine ⟨v.m <<< 120, (v.e - 120) / 2, hunits (by omega), hlarge (by omega), ?_⟩
    simp only [Exact.sqrt, if_neg hodd]

/-- A square root stands on the side of every number of 26 bits on which the exact one does. -/
theorem sqrt_compare {v c : Exact} (hm : v.m ≠ 0) (hc : c.m < 2 ^ 26) :
    (c.mag < v.sqrt.mag ↔ c.mag * c.mag < v.mag) ∧ (v.sqrt.mag < c.mag ↔ v.mag < c.mag * c.mag) := by
  obtain ⟨m, E, hmag, hm120, hsqrt⟩ := Exact.sqrt_eq hm
  obtain ⟨hlo, hhi⟩ := isqrt_spec m
  have hE : (0 : ℝ) < 2 ^ E := by positivity
  have hlarge : 2 ^ 26 ≤ isqrt m := by
    by_contra! hlt
    have hsq : (isqrt m + 1) * (isqrt m + 1) ≤ 2 ^ 26 * 2 ^ 26 := Nat.mul_le_mul hlt hlt
    omega
  have hroot : √(m : ℝ) * 2 ^ E = √v.mag := by
    rw [hmag, Real.sqrt_mul (Nat.cast_nonneg m), Real.sqrt_mul_self hE.le]
  have hexact : isqrt m * isqrt m = m ↔ √(m : ℝ) * 2 ^ E = isqrt m * 2 ^ E := by
    rw [mul_left_inj' hE.ne', Real.sqrt_eq_iff_mul_self_eq (Nat.cast_nonneg m) (Nat.cast_nonneg _)]
    exact_mod_cast eq_comm
  have hcompare := sticky_compare hc hlarge
    (mul_le_mul_of_nonneg_right (Real.le_sqrt_of_sq_le (by rw [sq]; exact_mod_cast hlo)) hE.le)
    (mul_lt_mul_of_pos_right ((Real.sqrt_lt' (by positivity)).2 (by rw [sq]; exact_mod_cast hhi)) hE) hexact
    (congrArg Exact.mag hsqrt)
  rwa [hroot, Real.lt_sqrt c.mag_nonneg, sq, Real.sqrt_lt v.mag_nonneg c.mag_nonneg, sq] at hcompare

/-! ## The sine and the cosine (R150) -/

/-- A number times the square of an angle, where the square is at most 5/2. -/
theorem fxScale_le {y2 : Nat} (hy : 2 * y2 ≤ 5 * 2 ^ fxBits) (t : Nat) : 2 * ((t * y2) >>> fxBits) ≤ 5 * t := by
  have hdiv : (t * y2) >>> fxBits * 2 ^ fxBits ≤ t * y2 := by
    rw [Nat.shiftRight_eq_div_pow]
    exact Nat.div_mul_le_self _ _
  refine Nat.le_of_mul_le_mul_right ?_ (Nat.two_pow_pos fxBits)
  calc 2 * ((t * y2) >>> fxBits) * 2 ^ fxBits = 2 * ((t * y2) >>> fxBits * 2 ^ fxBits) := mul_assoc _ _ _
    _ ≤ 2 * (t * y2) := Nat.mul_le_mul_left 2 hdiv
    _ = t * (2 * y2) := mul_left_comm _ _ _
    _ ≤ t * (5 * 2 ^ fxBits) := Nat.mul_le_mul_left t hy
    _ = 5 * t * 2 ^ fxBits := by ring

theorem fxTrigTerms_succ (y2 n k t : Nat) : fxTrigTerms y2 (n + 1) k t =
    (t + (fxTrigTerms y2 n (k + 2) (((t * y2) >>> fxBits) / ((k + 1) * (k + 2)))).2,
      (fxTrigTerms y2 n (k + 2) (((t * y2) >>> fxBits) / ((k + 1) * (k + 2)))).1) := rfl

/-- The sums of the terms of a sine or a cosine from the first with `k` above 0: each term is at most half the one before. -/
theorem fxTrigTerms_le {y2 : Nat} (hy : 2 * y2 ≤ 5 * 2 ^ fxBits) {n k t : Nat} (hk : 1 ≤ k) :
    (fxTrigTerms y2 n k t).1 + (fxTrigTerms y2 n k t).2 ≤ 2 * t := by
  induction n generalizing k t with
  | zero => exact Nat.zero_le _
  | succ n ih =>
    have hscale := fxScale_le hy t
    have hden : 6 ≤ (k + 1) * (k + 2) := Nat.mul_le_mul (by omega : 2 ≤ k + 1) (by omega : 3 ≤ k + 2)
    have hnext : ((t * y2) >>> fxBits) / ((k + 1) * (k + 2)) ≤ ((t * y2) >>> fxBits) / 6 := Nat.div_le_div_left hden (by norm_num)
    have hsum := ih (k := k + 2) (t := ((t * y2) >>> fxBits) / ((k + 1) * (k + 2))) (by omega)
    rw [fxTrigTerms_succ]
    omega

/-- The square of an angle from 0 to pi / 2 is at most 5/2. -/
theorem fxAngle_square_le {r : Nat} (h : r ≤ fxHalfPi >>> 312) : 2 * ((r * r) >>> fxBits) ≤ 5 * 2 ^ fxBits := by
  have hsquare : 2 * (((fxHalfPi >>> 312) * (fxHalfPi >>> 312)) >>> fxBits) ≤ 5 * 2 ^ fxBits := by decide
  refine le_trans (Nat.mul_le_mul_left 2 ?_) hsquare
  rw [Nat.shiftRight_eq_div_pow _ fxBits, Nat.shiftRight_eq_div_pow _ fxBits]
  exact Nat.div_le_div_right (Nat.mul_le_mul h h)

theorem fxSin_lt {r : Nat} (h : r ≤ fxHalfPi >>> 312) : fxSin r < 4 * 2 ^ fxBits := by
  have hsum := fxTrigTerms_le (fxAngle_square_le h) (n := 40) (k := 1) (t := r) le_rfl
  have hangle : fxHalfPi >>> 312 < 2 * 2 ^ fxBits := by decide
  simp only [fxSin]
  omega

theorem fxCos_lt {r : Nat} (h : r ≤ fxHalfPi >>> 312) : fxCos r < 4 * 2 ^ fxBits := by
  have hsquare := fxAngle_square_le h
  have hscale := fxScale_le hsquare (2 ^ fxBits)
  have hpos := Nat.two_pow_pos fxBits
  have hsum := fxTrigTerms_le hsquare (n := 39) (k := 2) (t := ((2 ^ fxBits * ((r * r) >>> fxBits)) >>> fxBits) / 2) (by norm_num)
  rw [fxCos, fxTrigTerms_succ, zero_add, zero_add, one_mul]
  omega

/-- The sine and the cosine of an angle that the reduction leaves. -/
theorem fxTurn_lt (t q : Nat) :
    (if q % 2 = 0 then fxSin ((t % fxHalfPi) >>> 312) else fxCos ((t % fxHalfPi) >>> 312)) < 4 * 2 ^ fxBits := by
  have hmod : t % fxHalfPi ≤ fxHalfPi := (Nat.mod_lt _ (by decide)).le
  have hle : (t % fxHalfPi) >>> 312 ≤ fxHalfPi >>> 312 := by
    rw [Nat.shiftRight_eq_div_pow, Nat.shiftRight_eq_div_pow]
    exact Nat.div_le_div_right hmod
  split
  · exact fxSin_lt hle
  · exact fxCos_lt hle

theorem fxExact_mag_lt {neg : Bool} {n : Nat} (h : n < 4 * 2 ^ fxBits) : (fxExact neg n).mag < 4 := by
  have hcast : (n : ℝ) < 4 * 2 ^ fxBits := by exact_mod_cast h
  rw [fxExact, Exact.mag, zpow_neg, zpow_natCast]
  exact (mul_inv_lt_iff₀ (by positivity)).2 hcast

theorem Exact.justBelow_mag_le (x : Exact) : x.justBelow.mag ≤ x.mag := by
  have hsub : ((x.m <<< 100 - 1 : Nat) : ℝ) ≤ x.m * 2 ^ 100 := by
    exact_mod_cast (Nat.sub_le _ _).trans_eq (Nat.shiftLeft_eq _ _)
  have hpow : (2 : ℝ) ^ x.e = 2 ^ 100 * 2 ^ (x.e - 100) := by
    rw [two_zpow_of_le (by omega : x.e - 100 ≤ x.e), show (x.e - (x.e - 100)).toNat = 100 by omega]
  rw [mag, mag, hpow, ← mul_assoc]
  exact mul_le_mul_of_nonneg_right hsub (by positivity)

theorem pred_or_self_le (v n : Nat) : (if v = n then v - 1 else v) ≤ v := by split <;> omega

/-- A sine or a cosine is below 4. -/
theorem exactTurn_mag_lt (v : Exact) (quarter : Nat) : (exactTurn v quarter).mag < 4 := by
  unfold exactTurn
  simp only
  split
  · next h =>
    have htop : v.top < -60 := h.1
    calc (({ v with neg := false } : Exact).justBelow).mag ≤ v.mag := Exact.justBelow_mag_le _
      _ < 2 ^ (v.top + 1) := v.mag_lt_two_zpow
      _ ≤ 2 ^ (2 : Int) := zpow_le_zpow_right₀ one_le_two (by omega)
      _ = 4 := by norm_num
  · exact fxExact_mag_lt ((pred_or_self_le _ _).trans_lt (fxTurn_lt _ _))

/-! ## Arguments with an exact result -/

theorem fxAtanhTerms_zero (n k : Nat) : fxAtanhTerms 0 n k 0 = 0 := by
  induction n generalizing k with
  | zero => rfl
  | succ n ih => simp [fxAtanhTerms, ih]

/-- A zero added to an integer. -/
theorem Exact.add_ofInt_zero (n e : Int) : Exact.add 0 (Exact.ofInt n) ⟨false, 0, e⟩ = Exact.ofInt n := by
  unfold Exact.add Exact.ofInt
  by_cases hn : n = 0
  · simp [hn]
  · simp [hn]

/-- The logarithm of a power of two. -/
theorem exactLog2_of_pow {v : Exact} (h : v.m = 2 ^ Nat.log2 v.m) : exactLog2 v = Exact.ofInt (v.e + Nat.log2 v.m) := by
  have hup : ¬ 3 <<< Nat.log2 v.m ≤ 2 * v.m := by
    have hpos := Nat.two_pow_pos (Nat.log2 v.m)
    rw [Nat.shiftLeft_eq]
    omega
  have hone : 1 <<< Nat.log2 v.m = v.m := (Nat.one_shiftLeft _).trans h.symm
  unfold exactLog2
  simp [hup, hone, fxAtanhTerms_zero, fxExact, Exact.add_ofInt_zero]

theorem fxExpTerms_zero (y n k : Nat) : fxExpTerms y n k 0 = 0 := by
  induction n generalizing k with
  | zero => rfl
  | succ n ih => simp [fxExpTerms, ih]

theorem fxExp_zero : fxExp 0 = 2 ^ fxBits := by
  rw [fxExp, fxExpTerms, mul_zero, Nat.zero_shiftRight, Nat.zero_div, fxExpTerms_zero, add_zero]

theorem Exact.m_eq_zero_of_val {x : Exact} (h : x.val = 0) : x.m = 0 := by
  by_contra hm
  have habs : x.mag = 0 := by rw [← abs_val, h, abs_zero]
  exact (mag_pos hm).ne' habs

theorem Exact.fx_of_zero {x : Exact} (h : x.m = 0) (n : Nat) : x.fx n = 0 := by
  unfold fx
  simp [h]

/-- The integer part of an integer. -/
theorem floor_of_int {v : Exact} {n : Int} (h : v.val = n) :
    (if 0 ≤ v.e then (if v.neg then -(v.m <<< v.e.toNat : Nat) else (v.m <<< v.e.toNat : Nat))
      else (if v.neg then -(v.m : Int) else (v.m : Int)) / 2 ^ (-v.e).toNat : Int) = n := by
  split
  · next he =>
    have hat := Exact.at_mul he
    rw [zpow_zero, mul_one, h, Int.cast_inj] at hat
    simpa [Exact.at] using hat
  · next he =>
    have hat := Exact.at_mul (le_refl v.e)
    have hint : v.at v.e = if v.neg then -(v.m : Int) else (v.m : Int) := by simp [Exact.at]
    have hpow : (2 : ℝ) ^ v.e * 2 ^ (-v.e).toNat = 1 := by
      rw [← zpow_natCast, Int.toNat_of_nonneg (by omega), ← zpow_add₀ two_ne_zero, add_neg_cancel, zpow_zero]
    have hscaled : v.at v.e = n * 2 ^ (-v.e).toNat := by
      have hreal : (v.at v.e : ℝ) = n * 2 ^ (-v.e).toNat := by rw [← h, ← hat, mul_assoc, hpow, mul_one]
      exact_mod_cast hreal
    rw [← hint, hscaled, Int.mul_ediv_cancel _ (by positivity)]

/-- The power of two of an integer. -/
theorem exactExp2_of_int {v : Exact} {n : Int} (h : v.val = n) : exactExp2 v = ⟨false, 2 ^ fxBits, n - fxBits⟩ := by
  have hfrac : (Exact.add 0 v (Exact.ofInt (-n))).m = 0 := by
    apply Exact.m_eq_zero_of_val
    rw [Exact.val_add, Exact.val_ofInt, h, Int.cast_neg, add_neg_cancel]
  unfold exactExp2
  rw [floor_of_int h]
  simp only [Exact.fx_of_zero hfrac, zero_mul, Nat.zero_shiftRight, fxExp_zero]

end Sys2Proof.Machine
end

section
/-!
PROOF of the functions of Table 6.5 (R150, R151): special values, exact values, and results within their bounds.
-/
namespace Sys2Proof.Machine
open Sys2Proof

/-! ## The floating element types -/

section
variable {t : Nat} {ftz : Bool}

/-- The three formats: their exponents have bits enough for the fraction's, and a root of theirs is no subnormal number. -/
theorem fpOf_widths (t : Nat) : 2 ≤ (fpOf t).ew ∧ 1 ≤ (fpOf t).fw ∧ (fpOf t).fw < (fpOf t).bias := by
  unfold fpOf
  split
  · decide
  · split <;> decide

theorem fpOf_ew (t : Nat) : 2 ≤ (fpOf t).ew := (fpOf_widths t).1

/-! ## Encodings that a flush leaves (R63) -/

theorem flush_inf (neg : Bool) : (fpOf t).flush ftz ((fpOf t).inf neg) = (fpOf t).inf neg :=
  Fp.flush_of_not_sub (Fp.isSub_overflow (fpOf_ew t) 0 neg)

theorem flush_zero (neg : Bool) : (fpOf t).flush ftz ((fpOf t).zero neg) = (fpOf t).zero neg :=
  Fp.flush_of_not_sub (by rw [Fp.zero_eq_pack, Fp.isSub_pack (by positivity) (by positivity)]; rfl)

theorem flush_nan : (fpOf t).flush ftz (fpOf t).nan = (fpOf t).nan := by
  obtain ⟨hew, hfw, -⟩ := fpOf_widths t
  have hbias := Fp.two_bias hew
  have hpack : (fpOf t).nan = (fpOf t).pack false (2 ^ (fpOf t).ew - 1) (2 ^ ((fpOf t).fw - 1)) := by
    simp [Fp.nan, Fp.pack, Fp.zero, Fp.expMask]
  rw [hpack]
  exact Fp.flush_of_not_sub (Fp.isSub_pack_of_ne_zero (by omega) (Nat.pow_lt_pow_right one_lt_two (by omega)) (by omega))

/-- One, and minus one. -/
theorem flush_one (neg : Bool) : (fpOf t).flush ftz ((2 ^ ((fpOf t).ew - 1) - 1) <<< (fpOf t).fw + (fpOf t).zero neg)
    = (2 ^ ((fpOf t).ew - 1) - 1) <<< (fpOf t).fw + (fpOf t).zero neg := by
  have hbias := Fp.two_bias (fpOf_ew t)
  have hpos := Fp.bias_pos (fpOf_ew t)
  have hpack : (2 ^ ((fpOf t).ew - 1) - 1) <<< (fpOf t).fw + (fpOf t).zero neg = (fpOf t).pack neg (fpOf t).bias 0 := add_comm _ _
  rw [hpack]
  exact Fp.flush_of_not_sub (Fp.isSub_pack_of_ne_zero (by omega) (by positivity) (by omega))

theorem decode_inf (neg : Bool) : (fpOf t).decode ((fpOf t).inf neg) = .inf neg := by
  have hpos : 2 ^ (fpOf t).ew - 1 < 2 ^ (fpOf t).ew := Nat.sub_lt (by positivity) one_pos
  rw [Fp.inf_eq_pack, Fp.decode, Fp.expo_pack hpos (by positivity), if_pos rfl, Fp.frac_pack (by positivity), if_pos rfl,
    Fp.sign_pack hpos (by positivity)]

theorem decode_zero (neg : Bool) : (fpOf t).decode ((fpOf t).zero neg) = .num ⟨neg, 0, 1 - ((fpOf t).bias : Int) - (fpOf t).fw⟩ := by
  have hbias := Fp.two_bias (fpOf_ew t)
  have hpos := Fp.bias_pos (fpOf_ew t)
  rw [Fp.zero_eq_pack, Fp.decode_pack_num (by omega) (by positivity), if_pos rfl]

/-- A NaN is not flushed. -/
theorem decode_flush_nan {x : Nat} (h : (fpOf t).decode x = .nan) : (fpOf t).decode ((fpOf t).flush ftz x) = .nan := by
  have hbias := Fp.two_bias (fpOf_ew t)
  have hpos := Fp.bias_pos (fpOf_ew t)
  have hsub : (fpOf t).isSub x = false := by
    unfold Fp.decode at h
    split at h
    · next hexpo => simp [Fp.isSub, hexpo, show ¬ 2 ^ (fpOf t).ew - 1 = 0 by omega]
    · split at h <;> simp at h
  rw [Fp.flush_of_not_sub hsub, h]

/-! ## Special values (Table 6.6) -/

theorem funcAt_of_nan {x : Nat} (h : (fpOf t).decode x = .nan) (fn : Nat) : funcAt fn t ftz x = (fpOf t).nan := by
  simp only [funcAt, decode_flush_nan h, flush_nan]

theorem sqrtAt_of_nan {x : Nat} (h : (fpOf t).decode x = .nan) (mode : Nat) : sqrtAt t mode ftz x = (fpOf t).nan := by
  simp only [sqrtAt, decode_flush_nan h, flush_nan]

/-- Table 6.6 without the finite inputs: by function, its results at −Inf, −0, +0 and +Inf. -/
def Fp.specials (f : Fp) : List (Nat × Nat × Nat × Nat × Nat) :=
  let one := (2 ^ (f.ew - 1) - 1) <<< f.fw
  [(0, f.signBit, f.inf true, f.inf false, 0), (1, f.nan, f.inf true, f.inf false, 0), (2, 0, one, one, f.inf false),
    (3, f.nan, f.inf true, f.inf true, f.inf false), (4, f.nan, f.signBit, 0, f.nan), (5, f.nan, one, one, f.nan),
    (6, one + f.signBit, f.signBit, 0, one)]

theorem funcAt_special (t : Nat) (ftz : Bool) {fn p q r s : Nat} (h : (fn, p, q, r, s) ∈ (fpOf t).specials) :
    funcAt fn t ftz ((fpOf t).inf true) = p ∧ funcAt fn t ftz (fpOf t).signBit = q ∧ funcAt fn t ftz 0 = r
      ∧ funcAt fn t ftz ((fpOf t).inf false) = s := by
  have hzero (neg : Bool) := (congrArg (fpOf t).decode (flush_zero (ftz := ftz) neg)).trans (decode_zero neg)
  have hpos : (fpOf t).decode ((fpOf t).flush ftz 0) = _ := hzero false
  have hneg : (fpOf t).decode ((fpOf t).flush ftz (fpOf t).signBit) = _ := hzero true
  have hone : (fpOf t).flush ftz ((2 ^ ((fpOf t).ew - 1) - 1) <<< (fpOf t).fw) = (2 ^ ((fpOf t).ew - 1) - 1) <<< (fpOf t).fw :=
    flush_one false
  simp only [Fp.specials, List.mem_cons, Prod.mk.injEq, List.not_mem_nil, or_false] at h
  rcases h with ⟨rfl, rfl, rfl, rfl, rfl⟩ | ⟨rfl, rfl, rfl, rfl, rfl⟩ | ⟨rfl, rfl, rfl, rfl, rfl⟩ | ⟨rfl, rfl, rfl, rfl, rfl⟩
    | ⟨rfl, rfl, rfl, rfl, rfl⟩ | ⟨rfl, rfl, rfl, rfl, rfl⟩ | ⟨rfl, rfl, rfl, rfl, rfl⟩
  all_goals
    simp only [funcAt, flush_inf, decode_inf, hpos, hneg, flush_zero, flush_nan, flush_one, hone, if_true, Bool.false_eq_true, if_false]
    trivial

theorem sqrtAt_special (t : Nat) (ftz : Bool) (mode : Nat) : sqrtAt t mode ftz ((fpOf t).inf true) = (fpOf t).nan
    ∧ sqrtAt t mode ftz (fpOf t).signBit = (fpOf t).signBit ∧ sqrtAt t mode ftz 0 = 0
    ∧ sqrtAt t mode ftz ((fpOf t).inf false) = (fpOf t).inf false := by
  have hzero (neg : Bool) := (congrArg (fpOf t).decode (flush_zero (ftz := ftz) neg)).trans (decode_zero neg)
  have hpos : (fpOf t).decode ((fpOf t).flush ftz 0) = _ := hzero false
  have hneg : (fpOf t).decode ((fpOf t).flush ftz (fpOf t).signBit) = _ := hzero true
  simp only [sqrtAt, flush_inf, decode_inf, hpos, hneg, flush_zero, flush_nan, if_true, Bool.false_eq_true, if_false]
  trivial

/-! ## Numbers -/

section
variable {t x : Nat} {ftz : Bool} {v : Exact}

/-- A number of a format is no smaller than the smallest subnormal one. -/
theorem decode_num_exp {f : Fp} (h : f.decode x = .num v) : 1 - (f.bias : Int) - f.fw ≤ v.e := by
  unfold Fp.decode at h
  split at h
  · split at h <;> simp at h
  · next hexpo =>
    split at h
    · next hzero =>
      obtain rfl := FVal.num.inj h
      exact le_rfl
    · next hzero =>
      obtain rfl := FVal.num.inj h
      simp only
      omega

/-- A value that rounds as a normal number is not flushed. -/
theorem flush_round {mode : Nat} {y : Exact} (h : y.m ≠ 0 → 1 - ((fpOf t).bias : Int) ≤ y.top) :
    (fpOf t).flush ftz ((fpOf t).round mode y) = (fpOf t).round mode y := by
  by_cases hm : y.m = 0
  · rw [Fp.round, if_pos hm, flush_zero]
  · exact Fp.flush_of_not_sub (Fp.isSub_round (fpOf_ew t) hm (h hm))

/-- The reciprocal is on the exact one's side of every number of 26 bits. -/
theorem recip_lt {c : Exact} (hm : v.m ≠ 0) (hbits : c.m < 2 ^ 26) :
    ({ c with neg := false } : Exact).lt { v.recip with neg := false } = ({ c.mul v with neg := false } : Exact).lt ⟨false, 1, 0⟩
    ∧ ({ v.recip with neg := false } : Exact).lt { c with neg := false } = (⟨false, 1, 0⟩ : Exact).lt { c.mul v with neg := false } := by
  have hone : (⟨false, 1, 0⟩ : Exact).val = 1 := by simp [Exact.val, Exact.mag]
  have hval (y : Exact) : ({ y with neg := false } : Exact).val = y.mag := rfl
  obtain ⟨hlt, hgt⟩ := recip_compare hm hbits
  rw [← Exact.mag_mul] at hlt hgt
  constructor
  · rw [Bool.eq_iff_iff, Exact.lt_iff, Exact.lt_iff, hval, hval, hval, hone, hlt]
  · rw [Bool.eq_iff_iff, Exact.lt_iff, Exact.lt_iff, hval, hval, hval, hone, hgt]

section
variable (hdec : (fpOf t).decode ((fpOf t).flush ftz x) = .num v) (hm : v.m ≠ 0)
include hdec hm

/-- The root of a number of a format is a normal number. -/
theorem bias_le_sqrt_top : 1 - ((fpOf t).bias : Int) ≤ v.sqrt.top := by
  obtain ⟨-, -, hwide⟩ := fpOf_widths t
  have hexp := decode_num_exp hdec
  have hsmall : ((⟨false, 1, 1 - ((fpOf t).bias : Int)⟩ : Exact)).mag = 2 ^ (1 - ((fpOf t).bias : Int)) := by simp [Exact.mag]
  have hsquare : (2 : ℝ) ^ (1 - ((fpOf t).bias : Int)) * 2 ^ (1 - ((fpOf t).bias : Int)) ≤ v.mag := by
    rw [← zpow_add₀ two_ne_zero]
    refine le_trans (zpow_le_zpow_right₀ one_le_two ?_) (Exact.two_zpow_top_le hm)
    unfold Exact.top
    omega
  obtain ⟨-, hcompare⟩ := sqrt_compare (c := ⟨false, 1, 1 - ((fpOf t).bias : Int)⟩) hm (by norm_num)
  rw [hsmall] at hcompare
  exact Exact.le_top (not_lt.1 fun hlt => absurd (hcompare.1 hlt) (not_lt.2 hsquare))

/-- The root of a positive number, rounded by the mode, of a value on the root's side of every number of 26 bits. -/
theorem sqrtAt_of_pos (mode : Nat) (hpos : v.neg = false) : ∃ r, sqrtAt t mode ftz x = (fpOf t).round mode r
    ∧ ∀ c : Exact, c.neg = false → c.m < 2 ^ 26 → c.lt r = (c.mul c).lt v ∧ r.lt c = v.lt (c.mul c) := by
  refine ⟨v.sqrt, ?_, fun c hc hbits => ?_⟩
  · simp only [sqrtAt, hdec, if_neg hm, hpos, Bool.false_eq_true, if_false]
    exact flush_round fun _ => bias_le_sqrt_top hdec hm
  · have hroot : v.sqrt.neg = false := rfl
    have hsquare : (c.mul c).neg = false := by simp [Exact.mul]
    obtain ⟨hlt, hgt⟩ := sqrt_compare hm hbits
    constructor
    · rw [Bool.eq_iff_iff, Exact.lt_iff, Exact.lt_iff, Exact.val_of_pos hc, Exact.val_of_pos hroot, Exact.val_of_pos hsquare,
        Exact.val_of_pos hpos, Exact.mag_mul, hlt]
    · rw [Bool.eq_iff_iff, Exact.lt_iff, Exact.lt_iff, Exact.val_of_pos hc, Exact.val_of_pos hroot, Exact.val_of_pos hsquare,
        Exact.val_of_pos hpos, Exact.mag_mul, hgt]

theorem funcAt_of_neg (hneg : v.neg = true) : funcAt 1 t ftz x = (fpOf t).nan ∧ funcAt 3 t ftz x = (fpOf t).nan
    ∧ ∀ mode, sqrtAt t mode ftz x = (fpOf t).nan := by
  refine ⟨?_, ?_, fun mode => ?_⟩
  · simp only [funcAt, hdec, if_neg hm, if_pos hneg, flush_nan]
  · simp only [funcAt, hdec, if_neg hm, if_pos hneg, flush_nan]
  · simp only [sqrtAt, hdec, if_neg hm, if_pos hneg, flush_nan]

/-- FLOG2 at a power of two. -/
theorem funcAt_log2_of_pow (hpos : v.neg = false) (hpow : v.m = 2 ^ Nat.log2 v.m) :
    funcAt 3 t ftz x = (fpOf t).round 0 (Exact.ofInt (v.e + Nat.log2 v.m)) := by
  have hpos' := Fp.bias_pos (fpOf_ew t)
  simp only [funcAt, hdec, if_neg hm, hpos, Bool.false_eq_true, if_false, if_pos hpow]
  refine flush_round fun _ => ?_
  have htop : 0 ≤ (Exact.ofInt (v.e + Nat.log2 v.m)).top := by simp [Exact.top, Exact.ofInt]
  omega

/-- FEXP2 far out. -/
theorem funcAt_exp2_of_large (hlarge : 10 ≤ v.e + Nat.log2 v.m) :
    funcAt 2 t ftz x = if v.neg then 0 else (fpOf t).inf false := by
  simp only [funcAt, hdec, if_neg hm, if_pos hlarge]
  split
  · exact flush_zero false
  · exact flush_inf false

/-- FTANH far out. -/
theorem funcAt_tanh_of_large (hlarge : Exact.lt { v with neg := false } (if t = 2 then ⟨false, 19, -1⟩ else ⟨false, 9, -1⟩) = false) :
    funcAt 6 t ftz x = (2 ^ ((fpOf t).ew - 1) - 1) <<< (fpOf t).fw + (fpOf t).zero v.neg := by
  simp only [funcAt, hdec, if_neg hm, decide_eq_true_eq, hlarge, Bool.not_false, if_true, flush_one]

end

theorem top_pow (n : Int) : (⟨false, 2 ^ fxBits, n - fxBits⟩ : Exact).top = n := by
  simp only [Exact.top, Nat.log2_two_pow]
  omega

/-- A power of two that is a normal f32 number, as FEXP2 forms it. -/
theorem round_f32_pow {n : Int} (hlo : -126 ≤ n) (hhi : n ≤ 127) :
    Fp.f32.round 0 ⟨false, 2 ^ fxBits, n - fxBits⟩ = (n + 127).toNat <<< 23 := by
  have hm : (⟨false, 2 ^ fxBits, n - fxBits⟩ : Exact).m ≠ 0 := (Nat.two_pow_pos fxBits).ne'
  have htop := top_pow n
  have hbias : ((Fp.f32.bias : Nat) : Int) = 127 := by decide
  have hulp : Fp.f32.ulpExp ⟨false, 2 ^ fxBits, n - fxBits⟩ = n - 23 := by
    rw [Fp.ulpExp_of_le (by rw [htop, hbias]; omega), htop]
    rfl
  have hround : roundTo 0 ⟨false, 2 ^ fxBits, n - fxBits⟩ (n - 23) = 2 ^ 23 := by
    have hshift : (n - 23 - (n - fxBits)).toNat = 177 := by
      rw [show n - 23 - (n - (fxBits : Int)) = 177 by unfold fxBits; omega]
      rfl
    rw [roundTo, if_neg (by simp only [fxBits]; omega)]
    simp only [hshift]
    decide
  have hfw : ((Fp.f32.fw : Nat) : Int) = 23 := rfl
  have hpack (E : Nat) : Fp.f32.pack false E (2 ^ 23 - 2 ^ Fp.f32.fw) = E <<< 23 := by simp [Fp.pack, Fp.zero, Fp.f32]
  have hcarry : ¬ (2 ^ 23 = 2 ^ (Fp.f32.fw + 1)) := by decide
  rw [Fp.round_eq hm, hulp, hround, if_neg (by decide)]
  simp only [if_neg hcarry, hbias, hfw]
  rw [if_neg (by omega), show n - 23 + 23 + 0 + 127 = n + 127 by omega]
  exact hpack _

/-- FEXP2 at an integer whose power of two is a normal number. -/
theorem funcAt_exp2_of_int {n : Int} (hdec : (fpOf 2).decode ((fpOf 2).flush ftz x) = .num v) (hm : v.m ≠ 0) (hlo : -126 ≤ n)
    (hhi : n ≤ 127) (hn : v.eq (Exact.ofInt n) = true) : funcAt 2 2 ftz x = (n + 127).toNat <<< 23 := by
  rw [Exact.eq_iff, Exact.val_ofInt] at hn
  have hsmall : ¬ 10 ≤ v.e + Nat.log2 v.m := by
    have habs : |n| < 2 ^ 10 := by
      rw [abs_lt]
      omega
    have hmag : v.mag < 2 ^ (10 : Int) := by
      rw [← v.abs_val, hn]
      exact_mod_cast habs
    exact not_le.2 (Exact.top_lt hm hmag)
  have hexp := exactExp2_of_int hn
  have hround : (fpOf 2).round 0 ⟨false, 2 ^ fxBits, n - fxBits⟩ = (n + 127).toNat <<< 23 := round_f32_pow hlo hhi
  simp only [funcAt, hdec, if_neg hm, if_neg hsmall, hexp, if_true]
  have htop : 1 - ((fpOf 2).bias : Int) ≤ (⟨false, 2 ^ fxBits, n - fxBits⟩ : Exact).top := by
    have hbias : (((fpOf 2).bias : Nat) : Int) = 127 := by decide
    rw [hbias, top_pow]
    omega
  rw [flush_round fun _ => htop, hround]

end

/-! ## Results within the bounds of Table 6.5 -/

section
variable {f : Fp} {y : Exact} {free b : Nat}

/-- Half the spacing is within any number of units in the last place. -/
theorem half_ulp_le (hb : 1 ≤ b) : (2 : ℝ) ^ f.ulpExp y / 2 ≤ b * 2 ^ f.ulpExp y := by
  have hbr : (1 : ℝ) ≤ b := by exact_mod_cast hb
  have hpos : (0 : ℝ) < 2 ^ f.ulpExp y := by positivity
  nlinarith

theorem meets_round_ulps (hew : 2 ≤ f.ew) (hb : 1 ≤ b) (nearest : Prop) : f.Meets (f.round 0 y) y b (f.ulpExp y) nearest :=
  Fp.meets_round hew (.inl fun _ => half_ulp_le hb)

theorem meets_within_ulps (hew : 2 ≤ f.ew) (hb : 1 ≤ b) (nearest : Prop) :
    f.Meets (f.within y free b (f.ulpExp y)) y b (f.ulpExp y) nearest := by
  obtain ⟨hmin, -⟩ := Fp.le_ulpExp (f := f) (x := y)
  have hbr : (1 : ℝ) ≤ b := by exact_mod_cast hb
  have hpow : (2 : ℝ) ^ (1 - (f.bias : Int) - f.fw) ≤ 2 ^ f.ulpExp y := zpow_le_zpow_right₀ one_le_two hmin
  exact Fp.meets_within hew (hpow.trans (le_mul_of_one_le_left (by positivity) hbr)) (.inl fun _ => half_ulp_le hb)

/-- The bound of FSIN and FCOS, as a power of two (Table 6.5). -/
def turnExp (t : Nat) : Int := if t = 2 then -22 else -10

/-- A result of FSIN and FCOS: a bf16 one may be the nearest instead. -/
theorem meets_within_turn {t : Nat} {nearest : Prop} (ht : t = 2 ∨ t = 3 ∨ t = 4) (hy : y.mag < 4) (hnearest : t = 3 → nearest) :
    (fpOf t).Meets ((fpOf t).within y free 1 (turnExp t)) y 1 (turnExp t) nearest := by
  have hulp (hm : y.m ≠ 0) : (fpOf t).ulpExp y ≤ 1 - (fpOf t).fw :=
    Fp.ulpExp_le (by omega) (Int.lt_add_one_iff.1 (Exact.top_lt (n := 1 + 1) hm (hy.trans_eq (by norm_num))))
  have hhalf (hm : y.m ≠ 0) : (2 : ℝ) ^ (fpOf t).ulpExp y / 2 ≤ 2 ^ (-((fpOf t).fw : Int)) := by
    rw [div_eq_mul_inv, ← zpow_neg_one, ← zpow_add₀ two_ne_zero]
    exact zpow_le_zpow_right₀ one_le_two (by have := hulp hm; omega)
  have hpow {m n : Int} (h : m ≤ n) : (2 : ℝ) ^ m ≤ (1 : Nat) * 2 ^ n := by
    rw [Nat.cast_one, one_mul]
    exact zpow_le_zpow_right₀ one_le_two h
  rcases ht with rfl | rfl | rfl
  · exact Fp.meets_within (fpOf_ew 2) (hpow (by decide)) (.inl fun hm => (hhalf hm).trans (hpow (by decide)))
  · exact Fp.meets_within (fpOf_ew 3) (hpow (by decide)) (.inr (hnearest rfl))
  · exact Fp.meets_within (fpOf_ew 4) (hpow (by decide)) (.inl fun hm => (hhalf hm).trans (hpow (by decide)))

end

/-- The bound of Table 6.5 by function: so many units of 2^e, for the exact result `y`. -/
def funcUnits (fn t : Nat) : Nat := if t = 2 ∧ (fn = 2 ∨ fn = 3 ∨ fn = 6) then 2 else 1
def funcExp (fn t : Nat) (y : Exact) : Int := if fn = 4 ∨ fn = 5 then turnExp t else (fpOf t).ulpExp y

section
variable {fn t : Nat}

theorem funcUnits_one (h : fn = 0 ∨ fn = 1 ∨ fn = 4 ∨ fn = 5) : funcUnits fn t = 1 := if_neg (by omega)

theorem funcUnits_wide (h : fn = 2 ∨ fn = 3 ∨ fn = 6) : funcUnits fn t = if t = 2 then 2 else 1 := by simp [funcUnits, h]

theorem funcExp_ulp (h : fn ≠ 4 ∧ fn ≠ 5) (y : Exact) : funcExp fn t y = (fpOf t).ulpExp y := if_neg (by omega)

theorem funcExp_turn (h : fn = 4 ∨ fn = 5) (y : Exact) : funcExp fn t y = turnExp t := if_pos h

end

theorem one_le_units (t : Nat) : 1 ≤ if t = 2 then 2 else 1 := by split <;> omega

/-- The exact results of the functions at a number (R150). -/
def exactResults (v : Exact) : List (Nat × Exact) :=
  [(0, v.recip), (1, exactRsqrt v), (2, exactExp2 v), (3, exactLog2 v),
    (4, { exactTurn v 0 with neg := (exactTurn v 0).neg != v.neg }), (5, exactTurn v 1), (6, exactTanh v)]

/-- Each function at a number of its domain, as Table 6.5 bounds it. -/
theorem funcAt_meets {t x : Nat} {ftz : Bool} {v : Exact} (hdec : (fpOf t).decode ((fpOf t).flush ftz x) = .num v) (hm : v.m ≠ 0)
    (ht : t = 2 ∨ t = 3 ∨ t = 4) {fn : Nat} {y : Exact} (h : (fn, y) ∈ exactResults v)
    (hpos : fn = 1 ∨ fn = 3 → v.neg = false) (hsmall : fn = 2 → v.e + Nat.log2 v.m < 10)
    (hnear : fn = 6 → Exact.lt { v with neg := false } (if t = 2 then ⟨false, 19, -1⟩ else ⟨false, 9, -1⟩) = true) :
    ∃ q, funcAt fn t ftz x = (fpOf t).flush ftz q ∧ (fn < 2 → t ≠ 2 → q = (fpOf t).round 0 y)
      ∧ (fpOf t).Meets q y (funcUnits fn t) (funcExp fn t y) (t = 3 ∧ (fn = 4 ∨ fn = 5)) := by
  have hew := fpOf_ew t
  have hunits := one_le_units t
  simp only [exactResults, List.mem_cons, Prod.mk.injEq, List.not_mem_nil, or_false] at h
  rcases h with ⟨rfl, rfl⟩ | ⟨rfl, rfl⟩ | ⟨rfl, rfl⟩ | ⟨rfl, rfl⟩ | ⟨rfl, rfl⟩ | ⟨rfl, rfl⟩ | ⟨rfl, rfl⟩
  case inl | inr.inl =>
    simp only [funcAt, hdec, if_neg hm, decide_eq_true_eq, hpos, true_or, Bool.false_eq_true, if_false]
    refine ⟨_, rfl, fun _ hwide => if_neg hwide, ?_⟩
    rw [funcUnits_one (by decide), funcExp_ulp (by decide)]
    split
    · exact meets_within_ulps hew le_rfl _
    · exact meets_round_ulps hew le_rfl _
  · simp only [funcAt, hdec, if_neg hm, decide_eq_true_eq, if_neg (not_le.2 (hsmall rfl))]
    refine ⟨_, rfl, fun h => absurd h (by decide), ?_⟩
    rw [funcUnits_wide (by decide), funcExp_ulp (by decide)]
    split
    · exact meets_round_ulps hew hunits _
    · exact meets_within_ulps hew hunits _
  · simp only [funcAt, hdec, if_neg hm, decide_eq_true_eq, hpos (.inr rfl), Bool.false_eq_true, if_false]
    refine ⟨_, rfl, fun h => absurd h (by decide), ?_⟩
    rw [funcUnits_wide (by decide), funcExp_ulp (by decide)]
    split
    · next hpow =>
      rw [← exactLog2_of_pow hpow]
      exact meets_round_ulps hew hunits _
    · exact meets_within_ulps hew hunits _
  · simp only [funcAt, hdec, if_neg hm, decide_eq_true_eq]
    refine ⟨_, rfl, fun h => absurd h (by decide), ?_⟩
    rw [funcUnits_one (by decide), funcExp_turn (by decide)]
    exact meets_within_turn ht (exactTurn_mag_lt v 0) fun h => ⟨h, by decide⟩
  · simp only [funcAt, hdec, if_neg hm, decide_eq_true_eq]
    refine ⟨_, rfl, fun h => absurd h (by decide), ?_⟩
    rw [funcUnits_one (by decide), funcExp_turn (by decide)]
    exact meets_within_turn ht (exactTurn_mag_lt v 1) fun h => ⟨h, by decide⟩
  · simp only [funcAt, hdec, if_neg hm, decide_eq_true_eq, hnear rfl, Bool.not_true, Bool.false_eq_true, if_false]
    refine ⟨_, rfl, fun h => absurd h (by decide), ?_⟩
    rw [funcUnits_wide (by decide), funcExp_ulp (by decide)]
    exact meets_within_ulps hew hunits _

end

/-- Settles O7: the special values by Table 6.6, roots and reciprocals by their sticky bits, the exact values where a series ends at once,
and every other result by the half unit that rounding errs by at most. -/
theorem floatFunctions : Obligations.FloatFunctions := by
  refine ⟨fun d a => ⟨?fsqrt, ?frcp, ?frsq, ?fexp2, ?flog2, ?fsin, ?fcos, ?ftanh⟩,
    fun t ftz x ht => ⟨fun v hdec hm => ⟨?sqrt, ?recip, ?bound, ?neg, ?log2, ?exp2, ?exp2Large, ?tanhLarge⟩, fun h => ⟨?nan, ?sqrtNan⟩, ?special, ?sqrtSpecial⟩⟩
  case fsqrt | frcp | frsq | fexp2 | flog2 | fsin | fcos | ftanh => exact sets_of_eachElem (fun _ => by unfold exec; rfl) fun _ => rfl
  case sqrt => exact fun mode hpos => sqrtAt_of_pos hdec hm mode hpos
  case recip => exact fun c _ hbits => recip_lt hm hbits
  case bound =>
    intro fn y h hpos hsmall hnear
    obtain ⟨q, hfunc, hround, hmeets⟩ := funcAt_meets hdec hm ht h hpos hsmall hnear
    refine ⟨q, hfunc, hround, hmeets.imp_right ?_⟩
    rintro ⟨w, hw, hnear | ⟨⟨ht, hfn⟩, hq⟩⟩
    · exact ⟨w, hw, .inl hnear⟩
    · exact ⟨w, hw, .inr ⟨ht, hfn, hq⟩⟩
  case neg => exact funcAt_of_neg hdec hm
  case log2 => exact funcAt_log2_of_pow hdec hm
  case exp2 =>
    rintro n rfl hlo hhi hn
    exact funcAt_exp2_of_int hdec hm hlo hhi hn
  case exp2Large => exact funcAt_exp2_of_large hdec hm
  case tanhLarge => exact funcAt_tanh_of_large hdec hm
  case nan => exact funcAt_of_nan h
  case sqrtNan => exact sqrtAt_of_nan h
  case special => exact fun fn p q r s h => funcAt_special t ftz h
  case sqrtSpecial => exact sqrtAt_special t ftz

end Sys2Proof.Machine
end

section
/-!
PROOF of the Anvil's ownership, batches and restart label (R166, R183, R184, R192): the line of MXREL once its owner has gone, the tile
operations that MWAITB waits for, and each way in which these instructions end.
-/
namespace Sys2Proof.Machine
open Sys2Proof

/-! ## The operations that MWAITB waits for (R182, R184) -/

/-- The operation is the group's, and joined the batch that was open: every one but ACCRD does. -/
def TileOp.joinsBatchOf (o : TileOp) (gid : Nat) : Bool :=
  match o.kind with
  | .accrd _ _ => false
  | _ => decide (o.gid = gid)

theorem TileOp.joinsBatchOf_iff {o : TileOp} {gid : Nat} :
    o.joinsBatchOf gid = true ↔ o.gid = gid ∧ ∀ v k, o.kind ≠ .accrd v k := by
  unfold TileOp.joinsBatchOf
  split
  · next hkind => simp [hkind]
  · next hkind => simpa using fun _ => hkind

/-- A closed batch up to `n` is unfinished while some operation of it stands in the queue. -/
theorem any_joinsBatchOf_iff {q : List TileOp} {gid n : Nat} {g : Group} :
    q.any (fun o => o.joinsBatchOf gid && g.covers n o.batch) = true
      ↔ ∃ o, o ∈ q ∧ o.gid = gid ∧ (∀ v k, o.kind ≠ .accrd v k) ∧ o.batch ≤ n ∧ o.batch < g.batch := by
  simp only [List.any_eq_true, Bool.and_eq_true, TileOp.joinsBatchOf_iff, Group.covers, decide_eq_true_eq, and_assoc]

/-! ## Each instruction -/

/-- Settles O35: MXACQ and MXTRY by the owner and the line, MXREL by who waits, MWAITB by what is unfinished, and the group's own changes
of MFENCE and SETRST. -/
theorem anvilOwnershipAndBatches : Obligations.AnvilOwnershipAndBatches := by
  refine ⟨fun d s c g => ⟨fun h => ⟨fun howned => ?mxacqOwned, fun hfree hline => ?mxacqTaken, fun hother habsent hbusy =>
      ⟨fun hfull => ?mxacqFull, fun hroom => ?mxacqJoins⟩⟩, fun h => ?mxtry,
      fun h => ⟨fun hother => ?mxrelOther, fun howned hline => ?mxrelFree, fun howned hline => ?mxrelPassed⟩⟩,
    fun d => ?mfence, fun a s c g h => ⟨fun hsome => ?mwaitbWaits, fun hnone => ?mwaitb⟩, fun lit => ?setrst⟩
  case mxacqOwned =>
    refine runsTo_of_next h (by unfold exec; rfl) ?_
    simp only [h.ixOf_g, ixOf_gid]
    exact if_pos howned
  case mxacqTaken =>
    refine runsTo_of_next h (by unfold exec; rfl) ?_
    simp [h.ixOf_g, ixOf_gid, hfree, hline]
  case mxacqFull =>
    have habsent : ¬ List.contains _ c.gid = true := mt List.contains_iff_mem.1 habsent
    refine exec_of_stall h (by unfold exec; rfl) ?_
    simp only [h.ixOf_g, ixOf_gid]
    rw [if_neg hother, if_neg habsent, if_neg hbusy, if_pos hfull]
  case mxacqJoins =>
    have habsent : ¬ List.contains _ c.gid = true := mt List.contains_iff_mem.1 habsent
    refine staysAt_of_stay h (by unfold exec; rfl) ?_
    simp only [h.ixOf_g, ixOf_gid]
    rw [if_neg hother, if_neg habsent, if_neg hbusy, if_neg (Nat.not_le.2 hroom)]
  case mxtry =>
    dsimp only
    split
    · next hmine =>
      refine runsTo_of_next h (by unfold exec; rfl) ?_
      simp only [h.ixOf_g, ixOf_gid, ← Bool.decide_and, ← Bool.decide_or, decide_eq_true hmine, if_true]
      rfl
    · next hother =>
      refine runsTo_of_next h (by unfold exec; rfl) ?_
      simp only [h.ixOf_g, ixOf_gid, ← Bool.decide_and, ← Bool.decide_or, decide_eq_false hother, Bool.false_eq_true, if_false]
      rfl
  case mxrelOther =>
    refine runsTo_of_next h (by unfold exec; rfl) ?_
    simp only [h.ixOf_g, ixOf_gid]
    exact if_pos hother
  case mxrelFree | mxrelPassed =>
    refine runsTo_of_next h (by unfold exec; rfl) ?_
    simp [h.ixOf_g, ixOf_gid, howned, hline]
  case mfence => exact sets_of_upd (fun _ => by unfold exec; rfl) fun _ _ => rfl
  case mwaitbWaits =>
    refine exec_of_stall h (by unfold exec; rfl) ?_
    simp only [h.ixOf_g]
    exact if_pos (any_joinsBatchOf_iff.2 hsome)
  case mwaitb =>
    refine runsTo_of_next h (by unfold exec; rfl) ?_
    simp only [h.ixOf_g]
    exact if_neg (mt any_joinsBatchOf_iff.1 hnone)
  case setrst => exact sets_of_upd (fun _ => by unfold exec; rfl) fun _ _ => rfl

end Sys2Proof.Machine
end

section
/-!
PROOF of the tile operations (R172, R175 to R177, R185, R186): the checks that all of them make, the lines that an ACCST owns, and MMA and
MMAS by the checks of R175 in their order and by what the format block says.
-/
namespace Sys2Proof.Machine
open Sys2Proof

/-! ## The checks that every tile operation makes -/

section
variable {i : Instr} {s y : State} {c : Cur} {g : Group} {t : Team} (h : Starts i s c g) (hteam : y.team g.team = some t)
include h hteam

/-- While the queue is full no tile operation issues (R172). -/
theorem Starts.tileOp_of_full (hfull : 32 ≤ (y.core t.home).tileq.length) (d : Nat) (k : Team → Done) :
    (ixOf s c g).tileOp y d k = .stall := by
  simp only [Ix.tileOp, h.ixOf_g, hteam]
  exact if_pos hfull

/-- With room in the queue, and a tile in range, the operation goes on (R170, R172). -/
theorem Starts.tileOp_of_room (hroom : (y.core t.home).tileq.length < 32) {d : Nat} (htile : d < t.ntiles) (k : Team → Done) :
    (ixOf s c g).tileOp y d k = k t := by
  simp only [Ix.tileOp, h.ixOf_g, hteam]
  rw [if_neg (Nat.not_le.2 hroom), if_neg (Nat.not_le.2 htile)]

theorem Starts.mma_of_full (hfull : 32 ≤ (y.core t.home).tileq.length) (sparse : Bool) (d a b : Reg) :
    (ixOf s c g).mma y sparse d a b = .stall := by
  simp only [Ix.mma, h.ixOf_g, hteam]
  exact if_pos hfull

end

section
variable {i : Instr} {s : State} {c : Cur} {g : Group} (h : Starts i s c g)
include h

/-- An instruction that has not waited takes the key of its own issue. -/
theorem Starts.op_ixOf : (ixOf s c g).op = s.uid + 1 := by simp [ixOf, h.held_eq_none]

/-- An instruction that has not waited has captured nothing. -/
theorem Starts.captured_nil : (ixOf s c g).captured [] = [] := by simp [Ix.captured, h.ixOf_g, h.held_eq_none]

/-- A read at a time of its own that finds its bytes goes on with them (R262). -/
theorem Starts.readFrom_of_ok {y z : State} {time n : Nat} {va : Dword} {data : List Byte} (k : State → List Byte → Done)
    (hread : y.readLines (y.groupXc c.gid) time (fun _ => 0) va n = (z, .ok data)) : (ixOf s c g).readFrom y time va n k = k z data := by
  simp only [Ix.readFrom, ixOf_gid, h.lowOf_ixOf, hread, Ix.unheld, h.again_ixOf]
  rfl

end

/-! ## The lines that an ACCST owns (R188, R261) -/

/-- An engine's operation becomes an owner of a line, which leaves the L1 of its core. -/
def State.own (s : State) (core : Nat) (w : Owner) (n : Nat) : State :=
  (s.setLine n (fun l => { l with owners := l.owners ++ [w] })).l1Drop core n

theorem State.line_own (s : State) (core : Nat) (w : Owner) (n m : Nat) :
    (s.own core w n).line m = (s.setLine n (fun l => { l with owners := l.owners ++ [w] })).line m := rfl

theorem State.mem_owners_own_same (s : State) (core : Nat) (w : Owner) (n : Nat) : w ∈ ((s.own core w n).line n).owners := by
  simp [State.line_own]

theorem State.mem_owners_own {s : State} {w : Owner} {m : Nat} (core n : Nat) (h : w ∈ (s.line m).owners) :
    w ∈ ((s.own core w n).line m).owners := by
  by_cases hm : m = n
  · subst hm
    exact s.mem_owners_own_same core w m
  · rwa [State.line_own, State.line_setLine_other _ _ hm]

/-- Of lines taken in turn each is owned at the end. -/
theorem State.mem_owners_foldl_own (core : Nat) (w : Owner) {n : Nat} (l : List Nat) (s : State) (hn : n ∈ l) :
    w ∈ ((l.foldl (fun s n => s.own core w n) s).line n).owners := by
  induction l generalizing s with
  | nil => cases hn
  | cons m l ih =>
    rcases List.mem_cons.1 hn with rfl | hn
    · exact foldl_inv (fun z : State => w ∈ (z.line n).owners) _ (fun _ _ hz => State.mem_owners_own core _ hz) l _
        (s.mem_owners_own_same core w n)
    · exact ih _ hn

/-- The write time of an ACCST over lines: above the group's and every lease. -/
def State.writeTimeOver (s : State) (time : Nat) (lines : List Nat) : Nat :=
  lines.foldl (fun t n => Nat.max t (s.line n).nextTime) (time + 1)

theorem State.lt_writeTimeOver (s : State) (time : Nat) (lines : List Nat) : time < s.writeTimeOver time lines :=
  foldl_inv (fun t => time < t) _ (fun _ _ ht => Nat.lt_of_lt_of_le ht (Nat.le_max_left _ _)) lines _ (Nat.lt_succ_self time)

/-- The physical lines of a list of virtual ones that an ACCST may own, and the state that their translations leave. -/
def State.ownables (s : State) (c : Xc) (vas : List Nat) : State × List Nat :=
  vas.foldl (fun p va => ((p.1.ownable c va).1, match (p.1.ownable c va).2 with | some n => p.2 ++ [n] | none => p.2)) (s, [])

/-- The checks that ACCST fails, and those that it passes (R186). -/
theorem accst_legal_iff {w dst : Nat} :
    ¬ (bits w 63 34 ≠ 0 ∨ bits w 33 32 = 3 ∨ bits w 31 0 % 64 ≠ 0 ∨ bits w 31 0 < rowBytes (bits w 33 32) ∨ dst % 64 ≠ 0) ↔
      bits w 63 34 = 0 ∧ bits w 33 32 ≠ 3 ∧ bits w 31 0 % 64 = 0 ∧ rowBytes (bits w 33 32) ≤ bits w 31 0 ∧ dst % 64 = 0 := by
  simp only [not_or, not_not, Nat.not_lt, ne_eq]

section
variable {d a b : Reg} {s : State} {c : Cur} {g : Group} {t : Team} (h : Starts (.accst d a b) s c g)
  (hteam : (s.begun (.accst d a b) c g).team g.team = some t)
  (hroom : ((s.begun (.accst d a b) c g).core t.home).tileq.length < 32) (htile : d.toNat < t.ntiles)
  {dst w : Nat} (hdst : (g.sr a.toNat).toNat = dst) (hw : (g.sr b.toNat).toNat = w)
include h hteam hroom htile hdst hw

/-- A control word or a destination that R186 does not allow traps. -/
theorem Starts.accst_of_not_legal
    (hbad : bits w 63 34 ≠ 0 ∨ bits w 33 32 = 3 ∨ bits w 31 0 % 64 ≠ 0 ∨ bits w 31 0 < rowBytes (bits w 33 32) ∨ dst % 64 ≠ 0) :
    TrapsWith (.accst d a b) s c g (trapP 0x1A) := by
  subst hdst hw
  refine trapsWith_of_trap h (by unfold exec; rfl) ?_
  simp only [h.tileOp_of_room hteam hroom htile, h.ixOf_g]
  exact if_pos hbad

/-- A legal ACCST enters the queue once it owns its lines at one write time (R186, R188). -/
theorem Starts.accst_of_legal
    (hlegal : ¬ (bits w 63 34 ≠ 0 ∨ bits w 33 32 = 3 ∨ bits w 31 0 % 64 ≠ 0 ∨ bits w 31 0 < rowBytes (bits w 33 32) ∨ dst % 64 ≠ 0)) :
    ∃ z lines, RunsTo (.accst d a b) s c g ((ixOf s c g).enqueue
      (lines.foldl (fun u n => u.own g.core { op := s.uid + 1, tw := z.writeTimeOver g.time lines, core := g.core } n) z)
      d.toNat (.accst dst (bits w 31 0) (bits w 33 32)) (z.writeTimeOver g.time lines) lines) := by
  subst hdst hw
  let p := (s.begun (.accst d a b) c g).ownables ((s.begun (.accst d a b) c g).engineXc g.team c.gid (s.uid + 1))
    (accLines g.liveNow (g.sr a.toNat).toNat (bits (g.sr b.toNat).toNat 31 0) (bits (g.sr b.toNat).toNat 33 32))
  refine ⟨p.1, p.2, runsTo_of_next h (by unfold exec; rfl) ?_⟩
  simp only [h.tileOp_of_room hteam hroom htile, h.ixOf_g, h.op_ixOf]
  rw [if_neg hlegal]
  rfl

end

/-! ## MMA and MMAS (R175, R176) -/

/-- The address of the format block that a register names (R175). -/
abbrev Group.formatAt (g : Group) (a : Reg) : Dword := BitVec.ofNat 64 ((g.sr a.toNat).toNat % 2 ^ 56)
/-- A base of planes that a register names (R175). -/
abbrev Group.planesAt (g : Group) (r : Nat) : Nat := (g.sr r).toNat % 2 ^ 56

/-- R175 refuses the format block, or a base (with the limit of R422). -/
def State.refusesFormat (z : State) (data : List Byte) (sparse : Bool) (abase bbase : Nat) : Bool :=
  !fmtValid data sparse || (z.dev.reduced && decide (4 < (Fmt.ofBytes data).bplanes)) || decide (abase % 256 ≠ 0 ∨ bbase % 256 ≠ 0)

theorem State.refusesFormat_iff {z : State} {data : List Byte} {sparse : Bool} {abase bbase : Nat} :
    z.refusesFormat data sparse abase bbase = true ↔ ¬ (fmtValid data sparse = true
      ∧ ¬ (z.dev.reduced = true ∧ 4 < (Fmt.ofBytes data).bplanes) ∧ abase % 256 = 0 ∧ bbase % 256 = 0) := by
  simp only [State.refusesFormat, Bool.or_eq_true, Bool.not_eq_true', Bool.and_eq_true, decide_eq_true_eq, or_assoc]
  rw [not_and_or, not_and_or, not_not, not_and_or, Bool.not_eq_true]

section
variable {i : Instr} {s y : State} {c : Cur} {g : Group} {t : Team} (h : Starts i s c g) (hteam : y.team g.team = some t)
  (hroom : (y.core t.home).tileq.length < 32) {d a b : Reg} {sparse : Bool}
include h hteam hroom

theorem Starts.mma_of_not_owner (howner : (y.core t.home).owner ≠ some c.gid) :
    (ixOf s c g).mma y sparse d a b = .trap y (trapP 0x18) := by
  simp only [Ix.mma, h.ixOf_g, ixOf_gid, hteam, h.fail_ixOf]
  rw [if_neg (Nat.not_le.2 hroom), if_pos howner]

variable (howner : (y.core t.home).owner = some c.gid)
include howner

theorem Starts.mma_of_tile_out_of_range (htile : t.ntiles ≤ d.toNat) : (ixOf s c g).mma y sparse d a b = .trap y (trapP 0x19) := by
  simp only [Ix.mma, h.ixOf_g, ixOf_gid, hteam, h.fail_ixOf]
  rw [if_neg (Nat.not_le.2 hroom), if_neg (not_not_intro howner), if_pos htile]

variable (htile : d.toNat < t.ntiles)
include htile

theorem Starts.mma_of_misaligned (hbad : (g.formatAt a).toNat % 64 ≠ 0) :
    (ixOf s c g).mma y sparse d a b = .trap y (trapPA 0x1A (g.formatAt a) 0) := by
  simp only [Ix.mma, h.ixOf_g, ixOf_gid, hteam, h.fail_ixOf]
  rw [if_neg (Nat.not_le.2 hroom), if_neg (not_not_intro howner), if_neg (Nat.not_le.2 htile), if_pos hbad]

variable (haligned : (g.formatAt a).toNat % 64 = 0)
include haligned

omit h hteam in
/-- What follows the checks of R175 that come before the format block, once they pass. -/
theorem passes_of_mma_checks {full other range misaligned next : Done} :
    (if 32 ≤ (y.core t.home).tileq.length then full else if (y.core t.home).owner ≠ some c.gid then other
      else if t.ntiles ≤ d.toNat then range else if (g.formatAt a).toNat % 64 ≠ 0 then misaligned else next) = next := by
  rw [if_neg (Nat.not_le.2 hroom), if_neg (not_not_intro howner), if_neg (Nat.not_le.2 htile), if_neg (not_not_intro haligned)]

variable {z : State} {data : List Byte}
  (hread : y.readLines (y.groupXc c.gid) (Nat.max g.time g.ownTime) (fun _ => 0) (g.formatAt a) 64 = (z, .ok data))
include hread

/-- MMA multiplies every K-block of a format that R175 accepts. -/
theorem Starts.mma_dense : (ixOf s c g).mma y false d a b =
    if z.refusesFormat data false (g.planesAt b.toNat) (g.planesAt (b.toNat + 1)) then .trap z (trapPA 0x1A (g.formatAt a) 0)
    else .next ((ixOf s c g).enqueue z d.toNat
      (.mma (Fmt.ofBytes data) (g.planesAt b.toNat) (g.planesAt (b.toNat + 1)) (List.range (Fmt.ofBytes data).kblocks)) 0 []) := by
  simp only [Ix.mma, h.ixOf_g, ixOf_gid, hteam, h.captured_nil, h.readFrom_of_ok _ hread]
  exact passes_of_mma_checks hroom howner htile haligned

/-- MMAS names a fibre that is open (R176). -/
theorem Starts.mma_sparse_of_no_fibre (hnone : Assoc.get t.fibres (Fmt.ofBytes data).fibre = none) :
    (ixOf s c g).mma y true d a b = .trap z (trapP 0x3A) := by
  simp only [Ix.mma, h.ixOf_g, ixOf_gid, hteam, h.captured_nil, h.readFrom_of_ok _ hread, hnone]
  exact passes_of_mma_checks hroom howner htile haligned

variable {f : Fibre} (hfibre : Assoc.get t.fibres (Fmt.ofBytes data).fibre = some f)
include hfibre

/-- A transposed pattern is read column by column (R176, R323). -/
theorem Starts.mma_sparse_of_not_invertible (htrans : ((Fmt.ofBytes data).trans && !f.invertible) = true) :
    (ixOf s c g).mma y true d a b = .trap z (trapP 0x39) := by
  simp only [Ix.mma, h.ixOf_g, ixOf_gid, hteam, h.captured_nil, h.readFrom_of_ok _ hread, hfibre]
  exact (passes_of_mma_checks hroom howner htile haligned).trans (if_pos htrans)

variable (htrans : ((Fmt.ofBytes data).trans && !f.invertible) ≠ true)
include htrans

theorem Starts.mma_sparse_of_refused (hrefused : z.refusesFormat data true (g.planesAt b.toNat) (g.planesAt (b.toNat + 1)) = true) :
    (ixOf s c g).mma y true d a b = .trap z (trapPA 0x1A (g.formatAt a) 0) := by
  simp only [Ix.mma, h.ixOf_g, ixOf_gid, hteam, h.captured_nil, h.readFrom_of_ok _ hread, hfibre]
  exact (passes_of_mma_checks hroom howner htile haligned).trans ((if_neg htrans).trans (if_pos hrefused))

/-- MMAS multiplies the K-blocks in which the pattern has a coordinate (R176). -/
theorem Starts.mma_sparse (hgood : z.refusesFormat data true (g.planesAt b.toNat) (g.planesAt (b.toNat + 1)) ≠ true) {u : State}
    {present : List Nat} (hpresent : presentOf (Fmt.ofBytes data) f (ixOf s c g) z = (u, .ok present)) :
    (ixOf s c g).mma y true d a b = .next ((ixOf s c g).enqueue u d.toNat
      (.mma (Fmt.ofBytes data) (g.planesAt b.toNat) (g.planesAt (b.toNat + 1)) present) 0 []) := by
  simp only [Ix.mma, h.ixOf_g, ixOf_gid, hteam, h.captured_nil, h.readFrom_of_ok _ hread, hfibre, hpresent]
  exact (passes_of_mma_checks hroom howner htile haligned).trans ((if_neg htrans).trans (if_neg hgood))

end

/-- MMA and MMAS are the issue of one execution, dense or sparse. -/
theorem exec_eq_mma {d a b : Reg} {i : Instr} {sparse : Bool} (hi : (i, sparse) ∈ [(Instr.mma d a b, false), (.mmas d a b, true)])
    (s : State) : exec i s = issue i s (fun x s => x.mma s sparse d a b) := by
  simp only [List.mem_cons, List.not_mem_nil, or_false, Prod.mk.injEq] at hi
  rcases hi with ⟨rfl, rfl⟩ | ⟨rfl, rfl⟩ <;> rfl

/-! ## Each instruction -/

/-- Settles O36: the full queue for each instruction, then each by the checks that remain to it. -/
theorem tileOperations : Obligations.TileOperations := by
  refine fun d a b s c g t => ⟨?full, fun ⟨h, hteam, hroom, htile⟩ => ?accz, fun ⟨h, hteam, hroom, htile⟩ => ?accrd,
    fun ⟨h, hteam, hroom, htile⟩ => ?accwr, fun ⟨h, hteam, hroom, htile⟩ => ⟨fun hbad => ?accstTraps, fun hlegal => ?accst⟩, ?mma⟩
  case full =>
    intro i hi h hteam hfull
    simp only [List.mem_cons, List.not_mem_nil, or_false] at hi
    rcases hi with rfl | rfl | rfl | rfl | rfl | rfl
    case inr.inr.inr.inr.inl | inr.inr.inr.inr.inr =>
      exact exec_of_stall h (by unfold exec; rfl) (h.mma_of_full hteam hfull _ _ _ _)
    all_goals exact exec_of_stall h (by unfold exec; rfl) (h.tileOp_of_full hteam hfull _ _)
  case accz => exact runsTo_of_next h (by unfold exec; rfl) (h.tileOp_of_room hteam hroom htile _)
  case accrd =>
    refine runsTo_of_next h (by unfold exec; rfl) ?_
    simp only [h.tileOp_of_room hteam hroom htile, Ix.column, h.ixOf_g, h.op_ixOf]
    exact (apply_ite Done.next ..).symm
  case accwr =>
    refine runsTo_of_next h (by unfold exec; rfl) ?_
    simp only [h.tileOp_of_room hteam hroom htile, Ix.column, h.ixOf_g]
  case accstTraps => exact h.accst_of_not_legal hteam hroom htile rfl rfl (of_not_not (mt accst_legal_iff.1 hbad))
  case accst =>
    obtain ⟨z, lines, hrun⟩ := h.accst_of_legal hteam hroom htile rfl rfl (accst_legal_iff.2 hlegal)
    exact ⟨_, _, lines, hrun, z.lt_writeTimeOver g.time lines, fun n hn => State.mem_owners_foldl_own _ _ lines z hn⟩
  case mma =>
    intro i sparse hi
    have hexec := exec_eq_mma hi s
    refine fun h hteam hroom => ⟨fun hother => trapsWith_of_trap h hexec (h.mma_of_not_owner hteam hroom hother),
      fun howner hrange => trapsWith_of_trap h hexec (h.mma_of_tile_out_of_range hteam hroom howner hrange), fun howner htile =>
      ⟨fun hbad => trapsWith_of_trap h hexec (h.mma_of_misaligned hteam hroom howner htile hbad), fun z data haligned hread => ?_⟩⟩
    refine ⟨?dense, ?denseRefused, ?noFibre, fun f hsparse hfibre => ⟨?notInvertible, ?refused, ?present⟩⟩
    case dense =>
      rintro rfl hgood
      exact runsTo_of_next h hexec ((h.mma_dense hteam hroom howner htile haligned hread).trans
        (if_neg (mt State.refusesFormat_iff.1 (not_not_intro hgood))))
    case denseRefused =>
      rintro rfl hbad
      exact failsIn_of_trap h hexec ((h.mma_dense hteam hroom howner htile haligned hread).trans (if_pos (State.refusesFormat_iff.2 hbad)))
    case noFibre =>
      rintro rfl hnone
      exact failsIn_of_trap h hexec (h.mma_sparse_of_no_fibre hteam hroom howner htile haligned hread hnone)
    all_goals subst hsparse
    case notInvertible =>
      intro htrans hnot
      exact failsIn_of_trap h hexec (h.mma_sparse_of_not_invertible hteam hroom howner htile haligned hread hfibre (by simp [htrans, hnot]))
    case refused =>
      intro htrans hbad
      exact failsIn_of_trap h hexec (h.mma_sparse_of_refused hteam hroom howner htile haligned hread hfibre (by simpa using htrans)
        (State.refusesFormat_iff.2 hbad))
    case present =>
      intro u present htrans hgood hpresent
      exact runsTo_of_next h hexec (h.mma_sparse hteam hroom howner htile haligned hread hfibre (by simpa using htrans)
        (mt State.refusesFormat_iff.1 (not_not_intro hgood)) hpresent)

end Sys2Proof.Machine
end

section
/-!
PROOF, the scratch memory behind O20 to O25: runs of bytes written and read back (R2), the words and the barriers that they hold (R196,
R205), the lanes of a mask in their order, and what the correction of single-bit errors leaves alone (R204).
-/
namespace Sys2Proof.Machine
open Sys2Proof

/-! ## Bytes of a number (R2) -/

@[simp] theorem length_natLe (x n : Nat) : (natLe x n).length = n := by
  induction n generalizing x with
  | zero => rfl
  | succ n ih => rw [natLe, List.length_cons, ih]

/-- The `n` low bytes of a number are those of the number modulo 256 to the `n`. -/
theorem leNat_natLe (x n : Nat) : leNat (natLe x n) = x % 256 ^ n := by
  induction n generalizing x with
  | zero => rw [pow_zero, Nat.mod_one]; rfl
  | succ n ih =>
    have hlow : x % 256 ^ (n + 1) = x % 256 + 256 * (x / 256 % 256 ^ n) := by rw [pow_succ', Nat.mod_mul]
    rw [natLe, leNat, ih, BitVec.toNat_ofNat, hlow]

/-! ## Runs of bytes -/

theorem Memory.write_append (m : Memory) (a : Nat) (l k : List Byte) :
    Memory.write m a (l ++ k) = Memory.write (Memory.write m a l) (a + l.length) k := by
  induction l generalizing m a with
  | nil => rfl
  | cons b l ih => rw [List.cons_append, Memory.write, Memory.write, ih, List.length_cons, Nat.add_assoc, Nat.add_comm 1]

/-- Reads agree where the bytes do. -/
theorem Memory.read_congr {m m' : Memory} {a n : Nat} (h : ∀ x, a ≤ x → x < a + n → Memory.get m x = Memory.get m' x) :
    Memory.read m a n = Memory.read m' a n := by
  induction n generalizing a with
  | zero => rfl
  | succ n ih => rw [Memory.read, Memory.read, h a (by omega) (by omega), ih fun x h1 h2 => h x (by omega) (by omega)]

theorem Memory.read_write_outside (m : Memory) {a a' n : Nat} (l : List Byte) (h : a' + n ≤ a ∨ a + l.length ≤ a') :
    Memory.read (Memory.write m a l) a' n = Memory.read m a' n :=
  Memory.read_congr fun _ h1 h2 => Memory.get_write_outside m a l (by omega)

/-- Bytes written read back. -/
theorem Memory.read_write_same {m : Memory} (h : Memory.wf m = true) (a : Nat) (l : List Byte) :
    Memory.read (Memory.write m a l) a l.length = l := by
  induction l generalizing m a with
  | nil => rfl
  | cons b l ih =>
    rw [List.length_cons, Memory.read, Memory.write, ih (Memory.wf_put h a b), Memory.get_write_outside _ _ _ (by omega),
      Memory.get_put_same h]

/-- Part of the bytes written reads back. -/
theorem Memory.read_write_part {m : Memory} (h : Memory.wf m = true) (a : Nat) (u l v : List Byte) :
    Memory.read (Memory.write m a (u ++ l ++ v)) (a + u.length) l.length = l := by
  rw [Memory.write_append, Memory.read_write_outside _ _ (.inl (by rw [List.length_append]; omega)), Memory.write_append,
    Memory.read_write_same (Memory.wf_write h _ _)]

/-- Of runs of `k` bytes written one after another, run `j` reads back. -/
theorem Memory.read_write_flatMap {m : Memory} (h : Memory.wf m = true) (a : Nat) {n j k : Nat} {f : Nat → List Byte}
    (hlen : ∀ i, (f i).length = k) (hj : j < n) :
    Memory.read (Memory.write m a ((List.range n).flatMap f)) (a + k * j) k = f j := by
  obtain ⟨r, rfl⟩ : ∃ r, n = j + (1 + r) := ⟨n - j - 1, by omega⟩
  have hbefore : ((List.range j).flatMap f).length = k * j := by simp [List.length_flatMap, hlen, Nat.mul_comm]
  have hsplit : (List.range (j + (1 + r))).flatMap f
      = (List.range j).flatMap f ++ f j ++ ((List.range r).map fun i => j + (1 + i)).flatMap f := by
    simp [List.range_add, Function.comp_def, List.append_assoc]
  have hread := Memory.read_write_part h a ((List.range j).flatMap f) (f j) (((List.range r).map fun i => j + (1 + i)).flatMap f)
  rwa [← hsplit, hbefore, hlen] at hread

/-! ## Words and barriers in scratch (R196, R205) -/

section
variable {t : Team} (hwf : Memory.wf t.scratch = true)
include hwf

/-- A doubleword written reads back. -/
theorem Team.word64_putScratch (o : Nat) {w : Nat} (hw : w < 2 ^ 64) : (t.putScratch o (natLe w 8)).word64 o = w := by
  have hread := Memory.read_write_same hwf o (natLe w 8)
  rw [length_natLe] at hread
  rw [Team.word64, Team.putScratch, hread, leNat_natLe]
  omega

end

section
variable {b : Barrier}

theorem b2n_le_one (x : Bool) : b2n x ≤ 1 := by cases x <;> decide

theorem bit_of_div_mod {w n : Nat} {x : Bool} (h : w / 2 ^ n % 2 = b2n x) : bit w n = x := by
  rw [bit, Nat.testBit_eq_decide_div_mod_eq, h]
  cases x <;> rfl

theorem bits_of_div_mod {w hi lo v : Nat} (h : w / 2 ^ lo % 2 ^ (hi + 1 - lo) = v) : bits w hi lo = v := by
  rw [bits, Nat.shiftRight_eq_div_pow, h]

/-- The 28 low bits of a two's-complement number, and the number from them. -/
theorem signed28 {p : Int} (hlow : -(2 ^ 27) ≤ p) (hhigh : p < 2 ^ 27) :
    (p % 2 ^ 28).toNat / 2 ^ 27 = b2n (decide (p < 0))
      ∧ (if p < 0 then ((p % 2 ^ 28).toNat : Int) - 2 ^ 28 else (p % 2 ^ 28).toNat) = p := by
  by_cases hneg : p < 0
  · rw [decide_eq_true hneg, if_pos hneg, show b2n true = 1 from rfl]
    omega
  · rw [decide_eq_false hneg, if_neg hneg, show b2n false = 0 from rfl]
    omega

/-- The word of a barrier as a sum of its fields, each of them in range (Table 8.3). -/
theorem Barrier.word_eq (hexpected : b.expected < 2 ^ 14) (harrivals : b.arrivals < 2 ^ 14) :
    b.word = 2 ^ 63 + b2n b.phase * 2 ^ 62 + b2n b.inv * 2 ^ 61 + b2n b.err * 2 ^ 60 + b.expected * 2 ^ 42 + b.arrivals * 2 ^ 28
      + (b.pending % 2 ^ 28).toNat := by
  simp only [Barrier.word, place, Nat.shiftLeft_eq, Nat.mod_eq_of_lt hexpected, Nat.mod_eq_of_lt harrivals, Nat.one_mul]

variable (hexpected : b.expected < 2 ^ 14) (harrivals : b.arrivals < 2 ^ 14)
include hexpected harrivals

theorem Barrier.word_lt : b.word < 2 ^ 64 := by
  have hphase := b2n_le_one b.phase
  have hinv := b2n_le_one b.inv
  have herr := b2n_le_one b.err
  rw [Barrier.word_eq hexpected harrivals]
  omega

/-- The fields of a barrier's word are the barrier's (Table 8.3). -/
theorem Barrier.ofWord_word (hlow : -(2 ^ 27) ≤ b.pending) (hhigh : b.pending < 2 ^ 27) : Barrier.ofWord b.word = b := by
  have hphase := b2n_le_one b.phase
  have hinv := b2n_le_one b.inv
  have herr := b2n_le_one b.err
  obtain ⟨hsign, hpending⟩ := signed28 hlow hhigh
  rw [Barrier.ofWord, Barrier.word_eq hexpected harrivals, bit_of_div_mod (n := 62) (x := b.phase) (by omega),
    bit_of_div_mod (n := 61) (x := b.inv) (by omega), bit_of_div_mod (n := 60) (x := b.err) (by omega),
    bit_of_div_mod (n := 27) (x := decide (b.pending < 0)) (by omega), bits_of_div_mod (hi := 55) (lo := 42) (v := b.expected) (by omega),
    bits_of_div_mod (hi := 41) (lo := 28) (v := b.arrivals) (by omega),
    bits_of_div_mod (hi := 27) (lo := 0) (v := (b.pending % 2 ^ 28).toNat) (by omega)]
  simp only [decide_eq_true_eq, hpending]

/-- A barrier written reads as that barrier (R205). -/
theorem Team.barrier_putScratch {t : Team} (hwf : Memory.wf t.scratch = true) (o : Nat) (hlow : -(2 ^ 27) ≤ b.pending)
    (hhigh : b.pending < 2 ^ 27) : (t.putScratch o (natLe b.word 8)).barrier o = b := by
  rw [Team.barrier, Team.word64_putScratch hwf o (Barrier.word_lt hexpected harrivals), Barrier.ofWord_word hexpected harrivals hlow hhigh]

end

/-! ## The lanes of a mask in their order -/

theorem Mask.pairwise_lanes (m : Mask) : m.lanes.Pairwise (· < ·) := List.pairwise_lt_range.filter _

/-- The lanes of a mask around one of them. -/
theorem Mask.lanes_split {m : Mask} {L : Nat} (h : m.has L = true) :
    ∃ l r, m.lanes = l ++ L :: r ∧ (∀ k ∈ l, k < L) ∧ (∀ k ∈ r, L < k) := by
  obtain ⟨l, r, hsplit⟩ := List.append_of_mem (Mask.mem_lanes.2 h)
  have hrising := Mask.pairwise_lanes m
  rw [hsplit, List.pairwise_append, List.pairwise_cons] at hrising
  obtain ⟨-, ⟨hafter, -⟩, hbefore⟩ := hrising
  exact ⟨l, r, hsplit, fun k hk => hbefore k hk L (.head _), hafter⟩

/-- The first of the lanes that answer is the lowest of them. -/
theorem Mask.findSome?_lanes_of_lowest {α : Type} {m : Mask} {f : Nat → Option α} {L : Nat} {x : α} {p : Nat → Prop}
    (h : lowestLane m p L) (hnone : ∀ k, ¬ p k → f k = none) (hsome : f L = some x) : m.lanes.findSome? f = some x := by
  obtain ⟨hL, -, hbelow⟩ := h
  obtain ⟨l, r, hsplit, hbefore, -⟩ := Mask.lanes_split hL
  refine List.findSome?_eq_some_iff.2 ⟨l, L, r, hsplit, hsome, fun k hk => hnone k (hbelow k (hbefore k hk) ?_)⟩
  exact Mask.mem_lanes.1 (hsplit ▸ List.mem_append_left _ hk)

theorem Mask.findSome?_lanes_eq_none {α : Type} {m : Mask} {f : Nat → Option α} (h : ∀ L, m.has L = true → f L = none) :
    m.lanes.findSome? f = none :=
  List.findSome?_eq_none_iff.2 fun L hL => h L (Mask.mem_lanes.1 hL)

/-! ## Poisoned words (R204) -/

theorem foldl_min_some (l : List Nat) (a : Nat) :
    l.foldl (fun a w => some (match a with | some b => Nat.min b w | none => w)) (some a) = some (l.foldl min a) := by
  induction l generalizing a with
  | nil => rfl
  | cons w l ih => exact ih (min a w)

/-- The poisoned word that a read meets is the least of those that it overlaps. -/
theorem Team.poisonIn_eq_min? (t : Team) (o n : Nat) :
    t.poisonIn o n = (t.sbad.filter fun w => decide (o < w + 4) && decide (w < o + n)).min? := by
  rw [Team.poisonIn]
  cases t.sbad.filter fun w => decide (o < w + 4) && decide (w < o + n) with
  | nil => rfl
  | cons w l => exact foldl_min_some l w

theorem Team.poisonIn_eq_some_iff {t : Team} {o n w : Nat} : t.poisonIn o n = some w ↔
    (w ∈ t.sbad ∧ o < w + 4 ∧ w < o + n) ∧ ∀ w', w' ∈ t.sbad → o < w' + 4 → w' < o + n → w ≤ w' := by
  simp only [Team.poisonIn_eq_min?, List.min?_eq_some_iff, List.mem_filter, Bool.and_eq_true, decide_eq_true_eq, and_imp]

/-! ## The correction of single-bit errors (R204) -/

/-- A reading of the state that looks at neither the teams nor the groups finds it unchanged. -/
theorem State.correctScratch_keeps {γ : Type} {f : State → γ} (h : ∀ (s : State) m n, f { s with teams := m, groups := n } = f s)
    (s : State) (gid tid : Nat) (l : List (Nat × Nat)) : f (s.correctScratch gid tid l) = f s := by
  unfold State.correctScratch
  simp only
  split
  · rfl
  · exact h s _ _

section
variable {s : State} {gid tid : Nat} (l : List (Nat × Nat))

/-- Of the team read only the marks of single-bit errors change. -/
theorem State.team_correctScratch {t : Team} (hteam : s.team tid = some t) :
    ∃ e, (s.correctScratch gid tid l).team tid = some { t with ssoft := e } := by
  unfold State.correctScratch
  simp only
  split
  · exact ⟨t.ssoft, hteam⟩
  · exact ⟨_, (State.team_setTeam_same ..).trans (by rw [hteam]; rfl)⟩

/-- The group that reads stays. -/
theorem State.group_correctScratch {g : Group} (hgroup : s.group gid = some g) : ∃ h, (s.correctScratch gid tid l).group gid = some h := by
  unfold State.correctScratch
  simp only
  split
  · exact ⟨g, hgroup⟩
  · exact ⟨_, (State.group_setGroup_same ..).trans (congrArg (Option.map _) hgroup)⟩

end

/-! ## Changes of one team -/

/-- A team replaced by what a change makes of it. -/
theorem State.setTeam_eq_of_team {s : State} {k : Nat} {t : Team} (hteam : s.team k = some t) (f : Team → Team) :
    s.setTeam k f = s.setTeam k (fun _ => f t) := by
  unfold State.setTeam
  rw [Assoc.upd_congr fun v hv => ?_]
  rw [Option.some.inj (hteam.symm.trans hv)]

end Sys2Proof.Machine
end

section
/-!
PROOF of the scratch loads, stores and atomics (R200 to R204, R206): the one rule for an access of the live lanes, by what its checks of
every lane find; the words that a load writes, the bytes that stores leave; and each instruction by its lanes' work.
-/
namespace Sys2Proof.Machine
open Sys2Proof

/-! ## The checks of a lane (R200) -/

theorem Team.inScratch_iff {t : Team} {o n : Nat} : t.inScratch o n = true ↔ o + n ≤ 16384 * t.units := by
  rw [Team.inScratch, decide_eq_true_eq]

/-- A lane of a load is placed, or at fault. -/
theorem Team.scratchFault_load (t : Team) (o z : Nat) : t.scratchFault o z true false =
    if o % z = 0 ∧ o + z ≤ 16384 * t.units then none
    else some (trapPA (if o % z ≠ 0 then 0x20 else 0x21) (BitVec.ofNat 64 o) 0) := by
  by_cases halign : o % z = 0
  · by_cases hrange : o + z ≤ 16384 * t.units <;> simp [Team.scratchFault, Team.inScratch, halign, hrange]
  · simp [Team.scratchFault, halign]

/-- A lane of a store is placed clear of every barrier word, or at fault. -/
theorem Team.scratchFault_store (t : Team) (o z : Nat) : t.scratchFault o z false true =
    if o % z = 0 ∧ o + z ≤ 16384 * t.units ∧ t.overlapsTag o z = false then none
    else some (trapPA (if o % z ≠ 0 then 0x20 else if 16384 * t.units < o + z then 0x21 else 0x23) (BitVec.ofNat 64 o) 0) := by
  by_cases halign : o % z = 0
  · rcases Nat.lt_or_ge (16384 * t.units) (o + z) with hout | hin
    · simp [Team.scratchFault, Team.inScratch, halign, hout, Nat.not_le.2 hout]
    · cases htag : t.overlapsTag o z <;> simp [Team.scratchFault, Team.inScratch, halign, hin, Nat.not_lt.2 hin, htag]
  · simp [Team.scratchFault, halign]

/-- A lane of an atomic that is placed clear of every barrier word has no fault. -/
theorem Team.scratchFault_atomic {t : Team} {o : Nat} (halign : o % 4 = 0) (hrange : o + 4 ≤ 16384 * t.units)
    (htag : t.overlapsTag o 4 = false) : t.scratchFault o 4 true true = none := by
  simp [Team.scratchFault, Team.inScratch, halign, hrange, htag]

/-! ## An access of the live lanes (R200, R203) -/

section
variable {i : Instr} {s y : State} {c : Cur} {g : Group} {t : Team} (h : Starts i s c g) {a b : Reg} {z : Nat} {rd wr : Bool}
  (k : State → Team → Done)
include h

/-- The offsets of the own execution are those of the registers at issue. -/
theorem Starts.scratchOff_ixOf : (ixOf s c g).scratchOff a b = scratchAt g a b := by
  funext L
  rw [Ix.scratchOff, Ix.vl, h.ixOf_g, scratchAt]

/-- The single-bit errors that the live lanes read are corrected (R204). -/
theorem Starts.scratchRead_ixOf :
    (ixOf s c g).scratchRead y a b z = y.correctScratch c.gid g.team (g.liveNow.lanes.map fun L => (scratchAt g a b L, z)) := by
  simp only [Ix.scratchRead, h.scratchOff_ixOf, h.ixOf_g]
  rfl

variable (hteam : y.team g.team = some t)
include hteam

/-- Where no lane is at fault and none reads poison, the access is made whole. -/
theorem Starts.scratch_of_fine (hplaced : ∀ L, g.liveNow.has L = true → t.scratchFault (scratchAt g a b L) z rd wr = none)
    (hclean : rd = true → ∀ L, g.liveNow.has L = true → t.poisonIn (scratchAt g a b L) z = none) :
    (ixOf s c g).scratch y a b z rd wr k
      = k (if rd then y.correctScratch c.gid g.team (g.liveNow.lanes.map fun L => (scratchAt g a b L, z)) else y) t := by
  have hfaults : (ixOf s c g).live.lanes.findSome? (fun L => t.scratchFault (scratchAt g a b L) z rd wr) = none :=
    Mask.findSome?_lanes_eq_none hplaced
  have hreads : (if rd then (ixOf s c g).live.lanes else []).findSome? (fun L => t.scratchPoison (scratchAt g a b L) z) = none := by
    cases rd with
    | false => rfl
    | true => exact Mask.findSome?_lanes_eq_none fun L hL => by rw [Team.scratchPoison, hclean rfl L hL]; rfl
  simp only [Ix.scratch, h.ixOf_g, hteam, h.scratchOff_ixOf, h.scratchRead_ixOf, hfaults, hreads]

/-- The lowest lane at fault traps, whatever the lanes read (R200). -/
theorem Starts.scratch_of_fault {p : Nat → Prop} {L : Nat} {x : TrapInfo} (hL : lowestLane g.liveNow p L)
    (hplaced : ∀ k, ¬ p k → t.scratchFault (scratchAt g a b k) z rd wr = none)
    (hfault : t.scratchFault (scratchAt g a b L) z rd wr = some x) : (ixOf s c g).scratch y a b z rd wr k = .trap y x := by
  have hfaults : (ixOf s c g).live.lanes.findSome? (fun L => t.scratchFault (scratchAt g a b L) z rd wr) = some x :=
    Mask.findSome?_lanes_of_lowest hL hplaced hfault
  simp only [Ix.scratch, h.ixOf_g, hteam, h.scratchOff_ixOf, hfaults]

/-- Where every lane is placed, the lowest that reads poison traps (R204). -/
theorem Starts.scratch_of_poison {L w : Nat} (hplaced : ∀ L, g.liveNow.has L = true → t.scratchFault (scratchAt g a b L) z true wr = none)
    (hL : lowestLane g.liveNow (fun k => ¬ t.poisonIn (scratchAt g a b k) z = none) L)
    (hpoison : t.poisonIn (scratchAt g a b L) z = some w) :
    (ixOf s c g).scratch y a b z true wr k = .trap y (trapPA 0x22 (BitVec.ofNat 64 w) 0) := by
  have hfaults : (ixOf s c g).live.lanes.findSome? (fun L => t.scratchFault (scratchAt g a b L) z true wr) = none :=
    Mask.findSome?_lanes_eq_none hplaced
  have hreads : (ixOf s c g).live.lanes.findSome? (fun L => t.scratchPoison (scratchAt g a b L) z)
      = some (trapPA 0x22 (BitVec.ofNat 64 w) 0) :=
    Mask.findSome?_lanes_of_lowest hL (fun k hk => by rw [Team.scratchPoison, of_not_not hk]; rfl)
      (by rw [Team.scratchPoison, hpoison]; rfl)
  simp only [Ix.scratch, h.ixOf_g, hteam, h.scratchOff_ixOf, hfaults, if_true, hreads]

end

/-! ## Loads (R201) -/

/-- A lane of a vector register written. -/
theorem Group.lane_setV_same (g : Group) {r L : Nat} {m : Mask} (f : Nat → Word) (hr : r < 128) (hL : m.has L = true) :
    ((g.setV r m f).vr r).lane L = f L := by
  have hv : (g.setV r m f).vr r = tab 128 (fun L => if m.has L then f L else (g.vr r).lane L) := Vector.at0_put_same _ _ _ hr
  rw [hv]
  exact (Vector.at0_tab _ _ (Mask.has_lt hL)).trans (if_pos hL)

/-- The group with the words `w` of lanes in `n` registers from `d`, register after register. -/
def Group.setWords (g : Group) (d n : Nat) (m : Mask) (w : Nat → Nat → Word) : Group :=
  (List.range n).foldl (fun h j => h.setV (d + j) m (w j)) g

theorem Group.setWords_succ (g : Group) (d n : Nat) (m : Mask) (w : Nat → Nat → Word) :
    g.setWords d (n + 1) m w = (g.setWords d n m w).setV (d + n) m (w n) := by
  rw [Group.setWords, Group.setWords, List.range_succ, List.foldl_append]
  rfl

/-- Each of the registers holds its words in the lanes written. -/
theorem Group.lane_setWords (g : Group) {d n j L : Nat} {m : Mask} (w : Nat → Nat → Word) (hd : d + n ≤ 128) (hj : j < n)
    (hL : m.has L = true) : ((g.setWords d n m w).vr (d + j)).lane L = w j L := by
  induction n with
  | zero => omega
  | succ n ih =>
    rw [Group.setWords_succ]
    rcases Nat.lt_succ_iff_lt_or_eq.1 hj with hlt | rfl
    · rw [Group.vr_setV_other _ _ _ (by omega), ih (by omega) hlt]
    · exact Group.lane_setV_same _ _ (by omega) hL

@[simp] theorem Group.vr_counted (g0 h : Group) (r : Nat) : (g0.counted h).vr r = h.vr r := by
  rw [Group.counted_eq]
  rfl

/-- A completion after an update of the issuing group. -/
theorem State.group_retired_setGroup {s : State} {c : Cur} {g h : Group} {f : Group → Group} {pc : Va} (hgroup : s.group c.gid = some h) :
    ((s.setGroup c.gid f).retired c g pc).group c.gid = some (g.counted { f h with pc := pc }) := by
  rw [State.group_retired_same, State.group_setGroup_same, hgroup]
  rfl

/-- The destination of a load, and what it executes. -/
theorem exec_eq_scratchLoad {d a b : Reg} {i : Instr} {n : Nat}
    (hi : (i, n) ∈ [(Instr.ldsw d a b, 1), (.ldsd d a b, 2), (.ldsq d a b, 4)]) :
    (∀ s, exec i s = issue i s (fun x s => x.scratchLoad s d a b n)) ∧ ∀ c, Use.v d n false true ∈ uses c i := by
  simp only [List.mem_cons, List.not_mem_nil, or_false, Prod.mk.injEq] at hi
  rcases hi with ⟨rfl, rfl⟩ | ⟨rfl, rfl⟩ | ⟨rfl, rfl⟩ <;> exact ⟨fun _ => rfl, fun _ => .head _⟩

/-- The registers that a field names are there (R30). -/
theorem Starts.range_le {i : Instr} {s : State} {c : Cur} {g : Group} (h : Starts i s c g) {d : Reg} {n : Nat} {rd wr : Bool}
    (hd : ∀ c, Use.v d n rd wr ∈ uses c i) : d.toNat + n ≤ 128 :=
  of_decide_eq_true (List.all_eq_true.1 h.fieldsLegal_eq_true _ (hd _))

/-- Settles O20: a load by what its checks of the lanes find, and the lanes of the registers that it writes. -/
theorem scratchLoads : Obligations.ScratchLoads := by
  intro d a b i n hi s c g t h hteam o placed clean fine
  obtain ⟨hexec, hd⟩ := exec_eq_scratchLoad hi
  have hplaced (L : Nat) (hL : placed L) : t.scratchFault (o L) (4 * n) true false = none :=
    (t.scratchFault_load _ _).trans (if_pos hL)
  have run (hfine : ∀ L, g.liveNow.has L = true → fine L) : RunsTo i s c g
      (((s.begun i c g).correctScratch c.gid g.team (g.liveNow.lanes.map (fun L => (o L, 4 * n)))).setGroup c.gid
        (fun h => h.setWords d.toNat n g.liveNow (fun j L => BitVec.ofNat 32 (t.word32 (o L + 4 * j))))) := by
    refine runsTo_of_next h (hexec s) ((h.scratch_of_fine _ hteam (fun L hL => hplaced L (hfine L hL).1)
      fun _ L hL => (hfine L hL).2).trans ?_)
    simp only [h.scratchOff_ixOf]
    rfl
  refine ⟨run, fun hlatent _ hfine => ?result, fun L hL => ?fault, fun L hall hL => ?poison⟩
  case result =>
    obtain ⟨-, hgroup, -, hheld, -⟩ := id h
    obtain ⟨h0, hread⟩ := State.group_correctScratch (tid := g.team) (g.liveNow.lanes.map (fun L => (o L, 4 * n)))
      (State.group_begun_same (i := i) (c := c) hlatent hheld hgroup)
    refine ⟨_, _, run hfine, State.group_retired_setGroup hread, fun L j hL hj => ?_, fun x => ?_⟩
    · rw [Group.vr_counted]
      exact Group.lane_setWords _ _ (h.range_le hd) hj hL
    · rw [State.retired_keeps (f := State.mem) (fun _ _ _ _ => rfl), State.setGroup_mem,
        State.correctScratch_keeps (f := State.mem) (fun _ _ _ => rfl), State.begun_keeps (f := State.mem) hlatent hheld (fun _ _ _ _ => rfl)]
  case fault =>
    obtain ⟨-, hmisplaced, -⟩ := id hL
    exact trapsWith_of_trap h (hexec s) (h.scratch_of_fault _ hteam hL (fun k hk => hplaced k (of_not_not hk))
      ((t.scratchFault_load _ _).trans (if_neg hmisplaced)))
  case poison =>
    obtain ⟨-, hpoisoned, -⟩ := id hL
    obtain ⟨w, hw⟩ := Option.ne_none_iff_exists'.1 hpoisoned
    obtain ⟨⟨hmem, hlow, hhigh⟩, hleast⟩ := Team.poisonIn_eq_some_iff.1 hw
    exact ⟨w, trapsWith_of_trap h (hexec s) (h.scratch_of_poison _ hteam (fun k hk => hplaced k (hall k hk)) hL hw),
      hmem, hlow, hhigh, hleast⟩

/-! ## Stores (R201) -/

/-- The team with bytes of listed lanes written, lane after lane. -/
def Team.putLanes (t : Team) (o : Nat → Nat) (data : Nat → List Byte) (l : List Nat) : Team :=
  l.foldl (fun t L => t.putScratch (o L) (data L)) t

section
variable {t : Team} {o : Nat → Nat} {data : Nat → List Byte} {l : List Nat}

/-- Writes of scratch change its bytes and marks alone. -/
theorem Team.putLanes_eq : t.putLanes o data l =
    { t with scratch := (t.putLanes o data l).scratch, sbad := (t.putLanes o data l).sbad, ssoft := (t.putLanes o data l).ssoft } := by
  refine foldl_inv (fun y : Team => y = { t with scratch := y.scratch, sbad := y.sbad, ssoft := y.ssoft }) _ (fun y L hy => ?_) l t rfl
  let u := y.putScratch (o L) (data L)
  exact congrArg (fun z : Team => { z with scratch := u.scratch, sbad := u.sbad, ssoft := u.ssoft }) hy

theorem Team.wf_putLanes (h : Memory.wf t.scratch = true) : Memory.wf (t.putLanes o data l).scratch = true :=
  foldl_inv (fun y : Team => Memory.wf y.scratch = true) _ (fun _ _ hy => Memory.wf_write hy _ _) l t h

/-- Bytes that no lane writes stay. -/
theorem Team.get_putLanes_outside {x : Nat} (h : ∀ L ∈ l, x < o L ∨ o L + (data L).length ≤ x) :
    Memory.get (t.putLanes o data l).scratch x = Memory.get t.scratch x := by
  induction l generalizing t with
  | nil => rfl
  | cons L l ih =>
    exact (ih fun k hk => h k (.tail _ hk)).trans (Memory.get_write_outside _ _ _ (h L (.head _)))

/-- Of the lanes of a mask, one whose bytes no higher lane writes leaves its bytes. -/
theorem Team.exists_scratch_putLanes {m : Mask} {L : Nat} (hwf : Memory.wf t.scratch = true) (hL : m.has L = true)
    (hclear : ∀ k, L < k → m.has k = true → o L + (data L).length ≤ o k ∨ o k + (data k).length ≤ o L) :
    ∃ u, Memory.wf u = true ∧ ∀ x, o L ≤ x → x < o L + (data L).length →
      Memory.get (t.putLanes o data m.lanes).scratch x = Memory.get (Memory.write u (o L) (data L)) x := by
  obtain ⟨l, r, hsplit, -, hafter⟩ := Mask.lanes_split hL
  refine ⟨(t.putLanes o data l).scratch, Team.wf_putLanes hwf, fun x hlow hhigh => ?_⟩
  have hfold : t.putLanes o data m.lanes = ((t.putLanes o data l).putScratch (o L) (data L)).putLanes o data r := by
    rw [hsplit, Team.putLanes, List.foldl_append]
    rfl
  rw [hfold, Team.get_putLanes_outside fun k hk => ?_]
  · rfl
  · have hk' : m.has k = true := Mask.mem_lanes.1 (hsplit ▸ List.mem_append_right _ (.tail _ hk))
    have := hclear k (hafter k hk) hk'
    omega

end

/-- The bytes that a lane stores: its words of `n` registers from `d`. -/
def Group.storeBytes (g : Group) (d n L : Nat) : List Byte := (List.range n).flatMap fun j => natLe ((g.vr (d + j)).lane L).toNat 4

theorem Group.length_storeBytes (g : Group) (d n L : Nat) : (g.storeBytes d n L).length = 4 * n := by
  simp [Group.storeBytes, List.length_flatMap, Nat.mul_comm]

/-- Aligned ranges of one length that differ do not meet. -/
theorem apart_of_aligned {p q z : Nat} (hp : p % z = 0) (hq : q % z = 0) (hne : q ≠ p) : p + z ≤ q ∨ q + z ≤ p := by
  obtain ⟨u, rfl⟩ := Nat.dvd_of_mod_eq_zero hp
  obtain ⟨v, rfl⟩ := Nat.dvd_of_mod_eq_zero hq
  rcases Nat.lt_trichotomy u v with huv | rfl | hvu
  · exact .inl (Nat.mul_le_mul_left z huv)
  · exact absurd rfl hne
  · exact .inr (Nat.mul_le_mul_left z hvu)

/-- Where no higher lane writes at a lane's offset, its words are there. -/
theorem Team.word32_putLanes {t : Team} {g : Group} {m : Mask} {o : Nat → Nat} {d n j L : Nat} (hwf : Memory.wf t.scratch = true)
    (halign : ∀ k, m.has k = true → o k % (4 * n) = 0) (hL : m.has L = true) (hlast : ∀ k, L < k → m.has k = true → o k ≠ o L)
    (hj : j < n) :
    (t.putLanes o (g.storeBytes d n) m.lanes).word32 (o L + 4 * j) = ((g.vr (d + j)).lane L).toNat := by
  obtain ⟨u, hu, hget⟩ := Team.exists_scratch_putLanes (data := g.storeBytes d n) hwf hL fun k hk hmk => by
    rw [Group.length_storeBytes, Group.length_storeBytes]
    exact apart_of_aligned (halign L hL) (halign k hmk) (hlast k hk hmk)
  have hread := Memory.read_write_flatMap hu (o L) (f := fun j => natLe ((g.vr (d + j)).lane L).toNat 4) (fun _ => length_natLe _ _) hj
  rw [Group.length_storeBytes] at hget
  rw [Team.word32, Memory.read_congr fun x h1 h2 => hget x (by omega) (by omega), Group.storeBytes, hread, leNat_natLe]
  exact Nat.mod_eq_of_lt (BitVec.isLt _)

theorem exec_eq_scratchStore {d a b : Reg} {i : Instr} {n : Nat}
    (hi : (i, n) ∈ [(Instr.stsw d a b, 1), (.stsd d a b, 2), (.stsq d a b, 4)]) (s : State) :
    exec i s = issue i s (fun x s => x.scratchStore s d a b n) := by
  simp only [List.mem_cons, List.not_mem_nil, or_false, Prod.mk.injEq] at hi
  rcases hi with ⟨rfl, rfl⟩ | ⟨rfl, rfl⟩ | ⟨rfl, rfl⟩ <;> rfl

/-- Settles O21: a store by what its checks of the lanes find, and the bytes that each lane leaves. -/
theorem scratchStores : Obligations.ScratchStores := by
  intro d a b i n hi s c g t h hteam hwf o fine
  have hexec := exec_eq_scratchStore hi s
  have hplaced (L : Nat) (hL : fine L) : t.scratchFault (o L) (4 * n) false true = none :=
    (t.scratchFault_store _ _).trans (if_pos hL)
  refine ⟨fun hfine => ⟨t.putLanes o (g.storeBytes d.toNat n) g.liveNow.lanes, ?run, fun x hx => ?frame, fun L j hL hlast hj => ?words,
    Team.putLanes_eq⟩, fun L hL => ?fault⟩
  case run =>
    refine runsTo_of_next h hexec ((h.scratch_of_fine _ hteam (fun L hL => hplaced L (hfine L hL)) nofun).trans ?_)
    simp only [h.ixOf_g, h.scratchOff_ixOf, Bool.false_eq_true, if_false]
    rw [State.setTeam_eq_of_team hteam]
    rfl
  case frame =>
    refine Team.get_putLanes_outside fun L hL => ?_
    have hout := hx L (Mask.mem_lanes.1 hL)
    rw [Group.length_storeBytes]
    simp only [inRange, Bool.and_eq_false_iff, decide_eq_false_iff_not] at hout
    omega
  case words => exact Team.word32_putLanes hwf (fun k hk => (hfine k hk).1) hL hlast hj
  case fault =>
    obtain ⟨-, hunfit, -⟩ := id hL
    exact trapsWith_of_trap h hexec (h.scratch_of_fault _ hteam hL (fun k hk => hplaced k (of_not_not hk))
      ((t.scratchFault_store _ _).trans (if_neg hunfit)))

/-! ## Atomics (R202) -/

/-- An atomic whose lanes are all fine applies its function lane after lane. -/
theorem runsTo_scratchAtomic {d a b : Reg} {i : Instr} {s : State} {c : Cur} {g : Group} {t : Team}
    {u : Ix → Word → Word → Nat → Word} {f : Group → Word → Word → Nat → Word}
    (hexec : ∀ s, exec i s = issue i s (fun x s => x.scratchAtomic s d a b (u x))) (hu : ∀ x old v L, u x old v L = f x.g old v L)
    (h : Starts i s c g) (hteam : (s.begun i c g).team g.team = some t)
    (hfine : ∀ L, g.liveNow.has L = true → scratchAt g a b L % 4 = 0 ∧ scratchAt g a b L + 4 ≤ 16384 * t.units
      ∧ t.overlapsTag (scratchAt g a b L) 4 = false ∧ t.poisonIn (scratchAt g a b L) 4 = none)
    {r : Team × List (Nat × Word)} (hr : (ixOf s c g).scratchSteps d a b (f g) t = r) :
    RunsTo i s c g ((((s.begun i c g).correctScratch c.gid g.team (g.liveNow.lanes.map (fun L => (scratchAt g a b L, 4)))).setTeam
      g.team (fun t => { r.1 with ssoft := t.ssoft })).setGroup c.gid (fun h => h.setV d.toNat g.liveNow (fun L => Assoc.getD r.2 L 0))) := by
  have hfun : u (ixOf s c g) = f g := funext₃ fun old v L => (hu _ old v L).trans (by rw [h.ixOf_g])
  refine runsTo_of_next h (hexec s) ((h.scratch_of_fine _ hteam (fun L hL => ?_) fun _ L hL => ?_).trans ?_)
  · obtain ⟨halign, hrange, htag, -⟩ := hfine L hL
    exact Team.scratchFault_atomic halign hrange htag
  · obtain ⟨-, -, -, hclean⟩ := hfine L hL
    exact hclean
  · simp only [hfun, h.ixOf_g, if_true, hr]
    rfl

/-- The lanes of an atomic in terms of the registers at issue. -/
theorem Starts.scratchSteps_ixOf {d a b : Reg} {i : Instr} {s : State} {c : Cur} {g : Group} (h : Starts i s c g)
    (f : Word → Word → Nat → Word) (t : Team) : (ixOf s c g).scratchSteps d a b f t =
      g.liveNow.lanes.foldl (fun ((t, l) : Team × List (Nat × Word)) L =>
        let old : Word := BitVec.ofNat 32 (t.word32 (scratchAt g a b L))
        (t.putScratch (scratchAt g a b L) (natLe (f old ((g.vr d.toNat).lane L) L).toNat 4), l ++ [(L, old)])) (t, []) := by
  simp only [Ix.scratchSteps, h.scratchOff_ixOf, Ix.vl, h.ixOf_g] <;> rfl

/-- Settles O22: each atomic by the function that it applies. -/
theorem scratchAtomics : Obligations.ScratchAtomics := by
  intro d a b i f hi s c g t h hteam o hfine r y
  have run {u : Ix → Word → Word → Nat → Word} (hexec : ∀ s, exec i s = issue i s (fun x s => x.scratchAtomic s d a b (u x)))
      (hu : ∀ x old v L, u x old v L = f x.g old v L) := runsTo_scratchAtomic hexec hu h hteam hfine (r := r) (h.scratchSteps_ixOf _ _)
  simp only [List.mem_cons, List.not_mem_nil, or_false, Prod.mk.injEq] at hi
  rcases hi with ⟨rfl, rfl⟩ | ⟨rfl, rfl⟩ | ⟨rfl, rfl⟩ | ⟨rfl, rfl⟩ | ⟨rfl, rfl⟩ | ⟨rfl, rfl⟩ | ⟨rfl, rfl⟩
    | ⟨rfl, rfl⟩
  case inr.inl | inr.inr.inl =>
    exact run (fun _ => by unfold exec; rfl) fun x _ _ _ => by
      by_cases htype : mrEtype x.g.mr = 0 <;> simp [Ix.et, htype, BitVec.slt, BitVec.ult]
  all_goals exact run (fun _ => by unfold exec; rfl) fun _ _ _ _ => rfl

end Sys2Proof.Machine
end

section
/-!
PROOF of the barriers (R204 to R211): the one rule for the checks that every barrier instruction makes, what a change of a barrier word
leaves in its team and in the groups that wait on it, and each instruction.
-/
namespace Sys2Proof.Machine
open Sys2Proof

/-! ## The checks of every barrier instruction (R204, R206) -/

section
variable {i : Instr} {s y : State} {c : Cur} {g : Group} {t : Team} (h : Starts i s c g) {a : Reg} {tag : Bool}
  (k : State → Nat → Team → Barrier → Done)
include h

/-- An instruction whose word passes the checks goes on with the barrier there, its single-bit errors corrected. -/
theorem Starts.barrier_of_fine {o : Nat} (ho : (g.sr a.toNat).toNat = o) (hteam : y.team g.team = some t) (halign : o % 8 = 0)
    (hrange : o + 8 ≤ 16384 * t.units) (hclean : t.tagged o = true → t.poisonIn o 8 = none) (htag : tag = true → t.tagged o = true) :
    (ixOf s c g).barrier y a tag k = k (y.correctScratch c.gid g.team [(o, 8)]) o t (t.barrier o) := by
  subst ho
  have hpoison : ¬ (t.tagged (g.sr a.toNat).toNat && (t.poisonIn (g.sr a.toNat).toNat 8).isSome) = true := by
    simpa using hclean
  have hplain : ¬ (tag && !t.tagged (g.sr a.toNat).toNat) = true := by simpa using htag
  simp only [Ix.barrier, h.ixOf_g, hteam, ixOf_gid, Team.inScratch_iff.2 hrange, Bool.not_true]
  rw [if_neg (not_not_intro halign), if_neg Bool.false_ne_true, if_neg hpoison, if_neg hplain]

end

/-! ## A table changed entry by entry -/

/-- An entry of a table whose entries are changed where they stand. -/
theorem Assoc.get_map_same {α : Type} {m : Assoc α} {f : Nat × α → Nat × α} (hf : ∀ p, (f p).1 = p.1) {k : Nat} {v : α}
    (h : Assoc.get m k = some v) : Assoc.get (m.map f) k = some (f (k, v)).2 := by
  induction m with
  | nil => cases h
  | cons p m ih =>
    obtain ⟨j, w⟩ := p
    have hfirst : f (j, w) = (j, (f (j, w)).2) := Prod.ext (hf _) rfl
    rw [List.map_cons, hfirst]
    rw [Assoc.get] at h ⊢
    by_cases hj : j = k
    · rw [if_pos hj] at h ⊢
      rw [← hj, ← Option.some.inj h]
    · rw [if_neg hj] at h ⊢
      exact ih h

/-! ## Groups that wait on a barrier (R208, R209) -/

/-- A group after the release of waiters on the word at `off` of team `tid`: of those on a parity other than `phase`, or of all. -/
def Group.released (g : Group) (i : Option Inst) (tid off : Nat) (ok phase : Bool) (t : Nat) (after : List Nat) : Group :=
  match g.park with
  | some (.barrier o q) => if g.team = tid ∧ o = off ∧ (!ok || decide (q ≠ phase)) then g.endWait ok i t after else g
  | _ => g

section
variable {g : Group} (i : Option Inst) {tid off : Nat} (ok phase : Bool) (t : Nat) (after : List Nat)

theorem Group.released_of_park (hteam : g.team = tid) {q : Bool} (hpark : g.park = some (.barrier off q)) :
    g.released i tid off ok phase t after = if !ok || decide (q ≠ phase) then g.endWait ok i t after else g := by
  simp only [Group.released, hpark, hteam, true_and]

theorem Group.released_of_team_ne (hteam : g.team ≠ tid) : g.released i tid off ok phase t after = g := by
  unfold Group.released
  split
  · exact if_neg fun h => hteam h.1
  · rfl

theorem State.group_releaseWaiters {s : State} {k : Nat} (hgroup : s.group k = some g) :
    (s.releaseWaiters tid off ok phase t after).group k = some (g.released (s.instOf k g 0 2) tid off ok phase t after) := by
  refine (Assoc.get_map_same (fun p => ?_) hgroup).trans (congrArg some ?_)
  · split
    · split <;> rfl
    · rfl
  · unfold Group.released
    cases g.park with
    | none => rfl
    | some p =>
      cases p with
      | barrier o q => exact (apply_ite Prod.snd ..)
      | _ => rfl

end

/-- While a team's slots stay, what else is replaced of it leaves the threads that each scope holds alone. -/
theorem State.instOf_setTeam {s : State} {tid : Nat} {t t' : Team} (hteam : s.team tid = some t) (hslots : t'.slots = t.slots) (k : Nat)
    (g : Group) (lane scope : Nat) : (s.setTeam tid (fun _ => t')).instOf k g lane scope = s.instOf k g lane scope := by
  by_cases hk : g.team = tid
  · subst hk
    simp only [State.instOf, State.team_setTeam_same, hteam, Option.map_some, hslots]
  · simp only [State.instOf, State.team_setTeam_other _ _ hk]

/-! ## A barrier word changed (R208) -/

section
variable {s : State} {tid o : Nat} {t : Team} {b : Barrier} (hteam : s.team tid = some t) (hinv : b.inv = false)
include hteam hinv

/-- Where every arrival has been made and nothing is pending, the phase turns and the waiters on it go on. -/
theorem State.putBarrier_of_last (hlast : b.arrivals = b.expected ∧ b.pending = 0) : ∃ t', t'.slots = t.slots
    ∧ t'.scratch = (t.putScratch o (natLe ({ b with phase := !b.phase, arrivals := 0 } : Barrier).word 8)).scratch
    ∧ s.putBarrier tid o b = (s.setTeam tid (fun _ => t')).releaseWaiters tid o true (!b.phase) (t.phaseTime o) (t.phaseAfter o) := by
  obtain ⟨harrived, hpending⟩ := hlast
  simp only [State.putBarrier, hinv, harrived, hpending, hteam, State.setTeam_eq_of_team hteam, decide_true, Bool.not_false, Bool.and_true,
    if_true, Option.map_some, Option.getD_some]
  refine ⟨_, ?_, ?_, rfl⟩ <;> rfl

/-- Else the word holds what is written. -/
theorem State.putBarrier_of_not_last (hnot : ¬ (b.arrivals = b.expected ∧ b.pending = 0)) :
    s.putBarrier tid o b = s.setTeam tid (fun _ => t.putScratch o (natLe b.word 8)) := by
  have hdone : (!b.inv && decide (b.arrivals = b.expected) && decide (b.pending = 0)) = false := by simpa [hinv] using hnot
  simp only [State.putBarrier, hdone, hteam, State.setTeam_eq_of_team hteam, Bool.false_eq_true, if_false]
  rfl

end

/-- An arrival or a delivery that completes the phase turns it for those that wait on it, and any other is counted (R208). -/
theorem putBarrier_turns_phase_iff {s : State} {tid o : Nat} {t : Team} {b : Barrier} (hteam : s.team tid = some t)
    (hwf : Memory.wf t.scratch = true) (hexpected : b.expected < 2 ^ 14) (harrivals : b.arrivals ≤ b.expected) (hlow : -(2 ^ 27) ≤ b.pending)
    (hhigh : b.pending < 2 ^ 27) (hinv : b.inv = false) :
    let r := s.putBarrier tid o b
    let last := b.arrivals = b.expected ∧ b.pending = 0
    ∃ t', r.team tid = some t'
      ∧ (t'.barrier o).phase = (if last then !b.phase else b.phase)
      ∧ (t'.barrier o).arrivals = (if last then 0 else b.arrivals)
      ∧ (t'.barrier o).expected = b.expected ∧ (t'.barrier o).pending = b.pending
      ∧ (∀ k g, s.group k = some g → g.team = tid → ∀ q, g.park = some (.barrier o q) →
          r.group k = some (if last ∧ q = b.phase then g.endWait true (s.instOf k g 0 2) (t.phaseTime o) (t.phaseAfter o) else g))
      ∧ (∀ k g, s.group k = some g → g.team ≠ tid → r.group k = some g) := by
  intro r last
  have hfits : b.arrivals < 2 ^ 14 := Nat.lt_of_le_of_lt harrivals hexpected
  by_cases hlast : last
  · obtain ⟨t', hslots, hscratch, hput⟩ := State.putBarrier_of_last (o := o) hteam hinv hlast
    have hbarrier : t'.barrier o = { b with phase := !b.phase, arrivals := 0 } := by
      rw [Team.barrier, Team.word64, hscratch]
      exact Team.barrier_putScratch (b := { b with phase := !b.phase, arrivals := 0 }) hexpected (Nat.two_pow_pos _) hwf o hlow hhigh
    have hwaits {k g} (hgroup : s.group k = some g) :
        r.group k = some (g.released (s.instOf k g 0 2) tid o true (!b.phase) (t.phaseTime o) (t.phaseAfter o)) := by
      have hafter := State.group_releaseWaiters (s := s.setTeam tid (fun _ => t')) (tid := tid) (off := o) true (!b.phase)
        (t.phaseTime o) (t.phaseAfter o) hgroup
      rwa [State.instOf_setTeam hteam hslots, ← hput] at hafter
    have hown : r.team tid = some t' :=
      (congrArg (fun z : State => z.team tid) hput).trans ((State.team_setTeam_same ..).trans (by rw [hteam]; rfl))
    refine ⟨t', hown, ?_⟩
    rw [hbarrier]
    simp only [hlast, true_and, if_true]
    refine ⟨fun k g hgroup hmine q hpark => ?_, fun k g hgroup hother => ?_⟩
    · rw [hwaits hgroup, Group.released_of_park _ _ _ _ _ hmine hpark]
      simp
    · rw [hwaits hgroup, Group.released_of_team_ne _ _ _ _ _ hother]
  · have hput : r = _ := State.putBarrier_of_not_last (o := o) hteam hinv hlast
    have hown : r.team tid = some (t.putScratch o (natLe b.word 8)) := by rw [hput, State.team_setTeam_same, hteam]; rfl
    have hgroups k : r.group k = s.group k := by rw [hput]; rfl
    refine ⟨_, hown, ?_⟩
    rw [Team.barrier_putScratch hexpected hfits hwf o hlow hhigh]
    simp only [hlast, false_and, if_false, true_and]
    exact ⟨fun k g hgroup _ _ _ => (hgroups k).trans hgroup, fun k g hgroup _ => (hgroups k).trans hgroup⟩

/-! ## BINIT -/

/-- The word that BINIT writes: a barrier that expects `n` arrivals, or for none a plain word of zero (R207). -/
def initWord (n : Nat) : Nat :=
  if n = 0 then 0 else ({ phase := false, inv := false, err := false, expected := n, arrivals := 0, pending := 0 } : Barrier).word

theorem initWord_eq {n : Nat} (hn : n < 2 ^ 14) : initWord n = if n = 0 then 0 else 2 ^ 63 + n * 2 ^ 42 := by
  rw [initWord, Barrier.word_eq hn (Nat.two_pow_pos _)]
  simp [b2n]

theorem initWord_lt {n : Nat} (hn : n < 2 ^ 14) : initWord n < 2 ^ 64 := by
  rw [initWord_eq hn]
  split <;> omega

/-- What BINIT makes of a team (R205, R207). -/
def Team.initBarrier (t : Team) (o n : Nat) : Team :=
  { t.putScratch o (natLe (initWord n) 8) with
    tags := if n = 0 then t.tags.filter (fun y => decide (y ≠ o)) else t.tags.filter (fun y => decide (y ≠ o)) ++ [o],
    btimes := Assoc.del (Assoc.del t.btimes (2 * o)) (2 * o + 1),
    bafter := Assoc.del (Assoc.del t.bafter (2 * o)) (2 * o + 1) }

theorem Team.tagged_initBarrier_same (t : Team) (o n : Nat) : (t.initBarrier o n).tagged o = decide (n ≠ 0) := by
  by_cases hn : n = 0 <;> simp [Team.tagged, Team.initBarrier, hn]

theorem Team.tagged_initBarrier_other (t : Team) {o p : Nat} (n : Nat) (hp : p ≠ o) : (t.initBarrier o n).tagged p = t.tagged p := by
  by_cases hn : n = 0 <;> simp [Team.tagged, Team.initBarrier, hn, hp]

theorem Team.word64_initBarrier {t : Team} (hwf : Memory.wf t.scratch = true) (o : Nat) {n : Nat} (hn : n < 2 ^ 14) :
    (t.initBarrier o n).word64 o = if n = 0 then 0 else 2 ^ 63 + n * 2 ^ 42 :=
  (Team.word64_putScratch hwf o (initWord_lt hn)).trans (initWord_eq hn)

theorem Team.get_initBarrier_outside (t : Team) {o n x : Nat} (hx : inRange o 8 x = false) :
    Memory.get (t.initBarrier o n).scratch x = Memory.get t.scratch x := by
  simp only [inRange, Bool.and_eq_false_iff, decide_eq_false_iff_not] at hx
  exact Memory.get_write_outside _ _ _ (by rw [length_natLe]; omega)

/-- Settles O23: BINIT by who waits on the word and by the count; the word of a barrier by its fields. -/
theorem barrierInit : Obligations.BarrierInit := by
  refine ⟨?_, fun t o b hwf hexpected harrivals hlow hhigh => Team.barrier_putScratch hexpected harrivals hwf o hlow hhigh⟩
  intro a b s c g t i o n y h hteam hwf halign hrange hclean
  have hword (k : State → Nat → Team → Barrier → Done) :=
    h.barrier_of_fine (tag := false) k rfl hteam halign hrange hclean nofun
  refine ⟨fun hnone hn => ?written, fun hbad => ?refused⟩
  case written =>
    obtain ⟨e, hread⟩ := State.team_correctScratch (gid := c.gid) [(o, 8)] hteam
    let u : Team := { t with ssoft := e }
    refine ⟨u.initBarrier o n, runsTo_of_next h (by unfold exec; rfl) ((hword _).trans ?_),
      Team.word64_initBarrier (t := u) hwf o hn, Team.tagged_initBarrier_same _ _ _, fun _ hp => Team.tagged_initBarrier_other u n hp,
      fun _ hx => Team.get_initBarrier_outside u hx⟩
    have hpasses : ¬ (y.waitersOn g.team o ≠ [] ∨ n / 2 ^ 14 ≠ 0) := by
      rw [hnone, Nat.div_eq_of_lt hn]
      simp
    simp only [h.ixOf_g]
    rw [if_neg hpasses, State.setTeam_eq_of_team hread]
    rfl
  case refused =>
    refine failsIn_of_trap h (by unfold exec; rfl) ((hword _).trans ?_)
    simp only [h.ixOf_g]
    exact if_pos (hbad.imp_right fun hn => by omega)

/-! ## Arrivals, waits, tests and invalidation -/

section
variable {s : State} {gid tid o : Nat} {t : Team} (hteam : s.team tid = some t)
include hteam

/-- What waiting on a word does to the group that waits (R209). -/
theorem State.waitOn_of_team (q : Bool) : s.waitOn gid tid o q = s.setGroup gid (fun h =>
    if (t.barrier o).phase ≠ q then h.endWait true (s.instOf gid h 0 2) (t.doneTime o) (t.doneAfter o)
    else if (t.barrier o).inv then h.endWait false none 0 []
    else { h with park := some (.barrier o q) }) := by
  simp only [State.waitOn, hteam]
  by_cases hphase : (t.barrier o).phase = q <;> cases hinv : (t.barrier o).inv <;> simp [hphase]

end

/-- Settles O24: each instruction by what its word holds, and a changed word by whether the phase turns. -/
theorem barriers : Obligations.Barriers := by
  refine ⟨?_,
    fun s tid o t b hteam hwf hexpected harrivals hlow hhigh hinv => putBarrier_turns_phase_iff hteam hwf hexpected harrivals hlow hhigh hinv⟩
  intro d a b s c g t o n w read refused fine arrived
  refine ⟨fun hfine => ?barr, fun hfine => ?barrtx, fun hfine => ?bwait, fun hfine => ?btest, fun hfine => ?binv⟩
  all_goals
    obtain ⟨h, hteam, halign, hrange, htag, hclean⟩ := hfine
    have hword (k : State → Nat → Team → Barrier → Done) :=
      h.barrier_of_fine (tag := true) k rfl hteam halign hrange (fun _ => hclean) (fun _ => htag)
  case barr =>
    refine ⟨fun hinv => runsTo_of_next h (by unfold exec; rfl) ((hword _).trans ?_),
      fun hinv hall => failsIn_of_trap h (by unfold exec; rfl) ((hword _).trans ?_),
      fun hinv hmore => staysAt_of_stay h (by unfold exec; rfl) ((hword _).trans ?_)⟩
    all_goals simp only [h.ixOf_g]
    · exact if_pos hinv
    · exact (if_neg (ne_true_of_eq_false hinv)).trans (if_pos hall)
    · refine (if_neg (ne_true_of_eq_false hinv)).trans ((if_neg hmore).trans ?_)
      simp only [Ix.arrive, h.ixOf_g]
      rfl
  case barrtx =>
    refine ⟨fun hinv => runsTo_of_next h (by unfold exec; rfl) ((hword _).trans ?_),
      fun hinv hsmall hsum hmore => runsTo_of_next h (by unfold exec; rfl) ((hword _).trans ?_),
      fun hinv hbad => failsIn_of_trap h (by unfold exec; rfl) ((hword _).trans ?_)⟩
    all_goals simp only [h.ixOf_g]
    · exact if_pos hinv
    · have hfits : ¬ (n / 2 ^ 27 ≠ 0 ∨ (2 ^ 27 - 1 : Int) < w.pending + n) := by
        rw [Nat.div_eq_of_lt hsmall]
        simpa using hsum
      refine (if_neg (ne_true_of_eq_false hinv)).trans ((if_neg hfits).trans ((if_neg hmore).trans ?_))
      simp only [Ix.arrive, h.ixOf_g]
      rfl
    · refine (if_neg (ne_true_of_eq_false hinv)).trans ?_
      by_cases hover : n / 2 ^ 27 ≠ 0 ∨ (2 ^ 27 - 1 : Int) < w.pending + n
      · exact if_pos hover
      · exact (if_neg hover).trans (if_pos (by_contra fun hmore => hbad ⟨by omega, by omega, hmore⟩))
  case bwait =>
    obtain ⟨e, hread⟩ := State.team_correctScratch (gid := c.gid) [(o, 8)] hteam
    refine staysAt_of_stay h (by unfold exec; rfl) ((hword _).trans ?_)
    simp only [h.ixOf_g]
    exact congrArg Done.stay (State.waitOn_of_team hread _)
  case btest =>
    refine runsTo_of_next h (by unfold exec; rfl) ((hword _).trans ?_)
    rfl
  case binv =>
    refine ⟨fun hinv => runsTo_of_next h (by unfold exec; rfl) ((hword _).trans ?_),
      fun hinv => runsTo_of_next h (by unfold exec; rfl) ((hword _).trans ?_)⟩
    all_goals simp only [h.ixOf_g]
    · exact congrArg Done.next (if_pos hinv)
    · exact congrArg Done.next (if_neg (ne_true_of_eq_false hinv))

end Sys2Proof.Machine
end

section
/-!
PROOF of the copies into scratch and of the waits on path counters (R213, R220, R397): the checks of CPGS in their order, the copy that it
enters, and each wait by the counters that it names.
-/
namespace Sys2Proof.Machine
open Sys2Proof

/-! ## Copies (R213) -/

/-- The barrier that a copy is bound to: none for the word of ones. -/
def copyBar (bv : Dword) : Option Nat := if bv = BitVec.allOnes 64 then none else some bv.toNat

/-- The state in which a copy is under way on path COPY, its first chunk to be delivered. -/
def State.enterCopy (s : State) (gid op : Nat) (q : Copy) : State :=
  ({ s.setGroup gid (fun h => h.raisePath 2 op 0) with copies := Assoc.put s.copies op q } : State).post (.copyChunkDelivery op)

/-- The state in which a copy has announced its bytes to its barrier of team `t`, or kept them to itself (R213). -/
def State.announce (s : State) (gid tid : Nat) (t : Team) (len : Nat) (keep : Bool) : Option Nat → State
  | none => s
  | some o =>
    if keep then s.correctScratch gid tid [(o, 8)]
    else (s.correctScratch gid tid [(o, 8)]).setTeam tid (fun y =>
      y.putScratch o (natLe ({ t.barrier o with pending := (t.barrier o).pending + len } : Barrier).word 8))

theorem State.uid_announce (s : State) (gid tid : Nat) (t : Team) (len : Nat) (keep : Bool) (bar : Option Nat) :
    (s.announce gid tid t len keep bar).uid = s.uid := by
  cases bar with
  | none => rfl
  | some o =>
    have hread := State.correctScratch_keeps (f := State.uid) (fun _ _ _ => rfl) s gid tid [(o, 8)]
    cases keep <;> exact hread

section
variable {t : Team} {dst src len rest : Nat} {bar : Option Nat}

/-- What follows the checks of CPGS that come before it looks at what its barrier word holds, once they pass. -/
theorem passes_of_copy_checks {misaligned barMisaligned outside barOutside reserved poisoned next : Done} (hdst : dst % 16 = 0)
    (hsrc : src % 16 = 0) (hlen : len % 16 = 0) (hsome : 0 < len) (hmost : len ≤ 786432) (hroom : dst + len ≤ 16384 * t.units)
    (hrest : rest = 0)
    (hword : ∀ o, bar = some o → o % 8 = 0 ∧ o + 8 ≤ 16384 * t.units ∧ (t.tagged o = true → t.poisonIn o 8 = none)) :
    (if dst % 16 ≠ 0 ∨ src % 16 ≠ 0 ∨ len % 16 ≠ 0 then misaligned
      else if bar.getD 0 % 8 ≠ 0 then barMisaligned
      else if len = 0 ∨ 786432 < len ∨ !t.inScratch dst len then outside
      else if bar.isSome ∧ !t.inScratch (bar.getD 0) 8 then barOutside
      else if rest ≠ 0 then reserved
      else if bar.isSome && t.tagged (bar.getD 0) && (t.poisonIn (bar.getD 0) 8).isSome then poisoned
      else next) = next := by
  have hsize : ¬ (len = 0 ∨ 786432 < len ∨ (!t.inScratch dst len) = true) := by
    rintro (hzero | hbig | hout)
    · omega
    · omega
    · simp [Team.inScratch_iff.2 hroom] at hout
  rw [if_neg (by simp [hdst, hsrc, hlen]), if_neg hsize, if_neg (not_not_intro hrest)]
  cases bar with
  | none => simp
  | some o =>
    obtain ⟨halign, hrange, hclean⟩ := hword o rfl
    have hpoison : (t.tagged o && (t.poisonIn o 8).isSome) = false := by simpa using hclean
    simp [halign, Team.inScratch_iff.2 hrange, hpoison]

end

section
variable {d a b : Reg} {s y : State} {c : Cur} {g : Group} {t : Team} (h : Starts (.cpgs d a b) s c g)
include h

/-- An operation of an instruction that has not waited is counted on its path under the key of the issue (R219). -/
theorem Starts.raise_ixOf (path tw : Nat) : (ixOf s c g).raise y path tw = y.setGroup c.gid (fun h => h.raisePath path (s.uid + 1) tw) := by
  rw [Ix.raise, h.again_ixOf, h.op_ixOf]
  rfl

theorem Starts.enterCopy_ixOf (q : Copy) :
    ({ (ixOf s c g).raise y 2 0 with copies := Assoc.put y.copies (ixOf s c g).op q } : State).post (.copyChunkDelivery (ixOf s c g).op)
      = y.enterCopy c.gid (s.uid + 1) q := by
  rw [h.raise_ixOf, h.op_ixOf]
  rfl

variable (hteam : (s.begun (.cpgs d a b) c g).team g.team = some t) {dst src len : Nat} {bv : Dword} {bar : Option Nat}
  (hdst : (g.sr d.toNat).toNat = dst) (hsrc : (g.sr a.toNat).toNat % 2 ^ 56 = src) (hlen : (g.sr b.toNat).toNat % 2 ^ 20 = len)
  (hbv : g.sr (b.toNat + 1) = bv) (hbar : copyBar bv = bar)
  (hplaced : dst % 16 = 0 ∧ src % 16 = 0 ∧ len % 16 = 0 ∧ 0 < len ∧ len ≤ 786432 ∧ dst + len ≤ 16384 * t.units
    ∧ (g.sr b.toNat).toNat / 2 ^ 20 % 2 ^ 43 = 0)
  (hword : ∀ o, bar = some o → o % 8 = 0 ∧ o + 8 ≤ 16384 * t.units ∧ (t.tagged o = true → t.poisonIn o 8 = none))
include hteam hdst hsrc hlen hbv hbar hplaced hword

/-- A copy whose checks pass announces its bytes and is entered. -/
theorem Starts.cpgs_of_passes {keep : Bool} (hkeep : (g.sr b.toNat).getLsbD 63 = keep) (hclear : t.overlapsTag dst len = false)
    (hvalid : ∀ o, bar = some o → t.tagged o = true ∧ (t.barrier o).inv = false
      ∧ (keep = true ∨ (t.barrier o).pending + len ≤ 2 ^ 27 - 1)) :
    RunsTo (.cpgs d a b) s c g (((s.begun (.cpgs d a b) c g).announce c.gid g.team t len keep bar).enterCopy c.gid (s.uid + 1)
      { gid := c.gid, team := g.team, func := t.func, dst := dst, src := src, len := len, bar := bar, chunks := 0, time := g.time,
        waiting := false }) := by
  have hbarrier : ¬ (bar.isSome ∧ (!t.tagged (bar.getD 0) ∨ (t.barrier (bar.getD 0)).inv)) := by
    cases bar with
    | none => simp
    | some o => simp [hvalid o rfl]
  have hfits : ¬ (!keep ∧ bar.isSome ∧ (2 ^ 27 - 1 : Int) < (t.barrier (bar.getD 0)).pending + len) := by
    cases bar with
    | none => simp
    | some o =>
      obtain ⟨-, -, hkeep | hsum⟩ := hvalid o rfl
      · simp [hkeep]
      · simpa using fun _ => hsum
  have hannounced (y : State) : (if keep ∨ bar.isNone then (if bar.isSome then y.correctScratch c.gid g.team [(bar.getD 0, 8)] else y)
      else (if bar.isSome then y.correctScratch c.gid g.team [(bar.getD 0, 8)] else y).setTeam g.team (fun z => z.putScratch (bar.getD 0)
        (natLe ({ t.barrier (bar.getD 0) with pending := (t.barrier (bar.getD 0)).pending + len } : Barrier).word 8)))
      = y.announce c.gid g.team t len keep bar := by
    cases bar <;> cases keep <;> rfl
  obtain ⟨hdst16, hsrc16, hlen16, hsome, hmost, hroom, hrest⟩ := hplaced
  subst hdst hsrc hlen hkeep hbv hbar
  refine runsTo_of_next h (by unfold exec; rfl) ?_
  rw [h.ixOf_g, hteam]
  exact (passes_of_copy_checks hdst16 hsrc16 hlen16 hsome hmost hroom (bits_of_div_mod hrest) hword).trans
    ((if_neg hbarrier).trans ((if_neg (ne_true_of_eq_false hclear)).trans ((if_neg hfits).trans
      (congrArg Done.next ((h.enterCopy_ixOf _).trans (congrArg (State.enterCopy · _ _ _) (hannounced _)))))))

/-- A copy that is bound to a plain word or to an invalid barrier is refused. -/
theorem Starts.cpgs_of_not_barrier {o : Nat} (ho : bar = some o) (hbad : t.tagged o = false ∨ (t.barrier o).inv = true) :
    FailsIn (.cpgs d a b) s c g ((s.begun (.cpgs d a b) c g).correctScratch c.gid g.team [(o, 8)]) (trapPA 0x23 bv 0) := by
  have hrefused : bar.isSome ∧ (!t.tagged (bar.getD 0) ∨ (t.barrier (bar.getD 0)).inv) := by simpa [ho] using hbad
  have hread (y : State) : (if bar.isSome then y.correctScratch c.gid g.team [(bar.getD 0, 8)] else y)
      = y.correctScratch c.gid g.team [(o, 8)] := by simp [ho]
  obtain ⟨hdst16, hsrc16, hlen16, hsome, hmost, hroom, hrest⟩ := hplaced
  subst hdst hsrc hlen hbv hbar
  refine failsIn_of_trap h (by unfold exec; rfl) ?_
  rw [h.ixOf_g, hteam]
  exact (passes_of_copy_checks hdst16 hsrc16 hlen16 hsome hmost hroom (bits_of_div_mod hrest) hword).trans
    ((if_pos hrefused).trans (congrArg (Done.trap · _) (hread _)))

end

/-! ## Waits (R220, R397) -/

/-- Counters that have not all fallen to their thresholds. -/
theorem Group.not_fallen_iff {g : Group} {n : List Nat} {m : Nat} :
    ¬ (List.range m).all (fun k => decide (g.counter k ≤ n.getD k 0)) = true ↔ ∃ k, k < m ∧ n.getD k 0 < g.counter k := by
  simp

/-- Settles O25: CPGS by its barrier, and each wait by whether its counters have fallen. -/
theorem copiesAndPathWaits : Obligations.CopiesAndPathWaits := by
  refine ⟨?cpgs, fun l st cp t s c g h => ?waitc, fun a b s c g h => ?waitp⟩
  case cpgs =>
    intro d a b s c g t i y dst src len keep bv w z counted h hteam huid hdst hsrc hlen hsome hmost hroom hclear hrest
    have hplaced : dst % 16 = 0 ∧ src % 16 = 0 ∧ len % 16 = 0 ∧ 0 < len ∧ len ≤ 786432 ∧ dst + len ≤ 16384 * t.units
      ∧ (g.sr b.toNat).toNat / 2 ^ 20 % 2 ^ 43 = 0 := ⟨hdst, hsrc, hlen, hsome, hmost, hroom, hrest⟩
    have hentered {u : State} {bar : Option Nat} (hu : u.uid = s.uid + 1) : u.enterCopy c.gid (s.uid + 1)
        { gid := c.gid, team := g.team, func := t.func, dst := dst, src := src, len := len, bar := bar, chunks := 0, time := g.time,
          waiting := false } = (counted u bar).post (.copyChunkDelivery (s.uid + 1)) := by
      rw [← hu]
      rfl
    have hbound (hbv : bv ≠ BitVec.allOnes 64) : copyBar bv = some bv.toNat := if_neg hbv
    refine ⟨fun hnone => ?unbound, fun hbv halign hrange htag hclean hinv hfits => ?bound, fun hbv halign hrange hclean hbad => ?refused⟩
    case unbound =>
      rw [← hentered huid]
      exact h.cpgs_of_passes hteam rfl rfl rfl rfl (if_pos hnone) hplaced nofun rfl hclear nofun
    case bound =>
      have hannounced := (State.uid_announce y c.gid g.team t len keep (some bv.toNat)).trans huid
      rw [← hentered (u := ite _ _ _) hannounced]
      refine h.cpgs_of_passes hteam rfl rfl rfl rfl (hbound hbv) hplaced ?_ rfl hclear ?_
      · rintro o ⟨⟩
        exact ⟨halign, hrange, fun _ => hclean⟩
      · rintro o ⟨⟩
        exact ⟨htag, hinv, hfits⟩
    case refused =>
      refine h.cpgs_of_not_barrier hteam rfl rfl rfl rfl (hbound hbv) hplaced ?_ rfl hbad
      rintro o ⟨⟩
      exact ⟨halign, hrange, hclean⟩
  case waitc =>
    intro n stood
    refine ⟨fun hstood hfell => ?passes, fun hwaits => ?stalls⟩
    case passes =>
      refine runsTo_of_next h (by unfold exec; rfl) ?_
      simp only [h.ixOf_g]
      exact (if_neg (ne_true_of_eq_false hstood)).trans (if_pos (by simpa using hfell))
    case stalls =>
      refine exec_of_stall h (by unfold exec; rfl) ?_
      simp only [h.ixOf_g]
      by_cases hstood : stood = true
      · exact if_pos hstood
      · exact (if_neg hstood).trans (if_neg (Group.not_fallen_iff.2 (hwaits.resolve_left hstood)))
  case waitp =>
    intro stood
    refine ⟨fun hstood hfell => ?passes, fun hwaits => ?stalls⟩
    case passes =>
      refine runsTo_of_next h (by unfold exec; rfl) ?_
      simp only [h.ixOf_g]
      exact (if_neg (ne_true_of_eq_false hstood)).trans (if_pos hfell)
    case stalls =>
      refine exec_of_stall h (by unfold exec; rfl) ?_
      simp only [h.ixOf_g]
      by_cases hstood : stood = true
      · exact if_pos hstood
      · exact (if_neg hstood).trans (if_neg (Nat.not_le.2 (hwaits.resolve_left hstood)))

end Sys2Proof.Machine
end

section
/-!
PROOF of what a request for a line leaves alone (R223, R227, R228, R231): a reading of the state that looks at neither the slices nor the
dies nor what is in flight finds no request, no transfer, no service of a slice and no result on its way.
-/
namespace Sys2Proof.Machine
open Sys2Proof

/-! ## Requests and transfers -/

/-- The reading looks at nothing that the traffic of the memory system changes. -/
structure Unasked {γ : Type} (f : State → γ) : Prop where
  slices : ∀ s m, f { s with slices := m } = f s
  dies : ∀ s m, f { s with dies := m } = f s
  agenda : ∀ s m, f { s with agenda := m } = f s

namespace Unasked
variable {γ : Type} {f : State → γ} (h : Unasked f)
include h

theorem setSlice (s : State) (k : Nat) (g : Slice → Slice) : f (s.setSlice k g) = f s := h.slices s _

theorem post (s : State) (e : Event) : f (s.post e) = f s := h.agenda s _

theorem postOnce (s : State) (e : Event) : f (s.postOnce e) = f s := by
  unfold State.postOnce
  split
  · rfl
  · exact h.post s e

theorem postOnceAt (s : State) (t : Nat) (e : Event) : f (s.postOnceAt t e) = f s := by
  unfold State.postOnceAt
  split
  · rfl
  · exact h.agenda s _

theorem askGrant (s : State) (k : Nat) (wb : Bool) : f (s.askGrant k wb) = f s := by
  unfold State.askGrant
  simp only
  split
  · rfl
  · exact h.agenda s _

theorem touch (s : State) (pa : Nat) : f (s.touch pa) = f s := State.touch_keeps h.agenda h.dies s pa

theorem wantLine (s : State) (die own pa : Nat) (w : Bool) : f (s.wantLine die own pa w) = f s :=
  State.wantLine_keeps h.slices h.agenda h.dies s die own pa w

theorem ask (s : State) (port line : Nat) (write pref : Bool) : f (s.ask port line write pref) = f s := by
  unfold State.ask
  simp only
  split
  · rfl
  · rw [h.askGrant, h.setSlice]

theorem routeVia (s : State) (die own pa : Nat) (write : Bool) : f (s.routeVia die own pa write) = f s := by
  unfold State.routeVia
  split
  · exact h.postOnce s _
  · rfl
  · split
    · exact h.touch s pa
    · exact h.ask s _ _ _ _

theorem route (s : State) (core pa : Nat) (write : Bool) : f (s.route core pa write) = f s := h.routeVia s _ _ pa write

theorem writeBack (s : State) (core line : Nat) (data : List (Nat × Byte)) : f (s.writeBack core line data) = f s := by
  unfold State.writeBack State.writeBackVia
  split
  · exact h.touch s _
  · simp only
    rw [h.askGrant, h.setSlice]

/-! ## The slices (R227 to R230) -/

theorem writeOut (s : State) (k : Nat) (w : WriteBack) : f (s.writeOut k w) = f s := by
  unfold State.writeOut
  simp only
  split
  · rw [h.setSlice, h.setSlice]
  · split
    · rw [h.setSlice, h.setSlice]
    · rw [h.touch, h.setSlice]

theorem startFill {s t : State} {k line : Nat} (hfill : s.startFill k line = some t) : f t = f s := by
  have begins (u : State) : f (((u.setSlice k (fun x => { x with misses := x.misses ++ [line] })).touch (line * 256)).post
      (.l2FillComplete line false)) = f u := by rw [h.post, h.touch, h.setSlice]
  unfold State.startFill at hfill
  simp only at hfill
  split at hfill
  · cases hfill
    exact begins s
  · split at hfill
    · cases hfill
    · cases hfill
      rw [begins]
      split
      · rw [h.touch, h.setSlice]
      · rw [h.setSlice]

theorem missFill {s t : State} {k : Nat} {r : L2Req} (hfill : s.missFill k r = some t) : f t = f s := by
  obtain ⟨u, hu, rfl⟩ := Option.map_eq_some_iff.1 hfill
  split
  · rw [h.setSlice, h.startFill hu]
  · exact h.startFill hu

theorem holdInSet (s : State) (k : Nat) (r : L2Req) (early : Bool) : f (s.holdInSet k r early) = f s := h.setSlice s k _

theorem drain (k b n : Nat) (s : State) : f (s.drain k b n) = f s := by
  induction n generalizing s with
  | zero => rfl
  | succ n ih =>
    have pops (u : State) (rest : List L2Req) : f (u.setSlice k (fun x => x.setBank b (fun y => { y with bypass := rest }))) = f u :=
      h.setSlice u k _
    unfold State.drain
    simp only
    split
    · rfl
    · split
      · split
        · rw [ih, h.holdInSet, pops]
        · rfl
      · split
        · rw [ih, h.setSlice, pops]
        · split
          · rfl
          · split
            · next u hu => rw [ih, pops, h.missFill hu]
            · split
              · rw [ih, h.holdInSet, pops, h.postOnceAt]
              · exact h.postOnceAt s _ _

theorem serveSet (k b set n : Nat) (s : State) : f (s.serveSet k b set n) = f s := by
  induction n generalizing s with
  | zero => rfl
  | succ n ih =>
    unfold State.serveSet
    simp only
    split
    · rfl
    · split
      · rfl
      · split
        · rw [ih, h.setSlice, h.setSlice]
        · split
          · rfl
          · split
            · next u hu => rw [h.setSlice, h.missFill hu]
            · exact h.postOnceAt s _ _

theorem serveBank (k b n : Nat) (s : State) : f (s.serveBank k b n) = f s := by
  induction n generalizing s with
  | zero => rfl
  | succ n ih =>
    have served (u : State) (sets : List Nat) : f ((sets.foldl (fun s set => s.serveSet k b set 17) u).drain k b 33) = f u := by
      rw [h.drain, foldl_keeps f _ (fun s set => h.serveSet k b set 17 s)]
    unfold State.serveBank
    simp only
    split
    · exact served s _
    · rw [ih, served]

theorem serveSlice (s : State) (k : Nat) : f (s.serveSlice k) = f s := by
  have served : f ((List.range 4).foldl (fun s b => s.serveBank k b 48) s) = f s :=
    foldl_keeps f _ (fun s b => h.serveBank k b 48 s) _ s
  unfold State.serveSlice
  simp only
  split
  · exact served
  · rw [h.askGrant, served]

end Unasked

end Sys2Proof.Machine
end

section
/-!
PROOF of what translations, loads and stores change of memory (R239 to R243, R249, R257 to R261, R380): a byte at an address that no
store names stays, where no migration mirrors a line, no combining buffer holds the byte and no line read is poisoned.
-/
namespace Sys2Proof.Machine
open Sys2Proof

/-! ## A byte that nothing is about to change -/

/-- What memory's contents depend on. -/
def State.stored (s : State) : Memory × Assoc Migration × Assoc Core × Assoc Line := (s.mem, s.migrations, s.cores, s.lines)

theorem unasked_stored : Unasked State.stored := ⟨fun _ _ => rfl, fun _ _ => rfl, fun _ _ => rfl⟩

/-- A combining buffer holds no byte for an address (R240). -/
def Combine.spares (w : Combine) (x : Nat) : Prop := ∀ p ∈ w.data, w.line * 256 + p.1 ≠ x

/-- Memory holds the byte `b` at `x`, no migration mirrors a line, no combining buffer holds a byte for `x`, and the lines of `N` are not
poisoned. -/
structure State.Spares (x : Nat) (b : Byte) (N : Nat → Prop) (s : State) : Prop where
  byte : Memory.get s.mem x = b
  still : s.migrations = []
  buffers : ∀ k, ∀ w ∈ (s.core k).combine, w.spares x
  clean : ∀ n, N n → (s.line n).bad = false

/-- The read of a line that is not poisoned sends no event (R233). -/
theorem State.poisonRead_of_clean {s : State} {pa : Nat} (h : (s.line (lineOf pa)).bad = false) : s.poisonRead pa = s := by
  simp [State.poisonRead, h]

namespace State.Spares
variable {x : Nat} {b : Byte} {N : Nat → Prop} {s t : State}

theorem of_stored (h : s.Spares x b N) (e : t.stored = s.stored) : t.Spares x b N := by
  obtain ⟨hmem, hmigrations, hcores, hlines⟩ :
      t.mem = s.mem ∧ t.migrations = s.migrations ∧ t.cores = s.cores ∧ t.lines = s.lines := by
    simpa only [State.stored, Prod.mk.injEq] using e
  have hcore (k : Nat) : t.core k = s.core k := by simp only [State.core, hcores]
  have hline (n : Nat) : t.line n = s.line n := by simp only [State.line, hlines]
  exact ⟨hmem ▸ h.byte, hmigrations.trans h.still, fun k => hcore k ▸ h.buffers k, fun n hn => hline n ▸ h.clean n hn⟩

theorem setGroup (h : s.Spares x b N) (k : Nat) (f : Group → Group) : (s.setGroup k f).Spares x b N := h.of_stored rfl

theorem setCore (h : s.Spares x b N) (k : Nat) {f : Core → Core} (hf : ∀ w ∈ (f (s.core k)).combine, w.spares x) :
    (s.setCore k f).Spares x b N where
  byte := h.byte
  still := h.still
  buffers j := by
    by_cases hj : j = k
    · subst hj
      rwa [State.core_setCore_same]
    · rw [State.core_setCore_other _ _ hj]
      exact h.buffers j
  clean := h.clean

/-- A change of a core that leaves its combining buffers as they are. -/
theorem setCore_combine (h : s.Spares x b N) (k : Nat) {f : Core → Core} (hf : (f (s.core k)).combine = (s.core k).combine) :
    (s.setCore k f).Spares x b N := h.setCore k (hf ▸ h.buffers k)

theorem setLine (h : s.Spares x b N) (n : Nat) {f : Line → Line} (hf : (s.line n).bad = false → (f (s.line n)).bad = false) :
    (s.setLine n f).Spares x b N where
  byte := h.byte
  still := h.still
  buffers := h.buffers
  clean m hm := by
    by_cases hmn : m = n
    · subst hmn
      rw [State.line_setLine_same]
      exact hf (h.clean m hm)
    · rw [State.line_setLine_other _ _ hmn]
      exact h.clean m hm

theorem poisonRead (h : s.Spares x b N) {pa : Nat} (hpa : N (lineOf pa)) : (s.poisonRead pa).Spares x b N := by
  rwa [State.poisonRead_of_clean (h.clean _ hpa)]

end State.Spares

/-! ## Writes of a line (R249) -/

/-- What a write stores in memory at once are cells of its own. -/
theorem insertVersion_now_subset (t : Nat) (cells : List Host.Cell) (vs : List Version) :
    ∀ c ∈ (insertVersion t cells vs).2.1, c ∈ cells := by
  induction vs with
  | nil => exact fun _ hc => hc
  | cons v vs ih =>
    intro c hc
    unfold insertVersion at hc
    split at hc
    · exact hc
    · exact ih c (List.mem_of_mem_filter hc)

/-- A byte that no listed cell names stays. -/
theorem Memory.get_cells_outside {x : Nat} (l : List Host.Cell) (m : Memory) (h : ∀ c ∈ l, c.1 ≠ x) :
    Memory.get (l.foldl (fun (m : Memory) (c : Host.Cell) => Memory.put m c.1 c.2) m) x = Memory.get m x := by
  induction l generalizing m with
  | nil => rfl
  | cons c l ih =>
    exact (ih _ fun d hd => h d (.tail _ hd)).trans (Memory.get_put_other _ _ (h c (.head _)).symm)

/-- The versions that a write keeps for snapshots change its region alone (R370). -/
theorem State.stored_keepVersion (s : State) (n t : Nat) : (s.keepVersion n t).stored = s.stored := by
  unfold State.keepVersion
  split
  · rfl
  · split <;> rfl

/-- A write of a line once memory holds its bytes. -/
def State.written (s : State) (n t : Nat) (cells : List Host.Cell) : State :=
  let z := s.keepVersion n t
  { z with mem := (insertVersion t cells (z.line n).versions).2.1.foldl (fun (m : Memory) (c : Host.Cell) => Memory.put m c.1 c.2) z.mem }

/-- A write of a line: the bytes in memory, the record of the line, the monitors. -/
theorem State.writeLine_eq (s : State) (n t : Nat) (cells : List Host.Cell) (tags : List (Inst × Nat)) :
    s.writeLine n t cells tags =
      let v := insertVersion t cells ((s.keepVersion n t).line n).versions
      let old := v.2.2 ++ v.2.1.map (fun (c : Host.Cell) => ((c.1, Memory.get (s.keepVersion n t).mem c.1) : Host.Cell))
      ((s.written n t cells).setLine n (fun l =>
        { l with versions := v.1.map (fun v => if v.time = t then { v with old := old, tags := tags } else v),
                 bad := l.bad && decide (cells.length < 256) })).wakeMonitors n t := rfl

theorem mem_cellsAt {pa : Nat} {data : List Byte} {c : Host.Cell} (h : c ∈ cellsAt pa data) : pa ≤ c.1 ∧ c.1 < pa + data.length := by
  induction data generalizing pa with
  | nil => cases h
  | cons b data ih =>
    rcases List.mem_cons.1 h with rfl | h
    · exact ⟨le_rfl, Nat.lt_add_of_pos_right (Nat.succ_pos _)⟩
    · obtain ⟨hlow, hhigh⟩ := ih h
      rw [List.length_cons]
      omega

namespace State.Spares
variable {x : Nat} {b : Byte} {N : Nat → Prop} {s t : State}

theorem wakeMonitors (h : s.Spares x b N) (n tm : Nat) : (s.wakeMonitors n tm).Spares x b N := h.of_stored rfl

theorem writeLine (h : s.Spares x b N) (n tm : Nat) {cells : List Host.Cell} (tags : List (Inst × Nat)) (hcells : ∀ c ∈ cells, c.1 ≠ x) :
    (s.writeLine n tm cells tags).Spares x b N := by
  have hkept := h.of_stored (s.stored_keepVersion n tm)
  have hwritten : (s.written n tm cells).Spares x b N :=
    ⟨(Memory.get_cells_outside _ _ fun c hc => hcells c (insertVersion_now_subset _ _ _ c hc)).trans hkept.byte, hkept.still,
      hkept.buffers, hkept.clean⟩
  rw [State.writeLine_eq]
  exact (hwritten.setLine n fun hbad => Bool.and_eq_false_iff.2 (.inl hbad)).wakeMonitors n tm

theorem storeLine (h : s.Spares x b N) (n tm : Nat) {cells : List Host.Cell} (tags : List (Inst × Nat)) (hcells : ∀ c ∈ cells, c.1 ≠ x) :
    (s.storeLine n tm cells tags).Spares x b N := by
  have hmirrors : s.mirrors n = [] := by simp [State.mirrors, h.still]
  unfold State.storeLine
  rw [hmirrors]
  split
  · exact h
  · exact h.writeLine n tm tags hcells

/-! ## Combining buffers (R240, R257) -/

theorem stored_gridOrders (s : State) (tid tm : Nat) : (s.gridOrders tid tm).stored = s.stored := by
  unfold State.gridOrders
  split <;> rfl

theorem stored_finishStores (s : State) (gid : Nat) (ops : List Nat) : (s.finishStores gid ops).stored = s.stored :=
  foldl_keeps State.stored _ (fun s _ => unasked_stored.postOnce s _) ops s

theorem stored_forget (s : State) (gid : Nat) : (s.forget gid).stored = s.stored := by
  unfold State.forget
  split <;> rfl

/-- A flush of a buffer that holds no byte for the address. -/
theorem flushOne (h : s.Spares x b N) (core : Nat) {w : Combine} (raise : Group → Nat → Group) (hw : w.spares x) :
    (s.flushOne core w raise).Spares x b N := by
  have hcells : ∀ c ∈ w.data.map (fun (p : Nat × Byte) => ((w.line * 256 + p.1, p.2) : Host.Cell)), c.1 ≠ x := by
    intro c hc
    obtain ⟨p, hp, rfl⟩ := List.mem_map.1 hc
    exact hw p hp
  have hdropped := h.setCore core (f := fun c => { c with combine := c.combine.filter (fun y => decide (y ≠ w)) })
    fun y hy => h.buffers core y (List.mem_of_mem_filter hy)
  unfold State.flushOne
  simp only
  have finish {u : State} (hu : u.Spares x b N) (gid : Nat) : (if (u.group gid).isSome then u else u.forget gid).Spares x b N := by
    split
    · exact hu
    · exact hu.of_stored (stored_forget u gid)
  refine finish (State.Spares.of_stored ?_ (stored_finishStores _ _ _)) _
  refine State.Spares.setGroup (State.Spares.of_stored ?_ ((stored_gridOrders _ _ _).trans (unasked_stored.writeBack _ _ _ _))) _ _
  exact hdropped.storeLine _ _ _ hcells

theorem flushGroup (h : s.Spares x b N) (gid : Nat) (raise : Group → Nat → Group) : (s.flushGroup gid raise).Spares x b N := by
  unfold State.flushGroup
  split
  · exact h
  · next g hg =>
    exact List.foldlRecOn _ _ h fun t ht w hw => ht.flushOne _ _ (h.buffers _ w (List.mem_of_mem_filter hw))

theorem fence (h : s.Spares x b N) (gid : Nat) (o : Order) (scope : Nat) : (s.fence gid o scope).Spares x b N := by
  unfold State.fence
  split
  · exact h
  · exact h.setGroup _ _

theorem soFence (h : s.Spares x b N) (gid typ : Nat) : (s.soFence gid typ).Spares x b N := by
  unfold State.soFence
  split
  · exact (h.flushGroup gid _).fence gid _ _
  · exact h

end State.Spares

/-- Bytes combined into a buffer of their line stay away from an address that they are not stored to. -/
theorem Combine.spares_put {x : Nat} {w : Combine} {pa : Nat} {data : List Byte} {ops : List Nat} (hw : w.spares x)
    (hline : w.line = lineOf pa) (hdata : ∀ i, i < data.length → pa + i ≠ x) :
    ({ w with data := (cellsAt (pa % 256) data).foldl (fun (m : Assoc Byte) (c : Host.Cell) => Assoc.put m c.1 c.2) w.data,
              ops := ops } : Combine).spares x := by
  refine List.foldlRecOn (motive := fun m : Assoc Byte => ∀ p ∈ m, w.line * 256 + p.1 ≠ x) _ _ hw fun m hm c hc p hp => ?_
  rcases Assoc.mem_put hp with rfl | hp
  · obtain ⟨hlow, hhigh⟩ := mem_cellsAt hc
    have hbyte := hdata (c.1 - pa % 256) (by omega)
    rw [hline, lineOf]
    omega
  · exact hm p hp

end Sys2Proof.Machine
end

section
/-!
PROOF of what one lane's load or store changes of memory (R239 to R241, R249, R257 to R260): nothing but the bytes that it stores.
-/
namespace Sys2Proof.Machine
open Sys2Proof
namespace State.Spares
variable {x : Nat} {b : Byte} {N : Nat → Prop} {s t : State}

/-! ## Loads -/

theorem touch (h : s.Spares x b N) (pa : Nat) : (s.touch pa).Spares x b N := h.of_stored (unasked_stored.touch s pa)

theorem route (h : s.Spares x b N) (core pa : Nat) (write : Bool) : (s.route core pa write).Spares x b N :=
  h.of_stored (unasked_stored.route s core pa write)

theorem holdBank (h : s.Spares x b N) (pa : Nat) : (s.holdBank pa).Spares x b N := by
  refine h.of_stored ?_
  unfold State.holdBank
  split <;> rfl

theorem awaitFill (h : s.Spares x b N) (gid op lane pa : Nat) : (s.awaitFill gid op lane pa).Spares x b N := by
  refine h.of_stored ?_
  unfold State.awaitFill
  split <;> rfl

theorem l1Fill (h : s.Spares x b N) (core n tm : Nat) : (s.l1Fill core n tm).Spares x b N := h.setCore_combine core rfl

theorem l1Drop (h : s.Spares x b N) (core n : Nat) : (s.l1Drop core n).Spares x b N := h.setCore_combine core rfl

theorem tookLoad (h : s.Spares x b N) (gid lane n tm : Nat) (views : List Inst) (o : Option Inst → Order) (floor : Inst → Nat) :
    (s.tookLoad gid lane n tm views o floor).Spares x b N := (h.setLine n fun hbad => hbad).setGroup gid _

variable (X : Ix) (z last : Nat) {tg : Target}

theorem boundLoad (h : s.Spares x b N) (id : Nat) (htg : N (lineOf tg.pa)) : (s.boundLoad X z id tg).1.Spares x b N := by
  unfold State.boundLoad
  simp only
  split
  · exact h
  · split
    · exact h
    · exact ((((h.soFence _ _).touch _).setLine _ fun hbad => hbad).soFence _ _).poisonRead htg

theorem deviceLoad (h : s.Spares x b N) (htg : N (lineOf tg.pa)) : (s.deviceLoad X z tg).1.Spares x b N := by
  unfold State.deviceLoad
  simp only
  split
  · exact h
  · split
    · exact h
    · exact ((((h.soFence _ _).soFence _ _).touch _).holdBank _).poisonRead htg

theorem timedLoad (h : s.Spares x b N) (g : Group) (htg : N (lineOf tg.pa)) : (s.timedLoad X z tg g).1.Spares x b N := by
  unfold State.timedLoad
  simp only
  split
  · exact h
  · refine State.Spares.poisonRead (State.Spares.tookLoad (State.Spares.l1Fill ?_ _ _ _) _ _ _ _ _ _ _) htg
    split
    · exact h
    · exact ((h.route _ _ _).holdBank _).awaitFill _ _ _ _

/-- A load of a line that is not poisoned. -/
theorem loadLane (h : s.Spares x b N) (htg : N (lineOf tg.pa)) : (s.loadLane X z last tg).1.Spares x b N := by
  unfold State.loadLane
  simp only
  split
  · exact h
  · split
    · exact h
    · split
      · exact h.boundLoad X z _ htg
      · exact h
      · split
        · exact h.deviceLoad X z htg
        · exact h.timedLoad X z _ htg

/-! ## Stores -/

variable {data : List Byte}

theorem combineStore (h : s.Spares x b N) (core gid op : Nat) {pa : Nat} (hdata : ∀ i, i < data.length → pa + i ≠ x) :
    (s.combineStore core gid op pa data).Spares x b N := by
  have flush {u : State} (hu : u.Spares x b N) {p : Combine → Bool} :
      (match (u.core core).combine.find? p with | some w => u.flushOne core w | none => u).Spares x b N := by
    split
    · next w hw => exact hu.flushOne core _ (hu.buffers core w (List.mem_of_find?_eq_some hw))
    · exact hu
  have room : (if (s.core core).combine.any (fun b => decide (b.gid = gid ∧ b.line = lineOf pa)) ∨ (s.core core).combine.length < 16 then s
      else match (s.core core).combine with
        | w :: _ => s.flushOne core w
        | [] => s).Spares x b N := by
    split
    · exact h
    · split
      · next w r hbufs => exact h.flushOne core _ (h.buffers core w (hbufs ▸ .head _))
      · exact h
  unfold State.combineStore
  simp only
  refine flush (State.Spares.setCore room core fun w hw => ?_)
  obtain ⟨v, hv, rfl⟩ := List.mem_map.1 hw
  have hspares : v.spares x := by
    split at hv
    · exact room.buffers core v hv
    · rcases List.mem_append.1 hv with hv | hv
      · exact room.buffers core v hv
      · obtain rfl := List.mem_singleton.1 hv
        exact nofun
  split
  · next hmine => exact Combine.spares_put hspares hmine.2 hdata
  · exact hspares

/-- A store that names no byte at the address. -/
theorem storeLane (h : s.Spares x b N) (hdata : ∀ i, i < data.length → tg.pa + i ≠ x) :
    (s.storeLane X data last tg).1.Spares x b N := by
  have hcells : ∀ c ∈ cellsAt tg.pa data, c.1 ≠ x := by
    intro c hc
    obtain ⟨hlow, hhigh⟩ := mem_cellsAt hc
    have hbyte := hdata (c.1 - tg.pa) (by omega)
    omega
  unfold State.storeLane
  simp only
  split
  · exact h
  split
  · exact h
  split
  · split
    · exact h
    · exact (h.combineStore _ _ _ hdata).l1Drop _ _
  split
  · exact h
  split
  · exact h
  split
  · exact ((((h.soFence _ _).storeLine _ _ _ hcells).setGroup _ _).soFence _ _).touch _
  · exact (((h.storeLine _ _ _ hcells).setGroup _ _).route _ _ _).l1Drop _ _

/-! ## The lanes of one instruction -/

/-- Where each lane's access keeps the byte, so do all of them. -/
theorem performLanes {perform : State → Nat → Target → State × LaneRes} {l : List Target}
    (hperform : ∀ u last, ∀ tg ∈ l, u.Spares x b N → (perform u last tg).1.Spares x b N) (lasts : Assoc Nat) (h : s.Spares x b N) :
    (Machine.performLanes perform l lasts s).1.Spares x b N := by
  induction l generalizing lasts s with
  | nil => exact h
  | cons tg l ih =>
    have hrest := ih (fun u last tg' htg' => hperform u last tg' (.tail _ htg'))
      (match (perform s (Assoc.getD lasts (lineOf tg.pa) 0) tg).2 with | .ok v _ => Assoc.put lasts (lineOf tg.pa) v | _ => lasts)
      (hperform s (Assoc.getD lasts (lineOf tg.pa) 0) tg (.head _) h)
    unfold Machine.performLanes
    simp only
    split <;> exact hrest

end State.Spares
end Sys2Proof.Machine
end

section
/-!
PROOF of what a translation that answers changes of memory (R379 to R381): the tables that its walk has read are not poisoned, so that it
writes nothing.
-/
namespace Sys2Proof.Machine
open Sys2Proof

/-! ## Walks -/

/-- No line of a table entry that a walk has read from memory is poisoned. -/
def Walk.clean (w : Walk) (s : State) : Prop := ∀ pa ∈ w.reads, (s.line (lineOf pa)).bad = false

section
variable {s : State} {wc : List WalkEntry} {fn va ipa stage level pa base tbl n : Nat} {acc : Acc} {w w' : Walk}

theorem Walk.clean_of_readPte {e : Nat} (hw : w.clean s) (hread : readPte s wc fn stage level pa base w = (w', .entry e)) :
    w'.clean s := by
  unfold readPte at hread
  split at hread
  · cases hread
    exact hw
  · split at hread
    · cases hread
    · cases hread
    · split at hread
      · cases hread
      · simp only at hread
        split at hread
        · cases hread
        · next hbad =>
          obtain ⟨rfl, -⟩ := Prod.mk.inj hread
          intro p hp
          rcases List.mem_append.1 hp with hp | hp
          · exact hw p hp
          · exact List.mem_singleton.1 hp ▸ Bool.not_eq_true _ ▸ hbad

theorem Walk.clean_of_walk2 {p : Nat} {perm : Perm} {log : Nat} (hw : w.clean s)
    (hwalk : walk2 s wc fn ipa acc n tbl w = (w', .ok p perm log)) : w'.clean s := by
  induction n generalizing tbl w with
  | zero => cases hwalk
  | succ n ih =>
    unfold walk2 at hwalk
    simp only at hwalk
    split at hwalk
    · cases hwalk
    · next e hentry =>
      have hread := Walk.clean_of_readPte hw (Prod.ext rfl hentry)
      split at hwalk
      · cases hwalk
      · split at hwalk
        · split at hwalk
          · cases hwalk
            exact hread
          · cases hwalk
        · exact ih hread hwalk

theorem Walk.clean_of_stage2 {p : Nat} {perm : Perm} {log : Nat} (hw : w.clean s)
    (hwalk : stage2 s wc fn ipa acc w = (w', .ok p perm log)) : w'.clean s := by
  unfold stage2 at hwalk
  split at hwalk
  · refine Walk.clean_of_walk2 ?_ hwalk
    exact hw
  · cases hwalk
    exact hw

theorem Walk.clean_of_walk1 {p i log : Nat} {s1 s2 : Perm} (hw : w.clean s)
    (hwalk : walk1 s wc fn va acc n tbl w = (w', .ok p s1 s2 i log)) : w'.clean s := by
  induction n generalizing tbl w with
  | zero => cases hwalk
  | succ n ih =>
    unfold walk1 at hwalk
    simp only at hwalk
    split at hwalk
    · cases hwalk
    · cases hwalk
    · next htable =>
      have hstage := Walk.clean_of_stage2 hw (Prod.ext rfl htable)
      split at hwalk
      · cases hwalk
      · next e hentry =>
        have hread := Walk.clean_of_readPte hstage (Prod.ext rfl hentry)
        split at hwalk
        · cases hwalk
        · split at hwalk
          · cases hwalk
          · split at hwalk
            · split at hwalk
              · next hpage =>
                cases hwalk
                exact Walk.clean_of_stage2 hread (Prod.ext rfl hpage)
              · cases hwalk
              · split at hwalk <;> cases hwalk
            · exact ih hread hwalk

end

/-! ## Translations -/

section
variable {s y : State} {c : Xc} {acc : Acc} {pa typ : Nat}

/-- The judgement of a translated access changes at most a team's Hearth mark (R237). -/
theorem State.stored_judge (s : State) (c : Xc) (acc : Acc) (p : Nat) (s1 : Perm) (tp : Nat) :
    (s.judge c acc p s1 tp).1.stored = s.stored := by
  have hgate : (s.hearthGate c p).1.stored = s.stored := by
    unfold State.hearthGate
    simp only
    split
    · rfl
    · split
      · rfl
      · split <;> rfl
  unfold State.judge
  simp only
  split
  · rfl
  split
  · rfl
  split
  · rfl
  split
  · rfl
  split
  · split <;> exact hgate
  · rfl

/-- The references of a walk that met no poison. -/
theorem State.stored_reads {w : Walk} (hw : w.clean s) (d own : Nat) :
    (w.reads.foldl (fun s pa => (s.wantLine d own pa).poisonRead pa) s).stored = s.stored := by
  refine List.foldlRecOn (motive := fun z : State => z.stored = s.stored) _ _ rfl fun z hz p hp => ?_
  have hasked : (z.wantLine d own p).stored = s.stored := (unasked_stored.wantLine z d own p false).trans hz
  have hlines : (z.wantLine d own p).lines = s.lines := congrArg (fun q => q.2.2.2) hasked
  have hclean : ((z.wantLine d own p).line (lineOf p)).bad = false := by
    simpa only [State.line, hlines] using hw p hp
  rw [State.poisonRead_of_clean hclean]
  exact hasked

variable {x : Nat} {b : Byte} {N : Nat → Prop} {va : Dword}

theorem State.Spares.setDie (h : s.Spares x b N) (k : Nat) (f : Die → Die) : (s.setDie k f).Spares x b N := h.of_stored rfl

/-- A translation that answers keeps the byte. -/
theorem State.Spares.translate (h : s.Spares x b N) (htrans : s.translate c va acc = (y, .ok pa typ)) : y.Spares x b N := by
  have judged {u : State} {p tp : Nat} {s1 : Perm} (hu : u.Spares x b N) (hjudge : u.judge c acc p s1 tp = (y, .ok pa typ)) :
      y.Spares x b N := hu.of_stored (congrArg (fun q => q.1.stored) hjudge ▸ u.stored_judge c acc p s1 tp)
  unfold State.translate at htrans
  simp only at htrans
  split at htrans
  · exact absurd (congrArg Prod.snd htrans) nofun
  split at htrans
  · exact absurd (congrArg Prod.snd htrans) nofun
  split at htrans
  · exact judged h htrans
  split at htrans
  · exact absurd (congrArg Prod.snd htrans) nofun
  · exact absurd (congrArg Prod.snd htrans) nofun
  · exact absurd (congrArg Prod.snd htrans) nofun
  · next hwalk =>
    have hclean := Walk.clean_of_walk1 (w := { refs := 0, add := [], drop := [], reads := [], granules := [] }) nofun (Prod.ext rfl hwalk)
    refine judged (State.Spares.setDie (State.Spares.setCore_combine (State.Spares.of_stored ?_ (State.stored_reads ?_ _ _)) _ rfl) _ _) htrans
    · exact (((h.setCore_combine _ rfl).setDie _ _).setGroup _ _).setDie _ _
    · exact hclean

end
end Sys2Proof.Machine
end

section
/-!
PROOF of the vector and the whole-group accesses (R136, R219, R241 to R243): an access whose lanes pass, the trap of a misaligned lane,
the bytes of memory that stay, and each instruction.
-/
namespace Sys2Proof.Machine
open Sys2Proof

/-! ## The lanes through translation -/

/-- One lane's turn in a pass of translations (R434). -/
def State.translateLane (c : Xc) (acc : Acc) (z : State × Lanes) (p : Nat × Dword) : State × Lanes :=
  let a := match z.2.pages.find? (fun q => decide (p.2.toNat >>> q.2.1 = q.1 >>> q.2.1)) with
    | some q => (z.1, q.2.2, [])
    | none => ((z.1.translate c p.2 acc).1, (z.1.translate c p.2 acc).2, match (z.1.translate c p.2 acc).2 with
      | .ok _ _ => []
      | _ => [(p.2.toNat, (if p.2.toNat / 2 ^ 56 ≠ 0 then 16 else (z.1.translate c p.2 acc).1.pageSize c p.2.toNat acc),
          (z.1.translate c p.2 acc).2)])
  match a.2.1 with
  | .ok pa typ => (a.1, { z.2 with ok := z.2.ok ++ [{ lane := p.1, va := p.2, pa := pa, typ := typ }] })
  | .fault code info => (a.1, { z.2 with faults := z.2.faults ++ [(p.1, code, info)], pages := z.2.pages ++ a.2.2 })
  | .wait n => (a.1, { z.2 with waits := z.2.waits ++ [(p.1, n)], pages := z.2.pages ++ a.2.2 })

theorem State.translateLanes_eq (s : State) (c : Xc) (acc : Acc) (l : List (Nat × Dword)) :
    s.translateLanes c acc l = l.foldl (State.translateLane c acc) (s, { ok := [], faults := [], waits := [], pages := [] }) := rfl

/-- A pass so far without a fault or a wait shares no answer, and keeps the byte. -/
def Lanes.SparesIfOk (x : Nat) (b : Byte) (N : Nat → Prop) (z : State × Lanes) : Prop :=
  z.2.faults = [] → z.2.waits = [] → z.1.Spares x b N ∧ z.2.pages = []

section
variable {x : Nat} {b : Byte} {N : Nat → Prop} {c : Xc} {acc : Acc}

theorem Lanes.SparesIfOk.translateLane {z : State × Lanes} (h : Lanes.SparesIfOk x b N z) (p : Nat × Dword) :
    Lanes.SparesIfOk x b N (State.translateLane c acc z p) := by
  intro hfaults hwaits
  cases hfind : z.2.pages.find? (fun q => decide (p.2.toNat >>> q.2.1 = q.1 >>> q.2.1)) with
  | some q =>
    have hpages : z.2.pages = [] := by
      simp only [State.translateLane, hfind] at hfaults hwaits
      split at hfaults
      · next hok => simp only [hok] at hwaits; exact (h hfaults hwaits).2
      · simp at hfaults
      · next hwait => simp [hwait] at hwaits
    simp [hpages] at hfind
  | none =>
    cases htrans : z.1.translate c p.2 acc with
    | mk y a =>
      cases a with
      | ok pa typ =>
        simp only [State.translateLane, hfind, htrans] at hfaults hwaits ⊢
        obtain ⟨hspares, hpages⟩ := h hfaults hwaits
        exact ⟨hspares.translate htrans, hpages⟩
      | fault code info => simp [State.translateLane, hfind, htrans] at hfaults
      | wait n => simp [State.translateLane, hfind, htrans] at hwaits

/-- A pass of translations that ends without a fault or a wait had none. -/
theorem State.Spares.translateLanes {s y : State} {l : List (Nat × Dword)} {ok : List Target} (h : s.Spares x b N)
    (htrans : s.translateLanes c acc l = (y, { ok := ok, faults := [], waits := [], pages := [] })) : y.Spares x b N := by
  have hpass : Lanes.SparesIfOk x b N (s.translateLanes c acc l) := by
    rw [State.translateLanes_eq]
    exact foldl_inv _ _ (fun z p hz => hz.translateLane p) _ _ fun _ _ => ⟨h, rfl⟩
  rw [htrans] at hpass
  exact (hpass rfl rfl).1

end

/-! ## The first of a mask's lanes with a property -/

theorem Mask.find?_lanes_of_lowest {m : Mask} {p : Nat → Prop} {f : Nat → Bool} {L : Nat} (h : lowestLane m p L)
    (hf : ∀ k, m.has k = true → (f k = true ↔ p k)) : m.lanes.find? f = some L := by
  obtain ⟨hL, hp, hbelow⟩ := h
  obtain ⟨l, r, hsplit, hbefore, -⟩ := Mask.lanes_split hL
  refine List.find?_eq_some_iff_append.2 ⟨(hf L hL).2 hp, l, r, hsplit, fun k hk => ?_⟩
  have hmem : m.has k = true := Mask.mem_lanes.1 (hsplit ▸ List.mem_append_left _ hk)
  rw [Bool.not_eq_true', ← Bool.not_eq_true, hf k hmem]
  exact hbelow k (hbefore k hk) hmem

theorem Mask.find?_lanes_eq_none {m : Mask} {f : Nat → Bool} (h : ∀ L, m.has L = true → f L = false) : m.lanes.find? f = none :=
  List.find?_eq_none.2 fun L hL => by simp [h L (Mask.mem_lanes.1 hL)]

/-! ## What the own execution of an access sees -/

section
variable {i : Instr} {s y : State} {c : Cur} {g : Group} (h : Starts i s c g)
include h

theorem Starts.at0_eas (a b : Reg) {L : Nat} (hL : g.liveNow.has L = true) : Vector.at0 ((ixOf s c g).eas a b) L 0 = laneAt g a b L := by
  have heas : (ixOf s c g).eas a b = tab 128 (laneAt g a b) := by
    simp [Ix.eas, h.ixOf_g, h.held_eq_none]
    rfl
  rw [heas]
  exact Vector.at0_tab _ _ (Mask.has_lt hL)

theorem Starts.captured_ixOf (rs : List Nat) : (ixOf s c g).captured rs = rs.map g.vr := by
  simp [Ix.captured, h.ixOf_g, h.held_eq_none]

/-- The path of an operation of an instruction that has not waited is counted under the key of the issue (R219). -/
theorem Starts.raise_path_ixOf (path tw : Nat) :
    (ixOf s c g).raise y path tw = y.setGroup c.gid (fun h => h.raisePath path (s.uid + 1) tw) := by
  rw [Ix.raise, h.again_ixOf, h.op_ixOf]
  rfl

/-- An access that has met neither a fault nor a wait ends the instruction. -/
theorem Starts.settle_ixOf (ea : Vector Dword 128) (data : List VReg) (live done : Mask) :
    (ixOf s c g).settle y ea data live done [] [] = .next ((y.postLand c.gid (s.uid + 1)).setGroup c.gid (fun h => h.setHeld none)) := by
  have hnone : live.lanes.findSome? (fun L => ([] : List (Nat × Nat × Dword)).find? (fun f => decide (f.1 = L))) = none :=
    Mask.findSome?_lanes_eq_none fun _ _ => rfl
  simp only [Ix.settle, ne_eq, not_true_eq_false, or_self, if_false, hnone, h.op_ixOf]
  rfl

end

/-! ## A vector access (R241, R243) -/

section
variable {i : Instr} {s y u : State} {c : Cur} {g : Group} (h : Starts i s c g) {acc : Acc} {path z d n : Nat} {a b : Reg}
  {data : List VReg} {perform : State → Nat → Target → State × LaneRes} {l : List Target} {vals : List (Nat × Nat × Bool)}
include h

theorem Starts.access_of_misaligned {L : Nat} (hL : lowestLane g.liveNow (fun L => (laneAt g a b L).toNat % z ≠ 0) L) :
    (ixOf s c g).access y acc path z a b data d n perform = .trap y (trapPA 0x28 (laneAt g a b L) 0) := by
  have hfind : (ixOf s c g).live.lanes.find? (fun L => decide ((Vector.at0 ((ixOf s c g).eas a b) L 0).toNat % z ≠ 0)) = some L :=
    Mask.find?_lanes_of_lowest hL fun k hk => by rw [h.at0_eas a b hk, decide_eq_true_iff]
  obtain ⟨hlive, -, -⟩ := hL
  simp only [Ix.access, h.again_ixOf, Bool.false_eq_true, if_false, hfind, h.at0_eas a b hlive]

theorem Starts.access_of_passes (halign : ∀ L, g.liveNow.has L = true → (laneAt g a b L).toNat % z = 0)
    (hreach : Reaches i s c g acc path a b y l)
    (hperform : performLanes perform l [] y = (u, { vals := vals, faults := [], owned := [], wait := false })) :
    (ixOf s c g).access (s.begun i c g) acc path z a b data d n perform
      = .next (((u.setGroup c.gid (fun h => h.results (s.uid + 1) d n vals)).postLand c.gid (s.uid + 1)).setGroup c.gid
          (fun h => h.setHeld none)) := by
  have hfind : (ixOf s c g).live.lanes.find? (fun L => decide ((Vector.at0 ((ixOf s c g).eas a b) L 0).toNat % z ≠ 0)) = none :=
    Mask.find?_lanes_eq_none fun L hL => by rw [h.at0_eas a b hL]; simp [halign L hL]
  have hlanes : (ixOf s c g).live.lanes.map (fun L => (L, Vector.at0 ((ixOf s c g).eas a b) L 0))
      = g.liveNow.lanes.map (fun L => (L, laneAt g a b L)) :=
    List.map_congr_left fun L hL => by rw [h.at0_eas a b (Mask.mem_lanes.1 hL)]
  have hall (m : Mask) : m.lanes.filter (fun _ => true) = m.lanes := List.filter_eq_self.2 fun _ _ => rfl
  unfold Reaches at hreach
  simp only [Ix.access, h.again_ixOf, Bool.false_eq_true, if_false, hfind, h.raise_path_ixOf, h.ixOf_g, h.held_eq_none, ixOf_gid,
    Option.map_none, Option.getD_none, ite_self, List.filter_nil, List.any_nil, Bool.not_false, Bool.and_self, hall, hlanes, hreach, hperform,
    List.append_nil, h.settle_ixOf, h.op_ixOf]

end

/-! ## The bytes that stay -/

theorem Assoc.mem_of_get {α : Type} {m : Assoc α} {k : Nat} {v : α} (h : Assoc.get m k = some v) : (k, v) ∈ m := by
  induction m with
  | nil => cases h
  | cons p m ih =>
    obtain ⟨a, w⟩ := p
    by_cases ha : a = k
    · subst ha
      obtain rfl : w = v := by simpa [Assoc.get] using h
      exact .head _
    · exact .tail _ (ih (by simpa [Assoc.get, ha] using h))

theorem State.combine_core_eq_nil {s : State} (h : ∀ p, p ∈ s.cores → p.2.combine = []) (k : Nat) : (s.core k).combine = [] := by
  rw [State.core, Assoc.getD]
  cases hget : Assoc.get s.cores k with
  | none => rfl
  | some q => exact h _ (Assoc.mem_of_get hget)

/-- The own execution of an instruction starts with memory as it stood, and with no byte combined where none was. -/
theorem State.spares_begun {i : Instr} {s : State} {c : Cur} {g : Group} (hlatent : latentOf i g = []) (hheld : g.held = none)
    (hstill : s.migrations = []) (hbufs : ∀ p, p ∈ s.cores → p.2.combine = []) (x : Nat) :
    (s.begun i c g).Spares x (Memory.get s.mem x) (fun _ => False) where
  byte := by rw [State.begun_keeps (f := State.mem) hlatent hheld (fun _ _ _ _ => rfl)]
  still := (State.begun_keeps (f := State.migrations) hlatent hheld (fun _ _ _ _ => rfl)).trans hstill
  buffers k := by
    have hnil : ((s.begun i c g).core k).combine = [] := by
      by_cases hk : k = g.core
      · rw [hk, State.core_begun_same hlatent hheld]
        exact State.combine_core_eq_nil hbufs _
      · rw [State.core_begun_other hlatent hheld hk]
        exact State.combine_core_eq_nil hbufs _
    rw [hnil]
    exact nofun
  clean := nofun

/-- Where each lane's access keeps a byte that it does not touch, so does the vector access. -/
theorem accessKeeps_of_performs {i : Instr} {acc : Acc} {path : Nat} {a b : Reg} {perform : Ix → State → Nat → Target → State × LaneRes}
    {touches : Nat → Nat → Bool}
    (hkeeps : ∀ s c g, Starts i s c g → ∀ (x : Nat) (byte : Byte) (N : Nat → Prop) (u : State) (last : Nat) (tg : Target),
      touches tg.pa x = false → N (lineOf tg.pa) → u.Spares x byte N → (perform (ixOf s c g) u last tg).1.Spares x byte N) :
    AccessKeeps i acc path a b perform touches := by
  intro s c g y l u q h hlatent hstill hbufs hreach hclean hperform x huntouched
  have hstart := ((State.spares_begun hlatent h.held_eq_none hstill hbufs x).setGroup c.gid
    (fun h => h.raisePath path (s.uid + 1) 0)).translateLanes hreach
  have hspares : y.Spares x (Memory.get s.mem x) (fun n => ∃ tg ∈ l, lineOf tg.pa = n) := by
    obtain ⟨hbyte, hmigrations, hbuffers, -⟩ := hstart
    refine ⟨hbyte, hmigrations, hbuffers, ?_⟩
    rintro n ⟨tg, htg, rfl⟩
    exact hclean tg htg
  have hend := hspares.performLanes
    (fun u last tg htg hu => hkeeps s c g h x _ _ u last tg (huntouched tg htg) ⟨tg, htg, rfl⟩ hu) []
  rw [hperform] at hend
  exact hend.byte

/-! ## The instructions -/

theorem exec_eq_load {d a b : Reg} {i : Instr} {z n : Nat}
    (hi : (i, z, n) ∈ [(Instr.ldb d a b, 1, 1), (.ldh d a b, 2, 1), (.ldw d a b, 4, 1), (.ldd d a b, 8, 2), (.ldq d a b, 16, 4)]) (s : State) :
    exec i s = issue i s (fun x s => x.load s z n d a b) := by
  simp only [List.mem_cons, List.not_mem_nil, or_false, Prod.mk.injEq] at hi
  rcases hi with ⟨rfl, rfl, rfl⟩ | ⟨rfl, rfl, rfl⟩ | ⟨rfl, rfl, rfl⟩ | ⟨rfl, rfl, rfl⟩ | ⟨rfl, rfl, rfl⟩ <;> rfl

theorem exec_eq_store {d a b : Reg} {i : Instr} {z n : Nat}
    (hi : (i, z, n) ∈ [(Instr.stb d a b, 1, 1), (.sth d a b, 2, 1), (.stw d a b, 4, 1), (.std d a b, 8, 2), (.stq d a b, 16, 4)]) (s : State) :
    exec i s = issue i s (fun x s => x.store s z n d a b) := by
  simp only [List.mem_cons, List.not_mem_nil, or_false, Prod.mk.injEq] at hi
  rcases hi with ⟨rfl, rfl, rfl⟩ | ⟨rfl, rfl, rfl⟩ | ⟨rfl, rfl, rfl⟩ | ⟨rfl, rfl, rfl⟩ | ⟨rfl, rfl, rfl⟩ <;> rfl

/-- The bytes that a store lane sends are those of its registers at issue. -/
theorem Starts.storeBytes_ixOf {i : Instr} {s : State} {c : Cur} {g : Group} (h : Starts i s c g) (d n z L : Nat) :
    storeBytes ((ixOf s c g).captured ((List.range n).map (fun j => d + j))) z L
      = ((List.range n).flatMap (fun j => natLe (((ixOf s c g).g.vr (d + j)).lane L).toNat 4)).take z := by
  rw [h.captured_ixOf, h.ixOf_g, storeBytes, List.map_map, List.flatMap_map]
  rfl

/-- Settles O26: each lane's access is made once every lane is placed, and what no lane names stays. -/
theorem vectorAccesses : Obligations.VectorAccesses := by
  refine ⟨fun d a b i z n hi => ⟨?loads, ?loadTraps, ?loadKeeps⟩, fun d a b i z n hi => ⟨?stores, ?storeTraps, ?storeKeeps⟩⟩
  case loads =>
    intro s c g y l u vals h _ halign hreach hperform
    exact runsTo_of_next h (exec_eq_load hi s) (h.access_of_passes halign hreach hperform)
  case loadTraps =>
    intro s c g L h _ hL
    exact trapsWith_of_trap h (exec_eq_load hi s) (h.access_of_misaligned hL)
  case loadKeeps =>
    exact accessKeeps_of_performs fun s c g h x byte N u last tg _ hline hu => hu.loadLane _ z last hline
  case stores =>
    intro s c g y l u vals h _ halign hreach hperform
    refine runsTo_of_next h (exec_eq_store hi s) ?_
    simp only [Ix.store, h.storeBytes_ixOf]
    exact h.access_of_passes halign hreach hperform
  case storeTraps =>
    intro s c g L h _ hL
    exact trapsWith_of_trap h (exec_eq_store hi s) (h.access_of_misaligned hL)
  case storeKeeps =>
    refine accessKeeps_of_performs fun s c g h x byte N u last tg huntouched _ hu => hu.storeLane _ last fun k hk => ?_
    rw [List.length_take] at hk
    simp only [inRange, Bool.and_eq_false_iff, decide_eq_false_iff_not] at huntouched
    omega

/-! ## Whole-group accesses (R242) -/

section
variable {i : Instr} {s y u : State} {c : Cur} {g : Group} (h : Starts i s c g) {acc : Acc} {path z : Nat} {a b : Reg}
  {perform : State → Nat → Target → State × LaneRes} {result : Group → Nat → Bool → Group}
include h

theorem Starts.accessWhole_of_misaligned (hbad : (wholeAt g a b).toNat % z ≠ 0) :
    (ixOf s c g).accessWhole y acc path z a b perform result = .trap y (trapPA 0x28 (wholeAt g a b) 0) := by
  rw [Ix.accessWhole, h.ixOf_g]
  exact if_pos hbad

theorem Starts.accessWhole_of_passes {pa typ v : Nat} {bad : Bool} (halign : (wholeAt g a b).toNat % z = 0)
    (htrans : (s.begun i c g).translate ((s.begun i c g).groupXc c.gid) (wholeAt g a b) acc = (y, .ok pa typ))
    (hperform : perform (y.setGroup c.gid (fun h => h.raisePath path (s.uid + 1) 0)) 0
      { lane := whole, va := wholeAt g a b, pa := pa, typ := typ } = (u, .ok v bad)) :
    (ixOf s c g).accessWhole (s.begun i c g) acc path z a b perform result
      = .next ((u.setGroup c.gid (fun h => result h v bad)).postLand c.gid (s.uid + 1)) := by
  have hea : g.sr a.toNat + g.sr b.toNat = wholeAt g a b := rfl
  simp only [Ix.accessWhole, h.ixOf_g, hea, halign, ne_eq, not_true_eq_false, if_false, ixOf_gid, htrans, h.raise_path_ixOf, hperform, Ix.unheld,
    h.again_ixOf, Bool.false_eq_true, h.op_ixOf]

end

theorem exec_eq_loadWhole {d a b : Reg} {i : Instr} {z : Nat} (hi : (i, z) ∈ [(Instr.sldw d a b, 4), (.sldd d a b, 8)]) (s : State) :
    exec i s = issue i s (fun x s => x.loadWhole s z d a b) := by
  simp only [List.mem_cons, List.not_mem_nil, or_false, Prod.mk.injEq] at hi
  rcases hi with ⟨rfl, rfl⟩ | ⟨rfl, rfl⟩ <;> rfl

theorem exec_eq_storeWhole {d a b : Reg} {i : Instr} {z : Nat} (hi : (i, z) ∈ [(Instr.sstw d a b, 4), (.sstd d a b, 8)]) (s : State) :
    exec i s = issue i s (fun x s => x.storeWhole s z d a b) := by
  simp only [List.mem_cons, List.not_mem_nil, or_false, Prod.mk.injEq] at hi
  rcases hi with ⟨rfl, rfl⟩ | ⟨rfl, rfl⟩ <;> rfl

/-- Settles O27: a whole-group access that is aligned and translates completes, and a misaligned one traps. -/
theorem wholeGroupAccesses : Obligations.WholeGroupAccesses := by
  refine fun d a b i z => ⟨fun hi s c g y pa typ u v bad h halign htrans hperform => ?load,
    fun hi s c g y pa typ u v bad h halign htrans hperform => ?store, fun hi s c g h hbad => ?trap⟩
  case load =>
    refine runsTo_of_next h (exec_eq_loadWhole hi s) ((h.accessWhole_of_passes halign htrans hperform).trans ?_)
    rw [h.op_ixOf]
    rfl
  case store => exact runsTo_of_next h (exec_eq_storeWhole hi s) (h.accessWhole_of_passes halign htrans hperform)
  case trap =>
    rw [show [(Instr.sldw d a b, 4), (Instr.sldd d a b, 8), (Instr.sstw d a b, 4), (Instr.sstd d a b, 8)]
      = [(Instr.sldw d a b, 4), (Instr.sldd d a b, 8)] ++ [(Instr.sstw d a b, 4), (Instr.sstd d a b, 8)] from rfl, List.mem_append] at hi
    rcases hi with hi | hi
    · exact trapsWith_of_trap h (exec_eq_loadWhole hi s) (h.accessWhole_of_misaligned hbad)
    · exact trapsWith_of_trap h (exec_eq_storeWhole hi s) (h.accessWhole_of_misaligned hbad)

end Sys2Proof.Machine
end

section
/-!
PROOF of what the uncorrectable error of a line that loads wait for does (R233, R238): the line is poisoned, and so are the results due
to the lanes that wait for it.
-/
namespace Sys2Proof.Machine
open Sys2Proof

/-! ## What writes shorter than a line leave standing -/

/-- The property is one of the lines and the groups, and no write of less than a whole line ends it. -/
structure Outlasts (P : State → Prop) : Prop where
  same : ∀ s t, (t.lines, t.groups) = (s.lines, s.groups) → P s → P t
  writeLine : ∀ s n t cells tags, cells.length < 256 → P s → P (s.writeLine n t cells tags)

theorem unasked_recorded : Unasked (fun s : State => (s.lines, s.groups)) := ⟨fun _ _ => rfl, fun _ _ => rfl, fun _ _ => rfl⟩

theorem length_cellsAt (pa : Nat) (data : List Byte) : (cellsAt pa data).length = data.length := by
  induction data generalizing pa with
  | nil => rfl
  | cons b data ih => rw [cellsAt, List.length_cons, ih, List.length_cons]

/-- An event is 64 bytes (R419). -/
theorem length_withPhase_eventBytes (typ : Nat) (phase first : Bool) (payload : List (Nat × Nat × Nat)) :
    (withPhase (eventBytes typ phase payload) first).length = 64 := by simp [withPhase, eventBytes]

namespace Outlasts
variable {P : State → Prop} (h : Outlasts P) {s : State} (hs : P s)
include h hs

theorem storeLine (n t : Nat) {cells : List Host.Cell} (tags : List (Inst × Nat)) (hshort : cells.length < 256) :
    P (s.storeLine n t cells tags) := by
  unfold State.storeLine
  split
  · exact hs
  · refine foldl_inv P _ (fun z d hz => ?_) _ _ (h.writeLine _ _ _ _ _ hshort hs)
    exact h.writeLine _ _ _ _ _ (by simpa using hshort) (h.same _ _ (unasked_recorded.wantLine z _ _ _ _) hz)

theorem hostWrite (pa : Nat) {data : List Byte} (hshort : data.length < 256) : P (s.hostWrite pa data) := by
  unfold State.hostWrite
  refine foldl_inv P _ (fun z n hz => ?_) _ _ hs
  have hcells : ((cellsAt pa data).filter (fun c => decide (c.1 / 256 = n))).length < 256 :=
    (List.length_filter_le _ _).trans_lt (length_cellsAt pa data ▸ hshort)
  have hasked := h.same _ _ (unasked_recorded.wantLine z 0 hostPort (n * 256) true) hz
  exact h.same (State.storeLine _ _ (Nat.max (z.line n).nextTime (z.hostT + 1)) _ _) _ rfl (h.storeLine hasked n _ [] hcells)

theorem postEvent (fn typ : Nat) (payload : List (Nat × Nat × Nat)) : P (s.postEvent fn typ payload) := by
  unfold State.postEvent
  simp only
  split
  · refine h.hostWrite (h.same s _ ?_ hs) _ (by rw [length_withPhase_eventBytes]; decide)
    rfl
  · refine h.same s _ ?_ hs
    rfl

theorem poisonEvent (pa : Nat) : P (s.poisonEvent pa) := h.postEvent (h.same s (s.mcEvent 0x04 pa) rfl hs) _ _ _

end Outlasts

/-! ## The poison of a line, and of the results due -/

theorem State.lines_keepVersion (s : State) (n t : Nat) : (s.keepVersion n t).lines = s.lines :=
  congrArg (fun q => q.2.2.2) (s.stored_keepVersion n t)

theorem State.line_wakeMonitors (s : State) (n t m : Nat) : (s.wakeMonitors n t).line m = s.line m := rfl

/-- A line stays poisoned until it is written whole (R233). -/
theorem outlasts_bad (n : Nat) : Outlasts (fun s => (s.line n).bad = true) where
  same s t e hbad := by
    have hlines : t.lines = s.lines := congrArg Prod.fst e
    simpa only [State.line, hlines] using hbad
  writeLine s m t cells tags hshort hbad := by
    have hwritten : ((s.written m t cells).line n) = s.line n := by
      change Assoc.getD (s.keepVersion m t).lines n Line.fresh = _
      rw [State.lines_keepVersion]
      rfl
    rw [State.writeLine_eq]
    simp only [State.line_wakeMonitors]
    by_cases hn : n = m
    · subst hn
      simp [hwritten, hbad, hshort]
    · rw [State.line_setLine_other _ _ hn, hwritten]
      exact hbad

/-- The group is in the machine, and its results due are as `Q` says. -/
def State.DueIn (gid : Nat) (Q : List Pend → Prop) (s : State) : Prop := ∃ h, s.group gid = some h ∧ Q h.pend

theorem State.groups_keepVersion (s : State) (n t : Nat) : (s.keepVersion n t).groups = s.groups := by
  unfold State.keepVersion
  split
  · rfl
  · split <;> rfl

/-- A write wakes groups, and changes no result due. -/
theorem outlasts_dueIn (gid : Nat) (Q : List Pend → Prop) : Outlasts (State.DueIn gid Q) where
  same s t e hdue := by
    have hgroups : t.groups = s.groups := congrArg Prod.snd e
    simpa only [State.DueIn, State.group, hgroups] using hdue
  writeLine s m t cells tags _ hdue := by
    obtain ⟨g, hg, hQ⟩ := hdue
    have hkept : Assoc.get (s.keepVersion m t).groups gid = some g := by rwa [State.groups_keepVersion]
    refine ⟨_, Assoc.get_map_same (fun p => ?_) hkept, ?_⟩
    · split
      · split <;> rfl
      · rfl
    · split
      · split <;> exact hQ
      · exact hQ

/-- Every result due of the operation is poisoned in the lane. -/
def Marked (op lane : Nat) (l : List Pend) : Prop := ∀ x ∈ l, x.op = op → x.bad.has lane = true

/-- The lanes whose fills of one operation come with an error, poisoned in a result due. -/
def Pend.poisonAll (l : List Fill) (x : Pend) : Pend := l.foldl (fun y f => if f.op = x.op then y.poison f.lane else y) x

theorem Pend.has_poison_of_has {x : Pend} {k lane : Nat} (h : x.bad.has lane = true) : (x.poison k).bad.has lane = true := by
  have hlane := Mask.has_lt h
  unfold Pend.poison
  simp only [Mask.has] at h ⊢
  split
  · rw [BitVec.getLsbD_allOnes, decide_eq_true hlane]
  · rw [BitVec.getLsbD_or, h, Bool.true_or]

theorem Pend.has_poison_self (x : Pend) {lane : Nat} (h : lane < 128) : (x.poison lane).bad.has lane = true := by
  have hlane : lane ≠ whole := Nat.ne_of_lt h
  simp [Pend.poison, Mask.has, hlane, h]

theorem Pend.op_poisonAll (l : List Fill) (x : Pend) : (x.poisonAll l).op = x.op :=
  foldl_keeps Pend.op _ (fun y f => by split <;> rfl) l x

theorem Pend.has_poisonAll_of_has (l : List Fill) {x : Pend} {lane : Nat} (h : x.bad.has lane = true) :
    (x.poisonAll l).bad.has lane = true := by
  refine foldl_inv (fun y : Pend => y.bad.has lane = true) _ (fun y f hy => ?_) l x h
  split
  · exact Pend.has_poison_of_has hy
  · exact hy

/-- A turn of a fold establishes what the later turns keep, where the earlier ones keep what it needs. -/
theorem foldl_establishes {α β : Type} {P R : β → Prop} {turn : β → α → β} {l : List α} {a : α} {b : β} (ha : a ∈ l)
    (hbefore : ∀ b a, P b → P (turn b a)) (hturn : ∀ b, P b → R (turn b a)) (hafter : ∀ b a, R b → R (turn b a)) (hb : P b) :
    R (l.foldl turn b) := by
  obtain ⟨l, r, rfl⟩ := List.append_of_mem ha
  rw [List.foldl_append, List.foldl_cons]
  exact foldl_inv R _ hafter _ _ (hturn _ (foldl_inv P _ hbefore _ _ hb))

theorem Pend.has_poisonAll_of_mem {l : List Fill} {f : Fill} (hf : f ∈ l) {x : Pend} (hop : x.op = f.op) (hlane : f.lane < 128) :
    (x.poisonAll l).bad.has f.lane = true := by
  refine foldl_establishes (P := fun _ => True) (R := fun y : Pend => y.bad.has f.lane = true) hf (fun _ _ _ => trivial) (fun y _ => ?_)
    (fun y k hy => ?_) trivial
  · rw [if_pos hop.symm]
    exact y.has_poison_self hlane
  · split
    · exact Pend.has_poison_of_has hy
    · exact hy

theorem Marked.poisonAll {op lane : Nat} {l : List Pend} (h : Marked op lane l) (fills : List Fill) :
    Marked op lane (l.map (Pend.poisonAll fills)) := by
  intro x hx hop
  obtain ⟨y, hy, rfl⟩ := List.mem_map.1 hx
  exact Pend.has_poisonAll_of_has fills (h y hy (Pend.op_poisonAll fills y ▸ hop))

theorem marked_poisonAll {fills : List Fill} {f : Fill} (hf : f ∈ fills) (hlane : f.lane < 128) (l : List Pend) :
    Marked f.op f.lane (l.map (Pend.poisonAll fills)) := by
  intro x hx hop
  obtain ⟨y, hy, rfl⟩ := List.mem_map.1 hx
  exact Pend.has_poisonAll_of_mem hf (Pend.op_poisonAll fills y ▸ hop) hlane

/-! ## The groups that wait for the line -/

/-- The fills of a group that a line is. -/
def Group.fillsOf (g : Group) (line : Nat) : List Fill := g.fills.filter (fun f => decide (f.line = line))

/-- The groups that wait for a line. -/
def State.waitsFor (s : State) (line : Nat) : Assoc Group :=
  s.groups.filter (fun (p : Nat × Group) => p.2.fills.any (fun f => decide (f.line = line)))

/-- One group that waits takes the error: an event for each of its operations, and the poison of its lanes. -/
def State.poisonWaiter (line : Nat) (s : State) (p : Nat × Group) : State :=
  (((p.2.fillsOf line).map Fill.op).eraseDups.foldl (fun (s : State) _ => s.poisonEvent (line * 256)) s).setGroup p.1
    (fun g => { g with pend := g.pend.map (Pend.poisonAll (p.2.fillsOf line)) })

theorem State.poisonFill_eq (s : State) (line : Nat) :
    s.poisonFill line = (s.waitsFor line).foldl (State.poisonWaiter line) (s.setLine line (fun l => { l with bad := true })) := rfl

/-- With no lane that waits, the line alone is poisoned. -/
theorem State.poisonFill_of_no_wait {s : State} {line : Nat} (h : ∀ p, p ∈ s.groups → ∀ f, f ∈ p.2.fills → f.line ≠ line) :
    s.poisonFill line = s.setLine line (fun l => { l with bad := true }) := by
  have hnone : s.waitsFor line = [] :=
    List.filter_eq_nil_iff.2 fun p hp => by simpa using h p hp
  rw [State.poisonFill_eq, hnone, List.foldl_nil]

section
variable {s : State} {line gid : Nat}

theorem State.events_of_outlasts {P : State → Prop} (h : Outlasts P) {l : List Nat} (hs : P s) :
    P (l.foldl (fun (s : State) _ => s.poisonEvent (line * 256)) s) := foldl_inv P _ (fun _ _ hz => h.poisonEvent hz _) _ _ hs

theorem State.bad_poisonFill (s : State) (line : Nat) : ((s.poisonFill line).line line).bad = true := by
  rw [State.poisonFill_eq]
  refine foldl_inv (fun z : State => (z.line line).bad = true) _ (fun z p hz => ?_) _ _ ?_
  · exact State.events_of_outlasts (outlasts_bad line) hz
  · rw [State.line_setLine_same]

/-- A group's poison of its results due, for the own group and for others. -/
theorem State.DueIn.setGroup {Q R : List Pend → Prop} (h : s.DueIn gid Q) (k : Nat) (fills : List Fill) (hkeep : ∀ l, Q l → R l)
    (hmap : ∀ l, Q l → R (l.map (Pend.poisonAll fills))) :
    (s.setGroup k (fun g => { g with pend := g.pend.map (Pend.poisonAll fills) })).DueIn gid R := by
  obtain ⟨g, hg, hQ⟩ := h
  by_cases hk : gid = k
  · subst hk
    exact ⟨_, by rw [State.group_setGroup_same, hg]; rfl, hmap _ hQ⟩
  · exact ⟨g, by rw [State.group_setGroup_other _ _ hk, hg], hkeep _ hQ⟩

theorem State.poisonFill_marks {g : Group} {f : Fill} (hgroup : s.group gid = some g) (hf : f ∈ g.fills) (hline : f.line = line)
    (hlane : f.lane < 128) : (s.poisonFill line).DueIn gid (Marked f.op f.lane) := by
  have hwaits : (gid, g) ∈ s.waitsFor line :=
    List.mem_filter.2 ⟨Assoc.mem_of_get hgroup, List.any_eq_true.2 ⟨f, hf, decide_eq_true hline⟩⟩
  have hmine : f ∈ g.fillsOf line := List.mem_filter.2 ⟨hf, decide_eq_true hline⟩
  rw [State.poisonFill_eq]
  refine foldl_establishes (P := State.DueIn gid fun _ => True) (R := State.DueIn gid (Marked f.op f.lane)) hwaits (fun z p hz => ?before)
    (fun z hz => ?turn) (fun z p hz => ?after) ⟨g, hgroup, trivial⟩
  case before =>
    exact (State.events_of_outlasts (outlasts_dueIn gid _) hz).setGroup _ _ (fun _ _ => trivial) fun _ _ => trivial
  case turn =>
    obtain ⟨h, hh, -⟩ := State.events_of_outlasts (line := line) (l := ((g.fillsOf line).map Fill.op).eraseDups) (outlasts_dueIn gid _) hz
    exact ⟨_, by rw [State.poisonWaiter, State.group_setGroup_same, hh]; rfl, marked_poisonAll hmine hlane _⟩
  case after =>
    exact (State.events_of_outlasts (outlasts_dueIn gid _) hz).setGroup _ _ (fun _ hm => hm) fun _ hm => hm.poisonAll _

end

end Sys2Proof.Machine
end

section
/-!
PROOF of the crossbar's grants, the slices' events and the expanders' errors (R227 to R233, R238, R245): which requests stay at the
crosspoints, what a grant leaves, what a fill brings, and the bytes that a failed store gives back.
-/
namespace Sys2Proof.Machine
open Sys2Proof

/-! ## The requests at the crosspoints (R228, R245) -/

section
variable (x : Slice) (held : List Nat) {l : List L2Req} {r : L2Req}

theorem Slice.keptReqs_subset (hr : r ∈ x.keptReqs held l) : r ∈ l := by
  induction l generalizing held with
  | nil => exact hr
  | cons q l ih =>
    rw [Slice.keptReqs] at hr
    split at hr
    · rcases List.mem_cons.1 hr with rfl | hr
      · exact .head _
      · exact .tail _ (ih _ hr)
    · split at hr
      · exact .tail _ (ih _ hr)
      · rcases List.mem_cons.1 hr with rfl | hr
        · exact .head _
        · exact .tail _ (ih _ hr)

/-- A request that is no PREF's stays. -/
theorem Slice.mem_keptReqs (hr : r ∈ l) (hpref : r.pref = false) : r ∈ x.keptReqs held l := by
  induction l generalizing held with
  | nil => cases hr
  | cons q l ih =>
    rw [Slice.keptReqs]
    rcases List.mem_cons.1 hr with rfl | hr
    · rw [hpref, Bool.false_and]
      split <;> exact .head _
    · split
      · exact .tail _ (ih _ hr)
      · split
        · exact ih _ hr
        · exact .tail _ (ih _ hr)

/-- A PREF that stands first and that its bank refuses goes. -/
theorem Slice.keptReqs_cons_of_refused (rest : List L2Req) (hpref : r.pref = true) (htakes : x.takes r = false) :
    x.keptReqs [] (r :: rest) = x.keptReqs [] rest := by
  simp [Slice.keptReqs, hpref, htakes]

/-- What a port's crosspoint shows is one of its requests, and its bank can take it. -/
theorem Slice.offered_spec {p : Nat} (h : x.offered p = some r) : r ∈ x.reqs ∧ r.port = p ∧ x.takes r = true := by
  obtain ⟨hfind, htakes⟩ := Option.filter_eq_some_iff.1 h
  exact ⟨List.mem_of_find?_eq_some hfind, by simpa using List.find?_some hfind, htakes⟩

end

/-! ## A grant (R231) -/

theorem grantTo_nil (bits_ turn : List Nat) : grantTo bits_ turn [] = none := by
  simp [grantTo]

/-- The slice as the crossbar finds it: without the PREF's that are dropped. -/
def Slice.shown (x : Slice) : Slice := { x with reqs := x.keptReqs [] x.reqs }

/-- The ports that assert a request (R231). -/
def Slice.asserting (x : Slice) : List Nat := (List.range 23).filter (fun p => (x.shown.offered p).isSome)

/-- The state with a request granted to a port, before the next grant is asked for. -/
def State.grant (s : State) (k p : Nat) (r : L2Req) : State :=
  ((s.setSlice k Slice.shown).setSlice k (fun x =>
    { x with reqs := x.reqs.erase r, lrg := afterGrant x.lrg (s.slice k).asserting p, turn := grantedLast x.turn p,
             granted := s.clk + 1 })).post (.l2Request r)

section
variable {s : State} {die k p : Nat} {r : L2Req} (h : (s.slice (32 * die + k)).granted ≤ s.clk)
include h

theorem exec_crossbarGrant_of_none
    (hgrant : grantTo (s.slice (32 * die + k)).lrg (s.slice (32 * die + k)).turn (s.slice (32 * die + k)).asserting = none) :
    exec (.crossbarGrant die k false) s = .next (s.setSlice (32 * die + k) Slice.shown) := by
  refine (if_neg (Nat.not_lt.2 h)).trans ((if_neg Bool.false_ne_true).trans ?_)
  have hbind : (grantTo (s.slice (32 * die + k)).lrg (s.slice (32 * die + k)).turn (s.slice (32 * die + k)).asserting).bind
      (fun g => ((s.slice (32 * die + k)).shown.offered g).map (fun r => (g, r))) = none := by
    rw [hgrant]
    rfl
  simp only [State.slice_setSlice_same]
  split
  · rfl
  · next hsome => exact absurd (hbind.symm.trans hsome) nofun

theorem exec_crossbarGrant_of_some
    (hgrant : grantTo (s.slice (32 * die + k)).lrg (s.slice (32 * die + k)).turn (s.slice (32 * die + k)).asserting = some p)
    (hoffered : (s.slice (32 * die + k)).shown.offered p = some r) :
    exec (.crossbarGrant die k false) s = .next (if ((s.grant (32 * die + k) p r).slice (32 * die + k)).reqs = [] then
      s.grant (32 * die + k) p r else (s.grant (32 * die + k) p r).askGrant (32 * die + k) false) := by
  refine (if_neg (Nat.not_lt.2 h)).trans ((if_neg Bool.false_ne_true).trans ?_)
  have hbind : (grantTo (s.slice (32 * die + k)).lrg (s.slice (32 * die + k)).turn (s.slice (32 * die + k)).asserting).bind
      (fun g => ((s.slice (32 * die + k)).shown.offered g).map (fun r => (g, r))) = some (p, r) := by
    rw [hgrant, Option.bind_some, hoffered]
    rfl
  simp only [State.slice_setSlice_same]
  split
  · next hnone => exact absurd (hbind.symm.trans hnone) nofun
  · next hsome =>
    cases Option.some.inj (hbind.symm.trans hsome)
    rfl

end

theorem State.slices_askGrant (s : State) (k : Nat) (wb : Bool) : (s.askGrant k wb).slices = s.slices := by
  unfold State.askGrant
  simp only
  split <;> rfl

theorem State.slice_askGrant (s : State) (k j : Nat) (wb : Bool) : (s.askGrant k wb).slice j = s.slice j :=
  congrArg (fun m => Assoc.getD m j Slice.fresh) (s.slices_askGrant k wb)

theorem State.slice_post (s : State) (e : Event) (j : Nat) : (s.post e).slice j = s.slice j := rfl

theorem State.slice_grant (s : State) (k p : Nat) (r : L2Req) : (s.grant k p r).slice k =
    { (s.slice k).shown with reqs := (s.slice k).shown.reqs.erase r, lrg := afterGrant (s.slice k).lrg (s.slice k).asserting p,
                             turn := grantedLast (s.slice k).turn p, granted := s.clk + 1 } := by
  rw [State.grant, State.slice_post, State.slice_setSlice_same, State.slice_setSlice_same]
  rfl

/-- A grant of a request takes it from its crosspoint, and leaves memory alone. -/
theorem exec_crossbarGrant_granted {s : State} {die k p : Nat} {r : L2Req} (h : (s.slice (32 * die + k)).granted ≤ s.clk)
    (hgrant : grantTo (s.slice (32 * die + k)).lrg (s.slice (32 * die + k)).turn (s.slice (32 * die + k)).asserting = some p)
    (hoffered : (s.slice (32 * die + k)).shown.offered p = some r) :
    ∃ u, exec (.crossbarGrant die k false) s = .next u
      ∧ u.slice (32 * die + k) = (s.grant (32 * die + k) p r).slice (32 * die + k) ∧ u.mem = s.mem := by
  refine ⟨_, exec_crossbarGrant_of_some h hgrant hoffered, ?_, ?_⟩
  · split
    · rfl
    · exact State.slice_askGrant _ _ _ _
  · have hmem : Unasked State.mem := ⟨fun _ _ => rfl, fun _ _ => rfl, fun _ _ => rfl⟩
    split
    · rfl
    · exact hmem.askGrant _ _ _

/-! ## The slices' own events (R227, R228, R230) -/

theorem exec_l2Request_keeps {γ : Type} {f : State → γ} (h : Unasked f) (r : L2Req) (s : State) :
    ∃ u, exec (.l2Request r) s = .next u ∧ f u = f s := by
  change ∃ u, execL2Request r s = .next u ∧ f u = f s
  unfold execL2Request
  simp only
  split_ifs
  · exact ⟨_, rfl, (h.askGrant _ _ _).trans (h.setSlice s _ _)⟩
  · exact ⟨_, rfl, (h.serveSlice _ _).trans (h.holdInSet s _ r _)⟩
  · exact ⟨_, rfl, (h.askGrant _ _ _).trans (h.setSlice s _ _)⟩
  · exact ⟨_, rfl, (h.serveSlice _ _).trans (h.setSlice s _ _)⟩

theorem exec_l2Writeback_keeps {γ : Type} {f : State → γ} (h : Unasked f) (w : WriteBack) (s : State) :
    ∃ u, exec (.l2Writeback w) s = .next u ∧ f u = f s := by
  refine ⟨_, rfl, ?_⟩
  split
  · exact h.writeOut s _ w
  · rfl

/-! ## A fill (R227, R229, R230, R233) -/

/-- The slice with a line's fill complete. -/
def Slice.filled (x : Slice) (line : Nat) : Slice :=
  { x with misses := x.misses.erase line,
           present := x.present.filter (fun p => decide (p.1 ≠ line)) ++ [(line, x.wb.any (fun w => decide (w.line = line)))],
           wb := x.wb.filter (fun w => decide (w.line ≠ line)) }

/-- The state with a line present in its home slice. -/
def State.present (s : State) (line : Nat) : State := s.setSlice (s.homeSlice (line * 256)) (fun x => x.filled line)

/-- The state with a line's fill complete, before its home slice is served. -/
def State.filled (s : State) (line : Nat) (bad : Bool) : State :=
  if bad then (s.present line).poisonFill line else s.present line

section
variable {s : State} {line : Nat} {bad : Bool}

theorem exec_l2FillComplete_of_not_mem (h : line ∉ (s.slice (s.homeSlice (line * 256))).misses) :
    exec (.l2FillComplete line bad) s = .next s := by
  have hnot : (!(s.slice (s.homeSlice (line * 256))).misses.contains line) = true := by simpa using h
  exact if_pos hnot

theorem exec_l2FillComplete_of_mem (h : line ∈ (s.slice (s.homeSlice (line * 256))).misses) :
    exec (.l2FillComplete line bad) s = .next ((s.filled line bad).serveSlice (s.homeSlice (line * 256))) := by
  have hthere : ¬ (!(s.slice (s.homeSlice (line * 256))).misses.contains line) = true := by simpa using h
  exact if_neg hthere


theorem State.filled_keeps_of_clean {γ : Type} {f : State → γ} (h : Unasked f) : f (s.filled line false) = f s :=
  h.setSlice s (s.homeSlice (line * 256)) fun x => x.filled line

/-- A fill on which no lane waits changes at most the slice and the line's poison. -/
theorem State.filled_keeps_of_no_wait {γ : Type} {f : State → γ} (h : Unasked f) (hlines : ∀ s m, f { s with lines := m } = f s)
    (hfills : ∀ p, p ∈ s.groups → ∀ f, f ∈ p.2.fills → f.line ≠ line) : f (s.filled line bad) = f s := by
  cases bad with
  | false => exact State.filled_keeps_of_clean h
  | true =>
    change f ((s.present line).poisonFill line) = f s
    rw [State.poisonFill_of_no_wait (s := s.present line) hfills]
    exact (hlines _ _).trans (State.filled_keeps_of_clean h)

theorem State.bad_filled : ((s.filled line bad).line line).bad = ((s.line line).bad || bad) := by
  cases bad with
  | false => exact (Bool.or_false _).symm
  | true => exact (State.bad_poisonFill _ _).trans (Bool.or_true _).symm

end

/-- The service of a slice leaves a property of the lines and groups. -/
theorem Outlasts.serveSlice {P : State → Prop} (h : Outlasts P) {s : State} (hs : P s) (k : Nat) : P (s.serveSlice k) :=
  h.same _ _ (unasked_recorded.serveSlice s k) hs

/-- A fill brings its line, with its error, and the error reaches every lane that waits for it. -/
theorem exec_l2FillComplete_spec {s : State} {line : Nat} (h : line ∈ (s.slice (s.homeSlice (line * 256))).misses) (bad : Bool) :
    ∃ u, exec (.l2FillComplete line bad) s = .next u ∧ (bad = false → u.mem = s.mem ∧ u.groups = s.groups)
      ∧ ((∀ p, p ∈ s.groups → ∀ f, f ∈ p.2.fills → f.line ≠ line) → u.mem = s.mem ∧ u.dev = s.dev)
      ∧ (u.line line).bad = ((s.line line).bad || bad)
      ∧ (bad = true → ∀ gid g f, s.group gid = some g → f ∈ g.fills → f.line = line → f.lane < 128 →
        ∃ h, u.group gid = some h ∧ Marked f.op f.lane h.pend) := by
  refine ⟨_, exec_l2FillComplete_of_mem h, fun hbad => ?clean, fun hnone => ?noWait, ?bad, fun hbad gid g f hgroup hf hline hlane => ?marks⟩
  case clean =>
    have hkept : Unasked (fun z : State => (z.mem, z.groups)) := ⟨fun _ _ => rfl, fun _ _ => rfl, fun _ _ => rfl⟩
    rw [hbad]
    exact Prod.mk.inj ((hkept.serveSlice _ _).trans (State.filled_keeps_of_clean hkept))
  case noWait =>
    have hkept : Unasked (fun z : State => (z.mem, z.dev)) := ⟨fun _ _ => rfl, fun _ _ => rfl, fun _ _ => rfl⟩
    exact Prod.mk.inj ((hkept.serveSlice _ _).trans (State.filled_keeps_of_no_wait hkept (fun _ _ => rfl) hnone))
  case bad =>
    have hkept : Unasked (fun z : State => (z.line line).bad) := ⟨fun _ _ => rfl, fun _ _ => rfl, fun _ _ => rfl⟩
    exact (hkept.serveSlice _ _).trans State.bad_filled
  case marks =>
    rw [hbad]
    have hpresent : (s.present line).group gid = some g := hgroup
    exact (outlasts_dueIn gid (Marked f.op f.lane)).serveSlice (State.poisonFill_marks hpresent hf hline hlane) _

/-! ## A failed store of an expander (R238) -/

/-- The cells that a dropped write gives back are of addresses that the line's writes had replaced. -/
theorem mem_dropVersion {t : Nat} {l : List Version} {c : Host.Cell} (hc : c ∈ (dropVersion t l).2) : ∃ v ∈ l, c ∈ v.old := by
  induction l with
  | nil => cases hc
  | cons v l ih =>
    rw [dropVersion] at hc
    split at hc
    · exact ⟨v, .head _, hc⟩
    · obtain ⟨w, hw, hold⟩ := ih (List.mem_of_mem_filter hc)
      exact ⟨w, .tail _ hw, hold⟩

/-- Cells of distinct addresses, put one after another, are all there. -/
theorem Memory.get_cells_same {m : Memory} (hm : Memory.wf m = true) {l : List Host.Cell} (hkeys : (l.map Prod.fst).Nodup)
    {c : Host.Cell} (hc : c ∈ l) : Memory.get (l.foldl (fun (m : Memory) (c : Host.Cell) => Memory.put m c.1 c.2) m) c.1 = c.2 := by
  induction l generalizing m with
  | nil => cases hc
  | cons d l ih =>
    obtain ⟨hnew, hrest⟩ := List.nodup_cons.1 hkeys
    rcases List.mem_cons.1 hc with rfl | hc
    · have houtside : ∀ e ∈ l, e.1 ≠ c.1 := fun e he heq => hnew (heq ▸ List.mem_map_of_mem he)
      exact (Memory.get_cells_outside _ _ houtside).trans (Memory.get_put_same hm _ _)
    · exact ih (Memory.wf_put hm _ _) hrest hc

theorem State.mem_dropWrite (s : State) (n t : Nat) : (s.dropWrite n t).mem
    = (dropVersion t (s.line n).versions).2.foldl (fun (m : Memory) (c : Host.Cell) => Memory.put m c.1 c.2) s.mem := rfl

section
variable {s : State} {pa t : Nat} (h : s.paKind pa = .cxl)
include h

theorem exec_cxlTransactionError_of_load : exec (.cxlTransactionError pa false t) s = .next (s.poisonFill (lineOf pa)) :=
  if_neg (not_not_intro h)

theorem exec_cxlTransactionError_of_store :
    exec (.cxlTransactionError pa true t) s = .next ((s.dropWrite (lineOf pa) t).mcEvent 0x10 pa) :=
  if_neg (not_not_intro h)

end
end Sys2Proof.Machine
end

section
/-!
PROOF of the units that perform atomics (R251, R261, R266 to R269, R363) and of the steps of the memory system, each by its rule.
-/
namespace Sys2Proof.Machine
open Sys2Proof

/-! ## What a unit looks at -/

/-- What decides whether a unit performs a lane, and what it performs it on. -/
def State.unitSees (s : State) : Memory × Assoc Line × Assoc Group × Nat × List AtomLane := (s.mem, s.lines, s.groups, s.clk, s.atoms)

/-- An event that carries no atomic to its unit is none that a unit looks at. -/
theorem State.unitSees_sent (s : State) {d : Due} (h : atomIn d.ev = none) :
    ({ s with agenda := s.agenda ++ [d] } : State).unitSees = s.unitSees := by
  simp [State.unitSees, State.atoms, h]

theorem State.unitSees_touch (s : State) (pa : Nat) : (s.touch pa).unitSees = s.unitSees := by
  unfold State.touch
  simp only
  split
  · rfl
  · split
    · exact State.unitSees_sent _ rfl
    · rfl

theorem State.unitSees_askGrant (s : State) (k : Nat) (wb : Bool) : (s.askGrant k wb).unitSees = s.unitSees := by
  unfold State.askGrant
  simp only
  split
  · rfl
  · exact State.unitSees_sent _ rfl

theorem State.unitSees_ask (s : State) (port line : Nat) (write pref : Bool) : (s.ask port line write pref).unitSees = s.unitSees := by
  unfold State.ask
  simp only
  split
  · rfl
  · exact State.unitSees_askGrant _ _ _

theorem State.unitSees_route (s : State) (core pa : Nat) (write : Bool) : (s.route core pa write).unitSees = s.unitSees := by
  unfold State.route State.routeVia
  split
  · unfold State.postOnce
    split
    · rfl
    · exact State.unitSees_sent _ rfl
  · rfl
  · split
    · exact s.unitSees_touch pa
    · exact s.unitSees_ask _ _ _ _

/-! ## The lanes that are performed together, in lane order (R268) -/

/-- A lane inserted stands among the same lanes. -/
theorem insertLane_perm (a : AtomLane) (l : List AtomLane) : (insertLane a l).Perm (a :: l) := by
  induction l with
  | nil => exact .refl _
  | cons b l ih =>
    rw [insertLane]
    split
    · exact .refl _
    · exact (ih.cons b).trans (.swap a b l)

theorem pairwise_insertLane (a : AtomLane) {l : List AtomLane} (h : l.Pairwise (fun a b => a.lane ≤ b.lane)) :
    (insertLane a l).Pairwise (fun a b => a.lane ≤ b.lane) := by
  induction l with
  | nil => exact List.pairwise_singleton _ _
  | cons b l ih =>
    obtain ⟨hfirst, hrest⟩ := List.pairwise_cons.1 h
    rw [insertLane]
    split
    · next hlt =>
      refine List.pairwise_cons.2 ⟨fun c hc => ?_, h⟩
      rcases List.mem_cons.1 hc with rfl | hc
      · exact hlt.le
      · exact hlt.le.trans (hfirst c hc)
    · next hge =>
      refine List.pairwise_cons.2 ⟨fun c hc => ?_, ih hrest⟩
      rcases List.mem_cons.1 ((insertLane_perm a l).mem_iff.1 hc) with rfl | hc
      · exact Nat.le_of_not_lt hge
      · exact hfirst c hc

/-- The lanes of a list inserted one after another. -/
theorem foldl_insertLane_perm (rest l : List AtomLane) : (rest.foldl (fun l b => insertLane b l) l).Perm (l ++ rest) := by
  induction rest generalizing l with
  | nil => rw [List.append_nil]; exact .refl _
  | cons b rest ih => exact (ih _).trans (((insertLane_perm b l).append_right rest).trans List.perm_middle.symm)

/-- The lane that an event carries, where it belongs to an operation and a line. -/
theorem atomOf_eq (op line : Nat) (d : Due) : atomOf op line d = (atomIn d.ev).filter (fun b => decide (b.op = op ∧ lineOf b.pa = line)) := by
  unfold atomOf
  split
  · next hev => rw [hev, atomIn, Option.filter_some]; simp only [decide_eq_true_eq]
  · next hev => rw [hev, atomIn, Option.filter_some]; simp only [decide_eq_true_eq]
  · next hwarp hpool =>
    have hnone : atomIn d.ev = none := by
      unfold atomIn
      split
      · next hev => exact absurd hev (hwarp _)
      · next hev => exact absurd hev (hpool _)
      · rfl
    rw [hnone]
    rfl

theorem State.filterMap_atomOf (s : State) (op line : Nat) :
    s.agenda.filterMap (atomOf op line) = s.atoms.filter (fun b => decide (b.op = op ∧ lineOf b.pa = line)) := by
  rw [State.atoms, List.filter_filterMap]
  exact List.filterMap_congr fun d _ => atomOf_eq op line d

/-- The atomics in flight once those of an operation to a line are taken out. -/
theorem State.atoms_taken (s : State) (op line : Nat) :
    ({ s with agenda := s.agenda.filter (fun d => (atomOf op line d).isNone) } : State).atoms
      = s.atoms.filter (fun b => !decide (b.op = op ∧ lineOf b.pa = line)) := by
  rw [State.atoms, State.atoms, List.filterMap_filter, List.filter_filterMap]
  refine List.filterMap_congr fun d _ => ?_
  rw [atomOf_eq]
  cases atomIn d.ev with
  | none => simp
  | some b => by_cases hb : b.op = op ∧ lineOf b.pa = line <;> simp [Option.filter_some, hb]

/-! ## A unit's step -/

section
variable {s y : State} (e : y.unitSees = s.unitSees)
include e

theorem State.unitSees_iff : y.mem = s.mem ∧ y.lines = s.lines ∧ y.groups = s.groups ∧ y.clk = s.clk ∧ y.atoms = s.atoms := by
  simpa only [State.unitSees, Prod.mk.injEq] using e

theorem State.line_of_unitSees (n : Nat) : y.line n = s.line n := by
  obtain ⟨-, hlines, -⟩ := State.unitSees_iff e
  rw [State.line, State.line, hlines]

theorem State.atomBefore_of_unitSees (a : AtomLane) : y.atomBefore a = s.atomBefore a := by
  obtain ⟨-, -, -, -, hatoms⟩ := State.unitSees_iff e
  rw [State.atomBefore, State.atomBefore, hatoms]

/-- An owner of the line, or an earlier atomic of the lane, is waited for (R251, R261). -/
theorem State.unitStep_of_waits {a : AtomLane} (again : Event) (h : (s.line (lineOf a.pa)).owners ≠ [] ∨ s.atomBefore a = true) :
    y.unitStep a again = y.postAt (s.clk + 1) again := by
  obtain ⟨-, -, -, hclk, -⟩ := State.unitSees_iff e
  rw [State.unitStep, State.line_of_unitSees e, State.atomBefore_of_unitSees e, if_pos (by simpa using h), hclk]

/-- The lanes of the instruction on the line, in lane order. -/
def State.lanesWith (s : State) (a : AtomLane) : List AtomLane :=
  (s.atoms.filter (fun b => decide (b.op = a.op ∧ lineOf b.pa = lineOf a.pa))).foldl (fun l b => insertLane b l) [a]

/-- The state with the atomics of an operation to a line taken out of what is in flight. -/
def State.taken (y : State) (a : AtomLane) : State :=
  { y with agenda := y.agenda.filter (fun d => (atomOf a.op (lineOf a.pa) d).isNone) }

/-- Else all lanes of the instruction on the line are performed (R268). -/
theorem State.unitStep_of_free {a : AtomLane} (again : Event) (howners : (s.line (lineOf a.pa)).owners = []) (hfirst : s.atomBefore a = false) :
    y.unitStep a again = ((s.lanesWith a).foldl State.performAtomic (y.taken a)).settleAtoms a := by
  obtain ⟨-, -, -, -, hatoms⟩ := State.unitSees_iff e
  rw [State.unitStep, State.line_of_unitSees e, State.atomBefore_of_unitSees e, if_neg (by simp [howners, hfirst]),
    State.filterMap_atomOf, hatoms]
  rfl

end

theorem State.lanesWith_perm (s : State) (a : AtomLane) :
    (s.lanesWith a).Perm (a :: s.atoms.filter (fun b => decide (b.op = a.op ∧ lineOf b.pa = lineOf a.pa))) :=
  foldl_insertLane_perm _ [a]

theorem State.pairwise_lanesWith (s : State) (a : AtomLane) : ((s.lanesWith a).map AtomLane.lane).Pairwise (· ≤ ·) :=
  List.pairwise_map.2 (foldl_inv (fun l : List AtomLane => l.Pairwise (fun a b => a.lane ≤ b.lane)) _
    (fun _ b h => pairwise_insertLane b h) _ _ (List.pairwise_singleton _ a))

/-- What a unit's step does, by whether it waits. -/
theorem State.unitStep_spec {s y : State} (e : y.unitSees = s.unitSees) (a : AtomLane) (again : Event) :
    let same := fun (b : AtomLane) => decide (b.op = a.op ∧ lineOf b.pa = lineOf a.pa)
    ((s.line (lineOf a.pa)).owners ≠ [] ∨ s.atomBefore a = true → (y.unitStep a again).mem = s.mem ∧ (y.unitStep a again).lines = s.lines
      ∧ { at_ := s.clk + 1, onRef := false, ev := again } ∈ (y.unitStep a again).agenda)
    ∧ ((s.line (lineOf a.pa)).owners = [] → s.atomBefore a = false → ∃ (z : State) (lanes : List AtomLane),
      y.unitStep a again = (lanes.foldl State.performAtomic z).settleAtoms a
        ∧ z.mem = s.mem ∧ z.lines = s.lines ∧ z.groups = s.groups ∧ z.atoms = s.atoms.filter (fun b => !same b)
        ∧ lanes.Perm (a :: s.atoms.filter same) ∧ (lanes.map AtomLane.lane).Pairwise (· ≤ ·)) := by
  obtain ⟨hmem, hlines, hgroups, -, hatoms⟩ := State.unitSees_iff e
  refine ⟨fun h => ?_, fun howners hfirst => ?_⟩
  · rw [State.unitStep_of_waits e again h]
    exact ⟨hmem, hlines, List.mem_append_right _ (.head _)⟩
  · exact ⟨y.taken a, s.lanesWith a, State.unitStep_of_free e again howners hfirst, hmem, hlines, hgroups,
      (State.atoms_taken y a.op (lineOf a.pa)).trans (by rw [hatoms]), s.lanesWith_perm a, s.pairwise_lanesWith a⟩

theorem exec_serviceWarpAtomic_of_comes {s : State} {a : AtomLane} (h : s.lineToCome a.pa = true) :
    ∃ y : State, y.unitSees = s.unitSees ∧ exec (.serviceWarpAtomic a) s = .next (y.postAt (s.clk + 1) (.serviceWarpAtomic a)) := by
  refine ⟨_, ?_, if_pos h⟩
  split
  · rfl
  · exact s.unitSees_route _ _ _

theorem exec_serviceWarpAtomic_of_there {s : State} {a : AtomLane} (h : s.lineToCome a.pa = false) :
    exec (.serviceWarpAtomic a) s = .next ((s.route (warpCore a.pa) a.pa true).unitStep a (.serviceWarpAtomic a)) :=
  if_neg (by rw [h]; exact Bool.false_ne_true)

/-- A reply whose lane is still due writes it (R267). -/
theorem exec_atomicReply_of_due {s : State} {r : AtomReply} {g : Group} (hgroup : s.group r.gid = some g) (hbad : r.bad = false)
    (hdue : g.pend.any (fun p => decide (p.op = r.op ∧ p.kind = .vec ∧ p.reg = r.vd.toNat) && p.lanes.has r.lane) = true) :
    exec (.atomicReply r) s
      = .next ((s.setGroup r.gid (fun _ => g.setV r.vd.toNat (1#128 <<< r.lane) (fun _ => r.old))).landOp r.gid r.op) := by
  change execAtomicReply r s = _
  unfold execAtomicReply
  simp only [State.setGroup]
  rw [Assoc.upd_congr fun v hv => ?_]
  obtain rfl : v = g := Option.some.inj (hv.symm.trans hgroup)
  rw [if_pos hdue, hbad, if_neg Bool.false_ne_true]

/-! ## The Hearth (R235, R237) -/

theorem exec_hearthBankRead_eq (die off : Nat) (s : State) : exec (.hearthBankRead die off) s
    = .next (match s.bankEnd (bits off 28 23) with | some t => s.postRef t (.hearthBankRead die off) | none => s) := by
  change execHearthBankRead die off s = _
  unfold execHearthBankRead
  cases s.bankEnd (bits off 28 23) <;> rfl

/-- Settles O45: each event by what it finds at its slice, its bank, its line or its unit. -/
theorem memoryEvents : Obligations.MemoryEvents := by
  intro s
  refine ⟨fun die k => ⟨fun hearly => if_pos hearly, fun hready hnone => ?silent, fun p r hready hgrant hoffered => ?granted,
      fun r => Slice.mem_keptReqs _ _, fun r => Slice.keptReqs_subset _ _, fun r rest hreqs hpref htakes => ?dropped,
      fun p r hoffered => ?shown⟩,
    fun r => ?request, fun line bad => ⟨exec_l2FillComplete_of_not_mem, ?fill⟩, fun w => ?writeback, rfl,
    fun die off => exec_hearthBankRead_eq die off s, fun die _ hdraining hmarked => ?loads, fun die hmarked => ?stays,
    fun pa t hkind => ?load, fun pa t hkind hformed hold => ?store, fun a i ev hi => ?atomic, fun r g hgroup hbad hdue =>
    exec_atomicReply_of_due hgroup hbad hdue⟩
  case silent =>
    refine exec_crossbarGrant_of_none hready ?_
    rw [show (s.slice (32 * die + k)).asserting = [] from hnone]
    exact grantTo_nil _ _
  case granted =>
    obtain ⟨u, hexec, hslice, hmem⟩ := exec_crossbarGrant_granted hready hgrant hoffered
    rw [State.slice_grant] at hslice
    exact ⟨u, hexec, by rw [hslice]; rfl, by rw [hslice]; rfl, by rw [hslice], hmem⟩
  case dropped =>
    rw [hreqs]
    exact Slice.keptReqs_cons_of_refused _ rest hpref htakes
  case shown => exact Slice.offered_spec _ hoffered
  case request =>
    obtain ⟨u, hexec, hkept⟩ := exec_l2Request_keeps (f := fun z : State => (z.mem, z.lines, z.groups, z.teams))
      ⟨fun _ _ => rfl, fun _ _ => rfl, fun _ _ => rfl⟩ r s
    simp only [Prod.mk.injEq] at hkept
    exact ⟨u, hexec, hkept⟩
  case fill =>
    by_cases hmiss : line ∈ (s.slice (s.homeSlice (line * 256))).misses
    · exact (exec_l2FillComplete_spec hmiss bad).imp fun u ⟨hexec, hclean, hnone, hbad, hmarks⟩ =>
        ⟨hexec, hclean, hnone, fun _ => ⟨hbad, hmarks⟩⟩
    · exact ⟨s, exec_l2FillComplete_of_not_mem hmiss, fun _ => ⟨rfl, rfl⟩, fun _ => ⟨rfl, rfl⟩, fun hin => absurd hin hmiss⟩
  case writeback =>
    obtain ⟨u, hexec, hkept⟩ := exec_l2Writeback_keeps (f := fun z : State => (z.mem, z.lines, z.groups))
      ⟨fun _ _ => rfl, fun _ _ => rfl, fun _ _ => rfl⟩ w s
    simp only [Prod.mk.injEq] at hkept
    exact ⟨u, hexec, hkept⟩
  case loads => exact if_pos ⟨hdraining, by rw [hmarked]; rfl⟩
  case stays => exact if_neg (by rw [hmarked]; simp)
  case load =>
    refine ⟨_, exec_cxlTransactionError_of_load hkind, s.bad_poisonFill _, fun hnone => ?_, fun gid g f hgroup hf hline hlane =>
      State.poisonFill_marks hgroup hf hline hlane⟩
    rw [State.poisonFill_of_no_wait hnone]
    exact ⟨rfl, rfl⟩
  case store =>
    obtain ⟨hwf, -⟩ := hformed
    refine ⟨_, exec_cxlTransactionError_of_store hkind, rfl, fun x hx => ?other, fun v r hversions htime hkeys c hc => ?given⟩
    case other =>
      refine Memory.get_cells_outside _ _ fun c hc => ?_
      obtain ⟨v, hv, hc⟩ := mem_dropVersion hc
      rintro rfl
      exact hx (hold v hv c hc)
    case given =>
      have hdropped : (dropVersion t (s.line (lineOf pa)).versions).2 = v.old := by rw [hversions, dropVersion, if_pos htime]
      change Memory.get (s.dropWrite (lineOf pa) t).mem c.1 = c.2
      rw [State.mem_dropWrite, hdropped]
      exact Memory.get_cells_same hwf hkeys hc
  case atomic =>
    rcases hi with ⟨rfl, rfl⟩ | ⟨rfl, rfl⟩
    · simp only [decide_true, Bool.true_and]
      obtain ⟨hwaits, hfree⟩ := State.unitStep_spec (s.unitSees_route (warpCore a.pa) a.pa true) a (.serviceWarpAtomic a)
      refine ⟨fun h => ?waits, fun hthere howners hfirst => ?performs⟩
      case waits =>
        cases hcomes : s.lineToCome a.pa with
        | true =>
          obtain ⟨y, hy, hexec⟩ := exec_serviceWarpAtomic_of_comes hcomes
          obtain ⟨hmem, hlines, -⟩ := State.unitSees_iff hy
          exact ⟨_, hexec, hmem, hlines, List.mem_append_right _ (.head _)⟩
        | false => exact ⟨_, exec_serviceWarpAtomic_of_there hcomes, hwaits (h.resolve_left (by simp [hcomes]))⟩
      case performs =>
        obtain ⟨z, lanes, hstep, hrest⟩ := hfree howners hfirst
        exact ⟨z, lanes, (exec_serviceWarpAtomic_of_there hthere).trans (by rw [hstep]), hrest⟩
    · obtain ⟨hwaits, hfree⟩ := State.unitStep_spec (s.unitSees_touch a.pa) a (.poolAtomic a)
      refine ⟨fun h => ⟨_, rfl, hwaits (h.resolve_left (by simp))⟩, fun _ howners hfirst => ?_⟩
      obtain ⟨z, lanes, hstep, hrest⟩ := hfree howners hfirst
      exact ⟨z, lanes, congrArg Host.Outcome.next hstep, hrest⟩

end Sys2Proof.Machine
end

section
/-!
PROOF. The form of a state that every step keeps (O58), by its parts: memory and scratch list rising addresses and no zero
byte (R222), a line's writes stand in the order of their times (R249), no team and no group is listed twice (R83). What each
update of a single field asks for, and the rules for conditionals, folds, reads and outcomes.
-/
namespace Sys2Proof.Machine
open Sys2Proof
set_option Elab.async false

/-! ## The form by its parts -/

/-- The writes of a line are newest first (R249). -/
def Line.Ordered (l : Line) : Prop := (l.versions.map Version.time).Pairwise (· ≥ ·)

/-- A state in its form, by its parts: `State.formed` with names. -/
structure State.Canonical (s : State) : Prop where
  mem : Memory.wf s.mem = true
  scratch : ∀ p ∈ s.teams, Memory.wf p.2.scratch = true
  saved : ∀ p ∈ s.saved, Memory.wf p.2.team.scratch = true
  lines : ∀ p ∈ s.lines, p.2.Ordered
  teams : (s.teams.map Prod.fst).Pairwise (· < ·)
  groups : (s.groups.map Prod.fst).Pairwise (· < ·)

theorem State.canonical_iff {s : State} : s.Canonical ↔ s.formed :=
  ⟨fun ⟨hm, ht, hs, hl, hk, hg⟩ => ⟨hm, ht, hs, hl, hk, hg⟩, fun ⟨hm, ht, hs, hl, hk, hg⟩ => ⟨hm, ht, hs, hl, hk, hg⟩⟩

/-- The next state of an outcome, if there is one, is in its form. -/
def Canon (o : Host.Outcome State Fault Refusal) : Prop := ∀ t, o = .next t → t.Canonical

/-- The state that an own execution leaves, if it leaves one, is in its form. -/
def Done.Canonical : Done → Prop
  | .next s => s.Canonical
  | .jump s _ => s.Canonical
  | .stay s => s.Canonical
  | .trap s _ => s.Canonical
  | .stall => True

/-- A read leaves the form. -/
def Rd.Canonical {α : Type} (r : Rd α) : Prop := ∀ s : State, s.Canonical → (r s).1.Canonical

/-! ## Tables by their keys -/

section
variable {α : Type}

theorem Assoc.rising_iff {m : Assoc α} : Assoc.Rising m ↔ (m.map Prod.fst).Pairwise (· < ·) := List.pairwise_map.symm

theorem Assoc.keys_put {m : Assoc α} (h : (m.map Prod.fst).Pairwise (· < ·)) (k : Nat) (x : α) :
    ((Assoc.put m k x).map Prod.fst).Pairwise (· < ·) :=
  Assoc.rising_iff.1 (Assoc.rising_put (Assoc.rising_iff.2 h) k x)

theorem Assoc.keys_del {m : Assoc α} (h : (m.map Prod.fst).Pairwise (· < ·)) (k : Nat) :
    ((Assoc.del m k).map Prod.fst).Pairwise (· < ·) :=
  Assoc.rising_iff.1 (Assoc.rising_del (Assoc.rising_iff.2 h) k)

theorem Assoc.map_fst_upd (m : Assoc α) (k : Nat) (f : α → α) : (Assoc.upd m k f).map Prod.fst = m.map Prod.fst := by
  induction m with
  | nil => rfl
  | cons p r ih =>
    unfold Assoc.upd
    split
    · simp
    · simp [ih]

theorem Assoc.keys_filter {m : Assoc α} (h : (m.map Prod.fst).Pairwise (· < ·)) (q : Nat × α → Bool) :
    ((m.filter q).map Prod.fst).Pairwise (· < ·) :=
  h.sublist (List.filter_sublist.map _)

theorem Assoc.mem_upd {m : Assoc α} {k : Nat} {f : α → α} {p : Nat × α} (h : p ∈ Assoc.upd m k f) :
    p ∈ m ∨ ∃ x, (k, x) ∈ m ∧ p = (k, f x) := by
  induction m with
  | nil => simp [Assoc.upd] at h
  | cons q r ih =>
    obtain ⟨a, v⟩ := q
    unfold Assoc.upd at h
    split at h
    · next e =>
      subst e
      rcases List.mem_cons.1 h with rfl | h
      · exact .inr ⟨v, .head _, rfl⟩
      · exact .inl (.tail _ h)
    · rcases List.mem_cons.1 h with rfl | h
      · exact .inl (.head _)
      · rcases ih h with h | ⟨x, hx, rfl⟩
        · exact .inl (.tail _ h)
        · exact .inr ⟨x, .tail _ hx, rfl⟩

end

/-! ## The writes of a line (R249) -/

theorem Line.Ordered.of_versions {l m : Line} (h : l.Ordered) (e : m.versions = l.versions) : m.Ordered := by
  unfold Line.Ordered
  rw [e]
  exact h

theorem Line.ordered_fresh : Line.fresh.Ordered := List.Pairwise.nil

theorem le_of_mem_insertVersion {t b : Nat} {cells : List Host.Cell} {l : List Version} (ht : t ≤ b) (h : ∀ v ∈ l, v.time ≤ b) :
    ∀ v ∈ (insertVersion t cells l).1, v.time ≤ b := by
  induction l with
  | nil => simpa [insertVersion] using ht
  | cons v r ih =>
    have ⟨hv, hr⟩ := List.forall_mem_cons.1 h
    unfold insertVersion
    split
    · exact List.forall_mem_cons.2 ⟨ht, h⟩
    · exact List.forall_mem_cons.2 ⟨hv, ih hr⟩

/-- A write takes its place among the writes of a line by its time. -/
theorem insertVersion_ordered (t : Nat) (cells : List Host.Cell) {l : List Version} (h : (l.map Version.time).Pairwise (· ≥ ·)) :
    (((insertVersion t cells l).1).map Version.time).Pairwise (· ≥ ·) := by
  induction l with
  | nil => simp [insertVersion]
  | cons v r ih =>
    rw [List.map_cons, List.pairwise_cons, List.forall_mem_map] at h
    obtain ⟨hv, hr⟩ := h
    unfold insertVersion
    split
    · next ht =>
      simp only [List.map_cons, List.pairwise_cons, List.mem_cons, List.forall_mem_map, forall_eq_or_imp]
      exact ⟨⟨ht, fun w hw => (hv w hw).trans ht⟩, hv, hr⟩
    · next ht =>
      simp only [List.map_cons, List.pairwise_cons, List.forall_mem_map]
      exact ⟨le_of_mem_insertVersion (Nat.le_of_not_le ht) hv, ih hr⟩

/-- A write taken out leaves the times of the line's writes. -/
theorem map_time_dropVersion (t : Nat) (l : List Version) : (dropVersion t l).1.map Version.time = l.map Version.time := by
  induction l with
  | nil => rfl
  | cons v r ih =>
    unfold dropVersion
    split
    · rfl
    · simpa using ih

theorem map_time_map {f : Version → Version} (hf : ∀ v, (f v).time = v.time) (l : List Version) :
    (l.map f).map Version.time = l.map Version.time := by
  simp [Function.comp_def, hf]

/-! ## Updates of the state -/

namespace State.Canonical
variable {s t : State}

/-- What leaves memory, lines, groups, teams and saved teams leaves the form. -/
theorem congr (h : s.Canonical) (hm : t.mem = s.mem := by rfl) (hl : t.lines = s.lines := by rfl) (hg : t.groups = s.groups := by rfl)
    (ht : t.teams = s.teams := by rfl) (hs : t.saved = s.saved := by rfl) : t.Canonical where
  mem := hm ▸ h.mem
  scratch := ht ▸ h.scratch
  saved := hs ▸ h.saved
  lines := hl ▸ h.lines
  teams := ht ▸ h.teams
  groups := hg ▸ h.groups

/-- Other fields of a state updated. -/
theorem update (h : s.Canonical) (hm : t.mem = s.mem := by with_reducible rfl) (hl : t.lines = s.lines := by with_reducible rfl)
    (hg : t.groups = s.groups := by with_reducible rfl) (ht : t.teams = s.teams := by with_reducible rfl)
    (hs : t.saved = s.saved := by with_reducible rfl) : t.Canonical :=
  h.congr hm hl hg ht hs

theorem withMem (h : s.Canonical) {m : Memory} (hm : Memory.wf m = true) : { s with mem := m }.Canonical :=
  ⟨hm, h.scratch, h.saved, h.lines, h.teams, h.groups⟩

theorem withGroups (h : s.Canonical) {l : Assoc Group} (hl : (l.map Prod.fst).Pairwise (· < ·)) : { s with groups := l }.Canonical :=
  ⟨h.mem, h.scratch, h.saved, h.lines, h.teams, hl⟩

theorem withTeams (h : s.Canonical) {l : Assoc Team} (hl : (l.map Prod.fst).Pairwise (· < ·))
    (hw : ∀ p ∈ l, Memory.wf p.2.scratch = true) : { s with teams := l }.Canonical :=
  ⟨h.mem, hw, h.saved, h.lines, hl, h.groups⟩

theorem withSaved (h : s.Canonical) {l : Assoc Saved} (hw : ∀ p ∈ l, Memory.wf p.2.team.scratch = true) :
    { s with saved := l }.Canonical :=
  ⟨h.mem, h.scratch, hw, h.lines, h.teams, h.groups⟩

theorem withLines (h : s.Canonical) {l : Assoc Line} (hl : ∀ p ∈ l, p.2.Ordered) : { s with lines := l }.Canonical :=
  ⟨h.mem, h.scratch, h.saved, hl, h.teams, h.groups⟩

/-- Groups changed, each under its key. -/
theorem mapGroups (h : s.Canonical) (f : Nat × Group → Nat × Group) (hf : ∀ p, (f p).1 = p.1) :
    { s with groups := s.groups.map f }.Canonical :=
  h.withGroups (by simpa [Function.comp_def, hf] using h.groups)

theorem setGroup (h : s.Canonical) (k : Nat) (f : Group → Group) : (s.setGroup k f).Canonical :=
  h.withGroups (by rw [Assoc.map_fst_upd]; exact h.groups)

/-- A team changed: its scratch stays canonical. -/
theorem setTeam' (h : s.Canonical) (k : Nat) {f : Team → Team} (hf : ∀ t, Memory.wf t.scratch = true → Memory.wf (f t).scratch = true) :
    (s.setTeam k f).Canonical := by
  refine h.withTeams (by rw [Assoc.map_fst_upd]; exact h.teams) (fun p hp => ?_)
  rcases Assoc.mem_upd hp with hp | ⟨t, ht, rfl⟩
  · exact h.scratch p hp
  · exact hf t (h.scratch _ ht)

/-- A team changed but for its scratch. -/
theorem setTeam (h : s.Canonical) (k : Nat) (f : Team → Team) (hf : ∀ t, (f t).scratch = t.scratch := by intro; rfl) :
    (s.setTeam k f).Canonical :=
  h.setTeam' k (fun t ht => by rw [hf]; exact ht)

theorem line (h : s.Canonical) (n : Nat) : (s.line n).Ordered := by
  unfold State.line Assoc.getD
  cases e : Assoc.get s.lines n with
  | none => exact Line.ordered_fresh
  | some l => exact h.lines _ (Assoc.mem_of_get e)

theorem team (h : s.Canonical) {k : Nat} {t : Team} (e : s.team k = some t) : Memory.wf t.scratch = true := h.scratch _ (Assoc.mem_of_get e)

/-- A line's record changed: its writes stay in order. -/
theorem setLine' (h : s.Canonical) (n : Nat) {f : Line → Line} (hf : (f (s.line n)).Ordered) : (s.setLine n f).Canonical := by
  refine h.withLines (fun p hp => ?_)
  rcases Assoc.mem_put hp with rfl | hp
  · exact hf
  · exact h.lines p hp

/-- A line's record changed but for its writes. -/
theorem setLine (h : s.Canonical) (n : Nat) (f : Line → Line) (hf : ∀ l, (f l).versions = l.versions := by intro; rfl) :
    (s.setLine n f).Canonical :=
  h.setLine' n ((h.line n).of_versions (hf _))

theorem withFree (h : s.Canonical) (n : Nat) : { s with free := n }.Canonical := h.congr
theorem withHostT (h : s.Canonical) (n : Nat) : { s with hostT := n }.Canonical := h.congr
theorem setCore (h : s.Canonical) (k : Nat) (f : Core → Core) : (s.setCore k f).Canonical := h.congr
theorem setDie (h : s.Canonical) (k : Nat) (f : Die → Die) : (s.setDie k f).Canonical := h.congr
theorem setPort (h : s.Canonical) (k : Nat) (f : Port → Port) : (s.setPort k f).Canonical := h.congr
theorem setFunc (h : s.Canonical) (k : Nat) (f : Func → Func) : (s.setFunc k f).Canonical := h.congr
theorem setSlice (h : s.Canonical) (k : Nat) (f : Slice → Slice) : (s.setSlice k f).Canonical := h.congr
theorem setQueue (h : s.Canonical) (k : Nat) (f : Queue → Queue) : (s.setQueue k f).Canonical := h.congr
theorem setDev (h : s.Canonical) (f : Device → Device) : (s.setDev f).Canonical := h.congr
theorem post (h : s.Canonical) (e : Event) : (s.post e).Canonical := h.congr
theorem postAt (h : s.Canonical) (n : Nat) (e : Event) : (s.postAt n e).Canonical := h.congr
theorem postRef (h : s.Canonical) (n : Nat) (e : Event) : (s.postRef n e).Canonical := h.congr
theorem mcEvent (h : s.Canonical) (k d : Nat) : (s.mcEvent k d).Canonical := h.congr

end State.Canonical

/-- What holds of both branches of a conditional holds of it. -/
theorem of_ite {α : Type} {P : α → Prop} {p : Prop} [Decidable p] {a b : α} (ha : P a) (hb : P b) : P (if p then a else b) := by
  split
  · exact ha
  · exact hb

theorem canonical_ite {s t : State} {p : Prop} [Decidable p] (hs : s.Canonical) (ht : t.Canonical) : (if p then s else t).Canonical := by
  exact of_ite hs ht

theorem canonical_ite_fst {α : Type} {p : Prop} [Decidable p] {a b : State × α} (ha : a.1.Canonical) (hb : b.1.Canonical) :
    (if p then a else b).1.Canonical := by
  exact of_ite (P := fun r : State × α => r.1.Canonical) ha hb

theorem canonical_foldl {s : State} {α : Type} {f : State → α → State} (hf : ∀ s x, s.Canonical → (f s x).Canonical)
    (l : List α) (h : s.Canonical) : (l.foldl f s).Canonical :=
  foldl_inv State.Canonical f hf l s h

theorem canonical_foldl_fst {α β : Type} {p : State × β} {f : State × β → α → State × β}
    (hf : ∀ p x, p.1.Canonical → (f p x).1.Canonical) (l : List α) (hs : p.1.Canonical) : (l.foldl f p).1.Canonical :=
  foldl_inv (fun p => p.1.Canonical) f hf l p hs

theorem canonical_of_eq {s : State} {α : Type} {p : State × α} {x : α} (e : p = (s, x)) (h : p.1.Canonical) :
    s.Canonical := by
  rw [e] at h
  exact h

theorem Rd.bind_canonical {α β : Type} {m : Rd α} {k : α → Rd β} (hm : Rd.Canonical m) (hk : ∀ a, Rd.Canonical (k a)) :
    Rd.Canonical (Rd.bind m k) := by
  intro s hs
  unfold Rd.bind
  have h := hm s hs
  rcases e : m s with ⟨t, r⟩
  rw [e] at h
  cases r with
  | ok a => exact hk a t h
  | fault _ _ _ => exact h
  | wait _ _ => exact h
  | busy => exact h

theorem Rd.pure_canonical {α : Type} (a : α) : Rd.Canonical (Rd.pure a) := fun _ hs => hs

theorem canon_next {s : State} (h : s.Canonical) : Canon (.next s) := fun _ e => by cases e; exact h
theorem canon_fault (f : Fault) : Canon (.fault f) := fun _ e => by cases e
theorem canon_ite {p : Prop} [Decidable p] {a b : Host.Outcome State Fault Refusal} (ha : Canon a) (hb : Canon b) :
    Canon (if p then a else b) := by
  exact of_ite ha hb

end Sys2Proof.Machine
end

section
/-!
PROOF. Each operation of the model keeps the form (O58), in the order of the model's files. The operations that write bytes are
`State.writeLine`, `State.dropWrite`, the copy of a migration and the writes of a team's scratch; those that write tables are
`State.putGroup`, `State.putTeam`, `State.putSaved` and the removals. Every other operation keeps the form because the
operations it is made of do.
-/
namespace Sys2Proof.Machine
open Sys2Proof
set_option Elab.async false
variable {s : State}

/-! ### Sys2Proof/Machine/Ops.lean -/

theorem State.Canonical.postOnce (hs : s.Canonical) (e : Event) : (s.postOnce e).Canonical := by
  unfold State.postOnce
  exact canonical_ite hs (hs.post _)

theorem State.Canonical.postOnceAt (hs : s.Canonical) (t : Nat) (e : Event) : (s.postOnceAt t e).Canonical := by
  unfold State.postOnceAt
  exact canonical_ite hs (hs.postAt _ _)

theorem State.Canonical.touch (hs : s.Canonical) (pa : Nat) : (s.touch pa).Canonical := by
  unfold State.touch
  exact canonical_ite hs (canonical_ite ((hs.setDie _ _).post _) (hs.setDie _ _))

theorem State.Canonical.askGrant (hs : s.Canonical) (k : Nat) (wb : Bool) : (s.askGrant k wb).Canonical := by
  unfold State.askGrant
  exact canonical_ite hs (hs.postAt _ _)

theorem State.Canonical.ask (hs : s.Canonical) (port line : Nat) (write pref : Bool) : (s.ask port line write pref).Canonical := by
  unfold State.ask
  exact canonical_ite hs ((hs.setSlice _ _).askGrant _ _)

theorem State.Canonical.wantLine (hs : s.Canonical) (die own pa : Nat) (write : Bool) : (s.wantLine die own pa write).Canonical := by
  unfold State.wantLine
  exact canonical_ite (hs.touch _) (canonical_ite hs (canonical_ite hs (hs.ask _ _ _ _)))

theorem State.Canonical.keepVersion (hs : s.Canonical) (line t : Nat) : (s.keepVersion line t).Canonical := by
  unfold State.keepVersion
  split
  · exact hs
  · exact canonical_ite hs hs.update

theorem State.Canonical.wakeMonitors (hs : s.Canonical) (line t : Nat) : (s.wakeMonitors line t).Canonical := by
  unfold State.wakeMonitors
  refine hs.mapGroups _ ?_
  intro x
  cases x.2.mon with
  | none => rfl
  | some m =>
    cases x.2.park with
    | none => rfl
    | some p =>
      cases p with
      | monitor deadline => exact of_ite (P := fun q : Nat × Group => q.1 = x.1) rfl rfl
      | _ => rfl

theorem writesWith_ordered {l : List Version} (h : (l.map Version.time).Pairwise (· ≥ ·)) (t : Nat) (old : List Host.Cell)
    (tags : List (Inst × Nat)) :
    ((l.map (fun v => if v.time = t then { v with old := old, tags := tags } else v)).map Version.time).Pairwise (· ≥ ·) := by
  rw [map_time_map (fun v => by split <;> rfl)]
  exact h

/-- A write of a line (R249): its bytes keep memory canonical, and it stands among the line's writes by its time. -/
theorem State.Canonical.writeLine (hs : s.Canonical) (line t : Nat) (cells : List Host.Cell) (tags : List (Inst × Nat)) :
    (s.writeLine line t cells tags).Canonical := by
  have hk := hs.keepVersion line t
  unfold State.writeLine
  refine ((hk.withMem (Memory.wf_cells hk.mem _)).setLine' _ ?_).wakeMonitors _ _
  exact writesWith_ordered (insertVersion_ordered t cells (hk.line line)) t _ tags

theorem State.Canonical.storeLine (hs : s.Canonical) (line t : Nat) (cells : List Host.Cell) (tags : List (Inst × Nat)) :
    (s.storeLine line t cells tags).Canonical := by
  unfold State.storeLine
  exact canonical_ite hs (canonical_foldl (fun _ _ hs => (hs.wantLine _ _ _ _).writeLine _ _ _ _) _ (hs.writeLine _ _ _ _))

theorem State.Canonical.hostWrite (hs : s.Canonical) (pa : Nat) (data : List Byte) : (s.hostWrite pa data).Canonical := by
  unfold State.hostWrite
  exact canonical_foldl (fun _ _ hs => ((hs.wantLine _ _ _ _).storeLine _ _ _ _).update) _ hs

theorem State.Canonical.postEvent (hs : s.Canonical) (fn typ : Nat) (payload : List (Nat × Nat × Nat)) :
    (s.postEvent fn typ payload).Canonical := by
  unfold State.postEvent
  exact canonical_ite ((hs.setFunc _ _).hostWrite _ _) (hs.setFunc _ _)

theorem State.Canonical.poisonEvent (hs : s.Canonical) (pa : Nat) : (s.poisonEvent pa).Canonical := by
  unfold State.poisonEvent
  exact (hs.mcEvent _ _).postEvent _ _ _

theorem State.Canonical.poisonRead (hs : s.Canonical) (pa : Nat) : (s.poisonRead pa).Canonical := by
  unfold State.poisonRead
  exact canonical_ite hs ((hs.poisonEvent _).update)

theorem State.Canonical.hostRead (hs : s.Canonical) (pa n : Nat) : (s.hostRead pa n).Canonical := by
  unfold State.hostRead
  exact canonical_foldl (fun _ _ hs => (((hs.wantLine _ _ _ _).poisonRead _).setLine _ _).withHostT _) _ hs

theorem State.Canonical.finishOp (hs : s.Canonical) (gid op : Nat) : (s.finishOp gid op).Canonical := by
  unfold State.finishOp
  cases s.group gid with
  | some x => exact hs.setGroup _ _
  | none => exact canonical_foldl (fun _ _ hs => canonical_ite (canonical_ite ((hs.setTeam _ _).post _) (hs.setTeam _ _)) hs) _ hs

theorem State.Canonical.correctScratch (hs : s.Canonical) (gid tid : Nat) (l : List (Nat × Nat)) :
    (s.correctScratch gid tid l).Canonical := by
  unfold State.correctScratch
  exact canonical_ite hs ((hs.setTeam _ _).setGroup _ _)

theorem State.Canonical.correctTile (hs : s.Canonical) (gid tid tile : Nat) (reads : Nat → Bool) :
    (s.correctTile gid tid tile reads).Canonical := by
  unfold State.correctTile
  exact canonical_ite hs ((hs.setTeam _ _).setGroup _ _)

theorem State.Canonical.releaseWaiters (hs : s.Canonical) (tid off : Nat) (ok phase : Bool) (t : Nat) (after : List Nat) :
    (s.releaseWaiters tid off ok phase t after).Canonical := by
  unfold State.releaseWaiters
  refine hs.mapGroups _ ?_
  intro x
  split
  · split
    · rfl
    · rfl
  · rfl

theorem Team.wf_putScratch {t : Team} (h : Memory.wf t.scratch = true) (off : Nat) (data : List Byte) :
    Memory.wf (t.putScratch off data).scratch = true := Memory.wf_write h off data

/-- Bytes written to a team's scratch. -/
theorem State.Canonical.putScratch (hs : s.Canonical) (k off : Nat) (data : List Byte) {f : Team → Team}
    (hf : ∀ t, (f t).scratch = (t.putScratch off data).scratch) : (s.setTeam k f).Canonical :=
  hs.setTeam' k (fun t ht => by rw [hf]; exact Team.wf_putScratch ht off data)

theorem State.Canonical.putBarrier (hs : s.Canonical) (tid off : Nat) (b : Barrier) : (s.putBarrier tid off b).Canonical := by
  unfold State.putBarrier
  extract_lets done b' t after s1
  have h1 : s1.Canonical := hs.putScratch tid off (natLe b'.word 8) (fun _ => rfl)
  exact canonical_ite (h1.releaseWaiters _ _ _ _ _ _) h1

theorem State.Canonical.invalidate (hs : s.Canonical) (tid off : Nat) (b : Barrier) : (s.invalidate tid off b).Canonical :=
  (hs.putScratch _ off _ (fun _ => rfl)).releaseWaiters _ _ _ _ _ _

theorem State.Canonical.phaseOrders (hs : s.Canonical) (tid off t : Nat) (after : List Nat) :
    (s.phaseOrders tid off t after).Canonical := by
  unfold State.phaseOrders
  exact hs.setTeam _ _

theorem State.Canonical.subtract (hs : s.Canonical) (tid : Nat) (bar : Option Nat) (n t : Nat) : (s.subtract tid bar n t).Canonical := by
  unfold State.subtract
  split
  · exact canonical_ite hs (canonical_ite (hs.invalidate _ _ _) ((hs.phaseOrders _ _ _ _).putBarrier _ _ _))
  · exact hs

theorem State.Canonical.waitOn (hs : s.Canonical) (gid tid off : Nat) (q : Bool) : (s.waitOn gid tid off q).Canonical := by
  unfold State.waitOn
  cases s.team tid with
  | none => exact hs
  | some y => exact canonical_ite (hs.setGroup _ _) (canonical_ite (hs.setGroup _ _) (hs.setGroup _ _))

theorem State.Canonical.applyRestart (hs : s.Canonical) (o : Origin) : (s.applyRestart o).Canonical := by
  unfold State.applyRestart
  cases o with
  | stage graph st =>
    dsimp only
    split
    · exact hs.update
    · exact hs.update
    · exact hs
  | grid die entry =>
    dsimp only
    split
    · exact hs
    · exact canonical_ite ((hs.setDie _ _).update) (hs.setDie _ _)

theorem State.Canonical.dropInterests (hs : s.Canonical) (gid : Nat) : (s.dropInterests gid).Canonical := by
  unfold State.dropInterests
  exact hs.update

theorem State.Canonical.withdraw (hs : s.Canonical) (gid : Nat) : (s.withdraw gid).Canonical := by
  unfold State.withdraw
  cases (s.group gid).bind fun g => g.park with
  | none => exact hs
  | some p =>
    cases p with
    | dequeue op => exact canonical_ite hs (hs.update.setGroup _ _)
    | _ => exact hs

theorem State.Canonical.leaveActive (hs : s.Canonical) (gid : Nat) : (s.leaveActive gid).Canonical := by
  unfold State.leaveActive
  cases s.group gid with
  | none => exact hs
  | some g => exact canonical_ite hs ((hs.setGroup _ _).update)

theorem State.Canonical.haltGroup (hs : s.Canonical) (gid : Nat) (g : Group) : (s.haltGroup gid g).Canonical := by
  unfold State.haltGroup
  exact canonical_ite (((hs.leaveActive _).withdraw _).setGroup _ _) (((hs.leaveActive _).setGroup _ _).post _)

theorem State.Canonical.broadcastHalt (hs : s.Canonical) (tid : Nat) (except : Option Nat) : (s.broadcastHalt tid except).Canonical := by
  unfold State.broadcastHalt
  refine canonical_foldl ?_ _ hs
  intro s x hs
  refine of_ite hs ?_
  split
  · exact hs.haltGroup _ _
  · exact hs

theorem State.Canonical.gridOrders (hs : s.Canonical) (tid t : Nat) : (s.gridOrders tid t).Canonical := by
  unfold State.gridOrders
  cases (s.team tid).map Team.origin with
  | none => exact hs
  | some o =>
    cases o with
    | stage graph st => exact hs
    | grid d e => exact hs.setDie _ _

theorem State.Canonical.forget (hs : s.Canonical) (gid : Nat) : (s.forget gid).Canonical := by
  unfold State.forget
  exact canonical_ite hs hs.update

theorem State.Canonical.delGroup (hs : s.Canonical) (k : Nat) : { s with groups := Assoc.del s.groups k }.Canonical :=
  hs.withGroups (Assoc.keys_del hs.groups k)

theorem State.Canonical.putGroup (hs : s.Canonical) (k : Nat) (g : Group) : { s with groups := Assoc.put s.groups k g }.Canonical :=
  hs.withGroups (Assoc.keys_put hs.groups k g)

theorem State.Canonical.removeGroup (hs : s.Canonical) (gid : Nat) : (s.removeGroup gid).Canonical := by
  unfold State.removeGroup
  split
  · exact hs
  · next g _ =>
    extract_lets ext s1 home live named last gone s2 s3 s4 s5 s6 s7 left s8 held
    have h3 : s3.Canonical := (canonical_foldl (fun _ _ hs => hs.dropInterests _) _ (hs.setCore _ _)).setTeam _ _
    have h5 : s5.Canonical := (canonical_ite (h3.postOnceAt _ _) h3).setCore _ _
    have h7 : s7.Canonical := (canonical_ite (h5.postOnceAt _ _) h5).gridOrders _ _
    have h8 : s8.Canonical := (h7.delGroup gid).congr
    exact canonical_ite h8 (h8.postOnce _)

theorem State.Canonical.wakeOwned (hs : s.Canonical) : s.wakeOwned.Canonical := by
  unfold State.wakeOwned
  refine hs.mapGroups _ ?_
  intro x
  cases x.2.held with
  | none => rfl
  | some r =>
    cases x.2.park with
    | none => rfl
    | some p =>
      cases p with
      | access op => exact of_ite (P := fun q : Nat × Group => q.1 = x.1) rfl rfl
      | translation => exact of_ite (P := fun q : Nat × Group => q.1 = x.1) rfl rfl
      | hearth => exact of_ite (P := fun q : Nat × Group => q.1 = x.1) rfl rfl
      | _ => rfl

theorem State.Canonical.disown (hs : s.Canonical) (op : Nat) (lines : List Nat) : (s.disown op lines).Canonical := by
  unfold State.disown
  exact (canonical_foldl (fun _ _ hs => hs.setLine _ _) _ hs).wakeOwned

theorem State.Canonical.startTiles (hs : s.Canonical) (core : Nat) : (s.startTiles core).Canonical := by
  unfold State.startTiles
  exact canonical_foldl (fun _ _ hs => hs.postOnce _) _ hs

theorem State.Canonical.dropTile (hs : s.Canonical) (core : Nat) (o : TileOp) : (s.dropTile core o).Canonical := by
  unfold State.dropTile
  refine ((State.Canonical.disown ?_ _ _).setGroup _ _).finishOp _ _
  cases o.kind with
  | accrd vd c => exact hs.setCore _ _
  | accst dst stride cvt => exact hs.setCore _ _
  | _ => exact ((hs.setCore _ _).setTeam _ _).withFree _

theorem State.Canonical.discardTiles (hs : s.Canonical) (gid op : Nat) : (s.discardTiles gid op).Canonical := by
  unfold State.discardTiles
  exact canonical_foldl (fun _ _ hs => canonical_ite hs ((canonical_foldl (fun _ _ hs => hs.dropTile _ _) _ hs).startTiles _)) _ hs

theorem State.Canonical.terminate (hs : s.Canonical) (tid reason num code : Nat) (cause tpc addr info : Dword) :
    (s.terminate tid reason num code cause tpc addr info).Canonical := by
  unfold State.terminate
  split
  · exact hs
  · extract_lets s1 s2 s3 s4 s5
    have h2 : s2.Canonical := canonical_foldl (fun _ _ hs => hs.discardTiles _ _) _ (hs.postEvent _ _ _)
    have h3 : s3.Canonical := h2.setTeam _ _
    have h4 : s4.Canonical := canonical_foldl (fun _ _ hs => (((hs.withdraw _).setGroup _ _).dropInterests _).removeGroup _) _ h3
    exact canonical_ite hs ((h4.applyRestart _).post _)

theorem State.Canonical.enterHandler (hs : s.Canonical) (gid : Nat) : (s.enterHandler gid).Canonical := by
  unfold State.enterHandler
  cases s.group gid with
  | none => exact hs
  | some g =>
    exact canonical_ite ((((hs.setGroup _ _).setTeam _ _).broadcastHalt _ _).postAt _ _)
      (((hs.update.setGroup _ _).setTeam _ _).broadcastHalt _ _)

theorem State.Canonical.pend (hs : s.Canonical) (gid tid : Nat) : (s.pend gid tid).Canonical := by
  unfold State.pend
  exact (hs.setGroup _ _).setTeam _ _

theorem State.Canonical.giveUp (hs : s.Canonical) (gid tid : Nat) : (s.giveUp gid tid).Canonical := by
  unfold State.giveUp
  exact (hs.setGroup _ _).pend _ _

theorem State.Canonical.takeTrap (hs : s.Canonical) (gid : Nat) (x : TrapInfo) : (s.takeTrap gid x).Canonical := by
  unfold State.takeTrap
  cases s.group gid with
  | none => exact hs
  | some g =>
    refine of_ite (hs.terminate _ _ _ _ _ _ _ _) ?_
    dsimp only
    split
    · exact ((hs.withdraw _).setGroup _ _).enterHandler _
    · split
      · exact (((hs.withdraw _).setGroup _ _).giveUp _ _).enterHandler _
      · exact ((hs.withdraw _).setGroup _ _).pend _ _
    · exact ((hs.withdraw _).setGroup _ _).pend _ _

theorem State.Canonical.stopRunning (hs : s.Canonical) (tid : Nat) : (s.stopRunning tid).Canonical := by
  unfold State.stopRunning
  refine hs.mapGroups _ ?_
  intro x
  split
  · rfl
  · rfl

theorem State.Canonical.keepHalted (hs : s.Canonical) (tid : Nat) : (s.keepHalted tid).Canonical := by
  unfold State.keepHalted
  exact (hs.setTeam _ _).stopRunning _

theorem State.Canonical.resumeTeam (hs : s.Canonical) (tid : Nat) : (s.resumeTeam tid).Canonical := by
  unfold State.resumeTeam
  refine (canonical_ite (canonical_foldl (fun _ _ hs => hs.postOnce _) _ (hs.setTeam _ _))
    ((canonical_foldl (fun _ _ hs => hs.postOnce _) _ (hs.setTeam _ _)).postOnce _)).mapGroups _ ?_
  intro x
  split
  · rfl
  · rfl

theorem State.Canonical.releaseHalt (hs : s.Canonical) (tid : Nat) : (s.releaseHalt tid).Canonical := by
  unfold State.releaseHalt
  exact canonical_ite (hs.keepHalted _) (hs.resumeTeam _)

theorem State.Canonical.deliverHeld (hs : s.Canonical) (tid : Nat) (h : Held) : (s.deliverHeld tid h).Canonical := by
  unfold State.deliverHeld
  dsimp only
  split
  · exact (canonical_ite ((hs.setTeam _ _).discardTiles _ _) (hs.setTeam _ _)).terminate _ _ _ _ _ _ _ _
  · exact (canonical_ite ((hs.setTeam _ _).discardTiles _ _) (hs.setTeam _ _)).takeTrap _ _

theorem State.Canonical.raiseDeferred (hs : s.Canonical) (tid : Nat) (h : Held) : (s.raiseDeferred tid h).Canonical := by
  unfold State.raiseDeferred
  cases s.team tid with
  | none => exact hs
  | some y => exact canonical_ite (canonical_ite (hs.discardTiles _ _) hs) ((hs.setTeam _ _).postOnce _)

theorem State.Canonical.afterHandler (hs : s.Canonical) (tid : Nat) : (s.afterHandler tid).Canonical := by
  unfold State.afterHandler
  cases s.team tid with
  | none => exact hs
  | some y =>
    dsimp only
    cases y.pending with
    | cons gid rest => exact ((hs.setTeam _ _).stopRunning _).enterHandler _
    | nil =>
      dsimp only
      cases s.nextHeld tid y.held with
      | some b => exact ((hs.setTeam _ _).stopRunning _).deliverHeld _ _
      | none => exact hs.releaseHalt _

theorem State.Canonical.trapReturn (hs : s.Canonical) (gid : Nat) : (s.trapReturn gid).Canonical := by
  unfold State.trapReturn
  split
  · exact hs
  · next g _ =>
    extract_lets skip s1 s2 s3 s4
    have h1 : s1.Canonical := hs.setGroup _ _
    have h2 : s2.Canonical := by
      unfold s2
      cases g.hreplay with
      | some r => exact h1.finishOp _ _
      | none => exact h1
    have h3 : s3.Canonical := by
      unfold s3
      cases g.armed with
      | some a => exact canonical_ite (h2.waitOn _ _ _ _) h2
      | none => exact h2
    have h4 : s4.Canonical := by
      unfold s4
      cases g.replay with
      | some r => exact canonical_ite ((h3.setGroup _ _).finishOp _ _) h3
      | none => exact h3
    exact h4.afterHandler _

/-! ### Sys2Proof/Machine/Translate.lean -/

theorem State.Canonical.writeRecord (hs : s.Canonical) (d entry : Nat) (q : PageReq) : (s.writeRecord d entry q).Canonical := by
  unfold State.writeRecord
  exact (hs.setFunc _ _).hostWrite _ _

theorem State.Canonical.placeReq (hs : s.Canonical) (d : Nat) (q : PageReq) : ∀ t, s.placeReq d q = some t → t.Canonical := by
  intro t e
  unfold State.placeReq at e
  split at e
  · cases e
  · split at e
    · cases e
    · cases e
      exact (hs.setDie _ _).writeRecord _ _ _

theorem State.Canonical.releaseReqs (hs : s.Canonical) (d : Nat) (l : List PageReq) : (State.releaseReqs d l s).Canonical := by
  induction l generalizing s with
  | nil => exact hs
  | cons q r ih =>
    unfold State.releaseReqs
    split
    · next e =>
      split at e
      · exact ih ((hs.placeReq _ _ _ e).setDie _ _)
      · cases e
    · exact ih hs

theorem State.Canonical.pageRequest (hs : s.Canonical) (d : Nat) (c : Xc) (va granule level : Nat) (tbl : Bool) (acc : Acc) :
    (s.pageRequest d c va granule level tbl acc).Canonical := by
  unfold State.pageRequest
  dsimp only
  refine of_ite (hs.setDie _ _) (of_ite (hs.setDie _ _) ?_)
  split
  · rename_i e
    exact ((hs.setGroup _ _).releaseReqs _ _).placeReq _ _ _ e
  · exact ((hs.setGroup _ _).releaseReqs _ _).setDie _ _

theorem State.Canonical.hearthGate (hs : s.Canonical) (c : Xc) (pa : Nat) : (s.hearthGate c pa).1.Canonical := by
  unfold State.hearthGate
  dsimp only
  cases s.team c.team with
  | none => exact hs
  | some y =>
    dsimp only
    split
    · exact hs
    · split
      · exact hs.setTeam _ _
      · exact hs

theorem State.Canonical.judge (hs : s.Canonical) (c : Xc) (acc : Acc) (pa : Nat) (s1 : Perm) (typ : Nat) :
    (s.judge c acc pa s1 typ).1.Canonical := by
  unfold State.judge
  dsimp only
  split
  · exact hs
  · split
    · exact hs
    · split
      · exact hs
      · split
        · exact hs
        · split
          · split
            · exact hs.hearthGate _ _
            · exact hs.hearthGate _ _
          · exact hs

theorem State.Canonical.translate (hs : s.Canonical) (c : Xc) (va : Dword) (acc : Acc) : (s.translate c va acc).1.Canonical := by
  unfold State.translate
  refine canonical_ite_fst hs (canonical_ite_fst hs.update ?_)
  extract_lets d a hit s1 s2 wc
  have h2 : s2.Canonical := (hs.setCore _ _).setDie _ _
  clear_value hit
  cases hit.filter (fun e => e.s1.permits acc && e.s2.permits acc) with
  | some e => exact hs.judge _ _ _ _ _
  | none =>
    rcases walk1 s2 wc c.fn a acc 4 (s2.func c.fn).s1root { refs := 0, add := [], drop := [], reads := [], granules := [] } with ⟨w, r⟩
    dsimp -zeta only
    extract_lets s3 s4 s5
    have h5 : s5.Canonical := canonical_foldl (fun _ _ hs => (hs.wantLine _ _ _ _).poisonRead _) _ ((h2.setGroup _ _).setDie _ _)
    cases r with
    | fault sub level two => exact h5
    | denied => exact h5
    | miss granule level tbl acc' log => exact h5.pageRequest _ _ _ _ _ _ _
    | ok pa l1 l2 ipa log => exact ((h5.setCore _ _).setDie _ _).judge _ _ _ _ _

/-! ### Sys2Proof/Machine/Issue.lean -/

theorem State.Canonical.recordLatent (hs : s.Canonical) (gid : Nat) (l : List RegPos) : (s.recordLatent gid l).Canonical := by
  unfold State.recordLatent
  refine canonical_foldl ?_ _ hs
  intro s x hs
  dsimp only
  split
  · exact hs.setGroup _ _
  · split
    · exact hs.setGroup _ _
    · exact ((hs.setGroup _ _).mcEvent _ _).postEvent _ _ _

theorem State.Canonical.stamp (hs : s.Canonical) (c : Cur) (g : Group) : (s.stamp c g).Canonical := by
  unfold State.stamp
  dsimp only
  cases g.held with
  | some r =>
    exact canonical_ite ((hs.update.setGroup _ _).setCore _ _) ((((hs.update.setGroup _ _).setCore _ _).setGroup _ _).finishOp _ _)
  | none => exact (hs.update.setGroup _ _).setCore _ _

theorem State.Canonical.counted (hs : s.Canonical) (gid : Nat) (g0 : Group) : (s.counted gid g0).Canonical := by
  unfold State.counted
  exact canonical_ite hs (canonical_ite (canonical_ite (((hs.setGroup _ _).setTeam _ _).postOnce _) ((hs.setGroup _ _).setTeam _ _))
    (hs.setGroup _ _))

theorem State.Canonical.countedBut (hs : s.Canonical) (op gid : Nat) (g0 : Group) : (s.countedBut op gid g0).Canonical := by
  unfold State.countedBut
  exact canonical_ite hs (hs.counted _ _)

theorem State.Canonical.stalled (hs : s.Canonical) (c : Cur) : (s.stalled c).Canonical := by
  unfold State.stalled
  exact hs.update

theorem State.Canonical.begun (hs : s.Canonical) (i : Instr) (c : Cur) (g : Group) : (s.begun i c g).Canonical := by
  unfold State.begun
  exact ((hs.stamp _ _).setGroup _ _).recordLatent _ _

theorem State.Canonical.retired (hs : s.Canonical) (c : Cur) (g : Group) (pc : Va) : (s.retired c g pc).Canonical := by
  unfold State.retired
  exact (hs.setGroup _ _).counted _ _

/-- The state that an own execution of each kind leaves. -/
theorem Done.canonical_of_eq {d e : Done} (he : d = e) (hd : d.Canonical) : e.Canonical := he ▸ hd

/-- An instruction's issue keeps the form where its own execution does. -/
theorem issue_canonical (hs : s.Canonical) (i : Instr) (body : Ix → State → Done)
    (hbody : ∀ x s, s.Canonical → (body x s).Canonical) : Canon (issue i s body) := by
  unfold issue
  split
  · exact canon_fault _
  · split
    · exact canon_fault _
    · next c _ _ g _ =>
      have hb := hbody (ixOf s c g) _ (hs.begun i c g)
      split
      · exact canon_next (hs.stalled _)
      · exact canon_next ((hs.stamp _ _).takeTrap _ _)
      · split
        · exact canon_next (hs.stalled _)
        · next e =>
          have h : State.Canonical _ := Done.canonical_of_eq e hb
          exact canon_next ((h.setGroup _ _).takeTrap _ _)
        · next e =>
          have h : State.Canonical _ := Done.canonical_of_eq e hb
          exact canon_next (h.retired _ _ _)
        · next e =>
          have h : State.Canonical _ := Done.canonical_of_eq e hb
          exact canon_next (h.retired _ _ _)
        · next e =>
          have h : State.Canonical _ := Done.canonical_of_eq e hb
          exact canon_next (((h.setGroup _ _).leaveActive _).countedBut _ _ _)

theorem Ix.upd_canonical (hs : s.Canonical) (x : Ix) (f : Group → Group) : (Ix.upd x s f).Canonical := by
  unfold Ix.upd
  exact hs.setGroup _ _

theorem State.Canonical.fetchWord (hs : s.Canonical) (gid : Nat) (code : Option Nat) (a : Va) : (s.fetchWord gid code a).1.Canonical := by
  unfold State.fetchWord
  extract_lets va
  split
  next s1 r e1 =>
  have h1 : s1.Canonical := canonical_of_eq e1 (hs.translate _ _ _)
  cases r with
  | fault c info => exact h1
  | wait n => exact h1.setGroup _ _
  | ok pa typ =>
    dsimp -zeta only
    extract_lets core s2
    have h2 : s2.Canonical := canonical_ite (h1.touch _) (h1.wantLine _ _ _ _)
    exact canonical_ite_fst h2 (canonical_ite_fst h2.update h2)

/-! ### Sys2Proof/Machine/Scopes.lean -/

theorem State.Canonical.fence (hs : s.Canonical) (gid : Nat) (o : Order) (scope : Nat) : (s.fence gid o scope).Canonical := by
  unfold State.fence
  cases s.group gid with
  | none => exact hs
  | some g => exact hs.setGroup _ _

/-! ### Sys2Proof/Machine/Access.lean -/

theorem State.Canonical.holdBank (hs : s.Canonical) (pa : Nat) : (s.holdBank pa).Canonical := by
  unfold State.holdBank
  cases s.bankWait pa with
  | some n => exact hs.update
  | none => exact hs

theorem State.Canonical.postLand (hs : s.Canonical) (gid op : Nat) : (s.postLand gid op).Canonical := by
  unfold State.postLand
  exact canonical_ite (hs.post _) (hs.postRef _ _)

theorem State.Canonical.routeVia (hs : s.Canonical) (die own pa : Nat) (write : Bool) : (s.routeVia die own pa write).Canonical := by
  unfold State.routeVia
  cases s.paKind pa with
  | hearth => exact hs.postOnce _
  | none => exact hs
  | _ => exact canonical_ite (hs.touch _) (hs.ask _ _ _ _)

theorem State.Canonical.route (hs : s.Canonical) (core pa : Nat) (write : Bool) : (s.route core pa write).Canonical := by
  unfold State.route
  exact hs.routeVia _ _ _ _

theorem State.Canonical.routeEngine (hs : s.Canonical) (core pa : Nat) (write : Bool) : (s.routeEngine core pa write).Canonical := by
  unfold State.routeEngine
  exact hs.routeVia _ _ _ _

theorem State.Canonical.l1Fill (hs : s.Canonical) (core n t : Nat) : (s.l1Fill core n t).Canonical := by
  unfold State.l1Fill
  exact hs.setCore _ _

theorem State.Canonical.l1Drop (hs : s.Canonical) (core n : Nat) : (s.l1Drop core n).Canonical := by
  unfold State.l1Drop
  exact hs.setCore _ _

theorem State.Canonical.l1Evict (hs : s.Canonical) (core : Nat) : (s.l1Evict core).Canonical := by
  unfold State.l1Evict
  exact hs.setCore _ _

theorem State.Canonical.finishStores (hs : s.Canonical) (gid : Nat) (ops : List Nat) : (s.finishStores gid ops).Canonical := by
  unfold State.finishStores
  exact canonical_foldl (fun _ _ hs => hs.postOnce _) _ hs

theorem State.Canonical.writeBackVia (hs : s.Canonical) (die own line : Nat) (data : List (Nat × Byte)) :
    (s.writeBackVia die own line data).Canonical := by
  unfold State.writeBackVia
  exact canonical_ite (hs.touch _) ((hs.setSlice _ _).askGrant _ _)

theorem State.Canonical.writeBack (hs : s.Canonical) (core line : Nat) (data : List (Nat × Byte)) :
    (s.writeBack core line data).Canonical := by
  unfold State.writeBack
  exact hs.writeBackVia _ _ _ _

theorem State.Canonical.flushOne (hs : s.Canonical) (core : Nat) (b : Combine) (raise : Group → Nat → Group) :
    (s.flushOne core b raise).Canonical := by
  unfold State.flushOne
  extract_lets s1 h t s2 s3 s4 s5
  have h2 : s2.Canonical := (hs.setCore _ _).storeLine _ _ _ _
  have h3 : s3.Canonical := (h2.writeBack _ _ _).gridOrders _ _
  have h5 : s5.Canonical := (h3.setGroup _ _).finishStores _ _
  exact canonical_ite h5 (h5.forget _)

theorem State.Canonical.flushGroup (hs : s.Canonical) (gid : Nat) (raise : Group → Nat → Group) : (s.flushGroup gid raise).Canonical := by
  unfold State.flushGroup
  cases s.group gid with
  | none => exact hs
  | some g => exact canonical_foldl (fun _ _ hs => hs.flushOne _ _ _) _ hs

theorem State.Canonical.combineStore (hs : s.Canonical) (core gid op pa : Nat) (data : List Byte) :
    (s.combineStore core gid op pa data).Canonical := by
  unfold State.combineStore
  dsimp only
  split
  · refine (State.Canonical.setCore ?_ _ _).flushOne _ _ _
    refine of_ite hs ?_
    cases (s.core core).combine with
    | cons b tail => exact hs.flushOne _ _ _
    | nil => exact hs
  · refine State.Canonical.setCore ?_ _ _
    refine of_ite hs ?_
    cases (s.core core).combine with
    | cons b tail => exact hs.flushOne _ _ _
    | nil => exact hs

theorem Ix.release_canonical (hs : s.Canonical) (x : Ix) (k : State → Nat → Done) (hk : ∀ s x1, s.Canonical → (k s x1).Canonical) :
    (Ix.release x s k).Canonical := by
  unfold Ix.release
  exact of_ite trivial (hk _ _ (hs.flushGroup _ _))

theorem State.Canonical.soFence (hs : s.Canonical) (gid typ : Nat) : (s.soFence gid typ).Canonical := by
  unfold State.soFence
  exact canonical_ite ((hs.flushGroup _ _).fence _ _ _) hs

theorem State.Canonical.awaitFill (hs : s.Canonical) (gid op lane pa : Nat) : (s.awaitFill gid op lane pa).Canonical := by
  unfold State.awaitFill
  exact canonical_ite hs (hs.setGroup _ _)

theorem State.Canonical.boundLoad (hs : s.Canonical) (x : Ix) (z id : Nat) (tg : Target) : (s.boundLoad x z id tg).1.Canonical := by
  unfold State.boundLoad
  dsimp only
  split
  · exact hs
  · split
    · exact hs
    · exact ((((hs.soFence _ _).touch _).setLine _ _).soFence _ _).poisonRead _

theorem State.Canonical.deviceLoad (hs : s.Canonical) (x : Ix) (z : Nat) (tg : Target) : (s.deviceLoad x z tg).1.Canonical := by
  unfold State.deviceLoad
  dsimp only
  split
  · exact hs
  · split
    · exact hs
    · exact ((((hs.soFence _ _).soFence _ _).touch _).holdBank _).poisonRead _

theorem State.Canonical.tookLoad (hs : s.Canonical) (gid lane n t : Nat) (views : List Inst) (o : Option Inst → Order)
    (floor : Inst → Nat) : (s.tookLoad gid lane n t views o floor).Canonical := by
  unfold State.tookLoad
  exact (hs.setLine _ _).setGroup _ _

theorem State.Canonical.timedLoad (hs : s.Canonical) (x : Ix) (z : Nat) (tg : Target) (g : Group) :
    (s.timedLoad x z tg g).1.Canonical := by
  unfold State.timedLoad
  dsimp only
  split
  · exact hs
  · exact (((canonical_ite hs (((hs.route _ _ _).holdBank _).awaitFill _ _ _ _)).l1Fill _ _ _).tookLoad _ _ _ _ _ _ _).poisonRead _

theorem State.Canonical.loadLane (hs : s.Canonical) (x : Ix) (z _last : Nat) (tg : Target) : (s.loadLane x z _last tg).1.Canonical := by
  unfold State.loadLane
  cases s.group x.gid with
  | none => exact hs
  | some g =>
    dsimp only
    split
    · exact hs
    · split
      · exact hs.boundLoad _ _ _ _
      · exact hs
      · split
        · exact hs.deviceLoad _ _ _
        · exact hs.timedLoad _ _ _ _

theorem State.Canonical.storeLane (hs : s.Canonical) (x : Ix) (data : List Byte) (last : Nat) (tg : Target) :
    (s.storeLane x data last tg).1.Canonical := by
  unfold State.storeLane
  dsimp only
  cases s.group x.gid with
  | none => exact hs
  | some g =>
    dsimp only
    split
    · exact hs
    · split
      · split
        · exact hs
        · exact (hs.combineStore _ _ _ _ _).l1Drop _ _
      · split
        · exact hs
        · split
          · exact hs
          · split
            · exact ((((hs.soFence _ _).storeLine _ _ _ _).setGroup _ _).soFence _ _).touch _
            · exact (((hs.storeLine _ _ _ _).setGroup _ _).route _ _ _).l1Drop _ _

theorem State.Canonical.translateLanes (hs : s.Canonical) (c : Xc) (acc : Acc) (l : List (Nat × Dword)) :
    (s.translateLanes c acc l).1.Canonical := by
  unfold State.translateLanes
  refine canonical_foldl_fst ?_ _ hs
  intro x x1 hs
  split
  dsimp only
  split
  · dsimp only
    split
    · exact hs
    · exact hs.translate _ _ _
  · dsimp only
    split
    · exact hs
    · exact hs.translate _ _ _
  · dsimp only
    split
    · exact hs
    · exact hs.translate _ _ _

theorem performLanes_canonical (hs : s.Canonical) (perform : State → Nat → Target → State × LaneRes)
    (hperform : ∀ s last tg, s.Canonical → (perform s last tg).1.Canonical) (l : List Target) (lasts : Assoc Nat) :
    (performLanes perform l lasts s).1.Canonical := by
  induction l generalizing lasts s with
  | nil => exact hs
  | cons tg r ih =>
    unfold performLanes
    have h := hperform s (Assoc.getD lasts (lineOf tg.pa) 0) tg hs
    rcases e : perform s (Assoc.getD lasts (lineOf tg.pa) 0) tg with ⟨s', a⟩
    rw [e] at h
    cases a <;> exact ih h _

theorem Ix.raise_canonical (hs : s.Canonical) (x : Ix) (path tw : Nat) : (Ix.raise x s path tw).Canonical := by
  unfold Ix.raise
  exact canonical_ite hs (hs.setGroup _ _)

theorem Ix.settle_canonical (hs : s.Canonical) (x : Ix) (ea : Vector Dword 128) (data : List VReg) (live done : Mask) (faults : List
    (Nat × Nat × Dword)) (waits : List (Nat × Option Nat)) (owned : List (Nat × Nat)) :
      (Ix.settle x s ea data live done faults waits owned).Canonical := by
  unfold Ix.settle
  dsimp only
  refine of_ite (hs.setGroup _ _) ?_
  split
  · exact (hs.postLand _ _).setGroup _ _
  · exact (hs.postLand _ _).setGroup _ _

theorem Ix.access_canonical (hs : s.Canonical) (x : Ix) (acc : Acc) (path z : Nat) (a b : Reg) (data : List VReg) (d n : Nat)
    (perform : State → Nat → Target → State × LaneRes) (hperform : ∀ s x1 x2, s.Canonical → (perform s x1 x2).1.Canonical) :
      (Ix.access x s acc path z a b data d n perform).Canonical := by
  unfold Ix.access
  extract_lets ea held live done0 s1 c faults0 still todo
  split
  · exact hs
  · split
    next s2 t e2 =>
    have h2 : s2.Canonical := canonical_of_eq e2 ((Ix.raise_canonical hs _ _ _).translateLanes _ _ _)
    split
    next s3 q e3 =>
    have h3 : s3.Canonical := canonical_of_eq e3 (performLanes_canonical h2 _ (fun _ _ _ hs => hperform _ _ _ hs) _ _)
    exact of_ite (P := Done.Canonical) trivial (Ix.settle_canonical (h3.setGroup _ _) _ _ _ _ _ _ _ _)

theorem Ix.waitWhole_canonical (hs : s.Canonical) (x : Ix) (park : Park) (kept : List VReg) (low : List (Nat × Nat)) :
    (Ix.waitWhole x s park kept low).Canonical := by
  unfold Ix.waitWhole
  exact hs.setGroup _ _

theorem Ix.parkWhole_canonical (hs : s.Canonical) (x : Ix) (granule : Option Nat) (kept : List VReg) :
    (Ix.parkWhole x s granule kept).Canonical := by
  unfold Ix.parkWhole
  exact Ix.waitWhole_canonical hs _ _ _ _

theorem Ix.unheld_canonical (hs : s.Canonical) (x : Ix) : (Ix.unheld x s).Canonical := by
  unfold Ix.unheld
  exact canonical_ite (hs.setGroup _ _) hs

theorem Ix.fail_canonical (hs : s.Canonical) (x : Ix) (t : TrapInfo) : (Ix.fail x s t).Canonical := by
  unfold Ix.fail
  exact canonical_ite ((Ix.unheld_canonical hs _).finishOp _ _) hs

theorem Ix.accessWhole_canonical (hs : s.Canonical) (x : Ix) (acc : Acc) (path z : Nat) (a b : Reg)
    (perform : State → Nat → Target → State × LaneRes) (hperform : ∀ s x1 x2, s.Canonical → (perform s x1 x2).1.Canonical)
      (result : Group → Nat → Bool → Group) : (Ix.accessWhole x s acc path z a b perform result).Canonical := by
  unfold Ix.accessWhole
  dsimp only
  refine of_ite hs ?_
  split
  · exact Ix.parkWhole_canonical (Ix.raise_canonical (hs.translate _ _ _) _ _ _) _ _ _
  · exact Ix.fail_canonical (hs.translate _ _ _) _ _
  · split
    · exact trivial
    · exact Ix.waitWhole_canonical (hperform _ _ _ (Ix.raise_canonical (hs.translate _ _ _) _ _ _)) _ _ _ _
    · exact Ix.fail_canonical (hperform _ _ _ (Ix.raise_canonical (hs.translate _ _ _) _ _ _)) _ _
    · exact (Ix.unheld_canonical ((hperform _ _ _ (Ix.raise_canonical (hs.translate _ _ _) _ _ _)).setGroup _ _) _).postLand _ _

theorem State.Canonical.routeTyped (hs : s.Canonical) (core pa typ : Nat) : (s.routeTyped core pa typ).Canonical := by
  unfold State.routeTyped
  exact canonical_ite (hs.touch _) (hs.route _ _ _)

theorem State.Canonical.readLines (hs : s.Canonical) (c : Xc) (time : Nat) (low : Nat → Nat) (va : Dword) (n : Nat) :
    (s.readLines c time low va n).1.Canonical := by
  unfold State.readLines
  refine canonical_foldl_fst ?_ _ hs
  rintro ⟨s, r⟩ a hs
  cases r with
  | ok data =>
    have h1 := State.Canonical.translate hs c (BitVec.ofNat 64 (Nat.max a va.toNat)) .read
    dsimp only at h1 ⊢
    generalize s.translate c (BitVec.ofNat 64 (Nat.max a va.toNat)) .read = q at h1 ⊢
    obtain ⟨s1, r⟩ := q
    cases r with
    | fault c info => exact h1
    | wait n => exact h1
    | ok pa typ =>
      refine canonical_ite_fst h1 (canonical_ite_fst h1 ?_)
      exact ((h1.routeTyped _ _ _).setLine _ _).poisonRead _
  | _ => exact hs

theorem Ix.readFrom_canonical (hs : s.Canonical) (x : Ix) (time : Nat) (va : Dword) (n : Nat) (k : State → List Byte → Done)
    (hk : ∀ s x1, s.Canonical → (k s x1).Canonical) : (Ix.readFrom x s time va n k).Canonical := by
  unfold Ix.readFrom
  split
  next s1 r e =>
  have h1 : s1.Canonical := canonical_of_eq e (hs.readLines _ _ _ _ _)
  cases r with
  | ok data => exact hk _ _ (Ix.unheld_canonical h1 _)
  | fault c a i => exact Ix.fail_canonical h1 _ _
  | wait g => exact Ix.waitWhole_canonical h1 _ _ _ _
  | owned line tw => exact Ix.waitWhole_canonical h1 _ _ _ _
  | busy => exact trivial

theorem Ix.read_canonical (hs : s.Canonical) (x : Ix) (va : Dword) (n : Nat) (k : State → List Byte → Done)
    (hk : ∀ s x1, s.Canonical → (k s x1).Canonical) : (Ix.read x s va n k).Canonical := by
  unfold Ix.read
  exact Ix.readFrom_canonical hs _ _ _ _ _ (fun _ _ hs => hk _ _ hs)

/-! ### Sys2Proof/Machine/Pattern.lean -/

theorem State.Canonical.tongsUse (hs : s.Canonical) (core pa t : Nat) : (s.tongsUse core pa t).Canonical := by
  unfold State.tongsUse
  exact (canonical_ite hs (hs.route _ _ _)).update

theorem State.Canonical.tongsWhole (hs : s.Canonical) (x : Ix) (cached : Bool) (pa typ n : Nat) :
    (s.tongsWhole x cached pa typ n).1.Canonical := by
  unfold State.tongsWhole
  extract_lets core k l t keep s1 s2
  have h1 : s1.Canonical := hs.poisonRead _
  have h2 : s2.Canonical := State.Canonical.setLine (canonical_ite (h1.tongsUse _ _ _) (h1.routeTyped _ _ _)) _ _
  split
  · exact hs
  · exact h2

theorem handleRead_canonical (x : Ix) (va : Nat) : Rd.Canonical (handleRead x va) := by
  unfold handleRead
  intro s hs
  have h1 := hs.translate (s.groupXc x.gid) (BitVec.ofNat 64 va) .read
  dsimp only
  generalize s.translate (s.groupXc x.gid) (BitVec.ofNat 64 va) .read = p at h1 ⊢
  obtain ⟨s1, r⟩ := p
  cases r with
  | fault c info => exact h1
  | wait n => exact h1
  | ok pa typ =>
    have h2 := h1.tongsWhole x true pa typ 64
    dsimp only
    generalize s1.tongsWhole x true pa typ 64 = q at h2 ⊢
    obtain ⟨s2, r⟩ := q
    cases r with
    | _ => exact h2

theorem tongsLine_canonical (x : Ix) (lane va n : Nat) : Rd.Canonical (tongsLine x lane va n) := by
  unfold tongsLine
  intro s hs
  dsimp only
  cases (s.translate (s.groupXc x.gid) (BitVec.ofNat 64 va) Acc.read).2 with
  | fault c info => exact hs.translate _ _ _
  | wait n => exact hs.translate _ _ _
  | ok pa typ =>
    dsimp only
    split
    · exact hs.translate _ _ _
    · split
      · exact (hs.translate _ _ _).tongsWhole _ _ _ _ _
      · split
        · exact hs.translate _ _ _
        · exact (((canonical_ite (hs.translate _ _ _) (((hs.translate _ _ _).holdBank _).awaitFill _ _ _ _)).tongsUse _ _ _).tookLoad _ _
            _ _ _ _ _).poisonRead _

theorem Rd.foldl_canonical {α β : Type} {f : Rd α → β → Rd α} (hf : ∀ m b, Rd.Canonical m → Rd.Canonical (f m b)) (l : List β) {m : Rd α}
    (hm : Rd.Canonical m) : Rd.Canonical (l.foldl f m) :=
  foldl_inv Rd.Canonical f hf l m hm

theorem rdRange_canonical (line : Nat → Nat → Rd (List Byte × Bool)) (hline : ∀ x0 x1, Rd.Canonical (line x0 x1)) (va n : Nat) :
    Rd.Canonical (rdRange line va n) := by
  unfold rdRange
  exact Rd.foldl_canonical
    (fun _ _ hm => Rd.bind_canonical hm (fun _ => Rd.bind_canonical (hline _ _) (fun _ => Rd.pure_canonical _))) _ (Rd.pure_canonical _)

theorem swageLine_canonical (x : Ix) (time va n : Nat) : Rd.Canonical (swageLine x time va n) := by
  unfold swageLine
  intro s hs
  dsimp only
  cases (s.translate (s.groupXc x.gid) (BitVec.ofNat 64 va) Acc.read).2 with
  | fault c info => exact hs.translate _ _ _
  | wait n => exact hs.translate _ _ _
  | ok pa typ =>
    dsimp only
    split
    · exact hs.translate _ _ _
    · exact (((hs.translate _ _ _).routeTyped _ _ _).setLine _ _).poisonRead _

theorem rdNum_canonical (line : Nat → Nat → Rd (List Byte × Bool)) (hline : ∀ x0 x1, Rd.Canonical (line x0 x1)) (va n : Nat) :
    Rd.Canonical (rdNum line va n) := by
  unfold rdNum
  exact Rd.bind_canonical (rdRange_canonical _ (fun _ _ => hline _ _) _ _) (fun _ => Rd.pure_canonical _)

theorem readProgram_canonical (x : Ix) (va n : Nat) (ws : List Word) : Rd.Canonical (readProgram x va n ws) := by
  induction n generalizing ws with
  | zero => exact Rd.pure_canonical _
  | succ n ih =>
    unfold readProgram
    refine Rd.bind_canonical (rdNum_canonical _ (fun _ _ => tongsLine_canonical _ _ _ _) _ _) (fun _ => ?_)
    dsimp only
    split
    · exact ih _
    · exact Rd.pure_canonical _

theorem Ix.abandon_canonical (hs : s.Canonical) (x : Ix) (t : TrapInfo) : (Ix.abandon x s t).Canonical := by
  unfold Ix.abandon
  exact (Ix.unheld_canonical hs _).finishOp _ _

theorem execPgld_canonical (hs : s.Canonical) (d a : Reg) : Canon (execPgld d a s) := by
  unfold execPgld
  refine issue_canonical hs _ _ ?_
  intro x s hs
  dsimp only
  cases s.team x.g.team with
  | none => exact hs
  | some y =>
    refine of_ite (Ix.fail_canonical hs _ _) ?_
    cases y.patterns.lowestFree 0 16 with
    | none => exact ((Ix.unheld_canonical (Ix.raise_canonical hs _ _ _) _).setGroup _ _).finishOp _ _
    | some gid =>
      refine of_ite (((Ix.unheld_canonical (Ix.raise_canonical hs _ _ _) _).setGroup _ _).finishOp _ _) ?_
      split
      · exact Ix.parkWhole_canonical (readProgram_canonical _ _ _ _ _ (Ix.raise_canonical hs _ _ _)) _ _ _
      · exact trivial
      · exact Ix.abandon_canonical (readProgram_canonical _ _ _ _ _ (Ix.raise_canonical hs _ _ _)) _ _
      · exact Ix.upd_canonical (((Ix.unheld_canonical (readProgram_canonical _ _ _ _ _ (Ix.raise_canonical hs _ _ _)) _).finishOp _
          _).setTeam _ _) _ _
      · exact Ix.abandon_canonical (readProgram_canonical _ _ _ _ _ (Ix.raise_canonical hs _ _ _)) _ _
      · exact Ix.abandon_canonical (readProgram_canonical _ _ _ _ _ (Ix.raise_canonical hs _ _ _)) _ _

theorem execPgfree_canonical (hs : s.Canonical) (a : Reg) : Canon (execPgfree a s) := by
  unfold execPgfree
  refine issue_canonical hs _ _ ?_
  intro x s hs
  split
  · exact hs
  · exact hs.setTeam _ _

theorem findIndex_canonical (line : Nat → Nat → Rd (List Byte × Bool)) (hline : ∀ x0 x1, Rd.Canonical (line x0 x1)) (idx c n j : Nat)
    (bad : Bool) : Rd.Canonical (findIndex line idx c n j bad) := by
  induction n generalizing j bad with
  | zero => exact Rd.pure_canonical _
  | succ n ih =>
    unfold findIndex
    refine Rd.bind_canonical (rdNum_canonical _ hline _ _) (fun _ => ?_)
    refine of_ite ?_ ?_
    · exact Rd.pure_canonical _
    · exact ih _ _

theorem Handle.element_canonical (h : Handle) (mode : Nat) (line : Nat → Nat → Rd (List Byte × Bool))
    (hline : ∀ x0 x1, Rd.Canonical (line x0 x1)) (r c : Nat) : Rd.Canonical (h.element mode line r c) := by
  have hnum : ∀ va n, Rd.Canonical (rdNum line va n) := rdNum_canonical line hline
  have hrange : ∀ va n, Rd.Canonical (rdRange line va n) := rdRange_canonical line hline
  unfold Handle.element
  split
  · exact Rd.bind_canonical (hnum _ _) (fun _ => Rd.pure_canonical _)
  · refine Rd.bind_canonical (hnum _ _) (fun _ => Rd.bind_canonical ?_ (fun _ => Rd.pure_canonical _))
    exact Rd.foldl_canonical
      (fun _ _ hm => Rd.bind_canonical hm (fun _ => Rd.bind_canonical (hnum _ _) (fun _ => Rd.pure_canonical _))) _ (Rd.pure_canonical _)
  · refine Rd.bind_canonical (hnum _ _) (fun _ => ?_)
    exact of_ite (Rd.pure_canonical _) (Rd.bind_canonical (hrange _ _) (fun _ => Rd.pure_canonical _))
  · refine Rd.bind_canonical (hnum _ _) (fun _ => Rd.bind_canonical (hnum _ _) (fun _ =>
      Rd.bind_canonical (findIndex_canonical _ hline _ _ _ _ _) (fun _ => ?_)))
    split
    · exact Rd.pure_canonical _
    · exact Rd.bind_canonical (hnum _ _) (fun _ => Rd.pure_canonical _)

theorem Gathered.line_canonical (q : Gathered) (x : Ix) (L va n : Nat) : Rd.Canonical (Gathered.line q x L va n) := by
  unfold Gathered.line
  generalize List.find? (fun p => decide (va >>> p.2.1 = p.1 >>> p.2.1)) q.pages = found
  rcases found with _ | ⟨page, log, r⟩
  · exact tongsLine_canonical _ _ _ _
  · cases r with
    | fault at_ code info => exact fun s hs => hs
    | wait at_ g => exact fun s hs => hs
    | _ => exact tongsLine_canonical _ _ _ _

theorem Ix.gatherLane_canonical (x : Ix) (h : Handle) (vb : VReg) (q : Gathered) (hq : q.s.Canonical) (L : Nat) :
    (x.gatherLane h vb q L).s.Canonical := by
  unfold Ix.gatherLane
  dsimp only
  split
  · exact hq
  · have he := h.element_canonical (mrRound x.heldMr) (q.line x L) (Gathered.line_canonical q x L) ((vb.lane L).toNat % 65536)
      ((vb.lane L).toNat / 65536) q.s hq
    split <;> exact he

/-- A gather keeps the form, lane by lane. -/
theorem Ix.gatherLanes_canonical (x : Ix) (h : Handle) (vb : VReg) (l : List Nat) (q : Gathered) (hq : q.s.Canonical) :
    (l.foldl (x.gatherLane h vb) q).s.Canonical :=
  foldl_inv (fun q => q.s.Canonical) _ (fun q L hq => x.gatherLane_canonical h vb q hq L) l q hq

theorem Ix.gather_canonical (hs : s.Canonical) (x : Ix) (strict : Bool) (d a b : Reg) : (Ix.gather x s strict d a b).Canonical := by
  unfold Ix.gather
  extract_lets va held vb faults0 still todo ea0 live done0 lanes
  have hlanes : ∀ s desc, s.Canonical → (lanes s desc).Canonical := by
    intro s desc hs
    unfold lanes
    dsimp only
    split
    · exact Ix.fail_canonical hs _ _
    · refine of_ite ?_ ?_
      · exact trivial
      · refine Ix.settle_canonical (State.Canonical.setGroup ?_ _ _) _ _ _ _ _ _ _ _
        exact x.gatherLanes_canonical _ _ _ _ (Ix.raise_canonical hs _ _ _)
  split
  · exact hlanes _ _ hs
  · refine of_ite (Ix.fail_canonical hs _ _) ?_
    have h := handleRead_canonical x va.toNat s hs
    generalize handleRead x va.toNat s = p at h ⊢
    obtain ⟨s, r⟩ := p
    cases r with
    | wait => exact Ix.parkWhole_canonical (Ix.raise_canonical h _ _ _) _ _ _
    | busy => exact trivial
    | fault => exact Ix.fail_canonical h _ _
    | ok desc =>
      dsimp only
      cases handleFault desc with
      | some => exact Ix.fail_canonical h _ _
      | none => exact hlanes _ _ h

theorem State.Canonical.openFibre (hs : s.Canonical) (tid f : Nat) (src : FibSrc) (mode time : Nat) :
    (s.openFibre tid f src mode time).Canonical := by
  unfold State.openFibre
  refine canonical_ite (((hs.setTeam _ _).mapGroups _ ?_).post _) ((hs.setTeam _ _).mapGroups _ ?_)
  · intro x
    split
    · rfl
    · rfl
  · intro x
    split
    · rfl
    · rfl

theorem execFopen_canonical (hs : s.Canonical) (d a b : Reg) : Canon (execFopen d a b s) := by
  unfold execFopen
  refine issue_canonical hs _ _ ?_
  intro x s hs
  cases s.team x.g.team with
  | none => exact hs
  | some y =>
    dsimp only
    refine of_ite trivial (of_ite hs ?_)
    refine of_ite ?_ ?_
    · split
      · exact hs
      · exact of_ite hs (hs.openFibre _ _ _ _ _)
    · refine of_ite (Ix.fail_canonical hs _ _) ?_
      cases (handleRead x (BitVec.toNat (x.g.sr (BitVec.toNat a))) s).2 with
      | wait at_ g => exact Ix.parkWhole_canonical (handleRead_canonical _ _ _ hs) _ _ _
      | busy => exact trivial
      | fault at_ code info => exact Ix.fail_canonical (handleRead_canonical _ _ _ hs) _ _
      | ok desc =>
        dsimp only
        cases handleFault desc with
        | some n => exact Ix.unheld_canonical (handleRead_canonical _ _ _ hs) _
        | none =>
          exact of_ite (Ix.unheld_canonical (handleRead_canonical _ _ _ hs) _) (of_ite (Ix.unheld_canonical
            (handleRead_canonical _ _ _ hs) _) ((Ix.unheld_canonical (handleRead_canonical _ _ _ hs) _).openFibre _ _ _ _ _))

theorem execSwageCountComplete_canonical (hs : s.Canonical) (tid fib : Nat) : Canon (execSwageCountComplete tid fib s) := by
  unfold execSwageCountComplete
  exact canon_next (hs.setTeam _ _)

theorem entries_canonical (line : Nat → Nat → Rd (List Byte × Bool)) (hline : ∀ x0 x1, Rd.Canonical (line x0 x1)) (idx lo n k j : Nat)
    (acc : List (Nat × Nat)) : Rd.Canonical (entries line idx lo n k j acc) := by
  induction k generalizing j acc with
  | zero => exact Rd.pure_canonical _
  | succ k ih => exact Rd.bind_canonical (rdNum_canonical _ hline _ _) (fun _ => ih _ _)

theorem storedRows_canonical (line : Nat → Nat → Rd (List Byte × Bool)) (hline : ∀ x0 x1, Rd.Canonical (line x0 x1)) (h : Handle)
    (lo n want : Nat) (l : List Nat) (acc : List (Nat × Nat × Nat)) : Rd.Canonical (storedRows line h lo n want l acc) := by
  induction l generalizing acc with
  | nil => exact Rd.pure_canonical _
  | cons r rest ih =>
    unfold storedRows
    refine of_ite ?_ ?_
    · exact Rd.pure_canonical _
    · exact Rd.bind_canonical (rdNum_canonical _ hline _ _) (fun _ => Rd.bind_canonical (rdNum_canonical _ hline _ _) (fun _ =>
        Rd.bind_canonical (entries_canonical _ hline _ _ _ _ _ _) (fun _ => ih _)))

theorem entriesUpTo_canonical (line : Nat → Nat → Rd (List Byte × Bool)) (hline : ∀ x0 x1, Rd.Canonical (line x0 x1))
    (idx lo n want k j : Nat) (acc : List (Nat × Nat)) : Rd.Canonical (entriesUpTo line idx lo n want k j acc) := by
  induction k generalizing j acc with
  | zero => exact Rd.pure_canonical _
  | succ k ih =>
    unfold entriesUpTo
    refine of_ite ?_ ?_
    · exact Rd.pure_canonical _
    · exact Rd.bind_canonical (rdNum_canonical _ hline _ _) (fun _ => ih _ _)

theorem storedNext_canonical (line : Nat → Nat → Rd (List Byte × Bool)) (hline : ∀ x0 x1, Rd.Canonical (line x0 x1)) (h : Handle)
    (m0 lo n want : Nat) (l : List Nat) (row : Option (Nat × Nat)) (acc : List (Nat × Nat × Nat)) :
    Rd.Canonical (storedNext line h m0 lo n want l row acc) := by
  induction l generalizing row acc with
  | nil => exact Rd.pure_canonical _
  | cons i rest ih =>
    unfold storedNext
    refine Rd.bind_canonical ?_ (fun _ => Rd.bind_canonical (entriesUpTo_canonical _ hline _ _ _ _ _ _ _) (fun _ => ?_))
    · cases row with
      | some p => exact Rd.pure_canonical _
      | none =>
        exact Rd.bind_canonical (rdNum_canonical _ hline _ _) (fun _ =>
          Rd.bind_canonical (rdNum_canonical _ hline _ _) (fun _ => Rd.pure_canonical _))
    · dsimp only
      refine of_ite ?_ ?_
      · exact Rd.pure_canonical _
      · exact ih _ _

theorem Fibre.next_canonical (f : Fibre) (x : Ix) (k : Nat) : Rd.Canonical (Fibre.next f x k) := by
  unfold Fibre.next
  cases f.src with
  | pattern words inv => exact Rd.pure_canonical _
  | stored patterns =>
    dsimp only
    exact Rd.bind_canonical (storedNext_canonical _ (fun _ _ => swageLine_canonical _ _ _ _) _ _ _ _ _ _ _ _)
      (fun _ => Rd.pure_canonical _)

theorem execFadv_canonical (hs : s.Canonical) (d a : Reg) : Canon (execFadv d a s) := by
  unfold execFadv
  refine issue_canonical hs _ _ ?_
  intro x s hs
  refine of_ite trivial ?_
  cases (s.team x.g.team).bind fun t => t.fibres.get (BitVec.toNat a) with
  | none => exact Ix.fail_canonical hs _ _
  | some f =>
    refine of_ite trivial (of_ite (Ix.unheld_canonical hs _) ?_)
    dsimp only
    split
    · exact Ix.parkWhole_canonical (Fibre.next_canonical _ _ _ _ hs) _ _ _
    · exact trivial
    · exact Ix.fail_canonical (Fibre.next_canonical _ _ _ _ hs) _ _
    · exact Ix.upd_canonical ((Ix.unheld_canonical (Fibre.next_canonical _ _ _ _ hs) _).setTeam _ _) _ _

theorem execFend_canonical (hs : s.Canonical) (d a : Reg) : Canon (execFend d a s) := by
  unfold execFend
  refine issue_canonical hs _ _ ?_
  intro x s hs
  cases (s.team x.g.team).bind fun t => t.fibres.get (BitVec.toNat a) with
  | none => exact hs
  | some f => exact Ix.upd_canonical hs _ _

theorem execFclose_canonical (hs : s.Canonical) (a : Reg) : Canon (execFclose a s) := by
  unfold execFclose
  refine issue_canonical hs _ _ ?_
  intro x s hs
  exact of_ite trivial (hs.setTeam _ _)

theorem execFpos_canonical (hs : s.Canonical) (d a : Reg) : Canon (execFpos d a s) := by
  unfold execFpos
  refine issue_canonical hs _ _ ?_
  intro x s hs
  refine of_ite trivial ?_
  cases (s.team x.g.team).bind fun t => t.fibres.get (BitVec.toNat a) with
  | none => exact hs
  | some f => exact Ix.upd_canonical hs _ _

/-! ### Sys2Proof/Machine/Anvil.lean -/

theorem execMxacq_canonical (hs : s.Canonical) : Canon (execMxacq s) := by
  unfold execMxacq
  refine issue_canonical hs _ _ ?_
  intro x s hs
  dsimp only
  exact of_ite hs (of_ite (hs.setGroup _ _) (of_ite (hs.setCore _ _) (of_ite trivial ((hs.setGroup _ _).setCore _ _))))

theorem execMxrel_canonical (hs : s.Canonical) : Canon (execMxrel s) := by
  unfold execMxrel
  refine issue_canonical hs _ _ ?_
  intro x s hs
  dsimp only
  exact of_ite hs (canonical_ite (hs.setCore _ _) ((hs.setCore _ _).postAt _ _))

theorem execAnvilOwnershipGrant_canonical (hs : s.Canonical) (core : Nat) : Canon (execAnvilOwnershipGrant core s) := by
  unfold execAnvilOwnershipGrant
  cases (s.core core).owner with
  | some gid => exact canon_next hs
  | none =>
    cases (s.core core).line with
    | nil => exact canon_next hs
    | cons f rest => exact canon_next ((hs.setCore _ _).setGroup _ _)

theorem Ix.enqueue_canonical (hs : s.Canonical) (x : Ix) (d : Nat) (kind : TileKind) (tw : Nat) (owned : List Nat) :
    (Ix.enqueue x s d kind tw owned).Canonical := by
  unfold Ix.enqueue
  exact ((hs.setGroup _ _).setCore _ _).post _

theorem Ix.tileOp_canonical (hs : s.Canonical) (x : Ix) (d : Nat) (k : Team → Done) (hk : ∀ x0, (k x0).Canonical) :
    (Ix.tileOp x s d k).Canonical := by
  unfold Ix.tileOp
  cases s.team x.g.team with
  | none => exact hs
  | some y => exact of_ite trivial (of_ite (Ix.fail_canonical hs _ _) (hk _))

theorem execAccrd_canonical (hs : s.Canonical) (d a b : Reg) : Canon (execAccrd d a b s) := by
  unfold execAccrd
  refine issue_canonical hs _ _ (fun _ _ hs => Ix.tileOp_canonical hs _ _ _ ?_)
  intro x
  dsimp only
  exact of_ite (Ix.enqueue_canonical hs _ _ _ _ _) (Ix.upd_canonical (Ix.enqueue_canonical hs _ _ _ _ _) _ _)

theorem presentOf_canonical (f : Fmt) (y : Fibre) (x : Ix) : Rd.Canonical (presentOf f y x) := by
  unfold presentOf
  dsimp only
  cases y.src with
  | pattern words inv => exact Rd.pure_canonical _
  | stored patterns =>
    exact Rd.bind_canonical (storedRows_canonical _ (fun _ _ => swageLine_canonical _ _ _ _) _ _ _ _ _ _) (fun _ => Rd.pure_canonical _)

theorem Ix.mma_canonical (hs : s.Canonical) (x : Ix) (sparse : Bool) (d a b : Reg) : (Ix.mma x s sparse d a b).Canonical := by
  unfold Ix.mma
  cases s.team x.g.team with
  | none => exact hs
  | some y =>
    dsimp only
    refine of_ite trivial (of_ite (Ix.fail_canonical hs _ _) (of_ite (Ix.fail_canonical hs _ _) (of_ite (Ix.fail_canonical hs _ _) ?_)))
    cases x.captured [] with
    | cons v tail =>
      refine of_ite ?_ ?_
      · cases y.fibres.get (Fmt.ofBytes (unpackBytes v 16)).fibre with
        | none => exact Ix.unheld_canonical hs _
        | some f =>
          refine of_ite (Ix.unheld_canonical hs _) (of_ite (Ix.unheld_canonical hs _) ?_)
          cases (presentOf (Fmt.ofBytes (unpackBytes v 16)) f x (x.unheld s)).2 with
          | ok l => exact Ix.enqueue_canonical (presentOf_canonical _ _ _ _ (Ix.unheld_canonical hs _)) _ _ _ _ _
          | fault at_ code info => exact presentOf_canonical _ _ _ _ (Ix.unheld_canonical hs _)
          | wait at_ g => exact Ix.parkWhole_canonical (presentOf_canonical _ _ _ _ (Ix.unheld_canonical hs _)) _ _ _
          | busy => exact trivial
      · exact of_ite (Ix.unheld_canonical hs _) (Ix.enqueue_canonical (Ix.unheld_canonical hs _) _ _ _ _ _)
    | nil =>
      refine Ix.readFrom_canonical hs _ _ _ _ _ ?_
      intro s x hs
      refine of_ite ?_ ?_
      · cases y.fibres.get (Fmt.ofBytes x).fibre with
        | none => exact hs
        | some f =>
          refine of_ite hs (of_ite hs ?_)
          split
          · exact Ix.enqueue_canonical (presentOf_canonical _ _ _ _ hs) _ _ _ _ _
          · exact presentOf_canonical _ _ _ _ hs
          · exact Ix.parkWhole_canonical (presentOf_canonical _ _ _ _ hs) _ _ _
          · exact trivial
      · exact of_ite hs (Ix.enqueue_canonical hs _ _ _ _ _)

theorem execMwaitb_canonical (hs : s.Canonical) (a : Reg) : Canon (execMwaitb a s) := by
  unfold execMwaitb
  refine issue_canonical hs _ _ ?_
  intro x s hs
  dsimp only
  exact of_ite trivial (Ix.upd_canonical hs _ _)

theorem State.Canonical.ownable (hs : s.Canonical) (c : Xc) (va : Nat) : (s.ownable c va).1.Canonical := by
  unfold State.ownable
  split
  rename_i e
  split
  · exact canonical_of_eq e (hs.translate _ _ _)
  · exact canonical_of_eq e (hs.translate _ _ _)

theorem State.Canonical.ownMore (hs : s.Canonical) (core : Nat) (o : TileOp) : (s.ownMore core o).Canonical := by
  unfold State.ownMore
  cases o.stuck with
  | true => exact hs
  | false =>
    cases o.kind with
    | accst dst stride cvt =>
      refine canonical_foldl ?_ _ hs
      intro s x hs
      split
      next s1 r e =>
      have h1 : s1.Canonical := canonical_of_eq e (hs.ownable _ _)
      cases r with
      | none => exact h1
      | some n => exact canonical_ite h1 (((h1.setLine _ _).l1Drop _ _).setCore _ _)
    | _ => exact hs

theorem execAccst_canonical (hs : s.Canonical) (d a b : Reg) : Canon (execAccst d a b s) := by
  unfold execAccst
  refine issue_canonical hs _ _ (fun x s hs => Ix.tileOp_canonical hs _ _ _ (fun _ => ?_))
  dsimp only
  refine of_ite hs ?_
  refine Ix.enqueue_canonical (canonical_foldl (fun _ _ hs => (hs.setLine _ _).l1Drop _ _) _ ?_) _ _ _ _ _
  exact canonical_foldl_fst (p := (s, [])) (fun p _ hp => hp.ownable _ _) _ hs

theorem State.Canonical.setTileOp (hs : s.Canonical) (core op : Nat) (f : TileOp → TileOp) : (s.setTileOp core op f).Canonical := by
  unfold State.setTileOp
  exact hs.setCore _ _

theorem State.Canonical.tileFault (hs : s.Canonical) (core : Nat) (o : TileOp) (sub va : Nat) :
    (s.tileFault core o sub va).Canonical := by
  unfold State.tileFault
  exact ((hs.setTileOp _ _ _).disown _ _).raiseDeferred _ _

theorem execTileOpStart_canonical (hs : s.Canonical) (core op : Nat) : Canon (execTileOpStart core op s) := by
  unfold execTileOpStart
  cases s.tileOf core op with
  | none => exact canon_next hs
  | some o =>
    dsimp only
    refine of_ite (canon_next hs) ?_
    split
    · exact of_ite (canon_next ((hs.setTileOp _ _ _).postAt _ _)) (canon_next ((hs.setTileOp _ _ _).post _))
    · exact canon_next ((hs.setTileOp _ _ _).post _)

theorem State.Canonical.tileArrivals (hs : s.Canonical) (core : Nat)
    (o : TileOp) : ∀ t, s.tileArrivals core o = some t → t.Canonical := by
  intro t e
  unfold State.tileArrivals at e
  dsimp only at e
  split at e
  · cases e
    exact (hs.poisonEvent _).tileFault _ _ _ _
  · cases e

theorem State.Canonical.arrayStep (hs : s.Canonical) (core : Nat) (o : TileOp) (f : Fmt) (abase bbase : Nat) (present : List Nat) :
    (s.arrayStep core o f abase bbase present).Canonical := by
  unfold State.arrayStep
  exact canonical_ite ((canonical_ite ((hs.setTileOp _ _ _).postAt _ _) (hs.setTileOp _ _ _)).postAt _ _)
    (canonical_ite ((hs.setTileOp _ _ _).postAt _ _) (hs.setTileOp _ _ _))

theorem State.Canonical.fetchTurn (hs : s.Canonical) (core : Nat) (o : TileOp) (f : Fmt) (abase bbase : Nat) (present : List Nat) :
    (s.fetchTurn core o f abase bbase present).Canonical := by
  unfold State.fetchTurn
  dsimp only
  cases present[o.fetched]? with
  | none => exact hs
  | some gid =>
    refine of_ite hs ?_
    split
    · exact (hs.setTileOp _ _ _).postOnceAt _ _
    · exact (hs.setTileOp _ _ _).postOnceAt _ _
    · exact canonical_ite (hs.postOnceAt _ _) ((hs.setTileOp _ _ _).postOnceAt _ _)

theorem State.Canonical.fetchLine (hs : s.Canonical) (core : Nat) (o : TileOp) (va : Nat) : (s.fetchLine core o va).Canonical := by
  unfold State.fetchLine
  split
  rename_i e
  split
  · exact canonical_of_eq e (hs.translate _ _ _)
  · exact (canonical_of_eq e (hs.translate _ _ _)).tileFault _ _ _ _
  · refine of_ite ((canonical_of_eq e (hs.translate _ _ _)).tileFault _ _ _ _) (of_ite ((canonical_of_eq e
      (hs.translate _ _ _)).postRef _ _) ?_)
    split
    · exact (canonical_of_eq e (hs.translate _ _ _)).postOnceAt _ _
    · exact canonical_ite (((((canonical_of_eq e (hs.translate _ _ _)).route _ _ _).setLine _ _).poisonEvent _).tileFault _ _ _ _)
        (((((canonical_of_eq e (hs.translate _ _ _)).route _ _ _).setLine _ _).setTileOp _ _ _).postOnceAt _ _)

theorem execTileLineFetch_canonical (hs : s.Canonical) (core op : Nat) : Canon (execTileLineFetch core op s) := by
  unfold execTileLineFetch
  cases s.tileOf core op with
  | none => exact canon_next hs
  | some o =>
    dsimp only
    cases o.stuck with
    | true => exact canon_next hs
    | false =>
      cases o.kind with
      | mma f abase bbase present =>
        dsimp only
        cases e : s.tileArrivals core o with
        | some s1 => exact canon_next (hs.tileArrivals _ _ _ e)
        | none =>
          have h1 := hs.arrayStep core o f abase bbase present
          dsimp only
          cases (s.arrayStep core o f abase bbase present).tileOf core op with
          | none => exact canon_next h1
          | some o =>
            dsimp only
            cases o.todo with
            | cons va rest => exact canon_next (h1.fetchLine _ _ _)
            | nil => exact canon_next (h1.fetchTurn _ _ _ _ _ _)
      | _ => exact canon_next hs

theorem State.Canonical.tileDone (hs : s.Canonical) (core : Nat) (o : TileOp) : (s.tileDone core o).Canonical := by
  unfold State.tileDone
  exact ((hs.setCore _ _).finishOp _ _).startTiles _

theorem State.Canonical.accTargets (hs : s.Canonical) (o : TileOp) (lines : List Nat) : (s.accTargets o lines).1.Canonical := by
  unfold State.accTargets
  refine canonical_foldl_fst ?_ _ hs
  intro x x1 hs
  split
  split
  · split
    rename_i e
    split
    · exact canonical_of_eq e (hs.translate _ _ _)
    · exact canonical_of_eq e (hs.translate _ _ _)
    · split
      · exact canonical_of_eq e (hs.translate _ _ _)
      · split
        · split
          · exact canonical_of_eq e (hs.translate _ _ _)
          · exact canonical_of_eq e (hs.translate _ _ _)
        · exact canonical_of_eq e (hs.translate _ _ _)
  · exact hs

theorem State.Canonical.writeRows (hs : s.Canonical) (o : TileOp) (dst stride cvt : Nat) (words : Assoc Word) (lines : List (Nat × Nat)) :
    (s.writeRows o dst stride cvt words lines).Canonical := by
  unfold State.writeRows
  extract_lets rows times tw s1 s2
  have h1 : s1.Canonical := canonical_foldl (fun _ _ hs => ((hs.writeBack _ _ _).storeLine _ _ _ _).disown _ _) _ hs
  have h2 : s2.Canonical := h1.disown _ _
  exact canonical_ite (h2.gridOrders _ _) (h2.setGroup _ _)

theorem execTileOpComplete_canonical (hs : s.Canonical) (core op : Nat) : Canon (execTileOpComplete core op s) := by
  unfold execTileOpComplete
  cases s.tileOf core op with
  | none => exact canon_next hs
  | some o =>
    dsimp only
    cases s.team o.team with
    | none => exact canon_next hs
    | some y =>
      refine of_ite (canon_next hs) ?_
      cases o.kind with
      | mma f abase bbase present =>
        exact canon_next ((canonical_ite (canonical_ite hs (hs.correctTile _ _ _ _))
          ((canonical_ite hs (hs.correctTile _ _ _ _)).setTeam _ _)).tileDone _ _)
      | accz => exact canon_next ((hs.setTeam _ _).tileDone _ _)
      | accwr data c => exact canon_next ((hs.setTeam _ _).tileDone _ _)
      | accrd vd c => exact canon_next (((hs.correctTile _ _ _ _).setGroup _ _).tileDone _ _)
      | accst dst stride cvt =>
        refine of_ite (canon_next (hs.postAt _ _)) (of_ite (canon_next (hs.tileFault _ _ _ _)) ?_)
        cases (s.accTargets o (accLines o.live dst stride cvt)).2 with
        | page => exact canon_next (hs.accTargets _ _)
        | owned => exact canon_next ((hs.accTargets _ _).postAt _ _)
        | fault sub va => exact canon_next ((hs.accTargets _ _).tileFault _ _ _ _)
        | ok lines => exact canon_next ((((hs.accTargets _ _).correctTile _ _ _ _).writeRows _ _ _ _ _ _).tileDone _ _)

/-! ### Sys2Proof/Machine/Place.lean -/

theorem State.Canonical.createGroup (hs : s.Canonical) (tid core num : Nat) (role : Role) (pri : Nat) (pc : Va) (args : List Dword)
    (sp : Dword) (born : Nat) (after : List Nat) : (s.createGroup tid core num role pri pc args sp born after).Canonical := by
  unfold State.createGroup
  cases s.team tid with
  | none => exact hs
  | some t =>
    cases s.lowestContext core with
    | none => exact hs
    | some ctx =>
      cases cutRange (s.usedBlocks core) 1 with
      | none => exact hs
      | some b => exact (hs.putGroup _ _).congr

/-! ### Sys2Proof/Machine/Blocks.lean -/

theorem State.Canonical.cutGrant (hs : s.Canonical) (gid : Nat) (want : BitVec 3) : ∀ t, s.cutGrant gid want = some t → t.Canonical := by
  intro t e
  unfold State.cutGrant at e
  split at e
  · cases e
    exact hs
  · obtain ⟨_, _, rfl⟩ := Option.map_eq_some_iff.1 e
    exact hs.setGroup _ _

theorem State.Canonical.moveBlock (hs : s.Canonical) (core src dst : Nat) : (s.moveBlock core src dst).Canonical := by
  unfold State.moveBlock
  refine hs.mapGroups _ ?_
  intro x
  split
  · rfl
  · rfl

theorem State.Canonical.drawReserve (hs : s.Canonical) (g : Group) (n : Nat) : (s.drawReserve g n).Canonical := by
  unfold State.drawReserve
  exact hs.setTeam _ _

theorem State.Canonical.grantParked (hs : s.Canonical) (gid : Nat) (want : BitVec 3) : (s.grantParked gid want).Canonical := by
  unfold State.grantParked
  cases s.group gid with
  | none => exact hs
  | some g =>
    dsimp only
    split
    · rename_i e
      exact (hs.cutGrant _ _ _ e).setGroup _ _
    · split
      · exact (hs.setCore _ _).post _
      · exact hs.setCore _ _

theorem State.Canonical.endCopy (hs : s.Canonical) (core : Nat) : (s.endCopy core).Canonical := by
  unfold State.endCopy
  cases List.find? (fun m => decide (m.src < 128)) (s.core core).moving with
  | none => exact hs
  | some m => exact canonical_foldl (fun _ _ hs => hs.grantParked _ _) _ ((hs.setCore _ _).moveBlock _ _ _)

theorem State.Canonical.endCopies (hs : s.Canonical) (core n : Nat) : (s.endCopies core n).Canonical := by
  induction n generalizing s with
  | zero => exact hs
  | succ n ih =>
    unfold State.endCopies
    exact canonical_ite (ih (hs.endCopy _)) hs

theorem State.Canonical.watchDeadlock (hs : s.Canonical) (tid : Nat) : (s.watchDeadlock tid).Canonical := by
  unfold State.watchDeadlock
  exact canonical_ite (hs.postAt _ _) hs

theorem execXacq_canonical (hs : s.Canonical) (m : BitVec 3) : Canon (execXacq m s) := by
  unfold execXacq
  refine issue_canonical hs _ _ ?_
  intro x s hs
  cases s.team x.g.team with
  | none => exact hs
  | some y =>
    dsimp only
    refine of_ite (hs.setGroup _ _) (of_ite hs (of_ite hs ?_))
    refine of_ite ?_ ?_
    · split
      · rename_i e
        exact (hs.drawReserve _ _).cutGrant _ _ _ e
      · exact ((hs.drawReserve _ _).setGroup _ _).grantParked _ _
    · exact ((hs.setGroup _ _).setTeam _ _).watchDeadlock _

theorem canonical_getD {o : Option State} (hs : s.Canonical) (ho : ∀ t, o = some t → t.Canonical) : (o.getD s).Canonical := by
  cases o with
  | none => exact hs
  | some t => exact ho t rfl

theorem execXtry_canonical (hs : s.Canonical) (d : Reg) (m : BitVec 3) : Canon (execXtry d m s) := by
  unfold execXtry
  refine issue_canonical hs _ _ (fun x s hs => ?_)
  cases s.team x.g.team with
  | none => exact hs
  | some y =>
    dsimp only
    refine of_ite hs (of_ite (Ix.upd_canonical hs _ _) ?_)
    refine of_ite ?_ ?_
    · have h1 := hs.drawReserve x.g (blockCount (m &&& ~~~x.g.xheld))
      split
      · next e => exact Ix.upd_canonical (h1.cutGrant _ _ _ e) _ _
      · have h2 := h1.endCopies x.g.core (((s.drawReserve x.g (blockCount (m &&& ~~~x.g.xheld))).core x.g.core).moving.length + 1)
        split
        · next e => exact Ix.upd_canonical (h2.cutGrant _ _ _ e) _ _
        · split
          · exact Ix.upd_canonical (canonical_getD (h2.moveBlock _ _ _) ((h2.moveBlock _ _ _).cutGrant _ _)) _ _
          · exact Ix.upd_canonical (canonical_getD h2 (h2.cutGrant _ _)) _ _
    · exact Ix.upd_canonical hs _ _

theorem State.Canonical.grantLine (hs : s.Canonical) (tid core : Nat) (role : Role) (n : Nat) :
    (s.grantLine tid core role n).Canonical := by
  induction n generalizing s with
  | zero => exact hs
  | succ n ih =>
    unfold State.grantLine
    cases Option.map (fun t => t.reserve core role) (s.team tid) with
    | none => exact hs
    | some r =>
      dsimp only
      cases r.line with
      | nil => exact hs
      | cons x r => exact canonical_ite hs (ih ((hs.setTeam _ _).grantParked _ _))

theorem execXacqGrant_canonical (hs : s.Canonical) (tid core : Nat) (role : Role) : Canon (execXacqGrant tid core role s) := by
  unfold execXacqGrant
  cases s.team tid with
  | none => exact canon_next hs
  | some y => exact of_ite (canon_next hs) (canon_next (hs.grantLine _ _ _ _))

theorem execCompactorCopyDone_canonical (hs : s.Canonical) (core : Nat) : Canon (execCompactorCopyDone core s) := by
  unfold execCompactorCopyDone
  exact canon_next (hs.endCopy _)

theorem State.Canonical.registerError (hs : s.Canonical) (gid kind reg lane : Nat) (double : Bool) :
    (s.registerError gid kind reg lane double).Canonical := by
  unfold State.registerError
  exact hs.setGroup _ _

theorem State.Canonical.tileError (hs : s.Canonical) (tid tile word : Nat) (double : Bool) :
    (s.tileError tid tile word double).Canonical :=
  hs.setTeam _ _ (fun _ => by split_ifs <;> rfl)

theorem State.Canonical.scratchError (hs : s.Canonical) (tid off : Nat) (double : Bool) : (s.scratchError tid off double).Canonical :=
  hs.setTeam _ _ (fun _ => by split_ifs <;> rfl)

theorem execRegisterDeadlockDetection_canonical (hs : s.Canonical) (tid : Nat) : Canon (execRegisterDeadlockDetection tid s) := by
  unfold execRegisterDeadlockDetection
  refine of_ite ?_ ?_
  · cases s.firstParked tid with
    | none => exact canon_next hs
    | some gid => exact canon_next ((hs.setTeam _ _).takeTrap _ _)
  · exact canon_next hs

/-! ### Sys2Proof/Machine/Command.lean -/

theorem State.Canonical.reading (hs : s.Canonical) (c : Cmd) (l : List (Nat × Nat)) {next : State} (hnext : next.Canonical) :
    (s.reading c l next).Canonical :=
  canonical_ite (hs.postAt _ _) hnext

theorem State.Canonical.nextCommand (hs : s.Canonical) (fn : Nat) : (s.nextCommand fn).Canonical := by
  unfold State.nextCommand
  exact canonical_ite hs (canonical_ite (hs.postOnceAt _ _) ((((hs.hostRead _ _).hostRead _ _).setFunc _ _).post _))

theorem State.Canonical.complete (hs : s.Canonical) (c : Cmd) (st : Status) (result : Nat) : (s.complete c st result).Canonical := by
  unfold State.complete
  exact ((hs.hostWrite _ _).setFunc _ _).nextCommand _

theorem State.Canonical.command (hs : s.Canonical) (c : Cmd) (k : State → State) (hk : ∀ s, s.Canonical → (k s).Canonical) :
    Canon (s.command c k) := by
  unfold State.command
  refine of_ite (canon_next (hs.complete _ _ _)) ?_
  split
  · exact canon_next (hs.complete _ _ _)
  · exact of_ite (canon_next (hs.complete _ _ _)) (of_ite (canon_next (hs.complete _ _ _)) (canon_next (hk _ hs)))

theorem execUnknownCommand_canonical (hs : s.Canonical) (c : Cmd) : Canon (execUnknownCommand c s) := by
  unfold execUnknownCommand
  exact canon_next (hs.complete _ _ _)

theorem State.Canonical.postHeld (hs : s.Canonical) (fn n : Nat) : (s.postHeld fn n).Canonical := by
  induction n generalizing s with
  | zero => exact hs
  | succ n ih =>
    unfold State.postHeld
    dsimp only
    cases (s.func fn).heldEvents with
    | nil => exact hs
    | cons e rest => exact canonical_ite (ih ((hs.setFunc _ _).hostWrite _ _)) hs

theorem execEventRingRelease_canonical (hs : s.Canonical) (func n : Nat) : Canon (execEventRingRelease func n s) := by
  unfold execEventRingRelease
  exact canon_next ((hs.setFunc _ _).postHeld _ _)

/-! ### Sys2Proof/Machine/Scratch.lean -/

theorem Ix.scratchRead_canonical (hs : s.Canonical) (x : Ix) (a b : Reg) (z : Nat) : (Ix.scratchRead x s a b z).Canonical := by
  unfold Ix.scratchRead
  exact hs.correctScratch _ _ _

theorem Ix.scratch_canonical (hs : s.Canonical) (x : Ix) (a b : Reg) (z : Nat) (rd wr : Bool) (k : State → Team → Done)
    (hk : ∀ s t, s.Canonical → Memory.wf t.scratch = true → (k s t).Canonical) : (Ix.scratch x s a b z rd wr k).Canonical := by
  unfold Ix.scratch
  split
  · exact hs
  · next e =>
    split
    · exact hs
    · split
      · exact hs
      · exact hk _ _ (canonical_ite (Ix.scratchRead_canonical hs _ _ _ _) hs) (hs.team e)

theorem Ix.scratchLoad_canonical (hs : s.Canonical) (x : Ix) (d a b : Reg) (n : Nat) : (Ix.scratchLoad x s d a b n).Canonical :=
  Ix.scratch_canonical hs _ _ _ _ _ _ _ (fun _ _ hs _ => Ix.upd_canonical hs _ _)

theorem Ix.scratchStore_canonical (hs : s.Canonical) (x : Ix) (d a b : Reg) (n : Nat) : (Ix.scratchStore x s d a b n).Canonical := by
  unfold Ix.scratchStore
  refine Ix.scratch_canonical hs _ _ _ _ _ _ _ (fun _ _ hs _ => hs.setTeam' _ (fun t ht => ?_))
  exact foldl_inv (fun t : Team => Memory.wf t.scratch = true) _ (fun _ _ h => Team.wf_putScratch h _ _) _ _ ht

theorem Ix.wf_scratchSteps (x : Ix) (d a b : Reg) (f : Word → Word → Nat → Word) {t : Team} (ht : Memory.wf t.scratch = true) :
    Memory.wf (x.scratchSteps d a b f t).1.scratch = true :=
  foldl_inv (fun p : Team × List (Nat × Word) => Memory.wf p.1.scratch = true) _ (fun _ _ h => Team.wf_putScratch h _ _) _ _ ht

theorem Ix.scratchAtomic_canonical (hs : s.Canonical) (x : Ix) (d a b : Reg) (f : Word → Word → Nat → Word) :
    (Ix.scratchAtomic x s d a b f).Canonical := by
  unfold Ix.scratchAtomic
  refine Ix.scratch_canonical hs _ _ _ _ _ _ _ (fun _ _ hs ht => Ix.upd_canonical (hs.setTeam' _ (fun _ _ => ?_)) _ _)
  exact x.wf_scratchSteps d a b f ht

theorem Ix.barrier_canonical (hs : s.Canonical) (x : Ix) (a : Reg) (tag : Bool) (k : State → Nat → Team → Barrier → Done)
    (hk : ∀ s x1 x2 x3, s.Canonical → (k s x1 x2 x3).Canonical) : (Ix.barrier x s a tag k).Canonical := by
  unfold Ix.barrier
  cases s.team x.g.team with
  | none => exact hs
  | some y =>
    dsimp only
    exact of_ite hs (of_ite hs (of_ite hs (of_ite hs (hk _ _ _ _ (hs.correctScratch _ _ _)))))

theorem execBinit_canonical (hs : s.Canonical) (a b : Reg) : Canon (execBinit a b s) := by
  unfold execBinit
  refine issue_canonical hs _ _ (fun _ _ hs => Ix.barrier_canonical hs _ _ _ _ (fun s o _ _ hs => ?_))
  dsimp only
  exact of_ite hs (hs.putScratch _ o _ (fun _ => rfl))

theorem Ix.arrive_canonical (hs : s.Canonical) (x : Ix) (o n : Nat) (w : Barrier) : (Ix.arrive x s o n w).Canonical := by
  unfold Ix.arrive
  exact (hs.phaseOrders _ _ _ _).putBarrier _ _ _

theorem execBarr_canonical (hs : s.Canonical) (a : Reg) : Canon (execBarr a s) := by
  unfold execBarr
  refine issue_canonical hs _ _ (fun _ _ hs => Ix.barrier_canonical hs _ _ _ _ ?_)
  intro s x x2 x3 hs
  exact of_ite (Ix.upd_canonical hs _ _) (of_ite hs ((Ix.arrive_canonical hs _ _ _ _).waitOn _ _ _ _))

theorem execBarrtx_canonical (hs : s.Canonical) (a b : Reg) : Canon (execBarrtx a b s) := by
  unfold execBarrtx
  refine issue_canonical hs _ _ (fun _ _ hs => Ix.barrier_canonical hs _ _ _ _ ?_)
  intro s x x2 x3 hs
  dsimp only
  exact of_ite (Ix.upd_canonical hs _ _) (of_ite hs (of_ite hs (Ix.arrive_canonical hs _ _ _ _)))

theorem State.Canonical.readAt (hs : s.Canonical) (c : Xc) (time pa n : Nat) : (s.readAt c time pa n).1.Canonical := by
  unfold State.readAt
  exact ((hs.routeEngine _ _ _).setLine _ _).poisonRead _

theorem State.Canonical.engineRead (hs : s.Canonical) (c : Xc) (time va n : Nat) : (s.engineRead c time va n).1.Canonical := by
  unfold State.engineRead
  split
  rename_i e
  split
  · exact canonical_of_eq e (hs.translate _ _ _)
  · exact canonical_of_eq e (hs.translate _ _ _)
  · split
    · exact canonical_of_eq e (hs.translate _ _ _)
    · split
      · exact canonical_of_eq e (hs.translate _ _ _)
      · split
        rename_i e1
        exact canonical_of_eq e1 ((canonical_of_eq e (hs.translate _ _ _)).readAt _ _ _ _)

theorem State.Canonical.askLines (hs : s.Canonical) (c : Xc) (va n : Nat) : (s.askLines c va n).1.Canonical := by
  unfold State.askLines
  exact canonical_foldl (fun _ _ hs => canonical_ite hs (hs.routeEngine _ _ _)) _ hs

theorem State.Canonical.engineRange (hs : s.Canonical) (c : Xc) (time va n : Nat) : (s.engineRange c time va n).1.Canonical := by
  unfold State.engineRange
  split
  next e =>
  refine of_ite (P := fun r : State × EngRange => r.1.Canonical) (canonical_of_eq e (hs.askLines _ _ _)) (canonical_foldl_fst ?_ _ hs)
  rintro ⟨s, r⟩ p hs
  cases r with
  | ok data bad t =>
    have h := State.Canonical.engineRead hs c time p.1 p.2
    dsimp only at h ⊢
    generalize s.engineRead c time p.1 p.2 = q at h ⊢
    obtain ⟨s1, a⟩ := q
    cases a with
    | _ => exact h
  | _ => exact hs

theorem execCpgs_canonical (hs : s.Canonical) (d a b : Reg) : Canon (execCpgs d a b s) := by
  unfold execCpgs
  refine issue_canonical hs _ _ (fun x s hs => ?_)
  split
  · exact hs
  · extract_lets dst src w len keep bv bar barOff at_ y s1 s2 c s3 s4
    have h1 : s1.Canonical := canonical_ite (hs.correctScratch _ _ _) hs
    have h2 : s2.Canonical := canonical_ite h1 (h1.putScratch _ barOff _ (fun _ => rfl))
    have h3 : s3.Canonical := Ix.raise_canonical h2 _ _ _
    exact of_ite hs (of_ite hs (of_ite hs (of_ite hs (of_ite hs (of_ite hs (of_ite h1 (of_ite h1 (of_ite h1
      ((h3.congr : s4.Canonical).post _)))))))))

theorem State.Canonical.copyFault (hs : s.Canonical) (op : Nat) (c : Copy) (sub at_ : Nat) : (s.copyFault op c sub at_).Canonical := by
  unfold State.copyFault
  exact ((hs.raiseDeferred _ _).update).finishOp _ _

theorem State.Canonical.deliver (hs : s.Canonical) (gid tid op dst : Nat) (data : List Byte) (bar : Option Nat) (n t : Nat) :
    (s.deliver gid tid op dst data bar n t).Canonical := by
  unfold State.deliver
  have h : (s.setTeam tid (fun y => y.putScratch dst data)).Canonical := hs.putScratch tid dst data (fun _ => rfl)
  dsimp only
  split
  · exact canonical_ite (h.raiseDeferred _ _) ((h.correctScratch _ _ _).subtract _ _ _ _)
  · exact h

theorem execCopyChunkDelivery_canonical (hs : s.Canonical) (op : Nat) : Canon (execCopyChunkDelivery op s) := by
  unfold execCopyChunkDelivery
  cases s.copies.get op with
  | none => exact canon_next hs
  | some c =>
    dsimp only
    split
    · exact canon_next ((hs.engineRange _ _ _ _).update)
    · exact canon_next ((hs.engineRange _ _ _ _).copyFault _ _ _ _)
    · exact canon_next ((hs.engineRange _ _ _ _).copyFault _ _ _ _)
    · exact canon_next ((hs.engineRange _ _ _ _).postRef _ _)
    · exact canon_next ((hs.engineRange _ _ _ _).postAt _ _)
    · exact of_ite (canon_next ((hs.engineRange _ _ _ _).copyFault _ _ _ _)) (of_ite (canon_next
        ((hs.engineRange _ _ _ _).copyFault _ _ _ _)) (of_ite (canon_next
        ((((hs.engineRange _ _ _ _).deliver _ _ _ _ _ _ _ _).update).finishOp _ _)) (canon_next
        ((((hs.engineRange _ _ _ _).deliver _ _ _ _ _ _ _ _).update).post _))))

theorem execWaitc_canonical (hs : s.Canonical) (l st c : BitVec 5) (t : BitVec 6) : Canon (execWaitc l st c t s) := by
  unfold execWaitc
  refine issue_canonical hs _ _ ?_
  intro x s hs
  dsimp only
  exact of_ite trivial (of_ite (Ix.upd_canonical hs _ _) trivial)

theorem execWaitp_canonical (hs : s.Canonical) (a b : Reg) : Canon (execWaitp a b s) := by
  unfold execWaitp
  refine issue_canonical hs _ _ ?_
  intro x s hs
  dsimp only
  exact of_ite trivial (of_ite (Ix.upd_canonical hs _ _) trivial)

/-! ### Sys2Proof/Machine/Names.lean -/

theorem State.Canonical.queueOut (hs : s.Canonical) (p typ arg : Nat) (payload : List Byte) :
    (s.queueOut p typ arg payload).Canonical := by
  unfold State.queueOut
  exact canonical_ite ((hs.setPort _ _).postOnce _) hs

theorem State.Canonical.sendName (hs : s.Canonical) (p : Nat) (m : Interest ⊕ Answer) : (s.sendName p m).Canonical := by
  unfold State.sendName
  exact canonical_foldl (fun _ _ hs => hs.queueOut _ _ _ _) _ hs

theorem State.Canonical.sendDir (hs : s.Canonical) (d dir : Nat) (m : Interest ⊕ Answer) : (s.sendDir d dir m).Canonical := by
  unfold State.sendDir
  exact canonical_ite (hs.post _) (hs.sendName _ _)

theorem State.Canonical.dropSlot (hs : s.Canonical) (gid serial : Nat) : (s.dropSlot gid serial).Canonical := by
  unfold State.dropSlot
  exact hs.update

theorem State.Canonical.resolve (hs : s.Canonical) (gid tid : Nat) (t : Ticket) (status got time : Nat) :
    (s.resolve gid tid t status got time).Canonical := by
  unfold State.resolve
  dsimp only
  cases (s.dropSlot gid t.serial).group gid with
  | some x => exact ((hs.dropSlot _ _).setGroup _ _).finishOp _ _
  | none => exact (hs.dropSlot _ _).setTeam _ _

theorem State.Canonical.emptyDelivery (hs : s.Canonical) (gid tid : Nat) (t : Ticket) : (s.emptyDelivery gid tid t).Canonical := by
  unfold State.emptyDelivery
  exact hs.deliver _ _ _ _ _ _ _ _

theorem State.Canonical.answerTicket (hs : s.Canonical) (gid tid : Nat) (t : Ticket) (m : Answer) :
    (s.answerTicket gid tid t m).Canonical := by
  unfold State.answerTicket
  split
  · exact canonical_ite ((hs.emptyDelivery _ _ _).resolve _ _ _ _ _ _)
      ((canonical_ite (hs.deliver _ _ _ _ _ _ _ _) ((hs.deliver _ _ _ _ _ _ _ _).setTeam _ _)).resolve _ _ _ _ _ _)
  · exact (hs.raiseDeferred _ _).resolve _ _ _ _ _ _
  · exact (hs.emptyDelivery _ _ _).resolve _ _ _ _ _ _

theorem execNamedTileDelivery_canonical (hs : s.Canonical) (gid : Nat) (ticket : Word) (m : Answer) :
    Canon (execNamedTileDelivery gid ticket m s) := by
  unfold execNamedTileDelivery
  split
  · exact canon_next hs
  · exact of_ite (canon_next (hs.answerTicket _ _ _ _)) (canon_next hs)

theorem execTicketExpiry_canonical (hs : s.Canonical) (gid : Nat) (ticket : Word) : Canon (execTicketExpiry gid ticket s) := by
  unfold execTicketExpiry
  split
  · exact canon_next (canonical_ite (hs.dropSlot _ _) hs)
  · exact of_ite (canon_next ((hs.emptyDelivery _ _ _).resolve _ _ _ _ _ _)) (canon_next hs)

theorem State.Canonical.answerOne (hs : s.Canonical) (d : Nat) (who : Requester) (m : Answer) : (s.answerOne d who m).Canonical := by
  unfold State.answerOne
  cases who with
  | ticket gid t => exact hs.post _
  | upstream dir entry => exact hs.sendDir _ _ _

theorem State.Canonical.answerEntry (hs : s.Canonical) (d e : Nat) (m : Answer) : (s.answerEntry d e m).Canonical := by
  unfold State.answerEntry
  cases (s.die d).pit.get e with
  | none => exact hs
  | some p => exact canonical_foldl (fun _ _ hs => hs.answerOne _ _ _) _ (hs.setDie _ _)

theorem State.Canonical.testPending (hs : s.Canonical) (d func tensor : Nat) : (s.testPending d func tensor).Canonical := by
  unfold State.testPending
  refine canonical_foldl ?_ _ hs
  intro s x hs
  cases s.registryAnswer d x.2.key with
  | some m => exact hs.answerEntry _ _ _
  | none => exact hs

theorem State.Canonical.watchSlot (hs : s.Canonical) (d e slot : Nat) (who : Requester) (expiry : Option Nat) :
    (s.watchSlot d e slot who expiry).Canonical := by
  unfold State.watchSlot
  cases who with
  | ticket gid t => exact hs
  | upstream dir entry =>
    cases expiry with
    | none => exact hs
    | some k => exact hs.postRef _ _

theorem State.Canonical.forward1 (hs : s.Canonical) (d e : Nat) (k : NameKey) (expiry : Option Nat) (refresh : Bool) :
    ∀ t, s.forward1 d e k expiry refresh = some t → t.Canonical := by
  intro t h
  unfold State.forward1 at h
  split at h
  · cases h
  · cases h
    exact hs
  · split at h
    · cases h
    · cases h
      exact hs.sendDir _ _ _

theorem State.Canonical.countRetry (hs : s.Canonical) (gid serial : Nat) : (s.countRetry gid serial).Canonical := by
  unfold State.countRetry
  exact hs.setGroup _ _

theorem State.Canonical.newEntry (hs : s.Canonical) (m : Interest) (n : Nat) : (s.newEntry m n).Canonical := by
  unfold State.newEntry
  dsimp only
  cases (s.die m.die).pit.lowestFree 0 16384 with
  | none =>
    dsimp only
    cases m.who with
    | ticket gid t => exact (hs.countRetry _ _).postAt _ _
    | upstream dir entry => exact hs.answerOne _ _ _
  | some gid =>
    dsimp only
    split
    · exact hs.answerOne _ _ _
    · rename_i e
      exact (((hs.forward1 _ _ _ _ _ _ e).update).setDie _ _).watchSlot _ _ _ _ _

theorem State.Canonical.refreshEntry (hs : s.Canonical) (d e : Nat) (expiry : Option Nat) (joins : Bool) :
    (s.refreshEntry d e expiry joins).Canonical := by
  unfold State.refreshEntry
  cases (s.die d).pit.get e with
  | none => exact hs
  | some p => exact canonical_ite (canonical_getD ((hs.setDie _ _).answerEntry _ _ _) ((hs.setDie _ _).forward1 _ _ _ _ _)) hs

theorem State.Canonical.interest (hs : s.Canonical) (m : Interest) (n : Nat) : (s.interest m n).Canonical := by
  unfold State.interest
  extract_lets d live home
  refine canonical_ite hs (of_ite ?_ ?_)
  · split
    · exact hs
    · exact ((hs.setDie _ _).watchSlot _ _ _ _ _).refreshEntry _ _ _ _
  · cases if home then s.registryAnswer d m.key else none with
    | some a => exact hs.answerOne _ _ _
    | none =>
      refine canonical_ite (hs.answerOne _ _ _) ?_
      cases s.joinable d m.key with
      | some e => exact canonical_ite ((hs.setDie _ _).watchSlot _ _ _ _ _) (((hs.setDie _ _).watchSlot _ _ _ _ _).refreshEntry _ _ _ _)
      | none => exact hs.newEntry _ _

theorem execInterestArrival_canonical (hs : s.Canonical) (m : Interest) : Canon (execInterestArrival m s) := by
  unfold execInterestArrival
  exact canon_next (hs.interest _ _)

theorem execInterestRetry_canonical (hs : s.Canonical) (m : Interest) (n : Nat) : Canon (execInterestRetry m n s) := by
  unfold execInterestRetry
  cases m.who with
  | ticket gid t => exact canon_next (hs.interest _ _)
  | upstream dir entry =>
    dsimp only
    cases (s.die m.die).pit.get entry with
    | none => exact canon_next hs
    | some p =>
      refine of_ite (canon_next hs) ?_
      split
      · rename_i e
        exact canon_next (hs.forward1 _ _ _ _ _ _ e)
      · exact canon_next (hs.answerEntry _ _ _)

theorem execInterestSlotExpiry_canonical (hs : s.Canonical) (die entry slot : Nat) : Canon (execInterestSlotExpiry die entry slot s) := by
  unfold execInterestSlotExpiry
  cases (s.die die).pit.get entry with
  | none => exact canon_next hs
  | some p =>
    dsimp only
    rcases p.slots.get slot with _ | ⟨who, expiry⟩
    · exact canon_next hs
    · cases who with
      | ticket gid t => exact canon_next hs
      | upstream dir above =>
        cases expiry with
        | none => exact canon_next hs
        | some k => exact of_ite (canon_next hs) (canon_next (hs.setDie _ _))

theorem execTileAnswerArrival_canonical (hs : s.Canonical) (m : Answer) : Canon (execTileAnswerArrival m s) := by
  unfold execTileAnswerArrival
  cases (s.die m.die).pit.get m.entry with
  | none => exact canon_next hs
  | some p => exact of_ite (canon_next hs) (of_ite (canon_next ((hs.setDie _ _).postAt _ _)) (canon_next (hs.answerEntry _ _ _)))

theorem execNint_canonical (hs : s.Canonical) (d a b : Reg) : Canon (execNint d a b s) := by
  unfold execNint
  refine issue_canonical hs _ _ (fun x s hs => ?_)
  split
  · exact hs
  · extract_lets w0 w1 dw bv len o oAt bar bo y die key n k s1 s2 ticket s3
    have h1 : s1.Canonical := canonical_ite ((hs.correctScratch _ _ _).putScratch _ bo _ (fun _ => rfl)) hs
    have h2 : s2.Canonical := (Ix.raise_canonical h1 _ _ _).setGroup _ _
    have h3 : s3.Canonical := by
      unfold s3
      split
      · exact h2.postRef _ _
      · exact h2
    exact of_ite hs (of_ite hs (of_ite hs (of_ite hs (of_ite hs (of_ite hs (of_ite hs (of_ite hs (of_ite hs (of_ite hs (h3.post _))))))))))

theorem execNdrop_canonical (hs : s.Canonical) (a : Reg) : Canon (execNdrop a s) := by
  unfold execNdrop
  refine issue_canonical hs _ _ ?_
  intro x s hs
  cases x.g.ticketOf (BitVec.toNat (x.g.sr (BitVec.toNat a))) with
  | none => exact hs
  | some t => exact of_ite hs (of_ite trivial ((hs.emptyDelivery _ _ _).resolve _ _ _ _ _ _))

theorem execNstat_canonical (hs : s.Canonical) (d a : Reg) : Canon (execNstat d a s) := by
  unfold execNstat
  refine issue_canonical hs _ _ ?_
  intro x s hs
  cases x.g.ticketOf (BitVec.toNat (x.g.sr (BitVec.toNat a))) with
  | none => exact Ix.upd_canonical hs _ _
  | some t => exact Ix.upd_canonical hs _ _

theorem execNann_canonical (hs : s.Canonical) (a b : Reg) : Canon (execNann a b s) := by
  unfold execNann
  refine issue_canonical hs _ _ (fun x s hs => ?_)
  extract_lets w0 w1 src nw n d key
  refine of_ite hs (of_ite hs (of_ite hs (of_ite hs (of_ite hs (of_ite hs (of_ite hs (of_ite hs ?_)))))))
  refine Ix.release_canonical hs _ _ (fun s t hs => ?_)
  exact State.Canonical.post (State.Canonical.setGroup (hs.setDie _ _).update _ _) _

theorem State.Canonical.nannFault (hs : s.Canonical) (op : Nat) (n : Nann) (x : TrapInfo) : (s.nannFault op n x).Canonical := by
  unfold State.nannFault
  exact ((((hs.update.setDie _ _).testPending _ _ _).finishOp _ _).setGroup _ _).takeTrap _ _

theorem execNannCopyComplete_canonical (hs : s.Canonical) (op : Nat) : Canon (execNannCopyComplete op s) := by
  unfold execNannCopyComplete
  cases s.nanns.get op with
  | none => exact canon_next hs
  | some n =>
    dsimp only
    split
    · exact canon_next (hs.engineRange _ _ _ _)
    · exact canon_next ((hs.engineRange _ _ _ _).nannFault _ _ _)
    · exact canon_next ((hs.engineRange _ _ _ _).nannFault _ _ _)
    · exact canon_next ((hs.engineRange _ _ _ _).postRef _ _)
    · exact canon_next ((hs.engineRange _ _ _ _).postAt _ _)
    · exact canon_next ((((((hs.engineRange _ _ _ _).update).setDie _ _).testPending _ _ _).setGroup _ _).finishOp _ _)

theorem execNseal_canonical (hs : s.Canonical) (a : Reg) : Canon (execNseal a s) := by
  unfold execNseal
  refine issue_canonical hs _ _ ?_
  intro x s hs
  dsimp only
  exact of_ite hs (of_ite hs (of_ite hs ((hs.setDie _ _).testPending _ _ _)))

/-! ### Sys2Proof/Machine/Coll.lean -/

theorem State.Canonical.putColl (hs : s.Canonical) (cid : Nat) (c : Coll) : (s.putColl cid c).Canonical := by
  unfold State.putColl
  exact hs.update

theorem State.Canonical.linkEventTo (hs : s.Canonical) (fn port kind seq slot handle lost : Nat) :
    (s.linkEventTo fn port kind seq slot handle lost).Canonical := by
  unfold State.linkEventTo
  exact (hs.mcEvent _ _).postEvent _ _ _

theorem State.Canonical.linkEvent (hs : s.Canonical) (port kind seq slot handle lost : Nat) :
    (s.linkEvent port kind seq slot handle lost).Canonical := by
  unfold State.linkEvent
  exact hs.linkEventTo _ _ _ _ _ _ _

theorem State.Canonical.collFinish (hs : s.Canonical) (cid : Nat) (c : Coll) (codes : Nat → Nat) (status : Nat) :
    (s.collFinish cid c codes status).Canonical := by
  unfold State.collFinish
  exact (hs.update.setGroup _ _).finishOp _ _

theorem State.Canonical.freeBytes (hs : s.Canonical) (n : Nat) : (s.freeBytes n).1.Canonical := by
  unfold State.freeBytes
  exact hs.update

theorem State.Canonical.scribble (hs : s.Canonical) (c : Coll) (va n : Nat) : (s.scribble c va n).Canonical := by
  unfold State.scribble
  refine canonical_foldl ?_ _ hs
  intro s x hs
  split
  rename_i e
  split
  · split
    rename_i e1
    exact (canonical_of_eq e1 ((canonical_of_eq e (hs.translate _ _ _)).freeBytes _)).storeLine _ _ _ _
  · exact hs

theorem State.Canonical.scribbleAll (hs : s.Canonical) (c : Coll) : (s.scribbleAll c).Canonical := by
  unfold State.scribbleAll
  exact canonical_ite (canonical_ite ((hs.scribble _ _ _).scribble _ _ _) (hs.scribble _ _ _)) hs

theorem State.Canonical.abortColl (hs : s.Canonical) (cid seq status source : Nat) : (s.abortColl cid seq status source).Canonical := by
  unfold State.abortColl
  dsimp only
  refine of_ite hs ?_
  cases Option.filter (fun c => decide (c.seq = seq)) (s.colls.get cid) with
  | none => exact canonical_foldl (fun _ _ hs => canonical_ite hs (hs.queueOut _ _ _ _)) _ hs.update
  | some c =>
    exact ((canonical_foldl (fun _ _ hs => canonical_ite hs (hs.queueOut _ _ _ _)) _ hs.update).scribbleAll _).collFinish _ _ _ _

theorem State.Canonical.collFault (hs : s.Canonical) (cid : Nat) (c : Coll) (va done : Nat) : (s.collFault cid c va done).Canonical := by
  unfold State.collFault
  exact (hs.raiseDeferred _ _).abortColl _ _ _ _

theorem State.Canonical.collLater (hs : s.Canonical) (cid : Nat) (onRef : Option Nat) : (s.collLater cid onRef).Canonical := by
  unfold State.collLater
  refine of_ite hs ?_
  cases onRef with
  | some n => exact hs.postRef _ _
  | none => exact hs.postAt _ _

theorem State.Canonical.collLine (hs : s.Canonical) (cid : Nat) (c : Coll) (va : Nat) : (s.collLine cid c va).1.Canonical := by
  unfold State.collLine
  cases List.find? (fun x => decide (x.1 = va / 256)) c.kept with
  | some x => exact hs
  | none =>
    dsimp only
    have h := hs.translate (s.engineXc c.team c.gid c.op) (BitVec.ofNat 64 va) .read
    cases (s.translate (s.engineXc c.team c.gid c.op) (BitVec.ofNat 64 va) Acc.read).2 with
    | fault c info => exact h
    | wait n => exact h
    | ok pa typ =>
      dsimp only
      split
      · exact h
      · split
        · exact h.collLater _ _
        · split
          · exact (canonical_ite h (h.routeEngine _ _ _)).collLater cid none
          · split
            · exact State.Canonical.readAt h _ _ _ 256
            · exact State.Canonical.readAt h _ _ _ 256

theorem State.Canonical.collRead (hs : s.Canonical) (cid : Nat) (c : Coll) (va n : Nat) : (s.collRead cid c va n).1.Canonical := by
  unfold State.collRead
  refine canonical_foldl_fst ?_ _ hs
  intro x x1 hs
  split
  split
  · split
    rename_i e
    exact canonical_of_eq e (hs.collLine _ _ _)
  · exact hs

theorem State.Canonical.collWrite (hs : s.Canonical) (cid : Nat) (c : Coll) (va : Nat) (bytes : List Byte) :
    (s.collWrite cid c va bytes).1.Canonical := by
  unfold State.collWrite
  refine canonical_foldl_fst (fun q p hq => ?_) _ hs
  split
  split
  · split
    next u _ e =>
    have h : u.Canonical := canonical_of_eq e (State.Canonical.translate hq _ _ _)
    split
    · exact h
    · exact h
    · dsimp only
      split
      · exact h
      · split
        · exact h.collLater cid none
        · exact (((h.writeBackVia _ _ _ _).storeLine _ _ _ _).l1Drop _ _).setGroup _ _
  · exact hq

theorem State.Canonical.collForm (hs : s.Canonical) (cid : Nat) (c : Coll) : (s.collForm cid c).1.Canonical := by
  unfold State.collForm
  dsimp only
  cases (s.collRead cid c (c.codes + c.formed) 1).2.2 with
  | wait => exact (hs.collRead _ _ _ _).putColl _ _
  | fault va => exact (hs.collRead _ _ _ _).collFault _ _ _ _
  | ok b =>
    dsimp only
    split
    · exact ((hs.collRead _ _ _ _).collRead _ _ _ _).putColl _ _
    · exact ((hs.collRead _ _ _ _).collRead _ _ _ _).collFault _ _ _ _
    · exact (((hs.collRead _ _ _ _).collRead _ _ _ _).setGroup _ _).putColl _ _

theorem State.Canonical.sendDown (hs : s.Canonical) (cid : Nat) (c : Coll) (code block : Nat) (data : List Byte) :
    (s.sendDown cid c code block data).Canonical := by
  unfold State.sendDown
  exact canonical_foldl (fun _ _ hs => hs.queueOut _ _ _ _) _ hs

theorem State.Canonical.collReduce (hs : s.Canonical) (cid : Nat) (c : Coll) : (s.collReduce cid c).1.Canonical := by
  unfold State.collReduce
  cases c.ready (localRank :: s.collChildren cid) with
  | none => exact hs
  | some parts =>
    dsimp only
    split
    · exact hs.abortColl _ _ _ _
    · split
      · exact (canonical_ite ((hs.setGroup _ _).sendDown _ _ _ _ _) (hs.setGroup _ _)).putColl _ _
      · exact (hs.queueOut _ _ _ _).putColl _ _

theorem State.Canonical.collLand (hs : s.Canonical) (cid : Nat) (c : Coll) (dst : Bool) (va : Nat) (data : List Byte) :
    (s.collLand cid c dst va data).1.Canonical := by
  unfold State.collLand
  split
  rename_i e
  split
  · exact canonical_of_eq e (hs.collWrite _ _ _ _)
  · exact (canonical_of_eq e (hs.collWrite _ _ _ _)).collFault _ _ _ _
  · exact (canonical_of_eq e (hs.collWrite _ _ _ _)).putColl _ _

theorem State.Canonical.collRound (hs : s.Canonical) (cid : Nat) (c : Coll) : (s.collRound cid c).1.Canonical := by
  unfold State.collRound
  split
  · exact hs.collForm _ _
  · split
    · exact hs.collReduce _ _
    · split
      · cases c.results.get 0 with
        | some data => exact hs.collFinish _ _ _ _
        | none => exact hs
      · split
        · split
          · exact hs.collFinish _ _ _ _
          · cases c.nextLine with
            | some x => exact hs.collLand _ _ _ _ _
            | none => exact hs
        · split
          · exact hs
          · exact hs.collFinish _ _ _ _

theorem State.Canonical.advance (hs : s.Canonical) (cid n : Nat) : (s.advance cid n).Canonical := by
  induction n generalizing s with
  | zero => exact hs
  | succ n ih =>
    unfold State.advance
    cases s.colls.get cid with
    | none => exact hs
    | some c =>
      dsimp only
      split
      · next e => exact ih (canonical_of_eq e (hs.collRound _ _))
      · next e => exact canonical_of_eq e (hs.collRound _ _)

theorem State.Canonical.collGo (hs : s.Canonical) (cid : Nat) : (s.collGo cid).Canonical := by
  unfold State.collGo
  cases s.colls.get cid with
  | none => exact hs
  | some c => exact hs.advance _ _

theorem State.Canonical.collWake (hs : s.Canonical) (op : Nat) : (s.collWake op).Canonical := by
  unfold State.collWake
  cases List.find? (fun p => decide (p.2.op = op)) s.colls with
  | none => exact hs
  | some p => exact hs.collGo _

theorem State.Canonical.collTake (hs : s.Canonical) (cid : Nat) (c : Coll) (port : Nat) (b : List Byte) :
    (s.collTake cid c port b).Canonical := by
  unfold State.collTake
  exact canonical_ite (hs.abortColl _ _ _ _) (canonical_ite ((hs.putColl _ _).collGo _) (((hs.putColl _ _).sendDown _ _ _ _ _).collGo _))

theorem execCollFlitArrival_canonical (hs : s.Canonical) (port : Nat) (payload : List Byte) :
    Canon (execCollFlitArrival port payload s) := by
  unfold execCollFlitArrival
  dsimp only
  refine of_ite (canon_next (hs.linkEvent _ _ _ _ _ _)) (of_ite (canon_next (hs.abortColl _ _ _ _)) ?_)
  cases s.colls.get (payNum payload 2 1) with
  | some c => exact canon_next (hs.collTake _ _ _ _)
  | none => exact of_ite (canon_next hs) (canon_next hs.update)

theorem execCollectiveTimeout_canonical (hs : s.Canonical) (cid : Nat) : Canon (execCollectiveTimeout cid s) := by
  unfold execCollectiveTimeout
  cases s.colls.get cid with
  | none => exact canon_next hs
  | some c => exact of_ite (canon_next (hs.abortColl _ _ _ _)) (canon_next hs)

theorem Ix.collPend_canonical (hs : s.Canonical) (x : Ix) (c : Coll) : (Ix.collPend x s c).Canonical := by
  unfold Ix.collPend
  exact canonical_ite (hs.setGroup _ _) (canonical_ite hs (hs.setGroup _ _))

theorem State.Canonical.collStart (hs : s.Canonical) (cid : Nat) (c : Coll) : (s.collStart cid c).Canonical := by
  unfold State.collStart
  cases Option.filter (fun a => decide (a.1 = c.seq)) (s.aborts.get cid) with
  | some p => exact (hs.scribbleAll _).collFinish _ _ _ _
  | none =>
    extract_lets s0 s1 s2 early s3 s4
    have h0 : s0.Canonical := hs.putColl cid c
    have h1 : s1.Canonical := h0.congr
    have h2 : s2.Canonical := h1.postAt _ _
    have h3 : s3.Canonical := h2.congr
    refine canonical_ite (h2.abortColl _ _ _ _) (State.Canonical.collGo (canonical_foldl (fun s e hs => ?_) _ h3) _)
    cases s.colls.get cid with
    | some c => exact hs.collTake _ _ _ _
    | none => exact hs

theorem Ix.collective_canonical (hs : s.Canonical) (x : Ix) (sum : Bool) (d a : Reg) : (Ix.collective x s sum d a).Canonical := by
  unfold Ix.collective
  dsimp only
  refine of_ite (Ix.fail_canonical hs _ _) ?_
  refine Ix.read_canonical hs _ _ _ _ ?_
  intro s x hs
  exact of_ite hs (of_ite trivial ((Ix.collPend_canonical (hs.setGroup _ _) _ _).collStart _ _))

/-! ### Sys2Proof/Machine/Queues.lean -/

theorem State.Canonical.spillWrite (hs : s.Canonical) (q : Queue) (i : Nat) : (s.spillWrite q i).Canonical := by
  unfold State.spillWrite
  exact (hs.touch _).storeLine _ _ _ _

theorem State.Canonical.accepted (hs : s.Canonical) (k : Nat) (q : Queue) : (s.accepted k q).Canonical := by
  unfold State.accepted
  exact canonical_foldl (fun _ _ hs => hs.spillWrite _ _) _ (hs.setQueue _ _)

theorem State.Canonical.refill (hs : s.Canonical) (k : Nat) : (s.refill k).Canonical := by
  unfold State.refill
  cases s.queues.get k with
  | none => exact hs
  | some q => exact canonical_ite hs ((hs.setQueue _ _).post _)

theorem State.Canonical.takeRecords (hs : s.Canonical) (k : Nat) (q : Queue) (r : DeqReq) : (s.takeRecords k q r).Canonical := by
  unfold State.takeRecords
  exact (hs.setQueue _ _).post _

theorem State.Canonical.serve (hs : s.Canonical) (k n : Nat) : (s.serve k n).Canonical := by
  induction n generalizing s with
  | zero => exact hs
  | succ n ih =>
    unfold State.serve
    cases s.queues.get k with
    | none => exact hs
    | some q =>
      dsimp only
      cases q.waiting with
      | nil => exact hs
      | cons r tail => exact canonical_ite hs (ih (hs.takeRecords _ _ _))

theorem State.Canonical.watchDrain (hs : s.Canonical) (k : Nat) : (s.watchDrain k).Canonical := by
  unfold State.watchDrain
  exact canonical_ite (canonical_foldl (fun _ _ hs => hs.postOnce _) _ hs) hs

theorem State.Canonical.settleQueue (hs : s.Canonical) (k : Nat) : (s.settleQueue k).Canonical := by
  unfold State.settleQueue
  exact ((hs.serve _ _).refill _).watchDrain _

theorem State.Canonical.seal (hs : s.Canonical) (k t : Nat) : (s.seal k t).Canonical := by
  unfold State.seal
  exact (hs.setQueue _ _).settleQueue _

theorem Ix.queue_canonical (hs : s.Canonical) (x : Ix) (a : Reg) (k : Nat → Queue → Done) (hk : ∀ x0 x1, (k x0 x1).Canonical) :
    (Ix.queue x s a k).Canonical := by
  unfold Ix.queue
  split
  · exact hs
  · exact hk _ _

theorem Ix.enq_canonical (hs : s.Canonical) (x : Ix) (k : Nat) (d : Reg) (words : Nat → List Word) :
    (Ix.enq x s k d words).Canonical := by
  unfold Ix.enq
  exact of_ite (((Ix.raise_canonical hs _ _ _).setGroup _ _).finishOp _ _) (Ix.release_canonical hs _ _ (fun _ _ hs =>
    ((Ix.raise_canonical hs _ _ _).setGroup _ _).post _))

theorem execQenqm_canonical (hs : s.Canonical) (d a b : Reg) : Canon (execQenqm d a b s) := by
  unfold execQenqm
  refine issue_canonical hs _ _ (fun _ _ hs => Ix.queue_canonical hs _ _ _ ?_)
  intro x x1
  split
  · exact hs
  · dsimp only
    split
    · exact hs
    · exact Ix.enq_canonical (hs.correctScratch _ _ _) _ _ _ _

theorem execQueueEnqueueStep_canonical (hs : s.Canonical) (r : EnqReq) : Canon (execQueueEnqueueStep r s) := by
  unfold execQueueEnqueueStep
  dsimp only
  refine of_ite (canon_next (hs.post _)) ?_
  cases s.queues.get r.queue with
  | none => exact canon_next (hs.post _)
  | some q => exact canon_next (((hs.accepted _ _).settleQueue _).post _)

theorem Ix.deq_canonical (hs : s.Canonical) (x : Ix) (k : Nat) (a b : Reg) (dest : DeqDest) : (Ix.deq x s k a b dest).Canonical := by
  unfold Ix.deq
  exact of_ite ((Ix.raise_canonical hs _ _ _).finishOp _ _) (((Ix.raise_canonical hs _ _ _).setGroup _ _).post _)

theorem execQdeqm_canonical (hs : s.Canonical) (d a b : Reg) : Canon (execQdeqm d a b s) := by
  unfold execQdeqm
  refine issue_canonical hs _ _ (fun _ _ hs => Ix.queue_canonical hs _ _ _ ?_)
  intro x x1
  split
  · exact hs
  · dsimp only
    split
    · exact hs
    · exact Ix.deq_canonical hs _ _ _ _ _

theorem execQueueDequeueStep_canonical (hs : s.Canonical) (r : DeqReq) : Canon (execQueueDequeueStep r s) := by
  unfold execQueueDequeueStep
  cases s.queues.get r.queue with
  | none => exact canon_next (hs.post _)
  | some q => exact of_ite (canon_next (hs.setQueue _ _)) (canon_next ((hs.takeRecords _ _ _).settleQueue _))

theorem Team.wf_putRecord {t : Team} (h : Memory.wf t.scratch = true) (off : Nat) (words : List Word) (bad : Bool) :
    Memory.wf (t.putRecord off words bad).scratch = true := by
  unfold Team.putRecord
  dsimp only
  split
  · exact h
  · split
    · exact Team.wf_putScratch h _ _
    · exact Team.wf_putScratch h _ _

theorem execQueueReply_canonical (hs : s.Canonical) (r : QReply) : Canon (execQueueReply r s) := by
  unfold execQueueReply
  cases r with
  | enq => exact canon_next ((hs.setGroup _ _).finishOp _ _)
  | deq =>
    dsimp only
    split
    · exact canon_next (hs.finishOp _ _)
    · refine canon_next ((State.Canonical.setGroup ?_ _ _).finishOp _ _)
      split
      · exact hs.setGroup _ _
      · refine hs.setTeam' _ (fun t ht => ?_)
        exact foldl_inv (fun t : Team => Memory.wf t.scratch = true) _ (fun _ _ h => Team.wf_putRecord h _ _ _) _ _ ht

theorem State.Canonical.refillReads (hs : s.Canonical) (q : Queue) (n : Nat) : (s.refillReads q n).Canonical := by
  unfold State.refillReads
  exact canonical_foldl (fun _ _ hs => canonical_ite (((hs.touch _).setLine _ _).poisonEvent _) ((hs.touch _).setLine _ _)) _ hs

theorem execSpillRefillLanding_canonical (hs : s.Canonical) (queue n : Nat) : Canon (execSpillRefillLanding queue n s) := by
  unfold execSpillRefillLanding
  cases s.queues.get queue with
  | none => exact canon_next hs
  | some q => exact canon_next (((hs.refillReads _ _).setQueue _ _).settleQueue _)

theorem Ix.queueRead_canonical (hs : s.Canonical) (x : Ix) (d : Reg) (v : Nat) : (Ix.queueRead x s d v).Canonical := by
  unfold Ix.queueRead
  exact (hs.setGroup _ _).post _

theorem execQseal_canonical (hs : s.Canonical) (a : Reg) : Canon (execQseal a s) := by
  unfold execQseal
  refine issue_canonical hs _ _ (fun _ _ hs => Ix.queue_canonical hs _ _ _ ?_)
  intro x x1
  exact of_ite trivial (of_ite hs (Ix.release_canonical hs _ _ (fun _ _ hs => hs.seal _ _)))

/-! ### Sys2Proof/Machine/Links.lean -/

theorem State.Canonical.retryTimer (hs : s.Canonical) (p : Nat) : (s.retryTimer p).Canonical := by
  unfold State.retryTimer
  exact canonical_ite hs (hs.postRef _ _)

theorem State.Canonical.formFlit (hs : s.Canonical) (p typ arg : Nat) (payload : List Byte) :
    (s.formFlit p typ arg payload).Canonical := by
  unfold State.formFlit
  exact canonical_ite (canonical_ite ((hs.setPort _ _).linkEvent _ _ _ _ _ _) (hs.setPort _ _))
    ((canonical_ite ((hs.setPort _ _).linkEvent _ _ _ _ _ _) (hs.setPort _ _)).retryTimer _)

theorem State.Canonical.ackSoon (hs : s.Canonical) (p : Nat) : (s.ackSoon p).Canonical := by
  unfold State.ackSoon
  exact canonical_ite hs (hs.postRef _ _)

theorem State.Canonical.sendAck (hs : s.Canonical) (p : Nat) (nak : Bool) : (s.sendAck p nak).Canonical := by
  unfold State.sendAck
  exact canonical_ite ((hs.setPort _ _).ackSoon _) ((hs.formFlit _ _ _ _).setPort _ _)

theorem execAckSend_canonical (hs : s.Canonical) (port : Nat) : Canon (execAckSend port s) := by
  unfold execAckSend
  dsimp only
  exact of_ite (canon_next hs) (canon_next (hs.sendAck _ _))

theorem State.Canonical.resend (hs : s.Canonical) (p : Nat) : (s.resend p).Canonical := by
  unfold State.resend
  exact hs.setPort _ _

theorem State.Canonical.collsGo (hs : s.Canonical) : s.collsGo.Canonical := by
  unfold State.collsGo
  exact canonical_foldl (fun _ _ hs => hs.collGo _) _ hs

theorem State.Canonical.acked (hs : s.Canonical) (p : Nat) (f : Flit) : (s.acked p f).Canonical := by
  unfold State.acked
  exact (canonical_ite ((hs.setPort _ _).resend _) (hs.setPort _ _)).collsGo

theorem State.Canonical.ackIn (hs : s.Canonical) (p : Nat) (f : Flit) (tagOk : Bool) : (s.ackIn p f tagOk).Canonical := by
  unfold State.ackIn
  exact canonical_ite hs (canonical_ite (hs.linkEvent _ _ _ _ _ _) (hs.acked _ _))

theorem State.Canonical.creditDue (hs : s.Canonical) (p : Nat) : (s.creditDue p).Canonical := by
  unfold State.creditDue
  exact (hs.setPort _ _).ackSoon _

theorem State.Canonical.landHeld (hs : s.Canonical) (p k n : Nat) : (s.landHeld p k n).Canonical := by
  induction n generalizing s with
  | zero => exact hs
  | succ n ih =>
    unfold State.landHeld
    cases List.find? (fun h => decide (h.1 = k)) (s.port p).heldRecs with
    | none => exact hs
    | some h =>
      dsimp only
      cases s.queues.get k with
      | none => exact ih ((hs.setPort _ _).creditDue _)
      | some q =>
        have h := fun f q => ((hs.setPort p f).accepted k q).settleQueue k
        exact canonical_ite (ih ((h _ _).creditDue _)) (h _ _)

theorem State.Canonical.retryLanding (hs : s.Canonical) (p : Nat) : (s.retryLanding p).Canonical := by
  unfold State.retryLanding
  exact canonical_ite hs (hs.postAt _ _)

theorem State.Canonical.landUnit (hs : s.Canonical) (p k : Nat) (recs : List (List Word)) : (s.landUnit p k recs).Canonical := by
  unfold State.landUnit
  exact (canonical_ite (hs.setPort _ _) ((hs.setPort _ _).landHeld _ _ _)).retryLanding _

theorem execRecLandingRetry_canonical (hs : s.Canonical) (port : Nat) : Canon (execRecLandingRetry port s) := by
  unfold execRecLandingRetry
  exact canon_next ((canonical_foldl (fun _ _ hs => hs.landHeld _ _ _) _ hs).retryLanding _)

theorem State.Canonical.recIn (hs : s.Canonical) (p : Nat) (f : Flit) : (s.recIn p f).Canonical := by
  unfold State.recIn
  dsimp only
  split
  · exact canonical_ite hs ((hs.linkEvent _ _ _ _ _ _).creditDue _)
  · refine of_ite ?_ ?_
    · refine of_ite ?_ ?_
      · split
        · exact canonical_ite ((hs.setPort _ _).landUnit _ _ _) (hs.setPort _ _)
        · exact hs
      · exact hs.setPort _ _
    · exact hs.landUnit _ _ _

theorem State.Canonical.portDown (hs : s.Canonical) (p seq slot : Nat) : (s.portDown p seq slot).Canonical := by
  unfold State.portDown
  refine canonical_foldl (fun _ _ hs => canonical_ite (hs.abortColl _ _ _ _) hs) _
    (canonical_foldl (fun _ _ hs => hs.linkEventTo _ _ _ _ _ _ _) _ (State.Canonical.linkEvent ?_ _ _ _ _ _ _))
  cases (s.port p).half with
  | some x => exact (hs.setPort _ _).settleQueue _
  | none => exact hs.setPort _ _

theorem State.Canonical.nameIn (hs : s.Canonical) (p : Nat) (f : Flit) : (s.nameIn p f).Canonical := by
  unfold State.nameIn
  dsimp only
  cases Config.nameMessage ((s.port p).names ++ [f.payload]) with
  | none => exact hs.setPort _ _
  | some m =>
    dsimp only
    cases m with
    | inl i => exact (hs.setPort _ _).post _
    | inr a => exact (hs.setPort _ _).post _

theorem State.Canonical.consume (hs : s.Canonical) (p : Nat) (f : Flit) : (s.consume p f).Canonical := by
  unfold State.consume
  refine of_ite (hs.linkEvent _ _ _ _ _ _) ?_
  split
  · exact hs.recIn _ _
  · exact hs.nameIn _ _
  · exact hs.post _
  · exact hs.setPort _ _
  · exact hs.linkEvent _ _ _ _ _ _

theorem State.Canonical.flitIn (hs : s.Canonical) (p : Nat) (f : Flit) (tagOk : Bool) : (s.flitIn p f tagOk).Canonical := by
  unfold State.flitIn
  extract_lets x s1 s2 s3
  have h1 : s1.Canonical := (hs.setPort _ _).consume _ _
  have h2 : s2.Canonical := canonical_ite (h1.postOnce _) h1
  have h3 : s3.Canonical := hs.setPort _ _
  exact canonical_ite hs (canonical_ite (canonical_ite (h2.ackSoon _) (h2.sendAck _ _))
    (canonical_ite (h3.sendAck _ _) (h3.portDown _ _ _)))

theorem State.Canonical.receive (hs : s.Canonical) (p : Nat) (b : List Byte) : (s.receive p b).Canonical := by
  unfold State.receive
  exact canonical_ite (hs.ackIn _ _ _) (hs.flitIn _ _ _)

theorem execFlitReceive_canonical (hs : s.Canonical) (port : Nat) (flit tag : List Byte) : Canon (execFlitReceive port flit tag s) := by
  unfold execFlitReceive
  exact canon_next (hs.receive _ _)

theorem execAckReceive_canonical (hs : s.Canonical) (port : Nat) (flit tag : List Byte) : Canon (execAckReceive port flit tag s) := by
  unfold execAckReceive
  exact canon_next (hs.receive _ _)

theorem execRetryTimeout_canonical (hs : s.Canonical) (port : Nat) : Canon (execRetryTimeout port s) := by
  unfold execRetryTimeout
  dsimp only
  exact of_ite (canon_next hs) (of_ite (canon_next (hs.postRef _ _)) (canon_next ((hs.resend _).retryTimer _)))

theorem execKeySwitchover_canonical (hs : s.Canonical) (port : Nat) : Canon (execKeySwitchover port s) := by
  unfold execKeySwitchover
  dsimp only
  exact of_ite (canon_next ((hs.formFlit _ _ _ _).setPort _ _)) (canon_next hs)

theorem execKeySlotRetire_canonical (hs : s.Canonical) (port : Nat) : Canon (execKeySlotRetire port s) := by
  unfold execKeySlotRetire
  exact of_ite (canon_next (hs.setPort _ _)) (canon_next hs)

theorem execLinkKeyManagement_canonical (hs : s.Canonical) (port dir slot linkid key : Nat) :
    Canon (execLinkKeyManagement port dir slot linkid key s) := by
  unfold execLinkKeyManagement
  refine of_ite (canon_next hs) ?_
  cases (s.port port).install (dir % 2) (slot % 2) linkid key with
  | some x => exact canon_next (hs.setPort _ _)
  | none => exact canon_next hs

theorem State.Canonical.forwardUnit (hs : s.Canonical) (p k : Nat) (f : Forward) : (s.forwardUnit p k f).Canonical := by
  unfold State.forwardUnit
  cases s.queues.get f.part with
  | none => exact hs
  | some q =>
    exact canonical_ite hs (canonical_foldl (fun _ _ hs => hs.formFlit _ _ _ _) _ (((hs.setQueue _ _).settleQueue _).setPort _ _))

theorem State.Canonical.linkCycle (hs : s.Canonical) (p : Nat) : (s.linkCycle p).Canonical := by
  unfold State.linkCycle
  split
  · exact canonical_ite ((hs.setPort _ _).formFlit _ _ _ _) hs
  · dsimp only
    refine of_ite hs ?_
    cases s.bestForward p s.tick with
    | some f => exact hs.forwardUnit _ _ _
    | none => exact hs

theorem execPortForwardDecision_canonical (hs : s.Canonical) (port : Nat) : Canon (execPortForwardDecision port s) := by
  unfold execPortForwardDecision
  exact of_ite (canon_next hs) (canon_next ((canonical_ite (hs.linkCycle _) hs).postRef _ _))

/-! ### Sys2Proof/Machine/Control.lean -/

theorem execBr_canonical (hs : s.Canonical) (u : Bool) (pred : BitVec 4) (sense : Bool) (off : BitVec 15) :
    Canon (execBr u pred sense off s) := by
  unfold execBr
  refine issue_canonical hs _ _ ?_
  intro x s hs
  split
  · exact hs
  · exact hs
  · exact hs

theorem execBrp_canonical (hs : s.Canonical) (u : Bool) (pred : BitVec 4) (sense : Bool) (off : BitVec 15) :
    Canon (execBrp u pred sense off s) := by
  unfold execBrp
  refine issue_canonical hs _ _ ?_
  intro x s hs
  split
  · exact hs
  · exact hs
  · exact hs

theorem execBrexz_canonical (hs : s.Canonical) (off : BitVec 15) : Canon (execBrexz off s) := by
  unfold execBrexz
  refine issue_canonical hs _ _ ?_
  intro x s hs
  exact of_ite hs hs

theorem execCall_canonical (hs : s.Canonical) (u : Bool) (pred : BitVec 4) (sense : Bool) (off : BitVec 15) :
    Canon (execCall u pred sense off s) := by
  unfold execCall
  refine issue_canonical hs _ _ ?_
  intro x s hs
  split
  · exact hs
  · exact hs.setGroup _ _
  · exact hs

theorem execIfp_canonical (hs : s.Canonical) (u : Bool) (pred : BitVec 4) (sense : Bool) (off : BitVec 15) :
    Canon (execIfp u pred sense off s) := by
  unfold execIfp
  refine issue_canonical hs _ _ ?_
  intro x s hs
  dsimp only
  exact of_ite hs (of_ite hs (of_ite (hs.setGroup _ _) (hs.setGroup _ _)))

theorem execElsep_canonical (hs : s.Canonical) (off : BitVec 15) : Canon (execElsep off s) := by
  unfold execElsep
  refine issue_canonical hs _ _ ?_
  intro x s hs
  cases x.g.stack with
  | nil => exact hs
  | cons e r =>
    dsimp only
    exact of_ite (hs.setGroup _ _) (hs.setGroup _ _)

theorem execEndif_canonical (hs : s.Canonical) : Canon (execEndif s) := by
  unfold execEndif
  refine issue_canonical hs _ _ ?_
  intro x s hs
  cases x.g.stack with
  | nil => exact hs
  | cons e r => exact Ix.upd_canonical hs _ _

theorem State.Canonical.spawn (hs : s.Canonical) (x : Ix) (d a b : Reg) (time : Nat) : (s.spawn x d a b time).Canonical := by
  unfold State.spawn
  cases s.lowestNumber x.g.team with
  | none => exact hs
  | some gid => exact (hs.createGroup _ _ _ _ _ _ _ _ _ _).setGroup _ _

theorem execSpawn_canonical (hs : s.Canonical) (d a b : Reg) : Canon (execSpawn d a b s) := by
  unfold execSpawn
  refine issue_canonical hs _ _ ?_
  intro x s hs
  exact of_ite (Ix.release_canonical hs _ _ (fun _ _ hs => hs.spawn _ _ _ _ _)) (Ix.upd_canonical hs _ _)

theorem execSpawnw_canonical (hs : s.Canonical) (d a b : Reg) : Canon (execSpawnw d a b s) := by
  unfold execSpawnw
  refine issue_canonical hs _ _ ?_
  intro x s hs
  exact of_ite (Ix.release_canonical hs _ _ (fun _ _ hs => hs.spawn _ _ _ _ _)) trivial

theorem execExit_canonical (hs : s.Canonical) : Canon (execExit s) := by
  unfold execExit
  refine issue_canonical hs _ _ ?_
  intro x s hs
  exact of_ite trivial (canonical_ite ((((hs.flushGroup _ _).removeGroup _).watchDeadlock _).post _)
    (((hs.flushGroup _ _).removeGroup _).watchDeadlock _))

theorem execSleep_canonical (hs : s.Canonical) (k : BitVec 14) : Canon (execSleep k s) := by
  unfold execSleep
  refine issue_canonical hs _ _ ?_
  intro x s hs
  exact of_ite hs (((hs.leaveActive _).setGroup _ _).postAt _ _)

theorem execLnch_canonical (hs : s.Canonical) (d a b : Reg) : Canon (execLnch d a b s) := by
  unfold execLnch
  refine issue_canonical hs _ _ ?_
  intro x s hs
  dsimp only
  refine of_ite (Ix.fail_canonical hs _ _) ?_
  refine Ix.read_canonical hs _ _ _ _ ?_
  intro s x hs
  split
  · exact hs
  · refine of_ite hs ?_
    split
    · exact Ix.upd_canonical hs _ _
    · exact Ix.release_canonical hs _ _ (fun _ _ hs => Ix.upd_canonical (hs.setDie _ _) _ _)

/-! ### Sys2Proof/Machine/Pool.lean -/

theorem State.Canonical.ownPool (hs : s.Canonical) (c : Xc) (va n : Nat) : (s.ownPool c va n).1.Canonical := by
  unfold State.ownPool
  refine canonical_foldl_fst ?_ _ hs
  intro x x1 hs
  split
  split
  rename_i e
  split
  · split
    · exact canonical_of_eq e (hs.translate _ _ _)
    · exact hs
  · exact hs

theorem State.Canonical.withPoolOps (hs : s.Canonical) (l : Assoc PoolOp) : { s with poolOps := l }.Canonical := hs.congr

theorem Ix.nearMemory_canonical (hs : s.Canonical) (x : Ix) (kind : Nat) (d a : Reg) : (Ix.nearMemory x s kind d a).Canonical := by
  unfold Ix.nearMemory
  dsimp only
  refine of_ite (Ix.fail_canonical hs _ _) ?_
  refine Ix.read_canonical hs _ _ _ _ (fun s b hs => ?_)
  refine of_ite hs (of_ite hs ?_)
  refine State.Canonical.post (State.Canonical.withPoolOps (State.Canonical.setGroup
    (canonical_foldl (fun _ _ hs => (hs.setLine _ _).l1Drop _ _) _ ?_) _ _) _) _
  split
  · exact hs.ownPool _ _ _
  · exact hs

theorem State.Canonical.poolEnd (hs : s.Canonical) (op : Nat) (p : PoolOp) (val : Dword) : (s.poolEnd op p val).Canonical := by
  unfold State.poolEnd
  exact (((hs.disown _ _).update).setGroup _ _).finishOp _ _

theorem State.Canonical.poolFault (hs : s.Canonical) (op : Nat) (p : PoolOp) (sub va : Nat) : (s.poolFault op p sub va).Canonical := by
  unfold State.poolFault
  exact (hs.raiseDeferred _ _).poolEnd _ _ _

theorem State.Canonical.poolPlaces (hs : s.Canonical) (op : Nat) (p : PoolOp) (acc : Acc) (unit : Option Nat) (va n : Nat) :
    (s.poolPlaces op p acc unit va n).1.Canonical := by
  unfold State.poolPlaces
  refine canonical_foldl_fst ?_ _ hs
  intro x x1 hs
  split
  split
  · split
    rename_i e
    split
    · exact canonical_of_eq e (hs.translate _ _ _)
    · exact canonical_of_eq e (hs.translate _ _ _)
    · split
      · exact canonical_of_eq e (hs.translate _ _ _)
      · split
        · exact canonical_of_eq e (hs.translate _ _ _)
        · exact canonical_of_eq e (hs.translate _ _ _)
  · exact hs

theorem State.Canonical.poolRead (hs : s.Canonical) (op : Nat) (p : PoolOp) (l : List (Nat × Nat)) : (s.poolRead op p l).1.Canonical := by
  unfold State.poolRead
  refine canonical_foldl_fst ?_ _ hs
  intro x x1 hs
  split
  split
  rename_i e
  exact canonical_of_eq e (hs.readAt _ _ _ _)

theorem State.Canonical.poolSource (hs : s.Canonical) (op : Nat) (p : PoolOp) (va : Nat) (l : List (Nat × Nat)) :
    (s.poolSource op p va l).1.Canonical := by
  unfold State.poolSource
  refine canonical_foldl_fst (p := (s, p, [], false)) (fun r q hr => ?_) _ hs
  obtain ⟨s, p, data, bad⟩ := r
  dsimp only
  cases Option.filter (fun k => decide (k.1 = q.1.1 / 256)) p.kept with
  | some x => exact hr
  | none => exact State.Canonical.readAt hr _ _ _ 256

theorem State.Canonical.ordered (hs : s.Canonical) (p : PoolOp) (t : Nat) : (s.ordered p t).Canonical := by
  unfold State.ordered
  exact canonical_ite hs (hs.gridOrders _ _)

theorem State.Canonical.poolWrite (hs : s.Canonical) (op : Nat) (p : PoolOp) (pa : Nat) (data : List Byte) :
    (s.poolWrite op p pa data).1.Canonical := by
  unfold State.poolWrite
  exact ((((hs.writeBackVia _ _ _ _).storeLine _ _ _ _).disown _ _).ordered _ _).setGroup _ _

theorem State.Canonical.poolLine (hs : s.Canonical) (op : Nat) (p : PoolOp) : (s.poolLine op p).Canonical := by
  unfold State.poolLine
  extract_lets va n wait
  have hwait : ∀ s, s.Canonical → (wait s).Canonical := fun _ hs => hs.withPoolOps _
  clear_value wait
  split
  next s1 _ e1 =>
  have h1 : s1.Canonical := canonical_of_eq e1 (hs.poolPlaces _ _ _ _ _ _)
  split
  · exact hwait _ h1
  · exact h1.poolFault _ _ _ _
  · extract_lets pa unit
    split
    next s2 _ e2 =>
    have h2 : s2.Canonical := canonical_of_eq e2 (canonical_ite_fst (h1.poolPlaces _ _ _ _ _ _) h1)
    split
    · exact hwait _ h2
    · exact h2.poolFault _ _ _ _
    · refine of_ite (h2.postAt _ _) ?_
      split
      next s3 _ _ e3 =>
      have h3 : s3.Canonical := canonical_of_eq e3 (canonical_ite_fst h2 (h2.poolRead _ _ _))
      split
      next s4 _ _ _ e4 =>
      have h4 : s4.Canonical := canonical_of_eq e4 (h3.poolSource _ _ _ _)
      split
      · exact h4.poolFault _ _ _ _
      · exact h4.poolFault _ _ _ _
      · split
        next s5 _ e5 =>
        have h5 : s5.Canonical :=
          canonical_of_eq e5 (canonical_ite_fst (h4.poolWrite _ _ _ _) (canonical_ite_fst (h4.poolWrite _ _ _ _) h4))
        dsimp only
        split
        · exact h5.poolEnd _ _ _
        · exact of_ite (h5.poolEnd _ _ _) ((h5.withPoolOps _).post _)

theorem execPoolOpLine_canonical (hs : s.Canonical) (op : Nat) : Canon (execPoolOpLine op s) := by
  unfold execPoolOpLine
  cases s.poolOps.get op with
  | none => exact canon_next hs
  | some p => exact canon_next (hs.poolLine _ _)

theorem execSnopen_canonical (hs : s.Canonical) (d a : Reg) : Canon (execSnopen d a s) := by
  unfold execSnopen
  refine issue_canonical hs _ _ ?_
  intro x s hs
  dsimp only
  exact of_ite hs (of_ite (((Ix.raise_canonical hs _ _ _).setGroup _ _).finishOp _ _)
    (((Ix.raise_canonical hs.update _ _ _).setGroup _ _).finishOp _ _))

theorem execSnclose_canonical (hs : s.Canonical) (a : Reg) : Canon (execSnclose a s) := by
  unfold execSnclose
  refine issue_canonical hs _ _ ?_
  intro x s hs
  dsimp only
  split
  · exact hs
  · exact hs.update

theorem execSnbind_canonical (hs : s.Canonical) (a : Reg) : Canon (execSnbind a s) := by
  unfold execSnbind
  refine issue_canonical hs _ _ ?_
  intro x s hs
  dsimp only
  refine of_ite (Ix.upd_canonical hs _ _) ?_
  split
  · exact of_ite (Ix.upd_canonical hs _ _) hs
  · exact hs

/-! ### Sys2Proof/Machine/MemOps.lean -/

theorem Ix.load_canonical (hs : s.Canonical) (x : Ix) (z n : Nat) (d a b : Reg) : (Ix.load x s z n d a b).Canonical := by
  unfold Ix.load
  exact Ix.access_canonical hs _ _ _ _ _ _ _ _ _ _ (fun _ _ _ hs => hs.loadLane _ _ _ _)

theorem Ix.store_canonical (hs : s.Canonical) (x : Ix) (z n : Nat) (d a b : Reg) : (Ix.store x s z n d a b).Canonical := by
  unfold Ix.store
  exact Ix.access_canonical hs _ _ _ _ _ _ _ _ _ _ (fun _ _ _ hs => hs.storeLane _ _ _ _)

theorem Ix.loadWhole_canonical (hs : s.Canonical) (x : Ix) (z : Nat) (d a b : Reg) : (Ix.loadWhole x s z d a b).Canonical := by
  unfold Ix.loadWhole
  exact Ix.accessWhole_canonical hs _ _ _ _ _ _ _ (fun _ _ _ hs => hs.loadLane _ _ _ _) _

theorem Ix.storeWhole_canonical (hs : s.Canonical) (x : Ix) (z : Nat) (d a b : Reg) : (Ix.storeWhole x s z d a b).Canonical := by
  unfold Ix.storeWhole
  exact Ix.accessWhole_canonical hs _ _ _ _ _ _ _ (fun _ _ _ hs => hs.storeLane _ _ _ _) _

theorem State.Canonical.sendAtomic (hs : s.Canonical) (x : Ix) (k : AtomOp) (d : Reg) (data : List VReg) (tg : Target) :
    (s.sendAtomic x k d data tg).1.Canonical := by
  unfold State.sendAtomic
  exact (canonical_ite hs (hs.setGroup _ _)).post _

theorem Ix.atomic_canonical (hs : s.Canonical) (x : Ix) (k : AtomOp) (n : Nat) (d a b : Reg) : (Ix.atomic x s k n d a b).Canonical := by
  unfold Ix.atomic
  dsimp only
  exact of_ite trivial (Ix.access_canonical hs _ _ _ _ _ _ _ _ _ _ (fun _ _ _ hs => hs.sendAtomic _ _ _ _ _))

theorem State.Canonical.landOp (hs : s.Canonical) (gid op : Nat) : (s.landOp gid op).Canonical := by
  unfold State.landOp
  exact canonical_ite (hs.setGroup _ _) ((hs.setGroup _ _).finishOp _ _)

theorem execRegisterResultLand_canonical (hs : s.Canonical) (gid op : Nat) : Canon (execRegisterResultLand gid op s) := by
  unfold execRegisterResultLand
  exact canon_next (canonical_ite (hs.postAt _ _) (hs.landOp _ _))

theorem State.Canonical.setThread (hs : s.Canonical) (gid : Nat) (f : Group → Group) : (s.setThread gid f).Canonical := by
  unfold State.setThread
  exact canonical_ite (hs.setGroup _ _) hs.update

theorem Assoc.keys_map {α : Type} {m : Assoc α} (h : (m.map Prod.fst).Pairwise (· < ·)) (f : Nat × α → Nat × α)
    (hf : ∀ p, (f p).1 = p.1) :
    ((m.map f).map Prod.fst).Pairwise (· < ·) := by
  simpa [Function.comp_def, hf] using h

theorem scratch_map {m : Assoc Team} (h : ∀ p ∈ m, Memory.wf p.2.scratch = true) (f : Nat × Team → Nat × Team)
    (hf : ∀ p, (f p).2.scratch = p.2.scratch) : ∀ p ∈ m.map f, Memory.wf p.2.scratch = true := by
  intro p hp
  obtain ⟨q, hq, rfl⟩ := List.mem_map.1 hp
  rw [hf]
  exact h q hq

theorem State.Canonical.atomPerformed (hs : s.Canonical) (a : AtomLane) (t : Nat) : (s.atomPerformed a t).Canonical := by
  unfold State.atomPerformed
  extract_lets tid s1 raise s2
  have h1 : s1.Canonical := by
    refine ⟨hs.mem, scratch_map hs.scratch _ (fun p => ?_), hs.saved, hs.lines, Assoc.keys_map hs.teams _ (fun _ => rfl),
      Assoc.keys_map hs.groups _ (fun p => ?_)⟩
    · refine foldl_inv (fun y : Team => y.scratch = p.2.scratch) _ ?_ _ _ rfl
      exact fun _ _ h => h
    · split <;> rfl
  exact State.Canonical.gridOrders (canonical_foldl (fun _ _ hs => hs.setDie _ _) _ h1) _ _

theorem State.Canonical.refence (hs : s.Canonical) (a : AtomLane) (t : Nat) (tags : List (Inst × Nat)) :
    (s.refence a t tags).Canonical := by
  unfold State.refence
  cases s.thread a.gid with
  | none => exact hs
  | some g => exact hs.setThread _ _

theorem State.Canonical.settleAtoms (hs : s.Canonical) (a : AtomLane) : (s.settleAtoms a).Canonical := by
  unfold State.settleAtoms
  extract_lets drop s1 s2
  have h1 : s1.Canonical := by
    refine ⟨hs.mem, scratch_map hs.scratch _ (fun _ => rfl), hs.saved, hs.lines, Assoc.keys_map hs.teams _ (fun _ => rfl),
      Assoc.keys_map hs.groups _ (fun p => ?_)⟩
    split <;> rfl
  have h2 : s2.Canonical := canonical_ite hs (canonical_foldl (fun _ _ hs => hs.setDie _ _) _ h1)
  exact canonical_ite h2 ((h2.setThread _ _).forget _)

theorem State.Canonical.performAtomic (hs : s.Canonical) (a : AtomLane) : (s.performAtomic a).Canonical := by
  unfold State.performAtomic
  extract_lets n l old reply
  have hreply : ∀ (s : State) bad, s.Canonical → (reply s bad).Canonical := fun _ _ hs => canonical_ite (hs.landOp _ _) (hs.post _)
  refine canonical_ite (hreply _ _ (hs.poisonRead _)) ?_
  split
  extract_lets top s1 s2 s3 s4
  have h3 : s3.Canonical := ((hs.storeLine _ _ _ _).setLine _ _).setThread _ _
  have h4 : s4.Canonical := State.Canonical.refence (canonical_ite (h3.setThread _ _) h3) _ _ _
  exact hreply _ _ (h4.atomPerformed _ _)

theorem State.Canonical.unitStep (hs : s.Canonical) (a : AtomLane) (again : Event) : (s.unitStep a again).Canonical := by
  unfold State.unitStep
  exact canonical_ite (hs.postAt _ _) ((canonical_foldl (fun _ _ hs => hs.performAtomic _) _ hs.update).settleAtoms _)

theorem execServiceWarpAtomic_canonical (hs : s.Canonical) (a : AtomLane) : Canon (execServiceWarpAtomic a s) := by
  unfold execServiceWarpAtomic
  exact of_ite (canon_next ((canonical_ite hs (hs.route _ _ _)).postAt _ _)) (canon_next ((hs.route _ _ _).unitStep _ _))

theorem execPoolAtomic_canonical (hs : s.Canonical) (a : AtomLane) : Canon (execPoolAtomic a s) := by
  unfold execPoolAtomic
  exact canon_next ((hs.touch _).unitStep _ _)

theorem execAtomicReply_canonical (hs : s.Canonical) (r : AtomReply) : Canon (execAtomicReply r s) := by
  unfold execAtomicReply
  exact canon_next ((hs.setGroup _ _).landOp _ _)

theorem execFence_canonical (hs : s.Canonical) (order : BitVec 3) (scope : BitVec 4) : Canon (execFence order scope s) := by
  unfold execFence
  refine issue_canonical hs _ _ ?_
  intro x s hs
  dsimp only
  exact of_ite trivial (Ix.upd_canonical ((hs.flushGroup _ _).fence _ _ _) _ _)

theorem execWcfl_canonical (hs : s.Canonical) : Canon (execWcfl s) := by
  unfold execWcfl
  refine issue_canonical hs _ _ ?_
  intro x s hs
  exact of_ite trivial (Ix.upd_canonical (hs.flushGroup _ _) _ _)

theorem execPref_canonical (hs : s.Canonical) (a b : Reg) : Canon (execPref a b s) := by
  unfold execPref
  refine issue_canonical hs _ _ (fun _ _ hs => canonical_foldl ?_ _ hs)
  intro s x hs
  split
  · exact canonical_ite hs (hs.ask _ _ _ _)
  · exact hs

theorem execMona_canonical (hs : s.Canonical) (a b : Reg) : Canon (execMona a b s) := by
  unfold execMona
  refine issue_canonical hs _ _ ?_
  intro x s hs
  cases x.live.first with
  | none => exact Ix.upd_canonical (Ix.unheld_canonical hs _) _ _
  | some gid =>
    dsimp only
    split
    · exact Ix.parkWhole_canonical (hs.translate _ _ _) _ _ _
    · exact Ix.fail_canonical (hs.translate _ _ _) _ _
    · exact of_ite (Ix.fail_canonical (hs.translate _ _ _) _ _) (Ix.upd_canonical ((Ix.unheld_canonical
        (hs.translate _ _ _) _).setGroup _ _) _ _)

theorem execMwt_canonical (hs : s.Canonical) (a : Reg) : Canon (execMwt a s) := by
  unfold execMwt
  refine issue_canonical hs _ _ ?_
  intro x s hs
  dsimp only
  cases x.g.mon with
  | none => exact hs
  | some m => exact of_ite (Ix.upd_canonical hs _ _) (of_ite hs (of_ite (hs.setGroup _ _) ((hs.setGroup _ _).postAt _ _)))

theorem execMonitorTimeoutExpiry_canonical (hs : s.Canonical) (gid : Nat) : Canon (execMonitorTimeoutExpiry gid s) := by
  unfold execMonitorTimeoutExpiry
  cases (s.group gid).bind Group.park with
  | none => exact canon_next hs
  | some p =>
    cases p with
    | monitor deadline =>
      cases deadline with
      | none => exact canon_next hs
      | some t => exact of_ite (canon_next (hs.takeTrap _ _)) (canon_next hs)
    | _ => exact canon_next hs

/-- An instruction that a pair may hold issues one execution, in the pair and alone, and that keeps the form (R46). -/
structure IssuedBy (i : Instr) (body : Ix → State → Done) : Prop where
  paired : ∀ z, execPaired i z = some (issue i z body)
  alone : ∀ z, exec i z = issue i z body
  canonical : ∀ x s, s.Canonical → (body x s).Canonical

/-- The words of class 8 that a pair may hold are executed as they would be alone, and each issues an execution that keeps the form. -/
theorem paired_of_decodeClass8 {o : Nat} {w : Word} {i : Instr} (ho : o ≤ 0x0D ∨ 0x0F ≤ o ∧ o ≤ 0x1A) (h : decodeClass8 o w = .ok i) :
    ∃ body, IssuedBy i body := by
  obtain ho | ⟨hlow, hhigh⟩ | ⟨hlow, hhigh⟩ | ⟨hlow, hhigh⟩ | ⟨hlow, hhigh⟩ :
      o ≤ 4 ∨ (5 ≤ o ∧ o ≤ 9) ∨ (10 ≤ o ∧ o ≤ 11) ∨ (12 ≤ o ∧ o ≤ 13) ∨ (15 ≤ o ∧ o ≤ 26) := by omega
  · interval_cases o <;> (cases h; exact ⟨_, fun _ => rfl, fun _ => rfl, fun _ _ hs => Ix.load_canonical hs _ _ _ _ _ _⟩)
  · interval_cases o <;> (cases h; exact ⟨_, fun _ => rfl, fun _ => rfl, fun _ _ hs => Ix.store_canonical hs _ _ _ _ _ _⟩)
  · interval_cases o <;> (cases h; exact ⟨_, fun _ => rfl, fun _ => rfl, fun _ _ hs => Ix.loadWhole_canonical hs _ _ _ _ _⟩)
  · interval_cases o <;> (cases h; exact ⟨_, fun _ => rfl, fun _ => rfl, fun _ _ hs => Ix.storeWhole_canonical hs _ _ _ _ _⟩)
  · interval_cases o <;> (cases h; exact ⟨_, fun _ => rfl, fun _ => rfl, fun _ _ hs => Ix.atomic_canonical hs _ _ _ _ _ _⟩)

/-- A word that a pair may hold decodes to an instruction of class 8 (R46). -/
theorem paired_of_decode {w : Word} {i : Instr} {rest : List Byte} (hpair : ordPairs (fOp w).toNat = true)
    (h : decode (bytesOfWord w) = .ok (i, rest)) :
    ∃ body, IssuedBy i body := by
  simp only [ordPairs, decide_eq_true_eq] at hpair
  have hform : isLForm (fOp w).toNat = false := by simp only [isLForm, decide_eq_false_iff_not]; omega
  have hdecode := Laws.Enc.decode_wordsAt (w := w) (lit := 0) [] (fun _ => rfl)
  rw [Laws.Enc.wordsAt_of_single 0 hform, List.flatMap_singleton, List.append_nil, h, eq_comm, Laws.Enc.map_pair_eq_ok_iff] at hdecode
  obtain ⟨hword, -⟩ := hdecode
  have hclass : (fOp w).toNat / 128 = 8 := by omega
  refine paired_of_decodeClass8 (o := (fOp w).toNat % 128) (w := w) (by omega) ?_
  rw [← hword, decodeWord, hclass]
  rfl

theorem State.Canonical.withCur (hs : s.Canonical) (c : Option Cur) : { s with cur := c }.Canonical := hs.congr

theorem canon_getD {o : Option (Host.Outcome State Fault Refusal)} {p : Host.Outcome State Fault Refusal} (hp : Canon p)
    (ho : ∀ q, o = some q → Canon q) : Canon (o.getD p) := by
  cases o with
  | none => exact hp
  | some q => exact ho q rfl

theorem execOrd_canonical (hs : s.Canonical) (noret : Bool) (order : BitVec 3) (scope : BitVec 4) : Canon
    (execOrd noret order scope s) := by
  unfold execOrd
  split
  · exact canon_fault _
  · split
    · exact canon_fault _
    · next c _ _ g _ =>
      have h := hs.fetchWord c.gid c.code (g.pc + 4)
      rcases e : s.fetchWord c.gid c.code (g.pc + 4) with ⟨t, f⟩
      rw [e] at h
      have htrap : ∀ x, Canon (Host.Outcome.next ((t.stamp c g).takeTrap c.gid x)) := fun x => canon_next
        (State.Canonical.takeTrap (State.Canonical.stamp h _ _) _ _)
      dsimp only
      split
      · exact htrap _
      · exact canon_next h
      · exact canon_next (State.Canonical.stalled h _)
      · refine of_ite (htrap _) (of_ite (htrap _) ?_)
        split
        · exact htrap _
        · next hpair =>
          split
          · exact htrap _
          · next hdecode =>
            obtain ⟨body, hpaired, -, hbody⟩ := paired_of_decode (by by_contra hno; exact hpair (by simp [hno])) hdecode
            have ht : t.Canonical := h
            rw [hpaired, Option.getD_some]
            exact issue_canonical (ht.withCur _) _ _ hbody

/-! ### Sys2Proof/Machine/Sched.lean -/

theorem State.Canonical.putTeam (hs : s.Canonical) (k : Nat) {t : Team} (ht : Memory.wf t.scratch = true) :
    { s with teams := Assoc.put s.teams k t }.Canonical := by
  refine hs.withTeams (Assoc.keys_put hs.teams k t) (fun p hp => ?_)
  rcases Assoc.mem_put hp with rfl | hp
  · exact ht
  · exact hs.scratch p hp

theorem State.Canonical.placeTeam (hs : s.Canonical) (home : Nat) (n : Need) (places : List Nat) (l : Launch) :
    (s.placeTeam home n places l).Canonical := by
  unfold State.placeTeam
  extract_lets cores tid groups count reserves slots t s1 s2
  have h1 : s1.Canonical := (hs.putTeam tid (t := { t with since := s.clk + 1 }) rfl).congr
  have h2 : s2.Canonical := canonical_foldl (fun _ _ hs => hs.setCore _ _) _ (h1.l1Evict home)
  exact canonical_foldl (fun _ _ hs => hs.createGroup _ _ _ _ _ _ _ _ _ _) _ h2

theorem State.Canonical.askDecision (hs : s.Canonical) (core t : Nat) : (s.askDecision core t).Canonical := by
  unfold State.askDecision
  exact canonical_ite hs (hs.postOnceAt _ _)

theorem State.Canonical.launch (hs : s.Canonical) (core : Nat) (c : Candidate) : (s.launch core c).Canonical := by
  unfold State.launch
  cases c.what with
  | stage a =>
    dsimp only
    cases s.stages.get a with
    | none => exact hs
    | some u =>
      dsimp only
      cases s.fits core u.need with
      | none => exact hs
      | some l => exact (((hs.placeTeam _ _ _ _).update).setCore _ _).askDecision _ _
  | grid die entry =>
    dsimp only
    split
    · exact hs
    · split
      · exact hs
      · exact ((hs.placeTeam _ _ _ _).setDie _ _).askDecision _ _

theorem execSlotDecision_canonical (hs : s.Canonical) (core : Nat) : Canon (execSlotDecision core s) := by
  unfold execSlotDecision
  dsimp only
  refine of_ite (canon_next hs) ?_
  cases List.foldl better none (s.beforeTaking.candidates core) with
  | none => exact canon_next hs
  | some b =>
    refine of_ite (canon_next (hs.launch _ _)) ?_
    split
    · exact canon_next (hs.askDecision _ _)
    · exact canon_next ((hs.askDecision _ _).launch _ _)

theorem execBellowsSample_canonical (hs : s.Canonical) : Canon (execBellowsSample s) := by
  unfold execBellowsSample
  exact canon_next (canonical_foldl (fun _ _ hs => canonical_ite (hs.postOnce _) hs) _
    (canonical_foldl (fun _ _ hs => hs.askDecision _ _) _ (hs.update.postRef _ _)))

theorem State.Canonical.flushDead (hs : s.Canonical) (core : Nat) : (s.flushDead core).Canonical := by
  unfold State.flushDead
  exact canonical_foldl (fun _ _ hs => hs.flushOne _ _ _) _ hs

theorem State.Canonical.watchHearth (hs : s.Canonical) : s.watchHearth.Canonical := by
  unfold State.watchHearth
  exact canonical_foldl (fun _ _ hs => canonical_ite (hs.postOnce _) hs) _ hs

theorem State.Canonical.watchGrid (hs : s.Canonical) (d e : Nat) : (s.watchGrid d e).Canonical := by
  unfold State.watchGrid
  cases (s.die d).grids.get e with
  | some g => exact canonical_ite (hs.postOnce _) hs
  | none => exact hs

theorem State.Canonical.freeTeam (hs : s.Canonical) (tid : Nat) : (s.freeTeam tid).Canonical := by
  unfold State.freeTeam
  cases s.team tid with
  | none => exact hs
  | some y =>
    refine (canonical_foldl (fun _ _ hs => hs.askDecision _ _) _ ?_).watchHearth
    exact hs.withTeams (Assoc.keys_del hs.teams tid) (fun p hp => hs.scratch p (Assoc.mem_del hp))

theorem execTeamRetirement_canonical (hs : s.Canonical) (tid : Nat) : Canon (execTeamRetirement tid s) := by
  unfold execTeamRetirement
  cases s.team tid with
  | none => exact canon_next hs
  | some y =>
    refine of_ite (canon_next hs) ?_
    dsimp only
    refine of_ite (canon_next (canonical_foldl (fun _ _ hs => hs.flushDead _) _ hs)) (of_ite (canon_next ((canonical_foldl
      (fun _ _ hs => hs.flushDead _) _ hs).postAt _ _)) ?_)
    cases y.origin with
    | stage graph st => exact canon_next (((canonical_foldl (fun _ _ hs => hs.flushDead _) _ hs).freeTeam _).postOnce _)
    | grid die entry =>
      exact canon_next (((((canonical_foldl (fun _ _ hs => hs.flushDead _) _ hs).freeTeam _).setDie _ _).watchGrid _ _).postOnce _)

theorem State.Canonical.freeGrid (hs : s.Canonical) (d e : Nat) : (s.freeGrid d e).Canonical := by
  unfold State.freeGrid
  exact hs.setDie _ _

theorem State.Canonical.dropDone (hs : s.Canonical) (grid fn va code : Nat) (info : Dword) :
    (s.dropDone grid fn va code info).Canonical := by
  unfold State.dropDone
  exact (hs.freeGrid _ _).postEvent _ _ _

theorem execChildGridEnd_canonical (hs : s.Canonical) (grid : Nat) : Canon (execChildGridEnd grid s) := by
  unfold execChildGridEnd
  extract_lets d e
  cases (s.die d).grids.get e with
  | none => exact canon_next hs
  | some g =>
    refine of_ite (canon_next hs) (of_ite (canon_next (hs.freeGrid _ _)) ?_)
    extract_lets c va
    split
    next s1 rd e1 =>
    have h1 : s1.Canonical := canonical_of_eq e1 (hs.translate _ _ _)
    split
    next s2 r e2 =>
    have h2 : s2.Canonical := by
      refine canonical_of_eq e2 ?_
      cases rd with
      | ok pa typ => exact h1.translate _ _ _
      | wait g => exact h1
      | fault code info => exact h1
    cases r with
    | wait g => exact canon_next (h2.setDie _ _)
    | fault code info => exact canon_next (h2.dropDone _ _ _ _ _)
    | ok pa typ =>
      refine of_ite (canon_next (h2.dropDone _ _ _ _ _)) (of_ite (canon_next (h2.postAt _ _)) ?_)
      exact of_ite (canon_next ((h2.poisonEvent _).freeGrid _ _)) (canon_next (((h2.storeLine _ _ _ _).setLine _ _).freeGrid _ _))

/-! ### Sys2Proof/Machine/Preempt.lean -/

theorem State.Canonical.enqueuePre (hs : s.Canonical) (die : Nat) (r : PreReq) : (s.enqueuePre die r).Canonical := by
  unfold State.enqueuePre
  exact (hs.setDie _ _).postOnce _

theorem execPreempt_canonical (hs : s.Canonical) (c : Cmd) : Canon (execPreempt c s) := by
  unfold execPreempt
  refine hs.command _ _ ?_
  intro s hs
  split
  · exact hs.complete _ _ _
  · exact canonical_ite (hs.complete _ _ _) (canonical_ite (hs.complete _ _ _) (hs.enqueuePre _ _))

theorem State.Canonical.putListWord (hs : s.Canonical) (list i n : Nat) : (s.putListWord list i n).Canonical := by
  unfold State.putListWord
  exact hs.hostWrite _ _

theorem execPreemptFunction_canonical (hs : s.Canonical) (c : Cmd) : Canon (execPreemptFunction c s) := by
  unfold execPreemptFunction
  exact hs.command _ _ (fun _ hs => canonical_ite (hs.complete _ _ _)
    (canonical_ite (hs.postAt _ _) (canonical_ite ((hs.hostRead _ _).complete _ _ _) (canonical_ite ((hs.hostRead _ _).complete _ _ _)
    (canonical_ite ((canonical_foldl (fun _ _ hs => hs.putListWord _ _ _) _ (hs.hostRead _ _)).complete _ _ _)
    (canonical_foldl (fun _ _ hs => hs.enqueuePre _ _) _ ((canonical_foldl (fun _ _ hs => hs.putListWord _ _ _) _ (hs.hostRead _
    _)).setDev _)))))))

theorem State.Canonical.finishPre (hs : s.Canonical) (die : Nat) (r : PreReq) (bytes : Nat) : (s.finishPre die r bytes).Canonical := by
  unfold State.finishPre
  dsimp only
  cases r.listEntry with
  | none => exact ((hs.setDie _ _).postAt _ _).complete _ _ _
  | some gid =>
    exact canonical_ite ((((hs.setDie _ _).postAt _ _).putListWord _ _ _).setDev _)
      (((((hs.setDie _ _).postAt _ _).putListWord _ _ _).setDev _).complete _ _ _)

theorem State.Canonical.endPre (hs : s.Canonical) (die : Nat) (r : PreReq) : (s.endPre die r).Canonical := by
  unfold State.endPre
  exact (canonical_ite ((hs.setTeam _ _).postOnce _) hs).finishPre _ _ _

theorem State.Canonical.haltFor (hs : s.Canonical) (tid : Nat) : (s.haltFor tid).Canonical := by
  unfold State.haltFor
  exact canonical_ite (((hs.setTeam _ _).setTeam _ _).broadcastHalt _ _) (hs.setTeam _ _)

theorem execCollectorServe_canonical (hs : s.Canonical) (die : Nat) : Canon (execCollectorServe die s) := by
  unfold execCollectorServe
  refine of_ite (canon_next hs) ?_
  cases nextReq (s.die die).preQueue with
  | none => exact canon_next hs
  | some r =>
    dsimp only
    exact of_ite (canon_next (((hs.setDie _ _).haltFor _).post _)) (canon_next ((hs.setDie _ _).finishPre _ _ _))

theorem State.Canonical.stopEngines (hs : s.Canonical) (tid : Nat) (t : Team) : (s.stopEngines tid t).Canonical := by
  unfold State.stopEngines
  extract_lets gs s1 s2 s3 s4 s5 s6
  have h1 : s1.Canonical := canonical_foldl (fun _ _ hs => hs.flushGroup _ _) _ hs
  have h2 : s2.Canonical := canonical_foldl (fun _ _ hs => hs.flushDead _) _ h1
  have h3 : s3.Canonical := canonical_foldl (fun _ _ hs => hs.dropTile _ _) _ h2
  have h4 : s4.Canonical := h3.setCore _ _
  have h5 : s5.Canonical := canonical_ite (h4.postOnce _) h4
  exact (h5.startTiles _).setTeam _ _

theorem State.Canonical.takeProgress (hs : s.Canonical) (tid : Nat) : (s.takeProgress tid).1.Canonical := by
  unfold State.takeProgress
  exact (canonical_foldl (fun _ _ hs => hs.disown _ _) _ hs).update

theorem State.Canonical.putSaved (hs : s.Canonical) (k : Nat) {sv : Saved} (h : Memory.wf sv.team.scratch = true) :
    { s with saved := Assoc.put s.saved k sv }.Canonical := by
  refine hs.withSaved (fun p hp => ?_)
  rcases Assoc.mem_put hp with rfl | hp
  · exact h
  · exact hs.saved p hp

theorem State.Canonical.delSaved (hs : s.Canonical) (k : Nat) : { s with saved := Assoc.del s.saved k }.Canonical :=
  hs.withSaved (fun p hp => hs.saved p (Assoc.mem_del hp))

theorem State.Canonical.savedTeam (hs : s.Canonical) {k : Nat} {sv : Saved} (e : Assoc.get s.saved k = some sv) :
    Memory.wf sv.team.scratch = true := hs.saved _ (Assoc.mem_of_get e)

theorem execPreemptStopComplete_canonical (hs : s.Canonical) (die : Nat) : Canon (execPreemptStopComplete die s) := by
  unfold execPreemptStopComplete
  split
  · dsimp only
    split
    · exact canon_next (hs.finishPre _ _ _)
    · next e =>
      exact of_ite (canon_next (hs.endPre _ _)) (of_ite (canon_next (hs.postAt _ _)) (of_ite (canon_next
        ((hs.stopEngines _ _).postAt _ _)) (canon_next ((State.Canonical.setDie (((hs.stopEngines _ _).takeProgress _).putSaved _
        (hs.team e)) _ _).post _))))
  · exact canon_next hs

theorem execPreemptSaveComplete_canonical (hs : s.Canonical) (die : Nat) : Canon (execPreemptSaveComplete die s) := by
  unfold execPreemptSaveComplete
  split
  · split
    · next ht _ =>
      rename_i r _ _ _ _ _ _
      have ht := hs.team ht
      refine of_ite (canon_next ((((hs.delSaved _).setTeam _ _).post _).finishPre _ _ _)) ?_
      extract_lets records size body digest head s1 sv' s2
      have h1 : s1.Canonical := hs.hostWrite _ _
      have h2 : s2.Canonical := (h1.putSaved r.image (sv := sv') ht).withGroups (Assoc.keys_filter h1.groups _)
      exact canon_next ((h2.freeTeam _).finishPre _ _ _)
    · exact canon_next (hs.finishPre _ _ _)
  · exact canon_next hs

theorem State.Canonical.placeSaved (hs : s.Canonical) (m : List (Nat × Nat)) (gid : Nat) (g : Group) :
    (s.placeSaved m gid g).Canonical := by
  unfold State.placeSaved
  refine canonical_foldl (fun s i hs => ?_) _ (hs.putGroup _ _)
  refine of_ite hs ?_
  cases cutRange (s.usedBlocks (newCore m g.core)) 1 with
  | some n => exact hs.setGroup _ _
  | none => exact hs

theorem State.Canonical.reissue (hs : s.Canonical) (gid die : Nat) (t : Ticket) : (s.reissue gid die t).Canonical := by
  unfold State.reissue
  dsimp only
  cases s.heldAnswer gid t.serial with
  | some n => exact ((hs.dropSlot _ _).update).post _
  | none =>
    dsimp only
    cases t.expiry with
    | some n => exact canonical_ite (((hs.dropSlot _ _).update).post _) ((((hs.dropSlot _ _).update).postRef _ _).post _)
    | none => exact ((hs.dropSlot _ _).update).post _

theorem State.Canonical.restoreTeam (hs : s.Canonical) (image : Nat) {sv : Saved} (h : Memory.wf sv.team.scratch = true)
    (m : List (Nat × Nat)) : (s.restoreTeam image sv m).Canonical := by
  unfold State.restoreTeam
  extract_lets t tid home slots reserves inside t' s1 s2 s3 s4 s5 s6 s7 s8 s9
  have h1 : s1.Canonical := (hs.delSaved image).putTeam tid (t := t') h
  have h2 : s2.Canonical := canonical_foldl (fun _ _ hs => hs.setCore _ _) _ (h1.l1Evict _)
  have h3 : s3.Canonical := canonical_foldl (fun _ _ hs => hs.placeSaved _ _ _) _ h2
  have h4 : s4.Canonical := canonical_foldl (fun _ _ hs => hs.update.post _) _ h3
  have h5 : s5.Canonical := canonical_foldl (fun _ _ hs => hs.update.post _) _ h4
  have h6 : s6.Canonical := canonical_foldl (fun _ _ hs => hs.postOnce _) _ h5
  have h7 : s7.Canonical := canonical_foldl (fun _ _ hs => canonical_foldl (fun _ _ hs => hs.reissue _ _ _) _ hs) _ h6
  have h8 : s8.Canonical := canonical_foldl (fun _ _ hs => hs.reissue _ _ _) _ h7
  have h9 : s9.Canonical := by
    unfold s9
    clear_value inside
    cases inside with
    | some n => exact h8.setGroup _ _
    | none =>
      dsimp only
      split
      · exact h8
      · exact (h8.setTeam _ _).afterHandler _
  refine canonical_foldl (fun s p hs => ?_) _ h9
  split
  · exact hs.waitOn _ _ _ _
  · exact hs

theorem State.Canonical.refuseImage (hs : s.Canonical) (image : Nat) (sv : Saved) : (s.refuseImage image sv).Canonical := by
  unfold State.refuseImage
  extract_lets t s1 s2 s3 s4
  have h2 : s2.Canonical := State.Canonical.postEvent (hs.delSaved image) _ _ _
  have h4 : s4.Canonical := State.Canonical.watchHearth (State.Canonical.applyRestart (canonical_foldl (fun _ _ hs => hs.dropInterests _)
    _ h2) _)
  cases t.origin with
  | stage graph st => exact h4.postOnce _
  | grid die entry => exact ((h4.setDie _ _).watchGrid _ _).postOnce _

theorem execRestore_canonical (hs : s.Canonical) (c : Cmd) : Canon (execRestore c s) := by
  unfold execRestore
  refine hs.command _ _ ?_
  intro s hs
  dsimp only
  split
  · exact hs.complete _ _ _
  · exact canonical_ite (hs.complete _ _ _) (canonical_ite (hs.postAt _ _) (canonical_ite (((hs.hostRead _ _).refuseImage _ _).complete _
      _ _) (((hs.hostRead _ _).setDev _).post _)))

theorem execRestorePlacement_canonical (hs : s.Canonical) (image : Nat) : Canon (execRestorePlacement image s) := by
  unfold execRestorePlacement
  cases s.dev.restores.find? (fun r => decide (r.1 = image)) with
  | none => exact canon_next hs
  | some r =>
    cases e : Assoc.get s.saved image with
    | none => exact canon_next hs
    | some sv =>
      dsimp only
      cases s.findRestore sv with
      | none => exact canon_next (hs.postAt _ _)
      | some m => exact canon_next (((hs.setDev _).restoreTeam _ (hs.savedTeam e) _).complete _ _ _)

/-! ### Sys2Proof/Machine/Graphs.lean -/

theorem State.Canonical.placeQueues (hs : s.Canonical) (graph fn : Nat) (l : List (Nat × Nat)) :
    ∀ t, s.placeQueues graph fn l = some t → t.Canonical := by
  induction l generalizing s with
  | nil => exact fun _ e => Option.some.inj e ▸ hs
  | cons p rest ih =>
    intro t e
    unfold State.placeQueues at e
    split at e
    · cases e
    · exact ih hs.update t e

theorem State.Canonical.placeStages (hs : s.Canonical) (graph fn : Nat) (l : List (Nat × Nat)) :
    ∀ t, s.placeStages graph fn l = some t → t.Canonical := by
  induction l generalizing s with
  | nil => exact fun _ e => Option.some.inj e ▸ hs
  | cons p rest ih =>
    intro t e
    unfold State.placeStages at e
    split at e
    · cases e
    · exact ih hs.update t e

theorem State.Canonical.submission (hs : s.Canonical) (c : Cmd) : ∀ t, s.submission c = .ok t → t.Canonical := by
  intro t e
  unfold State.submission at e
  dsimp only at e
  split at e
  · cases e
  · split at e
    · cases e
    · split at e
      · cases e
      · next s1 e1 =>
        split at e
        · cases e
        · next e2 =>
          split at e
          · cases e
          · cases e
            have h1 : s1.Canonical := by
              split at e1
              · exact hs.placeQueues _ _ _ _ e1
              · cases e1
            exact (h1.placeStages _ _ _ _ e2).update

theorem State.Canonical.readLists (hs : s.Canonical) (c : Cmd) : (s.readLists c).Canonical := by
  unfold State.readLists
  exact ((hs.hostRead _ _).hostRead _ _).hostRead _ _

theorem execSubmitGraph_canonical (hs : s.Canonical) (c : Cmd) : Canon (execSubmitGraph c s) := by
  unfold execSubmitGraph
  refine hs.command _ _ (fun s hs => hs.reading _ _ ?_)
  split
  · exact hs.complete _ _ _
  · next e => exact (((hs.submission _ _ e).readLists _).complete _ _ _).post _

theorem execGraphRunEnd_canonical (hs : s.Canonical) (graph : Nat) : Canon (execGraphRunEnd graph s) := by
  unfold execGraphRunEnd
  cases s.graphs.get graph with
  | none => exact canon_next hs
  | some g => exact of_ite (canon_next hs) (canon_next (canonical_foldl (fun _ _ hs => hs.complete _ _ _) _ (hs.update.postEvent _ _ _)))

theorem execEndRun_canonical (hs : s.Canonical) (c : Cmd) : Canon (execEndRun c s) := by
  unfold execEndRun
  refine hs.command _ _ ?_
  intro s hs
  cases s.graphs.get (BitVec.toNat c.a0) with
  | none => exact hs.complete _ _ _
  | some g => exact canonical_ite (hs.complete _ _ _) (hs.update.postOnce _)

theorem execSealQueue_canonical (hs : s.Canonical) (c : Cmd) : Canon (execSealQueue c s) := by
  unfold execSealQueue
  refine hs.command _ _ ?_
  intro s hs
  dsimp only
  split
  · exact hs.complete _ _ _
  · exact canonical_ite (hs.complete _ _ _) ((canonical_ite hs (hs.seal _ _)).complete _ _ _)

theorem execRestartStage_canonical (hs : s.Canonical) (c : Cmd) : Canon (execRestartStage c s) := by
  unfold execRestartStage
  refine hs.command _ _ ?_
  intro s hs
  cases s.stages.get (BitVec.toNat c.a0) with
  | none => exact hs.complete _ _ _
  | some u => exact canonical_ite (hs.complete _ _ _) (hs.update.complete _ _ _)

theorem execTerminate_canonical (hs : s.Canonical) (c : Cmd) : Canon (execTerminate c s) := by
  unfold execTerminate
  refine hs.command _ _ ?_
  intro s hs
  split
  · exact hs.complete _ _ _
  · refine State.Canonical.complete ?_ _ _ _
    split
    · exact hs.terminate _ _ _ _ _ _ _ _
    · exact hs.terminate _ _ _ _ _ _ _ _

theorem execAttach_canonical (hs : s.Canonical) (c : Cmd) : Canon (execAttach c s) := by
  unfold execAttach
  refine hs.command _ _ ?_
  intro s hs
  refine of_ite (hs.complete _ _ _) (of_ite (hs.complete _ _ _) ?_)
  split
  · exact hs.complete _ _ _
  · exact (hs.setTeam _ _).complete _ _ _

theorem State.Canonical.goOn (hs : s.Canonical) (tid gid : Nat) : (s.goOn tid gid).Canonical := by
  unfold State.goOn
  exact canonical_ite ((hs.setTeam _ _).setGroup _ _) ((hs.setTeam _ _).afterHandler _)

theorem execResume_canonical (hs : s.Canonical) (c : Cmd) : Canon (execResume c s) := by
  unfold execResume
  refine hs.command _ _ ?_
  intro s hs
  split
  · exact hs.complete _ _ _
  · split
    · exact (hs.goOn _ _).complete _ _ _
    · exact hs.complete _ _ _

/-! ### Sys2Proof/Machine/MemSys.lean -/

theorem State.Canonical.writeOut (hs : s.Canonical) (k : Nat) (w : WriteBack) : (s.writeOut k w).Canonical := by
  unfold State.writeOut
  exact canonical_ite ((hs.setSlice _ _).setSlice _ _) (canonical_ite ((hs.setSlice _ _).setSlice _ _) ((hs.setSlice _ _).touch _))

theorem State.Canonical.takeWriteback (hs : s.Canonical) (k : Nat) (w : WriteBack) : (s.takeWriteback k w).Canonical := by
  unfold State.takeWriteback
  refine canonical_ite (hs.setSlice _ _) ((State.Canonical.setSlice ?_ _ _).post _)
  cases (s.slice k).wbq with
  | cons o r => exact canonical_ite (hs.writeOut _ _) hs
  | nil => exact hs

theorem execCrossbarGrant_canonical (hs : s.Canonical) (die slice : Nat) (writeBack : Bool) :
    Canon (execCrossbarGrant die slice writeBack s) := by
  unfold execCrossbarGrant
  dsimp only
  split
  · split
    · exact canon_next (hs.askGrant _ _)
    · split
      · exact canon_next hs
      · exact canon_next (canonical_ite ((hs.setSlice _ _).takeWriteback _ _) (((hs.setSlice _ _).takeWriteback _ _).askGrant _ _))
  · split
    · exact canon_next (hs.askGrant _ _)
    · split
      · exact canon_next (hs.setSlice _ _)
      · exact canon_next (canonical_ite (((hs.setSlice _ _).setSlice _ _).post _)
          ((((hs.setSlice _ _).setSlice _ _).post _).askGrant _ _))

theorem State.Canonical.startFill (hs : s.Canonical) (k line : Nat) : ∀ t, s.startFill k line = some t → t.Canonical := by
  intro t e
  unfold State.startFill at e
  dsimp only at e
  split at e
  · cases e
    exact ((hs.setSlice _ _).touch _).post _
  · split at e
    · cases e
    · cases e
      exact ((State.Canonical.setSlice (canonical_ite ((hs.setSlice _ _).touch _) (hs.setSlice _ _)) _ _).touch _).post _

theorem State.Canonical.missFill (hs : s.Canonical) (k : Nat) (r : L2Req) : ∀ t, s.missFill k r = some t → t.Canonical := by
  intro t e
  unfold State.missFill at e
  obtain ⟨u, hu, rfl⟩ := Option.map_eq_some_iff.1 e
  have h := hs.startFill _ _ _ hu
  exact canonical_ite (h.setSlice _ _) h

theorem State.Canonical.holdInSet (hs : s.Canonical) (k : Nat) (r : L2Req) (early : Bool) : (s.holdInSet k r early).Canonical := by
  unfold State.holdInSet
  exact hs.setSlice _ _

theorem State.Canonical.drain (hs : s.Canonical) (k b n : Nat) : (s.drain k b n).Canonical := by
  induction n generalizing s with
  | zero => exact hs
  | succ n ih =>
    unfold State.drain
    dsimp only
    cases ((s.slice k).bank b).bypass with
    | nil => exact hs
    | cons r rest =>
      refine of_ite ?_ ?_
      · exact canonical_ite (ih ((hs.setSlice _ _).holdInSet _ _ _)) hs
      · refine of_ite ?_ ?_
        · exact ih ((hs.setSlice _ _).setSlice _ _)
        · refine of_ite ?_ ?_
          · exact hs
          · split
            · next e => exact ih ((hs.missFill _ _ _ e).setSlice _ _)
            · exact canonical_ite (ih (((hs.postOnceAt _ _).setSlice _ _).holdInSet _ _ _)) (hs.postOnceAt _ _)

theorem State.Canonical.serveSet (hs : s.Canonical) (k b set n : Nat) : (s.serveSet k b set n).Canonical := by
  induction n generalizing s with
  | zero => exact hs
  | succ n ih =>
    unfold State.serveSet
    dsimp only
    split
    · exact hs
    · refine of_ite ?_ ?_
      · exact hs
      · refine of_ite ?_ ?_
        · exact ih ((hs.setSlice _ _).setSlice _ _)
        · refine of_ite ?_ ?_
          · exact hs
          · split
            · next e => exact (hs.missFill _ _ _ e).setSlice _ _
            · exact hs.postOnceAt _ _

theorem State.Canonical.serveBank (hs : s.Canonical) (k b n : Nat) : (s.serveBank k b n).Canonical := by
  induction n generalizing s with
  | zero => exact hs
  | succ n ih =>
    unfold State.serveBank
    dsimp only
    have h : ∀ l : List Nat, ((l.foldl (fun s set => s.serveSet k b set 17) s).drain k b 33).Canonical :=
      fun l => (canonical_foldl (fun _ _ hs => hs.serveSet _ _ _ _) l hs).drain _ _ _
    exact canonical_ite (h _) (ih (h _))

theorem State.Canonical.serveSlice (hs : s.Canonical) (k : Nat) : (s.serveSlice k).Canonical := by
  unfold State.serveSlice
  exact canonical_ite (canonical_foldl (fun _ _ hs => hs.serveBank _ _ _) _ hs)
    ((canonical_foldl (fun _ _ hs => hs.serveBank _ _ _) _ hs).askGrant _ _)

theorem execL2Request_canonical (hs : s.Canonical) (r : L2Req) : Canon (execL2Request r s) := by
  unfold execL2Request
  dsimp only
  split
  · split
    · exact canon_next ((hs.setSlice _ _).askGrant _ _)
    · exact canon_next ((hs.holdInSet _ _ _).serveSlice _)
  · split
    · exact canon_next ((hs.setSlice _ _).askGrant _ _)
    · exact canon_next ((hs.setSlice _ _).serveSlice _)

theorem State.Canonical.wayRetry (hs : s.Canonical) (k _set : Nat) : (s.wayRetry k _set).Canonical := by
  unfold State.wayRetry
  exact hs.serveSlice _

theorem State.Canonical.poisonFill (hs : s.Canonical) (line : Nat) : (s.poisonFill line).Canonical := by
  unfold State.poisonFill
  exact canonical_foldl (fun _ _ hs => (canonical_foldl (fun _ _ hs => hs.poisonEvent _) _ hs).setGroup _ _) _ (hs.setLine _ _)

theorem execL2FillComplete_canonical (hs : s.Canonical) (line : Nat) (bad : Bool) : Canon (execL2FillComplete line bad s) := by
  unfold execL2FillComplete
  dsimp only
  exact of_ite (canon_next hs) (canon_next ((canonical_ite ((hs.setSlice _ _).poisonFill _) (hs.setSlice _ _)).serveSlice _))

theorem State.Canonical.lineError (hs : s.Canonical) (pa : Nat) : (s.lineError pa).Canonical := by
  unfold State.lineError
  exact canonical_ite hs (canonical_ite hs.update (canonical_ite hs (hs.setLine _ _)))

theorem execL2Writeback_canonical (hs : s.Canonical) (w : WriteBack) : Canon (execL2Writeback w s) := by
  unfold execL2Writeback
  exact canon_next (canonical_ite (hs.writeOut _ _) hs)

theorem execHearthRefreshWindow_canonical (hs : s.Canonical) : Canon (execHearthRefreshWindow s) := by
  unfold execHearthRefreshWindow
  exact canon_next (hs.postRef _ _)

theorem execHearthBankRead_canonical (hs : s.Canonical) (die off : Nat) : Canon (execHearthBankRead die off s) := by
  unfold execHearthBankRead
  cases s.bankEnd (bits off 28 23) with
  | some n => exact canon_next (hs.postRef _ _)
  | none => exact canon_next hs

theorem execHearthWindowLoading_canonical (hs : s.Canonical) (die : Nat) : Canon (execHearthWindowLoading die s) := by
  unfold execHearthWindowLoading
  exact of_ite (canon_next (hs.setDie _ _)) (canon_next hs)

theorem State.Canonical.dropWrite (hs : s.Canonical) (n t : Nat) : (s.dropWrite n t).Canonical := by
  unfold State.dropWrite
  refine (hs.withMem (Memory.wf_cells hs.mem _)).setLine' _ ?_
  unfold Line.Ordered
  rw [map_time_dropVersion]
  exact hs.line n

theorem execCxlTransactionError_canonical (hs : s.Canonical) (pa : Nat) (store : Bool) (time : Nat) :
    Canon (execCxlTransactionError pa store time s) := by
  unfold execCxlTransactionError
  exact of_ite (canon_next hs) (of_ite (canon_next ((hs.dropWrite _ _).mcEvent _ _)) (canon_next (hs.poisonFill _)))

theorem State.Canonical.setWindow (hs : s.Canonical) (port base size : Nat) : (s.setWindow port base size).Canonical := by
  unfold State.setWindow
  exact canonical_ite hs (canonical_ite (hs.setDev _) (canonical_ite (hs.setDev _) hs))

theorem execPageWalk_canonical (hs : s.Canonical) (gid : Nat) (va : Dword) (acc : Acc) : Canon (execPageWalk gid va acc s) := by
  unfold execPageWalk
  exact of_ite (canon_next hs) (canon_next (hs.translate _ _ _))

theorem execPageRequestRelease_canonical (hs : s.Canonical) (die : Nat) : Canon (execPageRequestRelease die s) := by
  unfold execPageRequestRelease
  exact canon_next (hs.releaseReqs _ _)

theorem State.Canonical.askRelease (hs : s.Canonical) : s.askRelease.Canonical := by
  unfold State.askRelease
  exact canonical_foldl (fun _ _ hs => canonical_ite hs (hs.postOnce _)) _ hs

theorem State.Canonical.wakeEngine (hs : s.Canonical) (op : Nat) : (s.wakeEngine op).Canonical := by
  unfold State.wakeEngine
  refine canonical_ite ((hs.setDie _ _).postOnce _) (canonical_ite (hs.update.postOnce _) (canonical_ite (hs.update.postOnce _)
    (canonical_ite (hs.postOnce _) (canonical_ite (hs.collWake _) (canonical_foldl (fun _ _ hs => canonical_foldl ?_ _ hs) _ hs)))))
  intro s x hs
  refine of_ite hs ?_
  split
  · exact hs.postOnce _
  · exact canonical_ite ((hs.ownMore _ _).postOnce _) (hs.ownMore _ _)

theorem State.Canonical.answer (hs : s.Canonical) (granule : Nat) (refuse : Bool) (w : Waiter × Nat) :
    (s.answer granule refuse w).Canonical := by
  unfold State.answer
  dsimp only
  cases w.1 with
  | group a =>
    dsimp only
    cases s.group a with
    | none => exact hs
    | some g => exact canonical_ite (hs.setGroup _ _) (canonical_ite ((canonical_ite hs.update hs).setGroup _ _) hs)
  | engine a => exact canonical_ite ((canonical_ite hs.update hs).wakeEngine _) hs

theorem State.Canonical.pageReply (hs : s.Canonical) (word : Dword) : (s.pageReply word).Canonical := by
  unfold State.pageReply
  dsimp only
  cases (s.die (bits (BitVec.toNat word) 10 9)).preqs.get (bits (BitVec.toNat word) 8 0) with
  | none => exact hs.mcEvent _ _
  | some q => exact canonical_ite (hs.mcEvent _ _) ((canonical_foldl (fun _ _ hs => hs.answer _ _ _) _ (hs.setDie _ _)).askRelease)

theorem execPrqReply_canonical (hs : s.Canonical) (word : Dword) : Canon (execPrqReply word s) := by
  unfold execPrqReply
  exact canon_next (hs.pageReply _)

theorem State.Canonical.setPrqHead (hs : s.Canonical) (fn : Nat) (word : Dword) : (s.setPrqHead fn word).Canonical := by
  unfold State.setPrqHead
  exact (hs.setFunc _ _).askRelease

theorem execPrqHead_canonical (hs : s.Canonical) (func : Nat) (word : Dword) : Canon (execPrqHead func word s) := by
  unfold execPrqHead
  exact canon_next (hs.setPrqHead _ _)

theorem execHeatSample_canonical (hs : s.Canonical) (die pa : Nat) : Canon (execHeatSample die pa s) := by
  unfold execHeatSample
  exact of_ite (canon_next hs) (canon_next (hs.setDie _ _))

theorem execHeatDecaySweep_canonical (hs : s.Canonical) (die : Nat) : Canon (execHeatDecaySweep die s) := by
  unfold execHeatDecaySweep
  exact canon_next ((canonical_ite hs (hs.setDie _ _)).postAt _ _)

/-! ### Sys2Proof/Machine/Manage.lean -/

theorem State.Canonical.dropXlate (hs : s.Canonical) (tlb : Tlb → Bool) (walk : WalkEntry → Bool) : (s.dropXlate tlb walk).Canonical := by
  unfold State.dropXlate
  exact hs.update

theorem State.Canonical.flushFunc (hs : s.Canonical) (fn : Nat) : (s.flushFunc fn).Canonical := by
  unfold State.flushFunc
  exact canonical_foldl (fun _ _ hs => canonical_ite (hs.flushGroup _ _) hs) _ hs

theorem State.Canonical.dropFunc (hs : s.Canonical) (fn : Nat) : (s.dropFunc fn).Canonical := by
  unfold State.dropFunc
  exact hs.dropXlate _ _

theorem execShootdown_canonical (hs : s.Canonical) (c : Cmd) : Canon (execShootdown c s) := by
  unfold execShootdown
  exact hs.command _ _ (fun _ hs => canonical_ite (hs.complete _ _ _)
    (canonical_ite (hs.postAt _ _) ((canonical_ite ((hs.flushFunc _).dropFunc _) (canonical_ite ((hs.flushFunc _).dropXlate _ _)
    ((hs.flushFunc _).dropXlate _ _))).complete _ _ _)))

theorem State.Canonical.dropHeld (hs : s.Canonical) (fn : Nat) : (s.dropHeld fn).Canonical := by
  unfold State.dropHeld
  exact canonical_foldl (fun _ _ hs => canonical_foldl (fun _ _ hs => canonical_foldl (fun _ _ hs => hs.answer _ _ _) _ hs) _
    (hs.setDie _ _)) _ hs

theorem execSetXlate_canonical (hs : s.Canonical) (c : Cmd) : Canon (execSetXlate c s) := by
  unfold execSetXlate
  exact hs.command _ _ (fun _ hs => canonical_ite (hs.complete _ _ _)
    (canonical_ite (hs.complete _ _ _) (canonical_ite (hs.postAt _ _) (((canonical_ite (((hs.flushFunc _).setFunc _ _).dropFunc _)
    ((((hs.flushFunc _).setFunc _ _).dropFunc _).dropHeld _)).askRelease).complete _ _ _))))

theorem execHeatRead_canonical (hs : s.Canonical) (c : Cmd) : Canon (execHeatRead c s) := by
  unfold execHeatRead
  exact hs.command _ _ (fun _ hs => canonical_ite (hs.complete _ _ _) ((hs.hostWrite _ _).complete _ _ _))

theorem execSetDecay_canonical (hs : s.Canonical) (c : Cmd) : Canon (execSetDecay c s) := by
  unfold execSetDecay
  exact hs.command _ _ (fun _ hs => canonical_ite (hs.complete _ _ _) ((hs.setDev _).complete _ _ _))

theorem State.Canonical.mirrorOn (hs : s.Canonical) (m : Migration) : (s.mirrorOn m).Canonical := by
  unfold State.mirrorOn
  exact canonical_foldl (fun _ _ hs => hs.setLine _ _) _ hs

theorem execMigrate_canonical (hs : s.Canonical) (c : Cmd) : Canon (execMigrate c s) := by
  unfold execMigrate
  exact hs.command _ _ (fun _ hs => canonical_ite (hs.complete _ _ _) (canonical_ite hs.update ((hs.update.mirrorOn _).post _)))

theorem execMigrationLineCopy_canonical (hs : s.Canonical) (op : Nat) : Canon (execMigrationLineCopy op s) := by
  unfold execMigrationLineCopy
  split
  · exact canon_next hs
  · next m _ =>
    extract_lets a b l move s1 s2 s3 s4
    have h1 : s1.Canonical := hs.withMem (Memory.wf_write hs.mem _ _)
    have h2 : s2.Canonical := by
      refine h1.setLine' b ?_
      unfold Line.Ordered
      dsimp only
      rw [map_time_map]
      · exact hs.line a
      · exact fun _ => rfl
    have h3 : s3.Canonical := (h2.wantLine _ _ _ _).wantLine _ _ _ _
    exact of_ite (canon_next hs) (of_ite (canon_next (hs.postAt _ _)) (canon_next ((h3.congr : s4.Canonical).post _)))

theorem State.Canonical.flushPage (hs : s.Canonical) (pa : Nat) : (s.flushPage pa).Canonical := by
  unfold State.flushPage
  exact canonical_foldl (fun _ _ hs => canonical_foldl (fun _ _ hs => hs.flushOne _ _ _) _ hs) _ hs

theorem State.Canonical.carryReads (hs : s.Canonical) (m : Migration) : (s.carryReads m).Canonical := by
  unfold State.carryReads
  extract_lets a b s1 here carry
  have h1 : s1.Canonical := by
    unfold s1
    refine canonical_foldl (fun s i hs => ?_) _ hs
    exact hs.setLine _ _
  have hkey : ∀ p, (carry p).1 = p.1 := fun _ => rfl
  clear_value carry s1
  refine ⟨h1.mem, h1.scratch, fun p hp => ?_, h1.lines, h1.teams, Assoc.keys_map h1.groups carry hkey⟩
  obtain ⟨q, hq, rfl⟩ := List.mem_map.1 hp
  exact h1.saved q hq

theorem State.Canonical.withMigrations (hs : s.Canonical) (l : Assoc Migration) : { s with migrations := l }.Canonical := hs.congr

theorem State.Canonical.endMigration (hs : s.Canonical) (op : Nat) (m : Migration) (done : Bool) :
    (s.endMigration op m done).Canonical := by
  unfold State.endMigration
  extract_lets s1 s2 s3
  have h1 : s1.Canonical := hs.update
  have h3 : s3.Canonical := (h1.postEvent _ _ _).complete _ _ _
  cases List.find? (fun p => decide (p.2.die = m.die) && p.2.waiting) s3.migrations with
  | none => exact h3
  | some p => exact ((h3.withMigrations _).mirrorOn _).post _

theorem execMigrationFinish_canonical (hs : s.Canonical) (op : Nat) : Canon (execMigrationFinish op s) := by
  unfold execMigrationFinish
  split
  · exact canon_next hs
  · extract_lets s1 new s2 s3 heat s4 s5 s6
    have h1 : s1.Canonical := hs.flushPage _
    have h5 : s5.Canonical := (((h1.storeLine _ _ _ _).dropXlate _ _).setDie _ _).carryReads _
    have h6 : s6.Canonical := canonical_ite (h5.setDie _ _) h5
    exact canon_ite (canon_next hs) (canon_ite (canon_next (hs.postAt _ _))
      (canon_ite (canon_next (h1.endMigration _ _ _)) (canon_next (h6.endMigration _ _ _))))

theorem State.Canonical.reportRow (hs : s.Canonical) (reduced : Bool) (r : RowLoc) : (s.reportRow reduced r).Canonical := by
  unfold State.reportRow
  exact hs.postEvent _ _ _

theorem State.Canonical.retire (hs : s.Canonical) (r : RowLoc) (cause : Nat) (spare : Bool) : (s.retire r cause spare).Canonical := by
  unfold State.retire
  exact canonical_ite (hs.setDev _) ((hs.setDev _).reportRow _ _)

theorem execRowRetirement_canonical (hs : s.Canonical) (loc : RowLoc) (uncorrectable spare : Bool) :
    Canon (execRowRetirement loc uncorrectable spare s) := by
  unfold execRowRetirement
  dsimp only
  split
  · split
    · exact canon_next (hs.setDev _)
    · split
      · exact canon_next (((hs.setDev _).mcEvent _ _).reportRow _ _)
      · exact canon_next ((hs.setDev _).retire _ _ _)
  · split
    · exact canon_next (hs.setDev _)
    · split
      · exact canon_next (((hs.setDev _).mcEvent _ _).reportRow _ _)
      · exact canon_next ((hs.setDev _).retire _ _ _)

theorem execRetireRow_canonical (hs : s.Canonical) (c : Cmd) (spare : Bool) : Canon (execRetireRow c spare s) := by
  unfold execRetireRow
  exact hs.command _ _ (fun _ hs => canonical_ite (hs.complete _ _ _) ((hs.retire _ _ _).complete _ _ _))

theorem execClearRetlog_canonical (hs : s.Canonical) (c : Cmd) (sigOk : Bool) : Canon (execClearRetlog c sigOk s) := by
  unfold execClearRetlog
  exact hs.command _ _ (fun _ hs => canonical_ite ((hs.setDev _).complete _ _ _) (hs.complete _ _ _))

/-! ### Sys2Proof/Machine/Bringup.lean -/

theorem execBar0Write_canonical (hs : s.Canonical) (func off : Nat) (val : Dword) : Canon (execBar0Write func off val s) := by
  unfold execBar0Write
  split
  · exact canon_next (hs.setFunc _ _)
  · exact canon_next (hs.setFunc _ _)
  · exact canon_next ((hs.setFunc _ _).nextCommand _)
  · exact canon_next (hs.setFunc _ _)
  · exact canon_next (hs.setFunc _ _)
  · exact canon_next ((hs.setFunc _ _).postHeld _ _)
  · exact canon_next (hs.pageReply _)
  · exact canon_next (hs.setPrqHead _ _)
  · exact canon_next hs

theorem execHostPortAccess_canonical (hs : s.Canonical) (pa : Nat) (data : List Byte) (write : Bool) :
    Canon (execHostPortAccess pa data write s) := by
  unfold execHostPortAccess
  exact of_ite (canon_next hs) (of_ite (canon_next (hs.postAt _ _)) (canon_next (canonical_ite (hs.hostWrite _ _) (hs.hostRead _ _))))

theorem State.Canonical.openHearth (hs : s.Canonical) (d : Nat) : (s.openHearth d).Canonical := by
  unfold State.openHearth
  exact canonical_foldl (fun _ _ hs => hs.wakeEngine _) _ ((hs.setDie _ _).mapGroups _ (fun _ => rfl))

theorem execHearthDrain_canonical (hs : s.Canonical) (c : Cmd) : Canon (execHearthDrain c s) := by
  unfold execHearthDrain
  exact hs.command _ _ (fun _ hs => canonical_ite (hs.complete _ _ _)
    (canonical_ite (hs.complete _ _ _) (((hs.setDie _ _).watchHearth).complete _ _ _)))

theorem execHearthWrite_canonical (hs : s.Canonical) (c : Cmd) : Canon (execHearthWrite c s) := by
  unfold execHearthWrite
  exact hs.command _ _ (fun _ hs => canonical_ite (hs.complete _ _ _)
    (canonical_ite (hs.complete _ _ _) (canonical_ite (hs.postAt _ _) (((hs.hostRead _ _).hostWrite _ _).complete _ _ _))))

theorem execHearthOpen_canonical (hs : s.Canonical) (c : Cmd) : Canon (execHearthOpen c s) := by
  unfold execHearthOpen
  exact hs.command _ _ (fun _ hs => canonical_ite (hs.complete _ _ _) ((hs.openHearth _).complete _ _ _))

theorem execSetRoute_canonical (hs : s.Canonical) (c : Cmd) : Canon (execSetRoute c s) := by
  unfold execSetRoute
  exact hs.command _ _ (fun _ hs => canonical_ite (hs.complete _ _ _) ((hs.setDie _ _).complete _ _ _))

theorem State.Canonical.clearNames (hs : s.Canonical) (func : Nat) : (s.clearNames func).Canonical := by
  unfold State.clearNames
  exact hs.update

theorem execClearNames_canonical (hs : s.Canonical) (c : Cmd) : Canon (execClearNames c s) := by
  unfold execClearNames
  exact hs.command _ _ (fun _ hs => (hs.clearNames _).complete _ _ _)

theorem State.Canonical.trimSlice (hs : s.Canonical) (k : Nat) : (s.trimSlice k).Canonical := by
  unfold State.trimSlice
  exact canonical_foldl (fun _ _ hs => canonical_ite hs (canonical_ite ((hs.setSlice _ _).touch _) (hs.setSlice _ _))) _ hs

theorem execSetCrucible_canonical (hs : s.Canonical) (c : Cmd) : Canon (execSetCrucible c s) := by
  unfold execSetCrucible
  exact hs.command _ _ (fun _ hs => canonical_ite (hs.complete _ _ _)
    (canonical_ite (hs.complete _ _ _) ((canonical_foldl (fun _ _ hs => hs.trimSlice _) _ (hs.setDie _ _)).complete _ _ _)))

theorem execSetColl_canonical (hs : s.Canonical) (c : Cmd) : Canon (execSetColl c s) := by
  unfold execSetColl
  exact hs.command _ _ (fun _ hs => canonical_ite (hs.complete _ _ _) (hs.update.complete _ _ _))

theorem execSetPool_canonical (hs : s.Canonical) (c : Cmd) : Canon (execSetPool c s) := by
  unfold execSetPool
  exact hs.command _ _ (fun _ hs => canonical_ite (hs.complete _ _ _) (hs.update.complete _ _ _))

theorem execLinkTrain_canonical (hs : s.Canonical) (c : Cmd) (pkg port : Nat) : Canon (execLinkTrain c pkg port s) := by
  unfold execLinkTrain
  exact hs.command _ _ (fun _ hs => canonical_ite (hs.complete _ _ _)
    (canonical_ite (hs.complete _ _ _) (((hs.setPort _ _).postOnce _).complete _ _ _)))

theorem execKeyInstall_canonical (hs : s.Canonical) (c : Cmd) : Canon (execKeyInstall c s) := by
  unfold execKeyInstall
  refine hs.command _ _ ?_
  intro s hs
  dsimp only
  refine of_ite (hs.complete _ _ _) (of_ite (hs.complete _ _ _) ?_)
  split
  · exact (hs.setPort _ _).complete _ _ _
  · exact hs.complete _ _ _

theorem State.Canonical.realign (hs : s.Canonical) : s.realign.Canonical := by
  unfold State.realign
  exact hs.update

theorem execSetMode_canonical (hs : s.Canonical) (c : Cmd) : Canon (execSetMode c s) := by
  unfold execSetMode
  exact hs.command _ _ (fun _ hs => canonical_ite (hs.complete _ _ _)
    (canonical_ite (hs.complete _ _ _) ((canonical_ite ((hs.setDev _).realign) (hs.setDev _)).complete _ _ _)))

theorem State.Canonical.reapplyLog (hs : s.Canonical) : s.reapplyLog.Canonical := by
  unfold State.reapplyLog
  exact canonical_foldl (fun _ _ hs => hs.reportRow _ _) _ hs

theorem Memory.wf_filter {m : Memory} (h : Memory.wf m = true) (q : Host.Cell → Bool) : Memory.wf (m.filter q) = true := by
  obtain ⟨hr, hz⟩ := (Memory.wf_iff m).1 h
  exact (Memory.wf_iff _).2 ⟨hr.sublist List.filter_sublist, fun c hc => hz c (List.mem_of_mem_filter hc)⟩

theorem State.Canonical.erased (hs : s.Canonical) : s.erased.Canonical := by
  refine ⟨Memory.wf_filter hs.mem _, List.forall_mem_nil _, List.forall_mem_nil _, fun p hp => ?_, List.Pairwise.nil, List.Pairwise.nil⟩
  obtain ⟨q, hq, rfl⟩ := List.mem_map.1 hp
  exact hs.lines q (List.mem_of_mem_filter hq)

theorem State.Canonical.rephased (hs : s.Canonical) : s.rephased.Canonical := by
  unfold State.rephased
  exact hs.update

theorem State.Canonical.wipe (hs : s.Canonical) (reduced : Bool) : (s.wipe reduced).Canonical := by
  unfold State.wipe
  refine canonical_foldl ?_ _ (((hs.reapplyLog.erased).update).post _)
  intro s x hs
  cases x.2.busy with
  | some c => exact hs.complete _ _ _
  | none => exact hs

theorem State.Canonical.restarted (hs : s.Canonical) : s.restarted.Canonical := by
  unfold State.restarted
  refine State.Canonical.reapplyLog ?_
  exact ⟨hs.erased.mem, List.forall_mem_nil _, List.forall_mem_nil _, hs.erased.lines, List.Pairwise.nil, List.Pairwise.nil⟩

theorem execReset_canonical (hs : s.Canonical) : Canon (execReset s) := by
  unfold execReset
  exact canon_next hs.restarted

theorem execThermalTrip_canonical (hs : s.Canonical) : Canon (execThermalTrip s) := by
  unfold execThermalTrip
  exact canon_next hs.restarted

theorem execWipeComplete_canonical (hs : s.Canonical) : Canon (execWipeComplete s) :=
  canon_next ⟨Memory.wf_filter hs.mem _, hs.scratch, hs.saved, fun p hp => hs.lines p (List.mem_of_mem_filter hp), hs.teams, hs.groups⟩

theorem execFirmwareVerified_canonical (hs : s.Canonical) : Canon (execFirmwareVerified s) := by
  unfold execFirmwareVerified
  exact canon_next (canonical_ite ((hs.setDev _).wipe _) (hs.setDev _))

theorem execLifecycle_canonical (hs : s.Canonical) (c : Cmd) (sigOk : Bool) : Canon (execLifecycle c sigOk s) := by
  unfold execLifecycle
  exact hs.command _ _ (fun _ hs => canonical_ite (hs.complete _ _ _)
    (canonical_ite (hs.complete _ _ _) (canonical_ite (hs.complete _ _ _) ((((hs.setDev _).complete _ _ _).wipe _).rephased))))

theorem execQuote_canonical (hs : s.Canonical) (c : Cmd) : Canon (execQuote c s) := by
  unfold execQuote
  exact hs.command _ _ (fun _ hs => canonical_ite (hs.complete _ _ _) ((hs.hostWrite _ _).complete _ _ _))

theorem execAgeingSample_canonical (hs : s.Canonical) (a : AgeSample) : Canon (execAgeingSample a s) := by
  unfold execAgeingSample
  exact canon_next (hs.setDev _)

theorem execHealth_canonical (hs : s.Canonical) (c : Cmd) : Canon (execHealth c s) := by
  unfold execHealth
  exact hs.command _ _ (fun _ hs => canonical_ite (hs.complete _ _ _) ((hs.hostWrite _ _).complete _ _ _))

theorem execPowerLimitStep_canonical (hs : s.Canonical) (watts : Nat) : Canon (execPowerLimitStep watts s) := by
  unfold execPowerLimitStep
  exact of_ite (canon_next (hs.setDev _)) (canon_next hs)

/-! ### Sys2Proof/Machine/Modes.lean -/

theorem Ix.writeMr_canonical (hs : s.Canonical) (x : Ix) (v : Word) : (Ix.writeMr x s v).Canonical := by
  unfold Ix.writeMr
  dsimp only
  exact of_ite (Ix.upd_canonical hs _ _) hs

/-! ### Sys2Proof/Machine/Traps.lean -/

theorem State.Canonical.breakAt (hs : s.Canonical) (gid : Nat) : (s.breakAt gid).Canonical := by
  unfold State.breakAt
  cases s.group gid with
  | none => exact hs
  | some g =>
    dsimp only
    split
    · exact ((hs.setGroup _ _).setTeam _ _).broadcastHalt _ _
    · exact (((hs.setGroup _ _).setTeam _ _).broadcastHalt _ _).postEvent _ _ _

theorem execBrk_canonical (hs : s.Canonical) (k : BitVec 14) : Canon (execBrk k s) := by
  unfold execBrk
  refine issue_canonical hs _ _ ?_
  intro x s hs
  cases s.team x.g.team with
  | none => exact hs
  | some y => exact of_ite hs (of_ite trivial (hs.breakAt _))

theorem execTret_canonical (hs : s.Canonical) : Canon (execTret s) := by
  unfold execTret
  refine issue_canonical hs _ _ ?_
  intro x s hs
  exact of_ite (hs.trapReturn _) hs

theorem State.Canonical.askDelivery (hs : s.Canonical) (tid : Nat) : (s.askDelivery tid).Canonical := by
  unfold State.askDelivery
  exact hs.postOnce _

theorem execRdsr_canonical (hs : s.Canonical) (d : Reg) (k : BitVec 14) : Canon (execRdsr d k s) := by
  unfold execRdsr
  refine issue_canonical hs _ _ ?_
  intro x s hs
  cases s.team x.g.team with
  | none => exact hs
  | some y =>
    dsimp only
    cases s.readSpecial x.gid x.g y k.toNat with
    | none => exact hs
    | some gid => exact Ix.upd_canonical hs _ _

theorem execDeferredTrapDelivery_canonical (hs : s.Canonical) (tid : Nat) : Canon (execDeferredTrapDelivery tid s) := by
  unfold execDeferredTrapDelivery
  cases s.team tid with
  | none => exact canon_next hs
  | some y =>
    refine of_ite (canon_next hs) ?_
    cases s.nextHeld tid (List.filter (s.receives tid) y.held) with
    | some b => exact canon_next (hs.deliverHeld _ _)
    | none =>
      dsimp only
      exact of_ite (canon_next hs) (canon_next (hs.postAt _ _))

theorem execSiblingHaltStop_canonical (hs : s.Canonical) (gid : Nat) : Canon (execSiblingHaltStop gid s) := by
  unfold execSiblingHaltStop
  cases s.group gid with
  | none => exact canon_next hs
  | some g =>
    refine of_ite (canon_next (hs.terminate _ _ _ _ _ _ _ _)) ?_
    split
    · exact of_ite (canon_next (hs.postAt _ _)) (canon_next ((hs.withdraw _).setGroup _ _))
    · exact canon_next hs

theorem execHandlerCountExpiry_canonical (hs : s.Canonical) (gid : Nat) : Canon (execHandlerCountExpiry gid s) := by
  unfold execHandlerCountExpiry
  cases s.group gid with
  | none => exact canon_next hs
  | some g =>
    dsimp only
    cases s.team g.team with
    | none => exact canon_next hs
    | some y =>
      dsimp only
      split
      · split
        · exact canon_next ((hs.setTeam _ _).setGroup _ _)
        · exact canon_next hs
      · split
        · exact canon_next ((hs.setTeam _ _).setGroup _ _)
        · exact canon_next hs

theorem execStarvationEpisode_canonical (hs : s.Canonical) (gid : Nat) : Canon (execStarvationEpisode gid s) := by
  unfold execStarvationEpisode
  cases s.group gid with
  | none => exact canon_next hs
  | some g => exact canon_next (((hs.setCore _ _).mcEvent _ _).postEvent _ _ _)

theorem execSleepExpiry_canonical (hs : s.Canonical) (gid : Nat) : Canon (execSleepExpiry gid s) := by
  unfold execSleepExpiry
  exact canon_next (hs.setGroup _ _)

/-! ### Sys2Proof/Machine/RunEvent.lean -/

theorem runEvent_canonical (hs : s.Canonical) (e : Event) : Canon (runEvent e s) := by
  cases e with
  | deferredTrapDelivery => exact execDeferredTrapDelivery_canonical hs _
  | siblingHaltStop => exact execSiblingHaltStop_canonical hs _
  | handlerCountExpiry => exact execHandlerCountExpiry_canonical hs _
  | starvationEpisode => exact execStarvationEpisode_canonical hs _
  | slotDecision => exact execSlotDecision_canonical hs _
  | teamRetirement => exact execTeamRetirement_canonical hs _
  | childGridEnd => exact execChildGridEnd_canonical hs _
  | sleepExpiry => exact execSleepExpiry_canonical hs _
  | xacqGrant => exact execXacqGrant_canonical hs _ _ _
  | compactorCopyDone => exact execCompactorCopyDone_canonical hs _
  | registerDeadlockDetection => exact execRegisterDeadlockDetection_canonical hs _
  | registerResultLand => exact execRegisterResultLand_canonical hs _ _
  | anvilOwnershipGrant => exact execAnvilOwnershipGrant_canonical hs _
  | tileOpStart => exact execTileOpStart_canonical hs _ _
  | tileLineFetch => exact execTileLineFetch_canonical hs _ _
  | tileOpComplete => exact execTileOpComplete_canonical hs _ _
  | copyChunkDelivery => exact execCopyChunkDelivery_canonical hs _
  | queueEnqueueStep => exact execQueueEnqueueStep_canonical hs _
  | queueDequeueStep => exact execQueueDequeueStep_canonical hs _
  | queueReply => exact execQueueReply_canonical hs _
  | spillRefillLanding => exact execSpillRefillLanding_canonical hs _ _
  | bellowsSample => exact execBellowsSample_canonical hs
  | crossbarGrant => exact execCrossbarGrant_canonical hs _ _ _
  | l2Request => exact execL2Request_canonical hs _
  | l2FillComplete => exact execL2FillComplete_canonical hs _ _
  | l2Writeback => exact execL2Writeback_canonical hs _
  | monitorTimeoutExpiry => exact execMonitorTimeoutExpiry_canonical hs _
  | hearthRefreshWindow => exact execHearthRefreshWindow_canonical hs
  | hearthBankRead => exact execHearthBankRead_canonical hs _ _
  | hearthWindowLoading => exact execHearthWindowLoading_canonical hs _
  | cxlTransactionError => exact execCxlTransactionError_canonical hs _ _ _
  | serviceWarpAtomic => exact execServiceWarpAtomic_canonical hs _
  | poolAtomic => exact execPoolAtomic_canonical hs _
  | atomicReply => exact execAtomicReply_canonical hs _
  | pageWalk => exact execPageWalk_canonical hs _ _ _
  | pageRequestRelease => exact execPageRequestRelease_canonical hs _
  | prqReply => exact execPrqReply_canonical hs _
  | prqHead => exact execPrqHead_canonical hs _ _
  | bar0Write => exact execBar0Write_canonical hs _ _ _
  | heatSample => exact execHeatSample_canonical hs _ _
  | heatDecaySweep => exact execHeatDecaySweep_canonical hs _
  | migrationLineCopy => exact execMigrationLineCopy_canonical hs _
  | migrationFinish => exact execMigrationFinish_canonical hs _
  | rowRetirement => exact execRowRetirement_canonical hs _ _ _
  | interestArrival => exact execInterestArrival_canonical hs _
  | interestRetry => exact execInterestRetry_canonical hs _ _
  | interestSlotExpiry => exact execInterestSlotExpiry_canonical hs _ _ _
  | tileAnswerArrival => exact execTileAnswerArrival_canonical hs _
  | namedTileDelivery => exact execNamedTileDelivery_canonical hs _ _ _
  | ticketExpiry => exact execTicketExpiry_canonical hs _ _
  | nannCopyComplete => exact execNannCopyComplete_canonical hs _
  | swageCountComplete => exact execSwageCountComplete_canonical hs _ _
  | flitReceive => exact execFlitReceive_canonical hs _ _ _
  | recLandingRetry => exact execRecLandingRetry_canonical hs _
  | ackReceive => exact execAckReceive_canonical hs _ _ _
  | ackSend => exact execAckSend_canonical hs _
  | retryTimeout => exact execRetryTimeout_canonical hs _
  | portForwardDecision => exact execPortForwardDecision_canonical hs _
  | keySwitchover => exact execKeySwitchover_canonical hs _
  | keySlotRetire => exact execKeySlotRetire_canonical hs _
  | collFlitArrival => exact execCollFlitArrival_canonical hs _ _
  | collectiveTimeout => exact execCollectiveTimeout_canonical hs _
  | poolOpLine => exact execPoolOpLine_canonical hs _
  | collectorServe => exact execCollectorServe_canonical hs _
  | preemptStopComplete => exact execPreemptStopComplete_canonical hs _
  | preemptSaveComplete => exact execPreemptSaveComplete_canonical hs _
  | restorePlacement => exact execRestorePlacement_canonical hs _
  | graphRunEnd => exact execGraphRunEnd_canonical hs _
  | eventRingRelease => exact execEventRingRelease_canonical hs _ _
  | reset => exact execReset_canonical hs
  | wipeComplete => exact execWipeComplete_canonical hs
  | firmwareVerified => exact execFirmwareVerified_canonical hs
  | powerLimitStep => exact execPowerLimitStep_canonical hs _
  | thermalTrip => exact execThermalTrip_canonical hs
  | ageingSample => exact execAgeingSample_canonical hs _
  | unknownCommand => exact execUnknownCommand_canonical hs _
  | submitGraph => exact execSubmitGraph_canonical hs _
  | endRun => exact execEndRun_canonical hs _
  | sealQueue => exact execSealQueue_canonical hs _
  | restartStage => exact execRestartStage_canonical hs _
  | hearthDrain => exact execHearthDrain_canonical hs _
  | hearthWrite => exact execHearthWrite_canonical hs _
  | hearthOpen => exact execHearthOpen_canonical hs _
  | setRoute => exact execSetRoute_canonical hs _
  | clearNames => exact execClearNames_canonical hs _
  | setCrucible => exact execSetCrucible_canonical hs _
  | setXlate => exact execSetXlate_canonical hs _
  | shootdown => exact execShootdown_canonical hs _
  | setColl => exact execSetColl_canonical hs _
  | setPool => exact execSetPool_canonical hs _
  | heatRead => exact execHeatRead_canonical hs _
  | setDecay => exact execSetDecay_canonical hs _
  | migrate => exact execMigrate_canonical hs _
  | retireRow => exact execRetireRow_canonical hs _ _
  | clearRetlog => exact execClearRetlog_canonical hs _ _
  | preempt => exact execPreempt_canonical hs _
  | preemptFunction => exact execPreemptFunction_canonical hs _
  | restore => exact execRestore_canonical hs _
  | terminate => exact execTerminate_canonical hs _
  | attach => exact execAttach_canonical hs _
  | resume => exact execResume_canonical hs _
  | linkTrain => exact execLinkTrain_canonical hs _ _ _
  | keyInstall => exact execKeyInstall_canonical hs _
  | setMode => exact execSetMode_canonical hs _
  | quote => exact execQuote_canonical hs _
  | lifecycle => exact execLifecycle_canonical hs _ _
  | health => exact execHealth_canonical hs _
  | hostPortAccess => exact execHostPortAccess_canonical hs _ _ _
  | registerError => exact canon_next (hs.registerError _ _ _ _ _)
  | tileError => exact canon_next (hs.tileError _ _ _ _)
  | scratchError => exact canon_next (hs.scratchError _ _ _)
  | lineError => exact canon_next (hs.lineError _)
  | cxlWindow => exact canon_next (hs.setWindow _ _ _)
  | collStep => exact canon_next (hs.collGo _)
  | commandFetch => exact canon_next (hs.nextCommand _)
  | wayRetry => exact canon_next (hs.wayRetry _ _)
  | functionReset => exact canon_next (hs.clearNames _)
  | linkKeyManagement => exact execLinkKeyManagement_canonical hs _ _ _ _ _

/-! ### Sys2Proof/Machine/Select.lean -/

theorem State.Canonical.fetchRead (hs : s.Canonical) (gid : Nat) (code : Option Nat) (a : Va) (new : Bool) :
    (s.fetchRead gid code a new).1.Canonical := by
  unfold State.fetchRead
  split
  next s1 f e =>
  have h1 : s1.Canonical := canonical_of_eq e (hs.fetchWord _ _ _)
  cases f with
  | word w =>
    cases s1.fetchBad gid a with
    | none => exact h1
    | some pa => exact canonical_ite (h1.poisonEvent _) h1
  | _ => exact h1

theorem State.Canonical.fetchInstr (hs : s.Canonical) (gid : Nat) (code : Option Nat) (pc : Va) :
    (s.fetchInstr gid code pc).1.Canonical := by
  unfold State.fetchInstr
  split
  rename_i e
  split
  · exact canonical_of_eq e (hs.fetchRead _ _ _ _)
  · exact canonical_of_eq e (hs.fetchRead _ _ _ _)
  · exact canonical_of_eq e (hs.fetchRead _ _ _ _)
  · dsimp only
    split
    · split
      · exact (canonical_of_eq e (hs.fetchRead _ _ _ _)).fetchRead _ _ _ _
      · exact (canonical_of_eq e (hs.fetchRead _ _ _ _)).fetchRead _ _ _ _
      · exact (canonical_of_eq e (hs.fetchRead _ _ _ _)).fetchRead _ _ _ _
      · exact (canonical_of_eq e (hs.fetchRead _ _ _ _)).fetchRead _ _ _ _
    · exact canonical_of_eq e (hs.fetchRead _ _ _ _)

theorem State.Canonical.nextInstr (hs : s.Canonical) (gid : Nat) (g : Group) (code : Option Nat) :
    (s.nextInstr gid g code).1.Canonical := by
  unfold State.nextInstr
  cases g.held with
  | some r =>
    dsimp only
    split
    · split
      · exact hs
      · exact hs.fetchInstr _ _ _
    · exact hs.fetchInstr _ _ _
  | none => exact hs.fetchInstr _ _ _

/-! ### Sys2Proof/Machine/Dispatch.lean -/

/-- Every instruction keeps the form: by its own execution where it changes more than registers. -/
theorem exec_canonical (hs : s.Canonical) (i : Instr) : Canon (exec i s) := by
  let f := delta% exec -- the table of executions stands once in the context and not in every goal
  change Canon (f i s)
  cases i with
  | illegal | unassignedOpcode | nop | ret | jmpr | trap => exact issue_canonical hs _ _ (fun _ _ hs => hs)
  | callr | setpri | rdmode | rdx | wrx | prds | pwrs | pand | por | pxor | pandn | pnot | pset | pcnt | pffs | add | sub | mul | mulh
  | mad | min | max | abs | neg | and | or | xor | not | shl | shr | sar | clz | popc | bfx | bins | sel | cmpeq | cmpne | cmplt
  | cmple | cmpgt | cmpge | mov | movs | movi | laneid | fadd | fsub | fmul | fma | fmin | fmax | fabs | fneg | fcmpeq | fcmpne
  | fcmplt | fcmple | fcmpgt | fcmpge | fcmpun | frcp | frsq | fsqrt | fexp2 | flog2 | fsin | fcos | ftanh | fclass | cvt | pq | px
  | topkins | keepk | fldexp | ffrexp | sadd | ssub | smul | smin | smax | sand | sor | sxor | sshl | sshr | ssar | scmpeq | scmpne
  | scmplt | scmple | scmpltn | scmplen | smov | smovi | saddi | sclz | spopc | shfl | shflup | shfldn | shflx | lrd | lwr | rsum
  | rmax | scanx | mfence | setrst | tmask | clk => exact issue_canonical hs _ _ (fun _ _ hs => hs.setGroup _ _)
  | yield => exact issue_canonical hs _ _ (fun _ _ hs => hs.leaveActive _)
  | setmode | setmodes => exact issue_canonical hs _ _ (fun _ _ hs => Ix.writeMr_canonical hs _ _)
  | xrel =>
    exact issue_canonical hs _ _ (fun _ _ hs => canonical_ite ((hs.setGroup _ _).setTeam _ _)
      (((hs.setGroup _ _).setTeam _ _).postOnceAt _ _))
  | ldsw | ldsd | ldsq => exact issue_canonical hs _ _ (fun _ _ hs => Ix.scratchLoad_canonical hs _ _ _ _ _)
  | stsw | stsd | stsq => exact issue_canonical hs _ _ (fun _ _ hs => Ix.scratchStore_canonical hs _ _ _ _ _)
  | asadd | asmin | asmax | asand | asor | asxor | asxch | ascas =>
    exact issue_canonical hs _ _ (fun _ _ hs => Ix.scratchAtomic_canonical hs _ _ _ _ _)
  | bwait => exact issue_canonical hs _ _ (fun _ _ hs => Ix.barrier_canonical hs _ _ _ _ (fun _ _ _ _ hs => hs.waitOn _ _ _ _))
  | btest => exact issue_canonical hs _ _ (fun _ _ hs => Ix.barrier_canonical hs _ _ _ _ (fun _ _ _ _ hs => Ix.upd_canonical hs _ _))
  | binv =>
    exact issue_canonical hs _ _ (fun _ _ hs => Ix.barrier_canonical hs _ _ _ _
      (fun _ _ _ _ hs => canonical_ite hs (hs.invalidate _ _ _)))
  | ldb | ldh | ldw | ldd | ldq => exact issue_canonical hs _ _ (fun _ _ hs => Ix.load_canonical hs _ _ _ _ _ _)
  | stb | sth | stw | std | stq => exact issue_canonical hs _ _ (fun _ _ hs => Ix.store_canonical hs _ _ _ _ _ _)
  | sldw | sldd => exact issue_canonical hs _ _ (fun _ _ hs => Ix.loadWhole_canonical hs _ _ _ _ _)
  | sstw | sstd => exact issue_canonical hs _ _ (fun _ _ hs => Ix.storeWhole_canonical hs _ _ _ _ _)
  | aadd | asub | amin | amax | aand | aor | axor | axch | acas | ainc | adec | afadd =>
    exact issue_canonical hs _ _ (fun _ _ hs => Ix.atomic_canonical hs _ _ _ _ _ _)
  | gath | gathq => exact issue_canonical hs _ _ (fun _ _ hs => Ix.gather_canonical hs _ _ _ _ _)
  | mxtry => exact issue_canonical hs _ _ (fun _ _ hs => Ix.upd_canonical (canonical_ite (hs.setCore _ _) hs) _ _)
  | mma | mmas => exact issue_canonical hs _ _ (fun _ _ hs => Ix.mma_canonical hs _ _ _ _ _)
  | accz | accwr => exact issue_canonical hs _ _ (fun _ _ hs => Ix.tileOp_canonical hs _ _ _ (fun _ => Ix.enqueue_canonical hs _ _ _ _ _))
  | qenq => exact issue_canonical hs _ _ (fun _ _ hs => Ix.queue_canonical hs _ _ _ (fun _ _ => Ix.enq_canonical hs _ _ _ _))
  | qdeq => exact issue_canonical hs _ _ (fun _ _ hs => Ix.queue_canonical hs _ _ _ (fun _ _ => Ix.deq_canonical hs _ _ _ _ _))
  | qlen | qinfo => exact issue_canonical hs _ _ (fun _ _ hs => Ix.queue_canonical hs _ _ _ (fun _ _ => Ix.queueRead_canonical hs _ _ _))
  | xagree | xsum => exact issue_canonical hs _ _ (fun _ _ hs => Ix.collective_canonical hs _ _ _ _)
  | plfill | plcopy | plcmp | plred => exact issue_canonical hs _ _ (fun _ _ hs => Ix.nearMemory_canonical hs _ _ _ _)
  | tunmask => exact issue_canonical hs _ _ (fun _ _ hs => (hs.setGroup _ _).askDelivery _)
  | wrsr => exact issue_canonical hs _ _ (fun _ _ hs => canonical_ite ((hs.setGroup _ _).askDelivery _) (hs.setGroup _ _))
  | br => exact execBr_canonical hs _ _ _ _
  | brp => exact execBrp_canonical hs _ _ _ _
  | brexz => exact execBrexz_canonical hs _
  | call => exact execCall_canonical hs _ _ _ _
  | ifp => exact execIfp_canonical hs _ _ _ _
  | elsep => exact execElsep_canonical hs _
  | endif => exact execEndif_canonical hs
  | spawn => exact execSpawn_canonical hs _ _ _
  | spawnw => exact execSpawnw_canonical hs _ _ _
  | exit => exact execExit_canonical hs
  | sleep => exact execSleep_canonical hs _
  | lnch => exact execLnch_canonical hs _ _ _
  | xacq => exact execXacq_canonical hs _
  | xtry => exact execXtry_canonical hs _ _
  | binit => exact execBinit_canonical hs _ _
  | barr => exact execBarr_canonical hs _
  | barrtx => exact execBarrtx_canonical hs _ _
  | cpgs => exact execCpgs_canonical hs _ _ _
  | waitc => exact execWaitc_canonical hs _ _ _ _
  | waitp => exact execWaitp_canonical hs _ _
  | ord => exact execOrd_canonical hs _ _ _
  | fence => exact execFence_canonical hs _ _
  | mona => exact execMona_canonical hs _ _
  | mwt => exact execMwt_canonical hs _
  | pref => exact execPref_canonical hs _ _
  | wcfl => exact execWcfl_canonical hs
  | pgld => exact execPgld_canonical hs _ _
  | pgfree => exact execPgfree_canonical hs _
  | fopen => exact execFopen_canonical hs _ _ _
  | fadv => exact execFadv_canonical hs _ _
  | fend => exact execFend_canonical hs _ _
  | fclose => exact execFclose_canonical hs _
  | fpos => exact execFpos_canonical hs _ _
  | mxacq => exact execMxacq_canonical hs
  | mxrel => exact execMxrel_canonical hs
  | accrd => exact execAccrd_canonical hs _ _ _
  | accst => exact execAccst_canonical hs _ _ _
  | mwaitb => exact execMwaitb_canonical hs _
  | qenqm => exact execQenqm_canonical hs _ _ _
  | qdeqm => exact execQdeqm_canonical hs _ _ _
  | qseal => exact execQseal_canonical hs _
  | nint => exact execNint_canonical hs _ _ _
  | nann => exact execNann_canonical hs _ _
  | nseal => exact execNseal_canonical hs _
  | ndrop => exact execNdrop_canonical hs _
  | nstat => exact execNstat_canonical hs _ _
  | snopen => exact execSnopen_canonical hs _ _
  | snclose => exact execSnclose_canonical hs _
  | snbind => exact execSnbind_canonical hs _
  | tret => exact execTret_canonical hs
  | rdsr => exact execRdsr_canonical hs _ _
  | brk => exact execBrk_canonical hs _
  | deferredTrapDelivery => exact execDeferredTrapDelivery_canonical hs _
  | siblingHaltStop => exact execSiblingHaltStop_canonical hs _
  | handlerCountExpiry => exact execHandlerCountExpiry_canonical hs _
  | starvationEpisode => exact execStarvationEpisode_canonical hs _
  | slotDecision => exact execSlotDecision_canonical hs _
  | teamRetirement => exact execTeamRetirement_canonical hs _
  | childGridEnd => exact execChildGridEnd_canonical hs _
  | sleepExpiry => exact execSleepExpiry_canonical hs _
  | xacqGrant => exact execXacqGrant_canonical hs _ _ _
  | compactorCopyDone => exact execCompactorCopyDone_canonical hs _
  | registerDeadlockDetection => exact execRegisterDeadlockDetection_canonical hs _
  | registerResultLand => exact execRegisterResultLand_canonical hs _ _
  | anvilOwnershipGrant => exact execAnvilOwnershipGrant_canonical hs _
  | tileOpStart => exact execTileOpStart_canonical hs _ _
  | tileLineFetch => exact execTileLineFetch_canonical hs _ _
  | tileOpComplete => exact execTileOpComplete_canonical hs _ _
  | copyChunkDelivery => exact execCopyChunkDelivery_canonical hs _
  | queueEnqueueStep => exact execQueueEnqueueStep_canonical hs _
  | queueDequeueStep => exact execQueueDequeueStep_canonical hs _
  | queueReply => exact execQueueReply_canonical hs _
  | spillRefillLanding => exact execSpillRefillLanding_canonical hs _ _
  | bellowsSample => exact execBellowsSample_canonical hs
  | crossbarGrant => exact execCrossbarGrant_canonical hs _ _ _
  | l2Request => exact execL2Request_canonical hs _
  | l2FillComplete => exact execL2FillComplete_canonical hs _ _
  | l2Writeback => exact execL2Writeback_canonical hs _
  | monitorTimeoutExpiry => exact execMonitorTimeoutExpiry_canonical hs _
  | hearthRefreshWindow => exact execHearthRefreshWindow_canonical hs
  | hearthBankRead => exact execHearthBankRead_canonical hs _ _
  | hearthWindowLoading => exact execHearthWindowLoading_canonical hs _
  | cxlTransactionError => exact execCxlTransactionError_canonical hs _ _ _
  | serviceWarpAtomic => exact execServiceWarpAtomic_canonical hs _
  | poolAtomic => exact execPoolAtomic_canonical hs _
  | atomicReply => exact execAtomicReply_canonical hs _
  | pageWalk => exact execPageWalk_canonical hs _ _ _
  | pageRequestRelease => exact execPageRequestRelease_canonical hs _
  | prqReply => exact execPrqReply_canonical hs _
  | prqHead => exact execPrqHead_canonical hs _ _
  | bar0Write => exact execBar0Write_canonical hs _ _ _
  | heatSample => exact execHeatSample_canonical hs _ _
  | heatDecaySweep => exact execHeatDecaySweep_canonical hs _
  | migrationLineCopy => exact execMigrationLineCopy_canonical hs _
  | migrationFinish => exact execMigrationFinish_canonical hs _
  | rowRetirement => exact execRowRetirement_canonical hs _ _ _
  | interestArrival => exact execInterestArrival_canonical hs _
  | interestRetry => exact execInterestRetry_canonical hs _ _
  | interestSlotExpiry => exact execInterestSlotExpiry_canonical hs _ _ _
  | tileAnswerArrival => exact execTileAnswerArrival_canonical hs _
  | namedTileDelivery => exact execNamedTileDelivery_canonical hs _ _ _
  | ticketExpiry => exact execTicketExpiry_canonical hs _ _
  | nannCopyComplete => exact execNannCopyComplete_canonical hs _
  | swageCountComplete => exact execSwageCountComplete_canonical hs _ _
  | flitReceive => exact execFlitReceive_canonical hs _ _ _
  | recLandingRetry => exact execRecLandingRetry_canonical hs _
  | ackReceive => exact execAckReceive_canonical hs _ _ _
  | ackSend => exact execAckSend_canonical hs _
  | retryTimeout => exact execRetryTimeout_canonical hs _
  | portForwardDecision => exact execPortForwardDecision_canonical hs _
  | keySwitchover => exact execKeySwitchover_canonical hs _
  | keySlotRetire => exact execKeySlotRetire_canonical hs _
  | collFlitArrival => exact execCollFlitArrival_canonical hs _ _
  | collectiveTimeout => exact execCollectiveTimeout_canonical hs _
  | poolOpLine => exact execPoolOpLine_canonical hs _
  | collectorServe => exact execCollectorServe_canonical hs _
  | preemptStopComplete => exact execPreemptStopComplete_canonical hs _
  | preemptSaveComplete => exact execPreemptSaveComplete_canonical hs _
  | restorePlacement => exact execRestorePlacement_canonical hs _
  | graphRunEnd => exact execGraphRunEnd_canonical hs _
  | eventRingRelease => exact execEventRingRelease_canonical hs _ _
  | reset => exact execReset_canonical hs
  | wipeComplete => exact execWipeComplete_canonical hs
  | firmwareVerified => exact execFirmwareVerified_canonical hs
  | powerLimitStep => exact execPowerLimitStep_canonical hs _
  | thermalTrip => exact execThermalTrip_canonical hs
  | ageingSample => exact execAgeingSample_canonical hs _
  | unknownCommand => exact execUnknownCommand_canonical hs _
  | submitGraph => exact execSubmitGraph_canonical hs _
  | endRun => exact execEndRun_canonical hs _
  | sealQueue => exact execSealQueue_canonical hs _
  | restartStage => exact execRestartStage_canonical hs _
  | hearthDrain => exact execHearthDrain_canonical hs _
  | hearthWrite => exact execHearthWrite_canonical hs _
  | hearthOpen => exact execHearthOpen_canonical hs _
  | setRoute => exact execSetRoute_canonical hs _
  | clearNames => exact execClearNames_canonical hs _
  | setCrucible => exact execSetCrucible_canonical hs _
  | setXlate => exact execSetXlate_canonical hs _
  | shootdown => exact execShootdown_canonical hs _
  | setColl => exact execSetColl_canonical hs _
  | setPool => exact execSetPool_canonical hs _
  | heatRead => exact execHeatRead_canonical hs _
  | setDecay => exact execSetDecay_canonical hs _
  | migrate => exact execMigrate_canonical hs _
  | retireRow => exact execRetireRow_canonical hs _ _
  | clearRetlog => exact execClearRetlog_canonical hs _ _
  | preempt => exact execPreempt_canonical hs _
  | preemptFunction => exact execPreemptFunction_canonical hs _
  | restore => exact execRestore_canonical hs _
  | terminate => exact execTerminate_canonical hs _
  | attach => exact execAttach_canonical hs _
  | resume => exact execResume_canonical hs _
  | linkTrain => exact execLinkTrain_canonical hs _ _ _
  | keyInstall => exact execKeyInstall_canonical hs _
  | setMode => exact execSetMode_canonical hs _
  | quote => exact execQuote_canonical hs _
  | lifecycle => exact execLifecycle_canonical hs _ _
  | health => exact execHealth_canonical hs _
  | hostPortAccess => exact execHostPortAccess_canonical hs _ _ _
  | linkKeyManagement => exact execLinkKeyManagement_canonical hs _ _ _ _ _

/-! ### Sys2Proof/Machine/Select.lean -/

theorem State.Canonical.runIn (hs : s.Canonical) (time code : Option Nat) (gid : Nat) (g : Group) (p : Nat) (f : Fetched) :
    ∀ o, s.runIn time code gid g p f = some o → Canon o := by
  intro o e
  unfold State.runIn at e
  extract_lets c at e
  split at e
  · cases e
  · cases e
  · cases e
    exact canon_next ((hs.stamp _ _).takeTrap _ _)
  · next i pre =>
    have h := exec_canonical (hs.withCur (some { c with pre := pre })) i
    split at e
    · next et =>
      split at e
      · cases e
      · cases e
        exact canon_next ((h _ et).withCur _)
    · cases e
      exact h

theorem State.Canonical.pass (hs : s.Canonical) (n : Nat) : (s.pass n).Canonical := by
  unfold State.pass
  exact canonical_ite hs (canonical_foldl (fun _ _ hs => canonical_ite hs (canonical_ite ((hs.setGroup _ _).post _) (hs.setGroup _ _))) _
    hs.update)

theorem State.Canonical.tryIssue (hs : s.Canonical) (time code : Option Nat) (pipes : List Nat) (gid : Nat) :
    ∀ o, s.tryIssue time code pipes gid = some o → Canon o := by
  intro o e
  unfold State.tryIssue at e
  split at e
  · cases e
  · next g _ =>
    split at e
    · cases e
    · have h := hs.nextInstr gid g code
      dsimp only at e
      split at e
      · split at e
        · cases e
          exact canon_next h
        · cases e
      · obtain ⟨k, _, e⟩ := Option.bind_eq_some_iff.1 e
        obtain ⟨p, _, e⟩ := Option.bind_eq_some_iff.1 e
        exact h.runIn _ _ _ _ _ _ _ e

theorem State.Canonical.issueCore (hs : s.Canonical) (time code : Option Nat) (pipes : List Nat) (core : Nat) :
    ∀ o, s.issueCore time code pipes core = some o → Canon o := by
  intro o e
  obtain ⟨x, _, e⟩ := List.exists_of_findSome?_eq_some e
  exact hs.tryIssue _ _ _ _ _ e

theorem State.Canonical.playEvent (hs : s.Canonical) (k : Nat) : Canon (s.playEvent k) := by
  unfold State.playEvent
  cases s.agenda[k]? with
  | none => exact canon_next hs
  | some d => exact of_ite (runEvent_canonical hs.update _) (canon_next hs)

theorem State.Canonical.playTurn (hs : s.Canonical) (t : Turn) (rest : List Turn) : Canon (s.playTurn t rest) := by
  unfold State.playTurn
  have h : (State.pass { s with turns := rest } t.wait).Canonical := hs.update.pass _
  dsimp only
  cases t.move with
  | event k => exact h.playEvent _
  | pipe c p => exact canon_ite (canon_next h) (canon_getD (canon_next h) (h.issueCore _ _ _ _))

theorem State.Canonical.playDefault (hs : s.Canonical) : Canon s.playDefault := by
  unfold State.playDefault
  cases s.firstReady fun e => !isDecision e with
  | some n => exact hs.playEvent _
  | none =>
    dsimp only
    split
    · next e =>
      obtain ⟨x, _, e⟩ := List.exists_of_findSome?_eq_some e
      exact hs.issueCore _ _ _ _ _ e
    · cases s.firstReady isDecision with
      | some n => exact hs.playEvent _
      | none => exact canon_next (hs.pass _)

/-! ### Sys2Proof/Machine/Step.lean -/

theorem step_canonical (hs : s.Canonical) : Canon (step s) := by
  unfold step
  cases s.turns with
  | cons t rest => exact hs.playTurn _ _
  | nil => exact hs.playDefault

end Sys2Proof.Machine
end

section
/-! PROOF. O58, from the form kept by each operation. -/
namespace Sys2Proof.Machine
open Sys2Proof

/-- Settles O58: a step plays a turn or the default schedule, and either keeps the form. -/
theorem formKept : Obligations.FormKept := by
  unfold Obligations.FormKept
  intro s t hs e
  exact State.canonical_iff.1 (step_canonical (State.canonical_iff.2 hs) t e)

end Sys2Proof.Machine
end

section
/-! PROOF. O28, from what serves a load and the time that it takes. -/
namespace Sys2Proof.Machine
open Sys2Proof
set_option Elab.async false

section
variable {s : State} {x : Ix} {tg : Target} {g : Group}

/-- Without observers to tell apart, the scope holds every agent. -/
theorem scope_eq_none_of_viewsOf {w : Nat} {l : Line} {sc : Option Inst} (h : viewsOf g w l sc = []) : sc = none := by
  cases sc with
  | none => rfl
  | some i => simp [viewsOf, List.eraseDups_cons] at h

theorem orderAt_none (o : Order) : orderAt o none none = o := rfl

/-- Toward all observers alone, a load takes the time that it asks for. -/
theorem loadTime_nil (l : Line) (floor : Inst → Nat) (t : Nat) : loadTime l floor [] t = t := by
  have hfree (u : Nat) : loadBlocked l floor [] u = false := by
    unfold loadBlocked
    split <;> rfl
  simp [loadTime, hfree]

theorem lowOf_of_first (h : x.again = false) (L : Nat) : x.lowOf L = 0 := by
  unfold Ix.lowOf
  split
  · next e => simp [h] at e
  · rfl

/-- A thread's times toward no narrower observers stand as they are. -/
theorem Group.updNear_nil (w : Nat) (f : Inst → Times → Times) : g.updNear w [] f = g := by
  unfold Group.updNear
  exact foldl_keeps id _ (fun _ _ => rfl) _ g

theorem Line.readAtViews_nil (l : Line) (f : Inst → Nat) : l.readAtViews [] f = l := rfl

/-! ## What serves a load (R225) -/

/-- The state once the L1, or the source, has served a load. -/
def State.served (s : State) (x : Ix) (tg : Target) (t : Nat) : State :=
  (if leased (s.core x.g.core).l1 (lineOf tg.pa) t then s
    else ((s.route x.g.core tg.pa).holdBank tg.pa).awaitFill x.gid x.op tg.lane tg.pa).l1Fill x.g.core (lineOf tg.pa) t

theorem State.stored_holdBank (s : State) (pa : Nat) : (s.holdBank pa).stored = s.stored := by
  unfold State.holdBank
  split <;> rfl

theorem State.stored_awaitFill (s : State) (gid op lane pa : Nat) : (s.awaitFill gid op lane pa).stored = s.stored := by
  unfold State.awaitFill
  split <;> rfl

theorem State.stored_fetched (s : State) (x : Ix) (tg : Target) (t : Nat) :
    (if leased (s.core x.g.core).l1 (lineOf tg.pa) t then s
      else ((s.route x.g.core tg.pa).holdBank tg.pa).awaitFill x.gid x.op tg.lane tg.pa).stored = s.stored := by
  split
  · rfl
  · rw [State.stored_awaitFill, State.stored_holdBank, unasked_stored.route]

theorem State.mem_served (s : State) (x : Ix) (tg : Target) (t : Nat) : (s.served x tg t).mem = s.mem :=
  congrArg Prod.fst (s.stored_fetched x tg t)

theorem State.lines_served (s : State) (x : Ix) (tg : Target) (t : Nat) : (s.served x tg t).lines = s.lines :=
  congrArg (fun p => p.2.2.2) (s.stored_fetched x tg t)

theorem State.combine_served (s : State) (x : Ix) (tg : Target) (t : Nat) :
    ((s.served x tg t).core x.g.core).combine = (s.core x.g.core).combine := by
  have h := congrArg (fun p => (Assoc.getD p.2.2.1 x.g.core Core.fresh).combine) (s.stored_fetched x tg t)
  unfold State.served State.l1Fill
  rw [State.core_setCore_same]
  exact h

/-- Serving a load lists at most a fill that the group waits for. -/
theorem State.group_served (hg : s.group x.gid = some g) (t : Nat) :
    ∃ h, (s.served x tg t).group x.gid = some h ∧ { h with fills := g.fills } = g := by
  have hroute : ((s.route x.g.core tg.pa).holdBank tg.pa).group x.gid = some g := by
    have hgroups : ((s.route x.g.core tg.pa).holdBank tg.pa).groups = s.groups := by
      have hr : (s.route x.g.core tg.pa).groups = s.groups :=
        Unasked.route (f := State.groups) ⟨fun _ _ => rfl, fun _ _ => rfl, fun _ _ => rfl⟩ s _ _ _
      unfold State.holdBank
      split <;> exact hr
    unfold State.group at hg ⊢
    rw [hgroups, hg]
  unfold State.served
  split
  · exact ⟨g, hg, rfl⟩
  · unfold State.awaitFill
    split
    · exact ⟨g, hroute, rfl⟩
    · exact ⟨{ g with fills := g.fills ++ [{ op := x.op, lane := tg.lane, line := lineOf tg.pa }] },
        (State.group_setGroup_same _ _ _).trans (congrArg _ hroute), rfl⟩

/-! ## A load at a scope that holds every agent (R249, R250) -/

/-- The time of such a load. -/
def State.loadAt (s : State) (x : Ix) (tg : Target) (g : Group) : Nat :=
  Nat.max (Nat.max (Nat.max ((g.tmOf tg.lane).loadFloor x.order) (g.seenOf tg.lane (lineOf tg.pa))) (s.hearthTime tg.pa))
    (x.time.getD (s.line (lineOf tg.pa)).wtime)

/-- The state that such a load leaves. -/
def State.loaded (s : State) (x : Ix) (tg : Target) (t : Nat) : State :=
  ((s.served x tg t).setLine (lineOf tg.pa) (fun l => { l with rtime := Nat.max l.rtime t })).setGroup x.gid
    (fun g => (g.updTm tg.lane (fun y => y.load x.order t)).sees tg.lane (lineOf tg.pa) t)

variable (hagain : x.again = false) (howners : (s.line (lineOf tg.pa)).owners = [])
  (hviews : viewsOf g tg.lane (s.line (lineOf tg.pa)) (s.instOf x.gid g tg.lane x.scope) = [])
include hagain howners hviews

theorem State.timedLoad_eq (z : Nat) :
    s.timedLoad x z tg g =
      let r := s.loaded x tg (s.loadAt x tg g)
      (r.poisonRead tg.pa, .ok (leNat (r.forward x.g.core x.gid tg.pa (r.bytesAt tg.pa z (s.loadAt x tg g)))) (s.line (lineOf tg.pa)).bad) := by
  have hscope := scope_eq_none_of_viewsOf hviews
  rw [hscope] at hviews
  unfold State.timedLoad
  simp only [hviews, hscope, howners, orderAt_none, loadTime_nil, lowOf_of_first hagain, ne_eq, not_true_eq_false, false_and, if_false,
    Nat.max_zero, State.tookLoad, Group.updNear_nil, Line.readAtViews_nil]
  rfl

end

section
variable {s : State} {x : Ix} {tg : Target} (t : Nat)

theorem State.line_loaded : (s.loaded x tg t).line (lineOf tg.pa) =
    { s.line (lineOf tg.pa) with rtime := Nat.max (s.line (lineOf tg.pa)).rtime t } := by
  have hline : (s.served x tg t).line (lineOf tg.pa) = s.line (lineOf tg.pa) := by simp only [State.line, State.lines_served]
  rw [← hline]
  exact State.line_setLine_same (s.served x tg t) (lineOf tg.pa) (fun l => { l with rtime := Nat.max l.rtime t })

theorem State.versions_loaded (n : Nat) : ((s.loaded x tg t).line n).versions = (s.line n).versions := by
  by_cases hn : n = lineOf tg.pa
  · rw [hn, State.line_loaded]
  · have h : (s.loaded x tg t).line n = (s.served x tg t).line n :=
      State.line_setLine_other (s.served x tg t) (fun l => { l with rtime := Nat.max l.rtime t }) hn
    rw [h, State.line, State.lines_served, State.line]

theorem State.bytesAt_loaded (z u : Nat) : (s.loaded x tg t).bytesAt tg.pa z u = s.bytesAt tg.pa z u := by
  have hmem : (s.loaded x tg t).mem = s.mem := s.mem_served x tg t
  simp only [State.bytesAt, State.versions_loaded, hmem]

/-- Without a combined byte the group reads memory's. -/
theorem State.forward_of_none {core : Nat} (h : (s.core core).combine = []) (gid pa : Nat) (data : List Byte) :
    s.forward core gid pa data = data := by
  simp [State.forward, h]

/-- The fills that a group waits for take no part in its threads' times. -/
theorem Group.fills_sees_updTm (h : Group) (l : List Fill) (w n u : Nat) (f : Times → Times) :
    { (h.updTm w f).sees w n u with fills := l } = (({ h with fills := l } : Group).updTm w f).sees w n u := by
  unfold Group.updTm
  split <;> rfl

end

/-- Settles O28: the load is `State.loaded` at the time `State.loadAt`. -/
theorem loadLane : Obligations.LoadLane := by
  unfold Obligations.LoadLane
  intro s x z last tg g hagain hg htyp howners hbad hsnap hcombine hatoms hviews
  have hload : s.loadLane x z last tg = s.timedLoad x z tg g := by
    simp [State.loadLane, hg, htyp, hatoms, hsnap]
  set t := s.loadAt x tg g with ht
  have hcombined : (s.loaded x tg t).forward x.g.core x.gid tg.pa (s.bytesAt tg.pa z t) = s.bytesAt tg.pa z t :=
    State.forward_of_none ((s.combine_served x tg t).trans hcombine) _ _ _
  have hclean : ((s.loaded x tg t).line (lineOf tg.pa)).bad = false := by
    rw [State.line_loaded]
    exact hbad
  obtain ⟨h, hh, hfills⟩ := State.group_served (tg := tg) hg t
  have hline := State.line_loaded (s := s) (x := x) (tg := tg) t
  refine ⟨s.loaded x tg t, (h.updTm tg.lane (fun y => y.load x.order t)).sees tg.lane (lineOf tg.pa) t, ?_, s.mem_served x tg t,
    State.versions_loaded t _, congrArg Line.rtime hline, ?_, ?_⟩
  · rw [hload, State.timedLoad_eq hagain howners hviews]
    simp only [← ht, State.bytesAt_loaded, hcombined, State.poisonRead_of_clean hclean, hbad]
    rfl
  · exact (State.group_setGroup_same _ _ _).trans (congrArg _ hh)
  · rw [Group.fills_sees_updTm, hfills]
    rfl

end Sys2Proof.Machine
end

section
/-! PROOF. O29, from what one write of a line changes. -/
namespace Sys2Proof.Machine
open Sys2Proof
set_option Elab.async false

/-! ## Lists of cells by address -/

section
variable {α : Type} {l r : Assoc α} {a : Nat}

theorem Assoc.get_append (l r : Assoc α) (a : Nat) : Assoc.get (l ++ r) a = (Assoc.get l a).or (Assoc.get r a) := by
  induction l with
  | nil => rfl
  | cons p l ih =>
    rw [List.cons_append]
    by_cases h : p.1 = a <;> simp [Assoc.get, h, ih]

theorem Assoc.get_filter_key (p : Nat → Bool) (l : Assoc α) (a : Nat) :
    Assoc.get (l.filter (fun c => p c.1)) a = if p a then Assoc.get l a else none := by
  induction l with
  | nil => simp [Assoc.get]
  | cons c l ih =>
    by_cases hc : c.1 = a
    · subst hc
      by_cases hp : p c.1 <;> simp [Assoc.get, hp, ih]
    · by_cases hp : p c.1 <;> simp [Assoc.get, hp, hc, ih]

theorem Assoc.get_map_key (f : Nat → α → α) (l : Assoc α) (a : Nat) :
    Assoc.get (l.map (fun c => (c.1, f c.1 c.2))) a = (Assoc.get l a).map (f a) := by
  induction l with
  | nil => rfl
  | cons c l ih =>
    by_cases hc : c.1 = a
    · subst hc
      simp [Assoc.get]
    · simp [Assoc.get, hc, ih]

theorem Assoc.get_eq_none_iff : Assoc.get l a = none ↔ a ∉ l.map Prod.fst := by
  induction l with
  | nil => simp [Assoc.get]
  | cons c l ih =>
    by_cases hc : c.1 = a
    · simp [Assoc.get, hc]
    · simp [Assoc.get, hc, ih, Ne.symm hc]

theorem Assoc.get_of_mem_nodup (h : (l.map Prod.fst).Nodup) {p : Nat × α} (hp : p ∈ l) : Assoc.get l p.1 = some p.2 := by
  induction l with
  | nil => cases hp
  | cons c l ih =>
    rw [List.map_cons, List.nodup_cons] at h
    rcases List.mem_cons.1 hp with rfl | hp
    · simp [Assoc.get]
    · have hne : c.1 ≠ p.1 := fun e => h.1 (e ▸ List.mem_map_of_mem hp)
      simp [Assoc.get, hne, ih h.2 hp]

end

/-- What memory holds once cells are written, each of them under an address of its own. -/
theorem Memory.get_cells {m : Memory} (h : Memory.wf m = true) {l : List Host.Cell} (hl : (l.map Prod.fst).Nodup) (a : Nat) :
    Memory.get (l.foldl (fun (m : Memory) (c : Host.Cell) => Memory.put m c.1 c.2) m) a = Assoc.getD l a (Memory.get m a) := by
  induction l generalizing m with
  | nil => rfl
  | cons c l ih =>
    rw [List.map_cons, List.nodup_cons] at hl
    rw [List.foldl_cons, ih (Memory.wf_put h c.1 c.2) hl.2]
    by_cases hc : c.1 = a
    · subst hc
      have hnone : Assoc.get l c.1 = none := Assoc.get_eq_none_iff.2 hl.1
      simp [Assoc.getD, Assoc.get, hnone, Memory.get_put_same h]
    · simp [Assoc.getD, Assoc.get, hc, Memory.get_put_other _ _ (Ne.symm hc)]

/-! ## The history of a line (R249) -/

section
variable {t : Nat} {cells : List Host.Cell} {v : Version} {V : List Version}

theorem insertVersion_of_le (h : v.time ≤ t) :
    insertVersion t cells (v :: V) = ({ time := t, old := [], tags := [], moved := false } :: v :: V, cells, []) := if_pos h

/-- Of the bytes that a write stores before a newer one, memory takes those that the newer one did not write. -/
theorem get_now_of_lt (h : ¬ v.time ≤ t) (a : Nat) :
    Assoc.get (insertVersion t cells (v :: V)).2.1 a = if Assoc.has v.old a then none else Assoc.get (insertVersion t cells V).2.1 a := by
  simp only [insertVersion, h, if_false, Assoc.get_filter_key (fun a => !Assoc.has v.old a)]
  cases Assoc.has v.old a <;> rfl

/-- The others take the place of the bytes that the newer write replaced. -/
theorem get_olds_of_lt (h : ¬ v.time ≤ t) (a : Nat) :
    Assoc.get (insertVersion t cells (v :: V)).2.2 a =
      (if Assoc.has v.old a then (Assoc.get (insertVersion t cells V).2.1 a).map (fun _ => Assoc.getD v.old a 0) else none).or
        (Assoc.get (insertVersion t cells V).2.2 a) := by
  simp only [insertVersion, h, if_false, Assoc.get_append, Assoc.get_map_key (fun a _ => Assoc.getD v.old a 0),
    Assoc.get_filter_key (fun a => Assoc.has v.old a)]
  cases Assoc.has v.old a <;> rfl

/-- The cells that a write stores in memory lie at addresses of their own. -/
theorem insertVersion_now_nodup (hc : (cells.map Prod.fst).Nodup) (V : List Version) :
    ((insertVersion t cells V).2.1.map Prod.fst).Nodup := by
  induction V with
  | nil => exact hc
  | cons v V ih =>
    unfold insertVersion
    split
    · exact hc
    · exact ih.sublist (List.filter_sublist.map _)

/-- A byte that the write does not name is neither stored nor put in a newer write's stead. -/
theorem insertVersion_get_of_none {a : Nat} (ha : Assoc.get cells a = none) (V : List Version) :
    Assoc.get (insertVersion t cells V).2.1 a = none ∧ Assoc.get (insertVersion t cells V).2.2 a = none := by
  induction V with
  | nil => exact ⟨ha, rfl⟩
  | cons v V ih =>
    by_cases hv : v.time ≤ t
    · rw [insertVersion_of_le hv]
      exact ⟨ha, rfl⟩
    · simp [get_now_of_lt hv, get_olds_of_lt hv, ih]

/-- No byte is both. -/
theorem insertVersion_get_disjoint (a : Nat) (V : List Version) :
    Assoc.get (insertVersion t cells V).2.1 a = none ∨ Assoc.get (insertVersion t cells V).2.2 a = none := by
  induction V with
  | nil => exact .inr rfl
  | cons v V ih =>
    by_cases hv : v.time ≤ t
    · exact .inr (by rw [insertVersion_of_le hv]; rfl)
    · cases hold : Assoc.has v.old a <;> simp [get_now_of_lt hv, get_olds_of_lt hv, hold, ih]

/-- What a write replaces, where the bytes of memory are those of `B`. -/
def replaced (w : List Version × List Host.Cell × List Host.Cell) (B : Nat → Byte) : List Host.Cell :=
  w.2.2 ++ w.2.1.map (fun c => (c.1, B c.1))

theorem get_replaced (w : List Version × List Host.Cell × List Host.Cell) (B : Nat → Byte) (a : Nat) :
    Assoc.get (replaced w B) a = (Assoc.get w.2.2 a).or ((Assoc.get w.2.1 a).map (fun _ => B a)) := by
  rw [replaced, Assoc.get_append, Assoc.get_map_key (fun a _ => B a)]

/-- What a write replaces is what was read at its time before it. -/
theorem getD_replaced {a : Nat} {x : Byte} (ha : Assoc.get cells a = some x) (V : List Version) (B : Nat → Byte) (d : Byte) :
    Assoc.getD (replaced (insertVersion t cells V) B) a d = byteAt t a V (B a) := by
  induction V generalizing B with
  | nil => simp [Assoc.getD, get_replaced, insertVersion, Assoc.get, ha, byteAt]
  | cons v V ih =>
    by_cases hv : v.time ≤ t
    · simp [Assoc.getD, get_replaced, insertVersion_of_le hv, Assoc.get, ha, byteAt, hv]
    · have hstep : byteAt t a (v :: V) (B a) = byteAt t a V (Assoc.getD v.old a (B a)) := if_neg hv
      rw [hstep, ← ih (fun a => Assoc.getD v.old a (B a))]
      simp only [Assoc.getD, get_replaced, get_now_of_lt hv, get_olds_of_lt hv, Assoc.has]
      rcases Option.eq_none_or_eq_some (Assoc.get v.old a) with hold | ⟨y, hold⟩ <;>
        rcases insertVersion_get_disjoint (t := t) (cells := cells) a V with h | h <;> simp [h, hold]

/-- A byte that the write does not name is not among what it replaces. -/
theorem get_replaced_of_none {a : Nat} (ha : Assoc.get cells a = none) (V : List Version) (B : Nat → Byte) :
    Assoc.get (replaced (insertVersion t cells V) B) a = none := by
  obtain ⟨hnow, hold⟩ := insertVersion_get_of_none (t := t) ha V
  rw [get_replaced, hnow, hold]
  rfl

/-! ### What is read of the line -/

/-- The writes of a line with one at `t` put among them, which replaces `old`. -/
def writesWith (V : List Version) (t : Nat) (cells old : List Host.Cell) (tags : List (Inst × Nat)) : List Version :=
  (insertVersion t cells V).1.map (fun v => if v.time = t then { v with old := old, tags := tags } else v)

variable {old : List Host.Cell} {tags : List (Inst × Nat)}

/-- A mark of the write at `t` leaves every other write. -/
theorem map_mark_of_not_mem (ht : t ∉ V.map Version.time) :
    V.map (fun v => if v.time = t then { v with old := old, tags := tags } else v) = V := by
  induction V with
  | nil => rfl
  | cons v V ih =>
    rw [List.map_cons, List.mem_cons, not_or] at ht
    rw [List.map_cons, ih ht.2, if_neg (Ne.symm ht.1)]

theorem writesWith_nil : writesWith [] t cells old tags = [{ time := t, old := old, tags := tags, moved := false }] := by
  simp [writesWith, insertVersion]

theorem writesWith_of_le (h : v.time ≤ t) (ht : t ∉ (v :: V).map Version.time) :
    writesWith (v :: V) t cells old tags = { time := t, old := old, tags := tags, moved := false } :: v :: V := by
  rw [writesWith, insertVersion_of_le h, List.map_cons, map_mark_of_not_mem ht, if_pos rfl]

/-- The bytes that a newer write replaced, once a write at an earlier time has put some in their stead. -/
def covered (v : Version) (left : List Host.Cell) : List Host.Cell :=
  v.old.map (fun c => (c.1, Assoc.getD (left.filter (fun c => Assoc.has v.old c.1)) c.1 c.2))

theorem writesWith_of_lt (h : ¬ v.time ≤ t) :
    writesWith (v :: V) t cells old tags =
      { v with old := covered v (insertVersion t cells V).2.1 } :: writesWith V t cells old tags := by
  have hne : v.time ≠ t := fun e => h (Nat.le_of_eq e)
  simp [writesWith, insertVersion, h, hne, covered]

/-- The byte before a newer write, once a write at an earlier time has put `left` under it. -/
theorem getD_covered (left : List Host.Cell) (a : Nat) (b : Byte) :
    Assoc.getD (covered v left) a (if Assoc.has v.old a then b else Assoc.getD left a b) = Assoc.getD left a (Assoc.getD v.old a b) := by
  have hget : Assoc.get (covered v left) a =
      (Assoc.get v.old a).map (fun x => Assoc.getD (left.filter (fun c => Assoc.has v.old c.1)) a x) :=
    Assoc.get_map_key (fun a x => Assoc.getD (left.filter (fun c => Assoc.has v.old c.1)) a x) v.old a
  have hleft := Assoc.get_filter_key (fun a => Assoc.has v.old a) left a
  rcases Option.eq_none_or_eq_some (Assoc.get v.old a) with hold | ⟨y, hold⟩ <;> simp_all [Assoc.getD, Assoc.has]

/-- What memory holds after a write, by what stands under the newest write of the line. -/
theorem getD_now_of_lt (h : ¬ v.time ≤ t) (a : Nat) (b : Byte) :
    Assoc.getD (insertVersion t cells (v :: V)).2.1 a b = if Assoc.has v.old a then b else Assoc.getD (insertVersion t cells V).2.1 a b := by
  simp only [Assoc.getD, get_now_of_lt h]
  split <;> rfl

/-- Reading past a newer write, a byte is read as from what that write replaced. -/
theorem byteAt_writesWith_of_lt {u : Nat} (h : ¬ v.time ≤ t) (hu : ¬ v.time ≤ u) (a : Nat) (b : Byte) :
    byteAt u a (writesWith (v :: V) t cells old tags) (Assoc.getD (insertVersion t cells (v :: V)).2.1 a b) =
      byteAt u a (writesWith V t cells old tags) (Assoc.getD (insertVersion t cells V).2.1 a (Assoc.getD v.old a b)) := by
  rw [writesWith_of_lt h, byteAt, if_neg hu, getD_now_of_lt h, getD_covered]

variable {a u : Nat} {b x : Byte}

/-- At its time, the written byte is read. -/
theorem byteAt_writesWith_at (ha : Assoc.get cells a = some x) (ht : t ∉ V.map Version.time) :
    byteAt t a (writesWith V t cells old tags) (Assoc.getD (insertVersion t cells V).2.1 a b) = x := by
  induction V generalizing b with
  | nil => simp [writesWith_nil, byteAt, insertVersion, Assoc.getD, ha]
  | cons v V ih =>
    by_cases hv : v.time ≤ t
    · simp [writesWith_of_le hv ht, insertVersion_of_le hv, byteAt, Assoc.getD, ha]
    · rw [byteAt_writesWith_of_lt hv hv]
      exact ih (fun h => ht (.tail _ h))

/-- Before its time, the byte is read as before, where the write keeps what it replaces. -/
theorem byteAt_writesWith_before (ht : t ∉ V.map Version.time) (hu : u < t)
    (hold : ∀ d, Assoc.getD old a d = byteAt t a V b) :
    byteAt u a (writesWith V t cells old tags) (Assoc.getD (insertVersion t cells V).2.1 a b) = byteAt u a V b := by
  induction V generalizing b with
  | nil => simp [writesWith_nil, byteAt, hold, Nat.not_le.2 hu]
  | cons v V ih =>
    by_cases hv : v.time ≤ t
    · simp only [writesWith_of_le hv ht, byteAt, hold, Nat.not_le.2 hu, if_false, hv, if_true]
    · have hvu : ¬ v.time ≤ u := by omega
      rw [byteAt_writesWith_of_lt hv hvu, byteAt, if_neg hvu]
      exact ih (fun h => ht (.tail _ h)) (fun d => (hold d).trans (if_neg hv))

/-- A byte that the write does not name is read as before, at every time. -/
theorem byteAt_writesWith_other (ha : Assoc.get cells a = none) (ht : t ∉ V.map Version.time) (hold : Assoc.get old a = none) :
    byteAt u a (writesWith V t cells old tags) b = byteAt u a V b := by
  induction V generalizing b with
  | nil => simp [writesWith_nil, byteAt, Assoc.getD, hold]
  | cons v V ih =>
    by_cases hv : v.time ≤ t
    · rw [writesWith_of_le hv ht]
      by_cases htu : t ≤ u
      · simp [byteAt, htu, hv.trans htu]
      · simp [byteAt, htu, Assoc.getD, hold]
    · have hnone := fun W => (insertVersion_get_of_none (t := t) ha W).1
      by_cases hvu : v.time ≤ u
      · rw [writesWith_of_lt hv, byteAt, byteAt, if_pos hvu, if_pos hvu]
      · have h := byteAt_writesWith_of_lt (cells := cells) (V := V) (old := old) (tags := tags) hv hvu a b
        simp only [Assoc.getD, hnone, Option.getD_none] at h
        rw [h, byteAt, if_neg hvu]
        exact ih (fun h => ht (.tail _ h))

end

/-! ### The state's writes -/

section
variable {s : State} {n t : Nat} {cells : List Host.Cell} {tags : List (Inst × Nat)}

/-- What the write keeps of the line. -/
def State.under (s : State) (n t : Nat) (cells : List Host.Cell) : List Host.Cell :=
  replaced (insertVersion t cells (s.line n).versions) (Memory.get s.mem)

theorem State.mem_keepVersion (s : State) (n t : Nat) : (s.keepVersion n t).mem = s.mem := congrArg Prod.fst (s.stored_keepVersion n t)

theorem State.line_keepVersion (s : State) (n t m : Nat) : (s.keepVersion n t).line m = s.line m := by
  have h : (s.keepVersion n t).lines = s.lines := congrArg (fun p => p.2.2.2) (s.stored_keepVersion n t)
  rw [State.line, State.line, h]

theorem State.line_written (s : State) (n t m : Nat) (cells : List Host.Cell) : (s.written n t cells).line m = s.line m :=
  s.line_keepVersion n t m

theorem State.line_writeLine_same (s : State) (n t : Nat) (cells : List Host.Cell) (tags : List (Inst × Nat)) :
    (s.writeLine n t cells tags).line n = { s.line n with
      versions := writesWith (s.line n).versions t cells (s.under n t cells) tags,
      bad := (s.line n).bad && decide (cells.length < 256) } := by
  rw [State.writeLine_eq]
  simp only [State.line_wakeMonitors, State.line_setLine_same, State.line_written, State.line_keepVersion, State.mem_keepVersion]
  rfl

theorem State.line_writeLine_other (s : State) {n m : Nat} (t : Nat) (cells : List Host.Cell) (tags : List (Inst × Nat)) (h : m ≠ n) :
    (s.writeLine n t cells tags).line m = s.line m := by
  rw [State.writeLine_eq]
  simp only [State.line_wakeMonitors, State.line_setLine_other _ _ h, State.line_written]

theorem State.mem_writeLine (s : State) (n t : Nat) (cells : List Host.Cell) (tags : List (Inst × Nat)) :
    (s.writeLine n t cells tags).mem =
      (insertVersion t cells (s.line n).versions).2.1.foldl (fun (m : Memory) (c : Host.Cell) => Memory.put m c.1 c.2) s.mem := by
  have h : (s.writeLine n t cells tags).mem = (s.written n t cells).mem := rfl
  rw [h, State.written]
  simp only [State.line_keepVersion, State.mem_keepVersion]

/-- A byte of another line is read as before. -/
theorem State.byteAtTime_writeLine_other_line {a : Nat} (u : Nat) (ha : lineOf a ≠ n)
    (hmem : Memory.get (s.writeLine n t cells tags).mem a = Memory.get s.mem a) :
    (s.writeLine n t cells tags).byteAtTime u a = s.byteAtTime u a := by
  rw [State.byteAtTime, State.line_writeLine_other _ _ _ _ ha, hmem, State.byteAtTime]

variable (hwf : s.memWf) (ht : t ∉ (s.line n).versions.map Version.time) (hnodup : (cells.map Prod.fst).Nodup)
include hwf hnodup

theorem State.get_mem_writeLine (a : Nat) : Memory.get (s.writeLine n t cells tags).mem a =
    Assoc.getD (insertVersion t cells (s.line n).versions).2.1 a (Memory.get s.mem a) := by
  rw [State.mem_writeLine]
  exact Memory.get_cells hwf (insertVersion_now_nodup hnodup _) a

/-- A byte that the write does not name stays in memory. -/
theorem State.get_mem_writeLine_other {a : Nat} (ha : a ∉ cells.map Prod.fst) :
    Memory.get (s.writeLine n t cells tags).mem a = Memory.get s.mem a := by
  rw [State.get_mem_writeLine hwf hnodup, Assoc.getD, (insertVersion_get_of_none (Assoc.get_eq_none_iff.2 ha) _).1]
  rfl

/-- Where no write of the line is newer, memory holds the written bytes. -/
theorem State.get_mem_writeLine_newest (hnew : (s.line n).wtime ≤ t) {p : Host.Cell} (hp : p ∈ cells) :
    Memory.get (s.writeLine n t cells tags).mem p.1 = p.2 := by
  have hnow : (insertVersion t cells (s.line n).versions).2.1 = cells := by
    unfold Line.wtime at hnew
    cases hV : (s.line n).versions with
    | nil => rfl
    | cons v V =>
      rw [hV] at hnew
      rw [insertVersion_of_le hnew]
  rw [State.get_mem_writeLine hwf hnodup, hnow, Assoc.getD, Assoc.get_of_mem_nodup hnodup hp]
  rfl

include ht

/-- A byte that the write does not name is read as before, at every time. -/
theorem State.byteAtTime_writeLine_other {a : Nat} (ha : a ∉ cells.map Prod.fst) (u : Nat) :
    (s.writeLine n t cells tags).byteAtTime u a = s.byteAtTime u a := by
  have hmem := State.get_mem_writeLine_other (n := n) (t := t) (tags := tags) hwf hnodup ha
  by_cases hline : lineOf a = n
  · have hnone := Assoc.get_eq_none_iff.2 ha
    rw [State.byteAtTime, State.byteAtTime, hline, State.line_writeLine_same, hmem]
    exact byteAt_writesWith_other hnone ht (get_replaced_of_none hnone _ _)
  · exact State.byteAtTime_writeLine_other_line u hline hmem

variable (hcells : ∀ p ∈ cells, lineOf p.1 = n)
include hcells

/-- From the write's time, its bytes are read. -/
theorem State.byteAtTime_writeLine_at {p : Host.Cell} (hp : p ∈ cells) : (s.writeLine n t cells tags).byteAtTime t p.1 = p.2 := by
  rw [State.byteAtTime, hcells p hp, State.line_writeLine_same, State.get_mem_writeLine hwf hnodup]
  exact byteAt_writesWith_at (Assoc.get_of_mem_nodup hnodup hp) ht

/-- Before the write's time, the history is as it was. -/
theorem State.byteAtTime_writeLine_before (a : Nat) {u : Nat} (hu : u < t) :
    (s.writeLine n t cells tags).byteAtTime u a = s.byteAtTime u a := by
  by_cases ha : a ∈ cells.map Prod.fst
  · obtain ⟨p, hp, rfl⟩ := List.mem_map.1 ha
    rw [State.byteAtTime, State.byteAtTime, hcells p hp, State.line_writeLine_same, State.get_mem_writeLine hwf hnodup]
    exact byteAt_writesWith_before ht hu (fun d => getD_replaced (Assoc.get_of_mem_nodup hnodup hp) _ _ d)
  · exact State.byteAtTime_writeLine_other hwf ht hnodup ha u

end

/-! ## The time of a store (R249 to R251) -/

theorem le_foldl_max {α : Type} (f : α → Nat) (l : List α) (b : Nat) : b ≤ l.foldl (fun a v => Nat.max a (f v)) b := by
  induction l generalizing b with
  | nil => exact le_rfl
  | cons v l ih => exact (Nat.le_max_left b (f v)).trans (ih _)

theorem le_foldl_max_of_mem {α : Type} (f : α → Nat) {l : List α} {v : α} (hv : v ∈ l) (b : Nat) :
    f v ≤ l.foldl (fun a v => Nat.max a (f v)) b := by
  induction l generalizing b with
  | nil => cases hv
  | cons w l ih =>
    rcases List.mem_cons.1 hv with rfl | hv
    · exact (Nat.le_max_right b (f v)).trans (le_foldl_max f l _)
    · exact ih hv _

section
variable (l : Line)

theorem Line.topTime_lt_nextTime : l.topTime < l.nextTime :=
  Nat.lt_succ_of_le (((Nat.le_max_left _ _).trans (Nat.le_max_left _ _)).trans (le_foldl_max Owner.tw l.owners _))

theorem Line.rtime_lt_nextTime : l.rtime < l.nextTime :=
  Nat.lt_succ_of_le (((Nat.le_max_right _ _).trans (Nat.le_max_left _ _)).trans (le_foldl_max Owner.tw l.owners _))

theorem Line.time_lt_nextTime {v : Version} (hv : v ∈ l.versions) : v.time < l.nextTime :=
  ((Nat.le_max_left v.time (topTag v.tags)).trans
    (le_foldl_max_of_mem (fun v : Version => Nat.max v.time (topTag v.tags)) hv 0)).trans_lt l.topTime_lt_nextTime

theorem Line.le_freeTime (t n : Nat) : t ≤ l.freeTime t n := by
  induction n generalizing t with
  | zero => exact le_rfl
  | succ n ih =>
    unfold Line.freeTime
    split
    · exact (Nat.le_succ t).trans (ih (t + 1))
    · exact le_rfl

/-- Counting up ends at a free time, or every time counted was taken. -/
theorem Line.freeTime_free_or_taken (t n : Nat) :
    l.freeTime t n ∉ l.versions.map Version.time ∨ ∀ i < n, t + i ∈ l.versions.map Version.time := by
  induction n generalizing t with
  | zero => exact .inr nofun
  | succ n ih =>
    unfold Line.freeTime
    split
    · next h =>
      refine (ih (t + 1)).imp_right fun hall i hi => ?_
      cases i with
      | zero =>
        obtain ⟨v, hv, ht⟩ := List.any_eq_true.1 h
        exact List.mem_map.2 ⟨v, hv, of_decide_eq_true ht⟩
      | succ i => exact (show t + (i + 1) = t + 1 + i by omega) ▸ hall i (by omega)
    · next h => exact .inl fun hmem => h (by simpa using List.mem_map.1 hmem)

/-- A line has no more writes than it lists, so that counting past them finds a free time. -/
theorem Line.freeTime_not_mem (t : Nat) : l.freeTime t (l.versions.length + 1) ∉ l.versions.map Version.time := by
  refine (l.freeTime_free_or_taken t _).resolve_right fun hall => ?_
  have hnodup : ((List.range (l.versions.length + 1)).map (t + ·)).Nodup :=
    List.nodup_range.map (fun _ _ h => Nat.add_left_cancel h)
  have hsub : (List.range (l.versions.length + 1)).map (t + ·) ⊆ l.versions.map Version.time := by
    intro u hu
    obtain ⟨i, hi, rfl⟩ := List.mem_map.1 hu
    exact hall i (List.mem_range.1 hi)
  have hlen := (hnodup.subperm hsub).length_le
  simp at hlen

end

section
variable {s : State} {g : Group} {w pa : Nat} {o : Order} {asked : Option Nat} {last : Nat}

/-- A store's time is above its floors and no other write's. -/
theorem State.storeTime_spec :
    Nat.max (Nat.max ((g.tmOf w).storeFloor o) (g.seenOf w (lineOf pa))) (Nat.max (s.line (lineOf pa)).rtime last) < s.storeTime g w pa o asked last
      ∧ s.storeTime g w pa o asked last ∉ (s.line (lineOf pa)).versions.map Version.time := by
  unfold State.storeTime
  dsimp only
  split
  · refine ⟨(Nat.lt_succ_self _).trans_le ((Nat.le_max_left _ _).trans (Nat.le_max_left _ _)), fun h => ?_⟩
    obtain ⟨v, hv, ht⟩ := List.mem_map.1 h
    exact absurd ((Nat.le_max_right _ _).trans (Nat.le_max_left _ _)) (Nat.not_le.2 (ht ▸ Line.time_lt_nextTime _ hv))
  · exact ⟨(Nat.lt_succ_self _).trans_le ((Nat.le_max_left _ _).trans (Line.le_freeTime _ _ _)), Line.freeTime_not_mem _ _⟩

end

/-! ## The cells of a store -/

theorem keys_cellsAt (pa : Nat) (data : List Byte) : (cellsAt pa data).map Prod.fst = List.range' pa data.length := by
  induction data generalizing pa with
  | nil => rfl
  | cons b data ih => rw [cellsAt, List.map_cons, ih, List.length_cons, List.range'_succ]

theorem nodup_cellsAt (pa : Nat) (data : List Byte) : ((cellsAt pa data).map Prod.fst).Nodup := by
  rw [keys_cellsAt]
  exact List.nodup_range'

theorem getD_mem_cellsAt {data : List Byte} {k : Nat} (pa : Nat) (h : k < data.length) : (pa + k, data.getD k 0) ∈ cellsAt pa data := by
  induction data generalizing pa k with
  | nil => cases h
  | cons b data ih =>
    cases k with
    | zero => exact .head _
    | succ k =>
      rw [show pa + (k + 1) = pa + 1 + k by omega]
      exact .tail _ (ih (pa + 1) (Nat.lt_of_succ_lt_succ h))

theorem not_mem_cellsAt_of_outside {pa a : Nat} {data : List Byte} (h : inRange pa data.length a = false) :
    a ∉ (cellsAt pa data).map Prod.fst := by
  rw [keys_cellsAt, List.mem_range'_1]
  simpa [inRange] using h

theorem lineOf_of_mem_cellsAt {pa : Nat} {data : List Byte} (h : pa % 256 + data.length ≤ 256) :
    ∀ p ∈ cellsAt pa data, lineOf p.1 = lineOf pa := by
  intro p hp
  obtain ⟨hlow, hhigh⟩ := mem_cellsAt hp
  unfold lineOf
  omega

/-! ## A store at a scope that holds every agent (R249, R250) -/

theorem Assoc.get_map_of_key {α : Type} (m : Assoc α) (f : Nat × α → Nat × α) (hf : ∀ p, (f p).1 = p.1) (k : Nat) :
    Assoc.get (m.map f) k = (Assoc.get m k).map (fun v => (f (k, v)).2) := by
  induction m with
  | nil => rfl
  | cons p m ih =>
    have e : f p = (p.1, (f p).2) := Prod.ext (hf p) rfl
    rw [List.map_cons, e]
    by_cases hk : p.1 = k
    · subst hk
      simp [Assoc.get]
    · simp [Assoc.get, hk, ih]

/-- A group that waits for no write of a line goes on as it is. -/
theorem State.group_wakeMonitors_of_unarmed {s : State} {k : Nat} {g : Group} (hg : s.group k = some g) (hmon : g.mon = none) (n t : Nat) :
    (s.wakeMonitors n t).group k = some g := by
  unfold State.group State.wakeMonitors
  rw [Assoc.get_map_of_key]
  · rw [show Assoc.get s.groups k = some g from hg]
    simp [hmon]
  · intro p
    dsimp only
    split
    · split <;> rfl
    · rfl

theorem State.group_writeLine_of_unarmed {s : State} {k : Nat} {g : Group} (hg : s.group k = some g) (hmon : g.mon = none) (n t : Nat)
    (cells : List Host.Cell) (tags : List (Inst × Nat)) : (s.writeLine n t cells tags).group k = some g := by
  rw [State.writeLine_eq]
  refine State.group_wakeMonitors_of_unarmed ?_ hmon n t
  have hgroups : (s.keepVersion n t).group k = some g := by
    unfold State.group
    rw [State.groups_keepVersion]
    exact hg
  exact hgroups

/-- Where no migration mirrors a line, a store writes its own line alone. -/
theorem State.storeLine_of_still {s : State} (h : s.migrations = []) {cells : List Host.Cell} (hc : cells ≠ []) (n t : Nat)
    (tags : List (Inst × Nat)) : s.storeLine n t cells tags = s.writeLine n t cells tags := by
  simp [State.storeLine, hc, State.mirrors, h]

/-- Toward all observers alone, a write fits among any others. -/
theorem storeFits_nil (l : Line) (floor : Inst → Nat) (t : Nat) : storeFits l floor [] t = true := by simp [storeFits]

/-- The state that such a store leaves. -/
def State.storedBy (s : State) (x : Ix) (data : List Byte) (tg : Target) (t : Nat) : State :=
  (((s.writeLine (lineOf tg.pa) t (cellsAt tg.pa data) []).setGroup x.gid (fun g =>
    ((g.updTm tg.lane (fun y => y.store x.order t)).sees tg.lane (lineOf tg.pa) t).performedAt x.op t)).route x.g.core tg.pa true).l1Drop
      x.g.core (lineOf tg.pa)

theorem State.stored_storedBy (s : State) (x : Ix) (data : List Byte) (tg : Target) (t : Nat) :
    (s.storedBy x data tg t).mem = (s.writeLine (lineOf tg.pa) t (cellsAt tg.pa data) []).mem
      ∧ (s.storedBy x data tg t).lines = (s.writeLine (lineOf tg.pa) t (cellsAt tg.pa data) []).lines := by
  have h := unasked_stored.route ((s.writeLine (lineOf tg.pa) t (cellsAt tg.pa data) []).setGroup x.gid (fun g =>
    ((g.updTm tg.lane (fun y => y.store x.order t)).sees tg.lane (lineOf tg.pa) t).performedAt x.op t)) x.g.core tg.pa true
  exact ⟨congrArg Prod.fst h, congrArg (fun p => p.2.2.2) h⟩

theorem State.byteAtTime_storedBy (s : State) (x : Ix) (data : List Byte) (tg : Target) (t u a : Nat) :
    (s.storedBy x data tg t).byteAtTime u a = (s.writeLine (lineOf tg.pa) t (cellsAt tg.pa data) []).byteAtTime u a := by
  obtain ⟨hmem, hlines⟩ := s.stored_storedBy x data tg t
  simp only [State.byteAtTime, State.line, hmem, hlines]

theorem State.group_storedBy {s : State} {x : Ix} {g : Group} (hg : s.group x.gid = some g) (hmon : g.mon = none) (data : List Byte)
    (tg : Target) (t : Nat) : (s.storedBy x data tg t).group x.gid =
      some (((g.updTm tg.lane (fun y => y.store x.order t)).sees tg.lane (lineOf tg.pa) t).performedAt x.op t) := by
  have hroute : (s.storedBy x data tg t).groups = ((s.writeLine (lineOf tg.pa) t (cellsAt tg.pa data) []).setGroup x.gid (fun g =>
      ((g.updTm tg.lane (fun y => y.store x.order t)).sees tg.lane (lineOf tg.pa) t).performedAt x.op t)).groups :=
    Unasked.route (f := State.groups) ⟨fun _ _ => rfl, fun _ _ => rfl, fun _ _ => rfl⟩ _ _ _ _
  rw [State.group, hroute]
  exact (State.group_setGroup_same _ _ _).trans (congrArg _ (State.group_writeLine_of_unarmed hg hmon _ _ _ _))

section
variable {s : State} {x : Ix} {g : Group} {tg : Target}
  (hagain : x.again = false) (hg : s.group x.gid = some g) (htyp : tg.typ = 0) (howners : (s.line (lineOf tg.pa)).owners = [])
  (hstill : s.migrations = []) (hatoms : s.afterAtoms x tg.lane (lineOf tg.pa) true = false)
  (hviews : viewsOf g tg.lane (s.line (lineOf tg.pa)) (s.instOf x.gid g tg.lane x.scope) = [])
include hagain hg htyp howners hstill hatoms hviews

theorem State.storeLane_eq {data : List Byte} (hdata : data ≠ []) (last : Nat) :
    s.storeLane x data last tg =
      (s.storedBy x data tg (s.storeTime g tg.lane tg.pa x.order x.time last), .ok (s.storeTime g tg.lane tg.pa x.order x.time last) false) := by
  have hscope := scope_eq_none_of_viewsOf hviews
  rw [hscope] at hviews
  have hcells : cellsAt tg.pa data ≠ [] := by
    cases data with
    | nil => exact absurd rfl hdata
    | cons b data => exact List.cons_ne_nil _ _
  have htop (u : Nat) : Nat.max u (topTag []) = u := Nat.max_eq_left (Nat.zero_le u)
  unfold State.storeLane State.storeTimes
  simp only [hg, htyp, hatoms, howners, hscope, hviews, orderAt_none, storeFits_nil, lowOf_of_first hagain, State.storeLine_of_still hstill hcells,
    Group.updNear_nil, List.map_nil, Bool.false_eq_true, and_false, if_false, ne_eq, not_true_eq_false, if_true, Nat.max_zero,
    (by decide : ¬ 0 = 1), (by decide : ¬ 2 ≤ 0), (by decide : ¬ 0 = 3), htop, false_and]
  rfl

end

/-- Settles O29: a store is one write of its line at `State.storeTime`, and a write of a line changes its history from its time on. -/
theorem storeAndHistory : Obligations.StoreAndHistory := by
  unfold Obligations.StoreAndHistory
  constructor
  · intro s x data last tg g hagain hwf hg htyp howners hstill hmon hdata hatoms hviews hfits hordered
    have hcells := lineOf_of_mem_cellsAt hfits
    have hnodup := nodup_cellsAt tg.pa data
    obtain ⟨hfloor, hfree⟩ := State.storeTime_spec (s := s) (g := g) (w := tg.lane) (pa := tg.pa) (o := x.order) (asked := x.time) (last := last)
    refine ⟨_, State.storeLane_eq hagain hg htyp howners hstill hatoms hviews hdata last, ?_, ?_, ?_, ?_, ?_, ?_, ?_, ?_,
      State.group_storedBy hg hmon data tg _⟩
    · exact ((Nat.le_max_left _ _).trans (Nat.le_max_left _ _)).trans_lt hfloor
    · exact ((Nat.le_max_right _ _).trans (Nat.le_max_left _ _)).trans_lt hfloor
    · exact ((Nat.le_max_left _ _).trans (Nat.le_max_right _ _)).trans_lt hfloor
    · exact ((Nat.le_max_right _ _).trans (Nat.le_max_right _ _)).trans_lt hfloor
    · intro k hk
      rw [State.byteAtTime_storedBy]
      exact State.byteAtTime_writeLine_at hwf hfree hnodup hcells (getD_mem_cellsAt tg.pa hk)
    · intro a u hu
      rw [State.byteAtTime_storedBy]
      exact State.byteAtTime_writeLine_before hwf hfree hnodup hcells a hu
    · intro a u ha
      rw [State.byteAtTime_storedBy]
      exact State.byteAtTime_writeLine_other hwf hfree hnodup (not_mem_cellsAt_of_outside ha) u
    · intro a ha
      rw [(State.stored_storedBy _ _ _ _ _).1]
      exact State.get_mem_writeLine_other hwf hnodup (not_mem_cellsAt_of_outside ha)
  · intro s n t cells hwf hordered hfree hnodup hcells
    refine ⟨fun a u hu => State.byteAtTime_writeLine_before hwf hfree hnodup hcells a hu,
      fun p hp => State.byteAtTime_writeLine_at hwf hfree hnodup hcells hp,
      fun a ha => ⟨State.byteAtTime_writeLine_other hwf hfree hnodup ha, State.get_mem_writeLine_other hwf hnodup ha⟩,
      fun hnew p hp => State.get_mem_writeLine_newest hwf hnodup hnew hp, ?_⟩
    rw [State.line_writeLine_same]
    exact writesWith_ordered (insertVersion_ordered t cells hordered) t _ _

end Sys2Proof.Machine
end

section
/-! PROOF. O31, from the lanes that an atomic sends and the write that a unit makes of each. -/
namespace Sys2Proof.Machine
open Sys2Proof
set_option Elab.async false

/-! ## The lanes sent (R266 to R268) -/

theorem exec_eq_atomic {d a b : Reg} {i : Instr} {k : AtomOp} {n : Nat}
    (hi : (i, k, n) ∈ [(Instr.aadd d a b, .add, 1), (Instr.asub d a b, .sub, 1), (Instr.amin d a b, .min, 1), (Instr.amax d a b, .max, 1),
      (Instr.aand d a b, .and, 1), (Instr.aor d a b, .or, 1), (Instr.axor d a b, .xor, 1), (Instr.axch d a b, .xch, 1), (Instr.acas d a b, .cas, 2),
      (Instr.ainc d a b, .inc, 1), (Instr.adec d a b, .dec, 1), (Instr.afadd d a b, .fadd, 1)]) (s : State) :
    exec i s = issue i s (fun x s => x.atomic s k n d a b) := by
  simp only [List.mem_cons, List.not_mem_nil, or_false, Prod.mk.injEq] at hi
  rcases hi with ⟨rfl, rfl, rfl⟩ | ⟨rfl, rfl, rfl⟩ | ⟨rfl, rfl, rfl⟩ | ⟨rfl, rfl, rfl⟩ | ⟨rfl, rfl, rfl⟩ | ⟨rfl, rfl, rfl⟩ |
    ⟨rfl, rfl, rfl⟩ | ⟨rfl, rfl, rfl⟩ | ⟨rfl, rfl, rfl⟩ | ⟨rfl, rfl, rfl⟩ | ⟨rfl, rfl, rfl⟩ | ⟨rfl, rfl, rfl⟩ <;> rfl

/-- Lanes whose accesses neither fault nor wait are performed one after another. -/
theorem performLanes_of_ok {perform : State → Nat → Target → State × LaneRes} {send : State → Target → State}
    (h : ∀ s last tg, perform s last tg = (send s tg, .ok 0 false)) (l : List Target) (lasts : Assoc Nat) (s : State) :
    performLanes perform l lasts s =
      (l.foldl send s, { vals := l.map (fun tg => (tg.lane, 0, false)), faults := [], owned := [], wait := false }) := by
  induction l generalizing lasts s with
  | nil => rfl
  | cons tg l ih => simp only [performLanes, h, ih, List.foldl_cons, List.map_cons]

/-- An atomic at issue, in the terms of the instruction. -/
theorem atomic_ixOf (s y : State) (c : Cur) (g : Group) (k : AtomOp) (n : Nat) (d a b : Reg) :
    (ixOf s c g).atomic y k n d a b =
      if !noResult c.pre && g.liveNow.lanes.any (fun L => decide (8 ≤ y.repliesDue c.gid L)) then .stall
      else
        let data := (ixOf s c g).captured ((List.range n).map (fun j => d.toNat + j))
        (ixOf s c g).access y .atomic (if noResult c.pre then 1 else 0) 4 a b data 0 0 (fun u _ tg => u.sendAtomic (ixOf s c g) k d data tg) := rfl

/-- Every live lane has room for a reply, or none is asked for (R267). -/
def RoomForReplies (s : State) (c : Cur) (g : Group) : Prop :=
  noResult c.pre = true ∨ ∀ L, g.liveNow.has L = true → s.repliesDue c.gid L < 8

section
variable {i : Instr} {s y : State} {c : Cur} {g : Group} (h : Starts i s c g) {k : AtomOp} {n : Nat} {d a b : Reg}
include h

theorem Starts.atomic_of_room (hroom : RoomForReplies y c g) :
    (ixOf s c g).atomic y k n d a b =
      (ixOf s c g).access y .atomic (if noResult c.pre then 1 else 0) 4 a b ((List.range n).map (fun j => g.vr (d.toNat + j))) 0 0
        (fun u _ tg => u.sendAtomic (ixOf s c g) k d ((List.range n).map (fun j => g.vr (d.toNat + j))) tg) := by
  have hready : (!noResult c.pre && g.liveNow.lanes.any (fun L => decide (8 ≤ y.repliesDue c.gid L))) = false := by
    rcases hroom with hnone | hroom
    · simp [hnone]
    · have hany : g.liveNow.lanes.any (fun L => decide (8 ≤ y.repliesDue c.gid L)) = false :=
        List.any_eq_false.2 fun L hL => by simpa using hroom L (Mask.mem_lanes.1 hL)
      rw [hany, Bool.and_false]
  have hdata : (ixOf s c g).captured ((List.range n).map (fun j => d.toNat + j)) = (List.range n).map (fun j => g.vr (d.toNat + j)) := by
    rw [h.captured_ixOf, List.map_map]
    rfl
  rw [atomic_ixOf, hready, hdata]
  rfl

omit h in
theorem atomic_ixOf_of_full {L : Nat} (hret : noResult c.pre = false) (hL : g.liveNow.has L = true) (hdue : 8 ≤ y.repliesDue c.gid L) :
    (ixOf s c g).atomic y k n d a b = .stall := by
  have hany : g.liveNow.lanes.any (fun L => decide (8 ≤ y.repliesDue c.gid L)) = true :=
    List.any_eq_true.2 ⟨L, Mask.mem_lanes.2 hL, decide_eq_true hdue⟩
  rw [atomic_ixOf, hret, hany]
  rfl

end

/-! ## What a unit does with a lane (R268, R269) -/

/-- Memory, the lines, and what is due. -/
def State.ledger (s : State) : Memory × Assoc Line × List Due × Nat := (s.mem, s.lines, s.agenda, s.clk)

theorem State.ledger_setThread (s : State) (k : Nat) (f : Group → Group) : (s.setThread k f).ledger = s.ledger := by
  unfold State.setThread
  split <;> rfl

theorem State.ledger_refence (s : State) (a : AtomLane) (t : Nat) (tags : List (Inst × Nat)) : (s.refence a t tags).ledger = s.ledger := by
  unfold State.refence
  split
  · rfl
  · exact s.ledger_setThread _ _

theorem State.ledger_gridOrders (s : State) (tid t : Nat) : (s.gridOrders tid t).ledger = s.ledger := by
  unfold State.gridOrders
  split <;> rfl

/-- What a performed atomic orders after itself is sent later. -/
theorem State.ledger_atomPerformed (s : State) (a : AtomLane) (t : Nat) :
    (s.atomPerformed a t).ledger = (s.mem, s.lines, s.agenda.map (sentAfter a t), s.clk) := by
  unfold State.atomPerformed
  simp only [State.ledger_gridOrders]
  exact foldl_keeps State.ledger (fun (z : State) d => z.setDie d _) (fun _ _ => rfl) _ _

theorem State.ledger_keepVersion (s : State) (n t : Nat) : (s.keepVersion n t).ledger = s.ledger := by
  unfold State.keepVersion
  split
  · rfl
  · split <;> rfl

theorem State.agenda_writeLine (s : State) (n t : Nat) (cells : List Host.Cell) (tags : List (Inst × Nat)) :
    (s.writeLine n t cells tags).agenda = s.agenda ∧ (s.writeLine n t cells tags).clk = s.clk := by
  have h := s.ledger_keepVersion n t
  simp only [State.ledger, Prod.mk.injEq] at h
  obtain ⟨-, -, hagenda, hclk⟩ := h
  exact ⟨hagenda, hclk⟩

/-- The reply that a unit sends. -/
def replyWith (a : AtomLane) (old : Word) : AtomReply :=
  { gid := a.gid, op := a.op, lane := a.lane, vd := a.vd, old := old, bad := false }

/-- The bytes that a unit writes. -/
def State.atomBytes (s : State) (a : AtomLane) : List Byte := natLe (atomNew a.kind a.mr (BitVec.ofNat 32 (s.num a.pa 4)) a.x a.y).toNat 4

/-- The state in which a unit has written its lane's word. -/
def State.atomWritten (s : State) (a : AtomLane) (p : Nat × List (Inst × Nat)) : State :=
  s.writeLine (lineOf a.pa) p.1 (cellsAt a.pa (s.atomBytes a)) p.2

section
variable {s : State} {a : AtomLane} {g : Group}

theorem State.thread_of_group {k : Nat} (hg : s.group k = some g) : s.thread k = some g := by rw [State.thread, hg]

/-- A lane on a line without poison is a write of its line, a record of the access there and with its thread, what it orders, and a reply. -/
theorem State.performAtomic_eq (hg : s.group a.gid = some g) (hbad : (s.line (lineOf a.pa)).bad = false) (hstill : s.migrations = [])
    (hret : a.noret = false) {p : Nat × List (Inst × Nat)} (hp : s.storeTimes a.gid g a.lane a.pa a.order a.scope none 0 = p) :
    ∃ (read : Line → Line) (seen : Group → Group), (∀ l, (read l).versions = l.versions) ∧
      s.performAtomic a = (((((s.atomWritten a p).setLine (lineOf a.pa) read).setThread a.gid seen).refence a p.1 p.2).atomPerformed a
        (Nat.max p.1 (topTag p.2))).post (.atomicReply (replyWith a (BitVec.ofNat 32 (s.num a.pa 4)))) := by
  have hcells : cellsAt a.pa (s.atomBytes a) ≠ [] := List.cons_ne_nil _ _
  have hwrite := State.storeLine_of_still hstill hcells (lineOf a.pa) p.1 p.2
  unfold State.performAtomic
  simp only [hbad, hret, State.thread_of_group hg, Bool.false_eq_true, if_false, hp]
  refine ⟨_, _, ?_, congrArg (fun z : State => ((((z.setLine _ _).setThread _ _).refence _ _ _).atomPerformed _ _).post _) hwrite⟩
  intro l
  rfl

/-- What the record of a performed lane leaves. -/
theorem State.ledger_ordered (z : State) (a : AtomLane) (read : Line → Line) (seen : Group → Group) (t : Nat) (tags : List (Inst × Nat)) :
    ((((z.setLine (lineOf a.pa) read).setThread a.gid seen).refence a t tags).atomPerformed a (Nat.max t (topTag tags))).ledger =
      (z.mem, (z.setLine (lineOf a.pa) read).lines, z.agenda.map (sentAfter a (Nat.max t (topTag tags))), z.clk) := by
  have hledger := ((((z.setLine (lineOf a.pa) read).setThread a.gid seen).ledger_refence a t tags).trans
    ((z.setLine (lineOf a.pa) read).ledger_setThread a.gid seen))
  simp only [State.ledger, Prod.mk.injEq] at hledger
  obtain ⟨hmem, hlines, hdue, hnow⟩ := hledger
  rw [State.ledger_atomPerformed, hmem, hlines, hdue, hnow]
  rfl

/-- What that leaves of memory, of the lines' writes, and of what is due. -/
theorem State.performAtomic_ledger (hg : s.group a.gid = some g) (hbad : (s.line (lineOf a.pa)).bad = false) (hstill : s.migrations = [])
    (hret : a.noret = false) {p : Nat × List (Inst × Nat)} (hp : s.storeTimes a.gid g a.lane a.pa a.order a.scope none 0 = p) :
    (s.performAtomic a).mem = (s.atomWritten a p).mem
      ∧ (∀ n, ((s.performAtomic a).line n).versions = ((s.atomWritten a p).line n).versions)
      ∧ (s.performAtomic a).agenda = s.agenda.map (sentAfter a (Nat.max p.1 (topTag p.2)))
          ++ [{ at_ := s.clk, onRef := false, ev := .atomicReply (replyWith a (BitVec.ofNat 32 (s.num a.pa 4))) }] := by
  obtain ⟨read, seen, hread, hperform⟩ := State.performAtomic_eq hg hbad hstill hret hp
  have hwritten := State.agenda_writeLine s (lineOf a.pa) p.1 (cellsAt a.pa (s.atomBytes a)) p.2
  have hrecord := State.ledger_ordered (s.atomWritten a p) a read seen p.1 p.2
  generalize (((((s.atomWritten a p).setLine (lineOf a.pa) read).setThread a.gid seen).refence a p.1 p.2).atomPerformed a
    (Nat.max p.1 (topTag p.2))) = z at hperform hrecord
  obtain ⟨hagenda, hclk⟩ : (s.atomWritten a p).agenda = s.agenda ∧ (s.atomWritten a p).clk = s.clk := hwritten
  simp only [State.ledger, Prod.mk.injEq] at hrecord
  obtain ⟨hmem, hlines, hdue, hnow⟩ := hrecord
  rw [hperform]
  refine ⟨hmem, fun n => ?_, by simp only [State.post, hdue, hnow, hagenda, hclk]⟩
  have hline : (z.post (.atomicReply (replyWith a (BitVec.ofNat 32 (s.num a.pa 4))))).line n
      = ((s.atomWritten a p).setLine (lineOf a.pa) read).line n :=
    congrArg (fun l => Assoc.getD l n Line.fresh) hlines
  rw [hline]
  by_cases hn : n = lineOf a.pa
  · rw [hn, State.line_setLine_same, hread]
  · rw [State.line_setLine_other _ _ hn]

end

/-! ## Its time (R249, R250, R254, R269) -/

theorem Line.tags_lt_nextTime {l : Line} {v : Version} (hv : v ∈ l.versions) : ∀ q ∈ v.tags, q.2 < l.nextTime := by
  intro q hq
  have htag : q.2 ≤ topTag v.tags := le_foldl_max_of_mem Prod.snd hq 0
  have hv : Nat.max v.time (topTag v.tags) ≤ l.topTime := le_foldl_max_of_mem (fun v : Version => Nat.max v.time (topTag v.tags)) hv 0
  exact (htag.trans ((Nat.le_max_right _ _).trans hv)).trans_lt l.topTime_lt_nextTime

theorem Line.rnear_lt_nextTime {l : Line} : ∀ q ∈ l.rnear, q.2 < l.nextTime := by
  intro q hq
  have htag : q.2 ≤ topTag l.rnear := le_foldl_max_of_mem Prod.snd hq 0
  exact Nat.lt_succ_of_le ((htag.trans (Nat.le_max_right _ _)).trans (le_foldl_max Owner.tw l.owners _))

theorem Line.owners_lt_nextTime {l : Line} : ∀ o ∈ l.owners, o.tw < l.nextTime :=
  fun _ ho => Nat.lt_succ_of_le (le_foldl_max_of_mem Owner.tw ho _)

/-- Where no time is asked for, a store's time is above every write's. -/
theorem State.nextTime_le_storeTime (s : State) (g : Group) (w pa : Nat) (o : Order) (last : Nat) :
    (s.line (lineOf pa)).nextTime ≤ s.storeTime g w pa o none last := by
  unfold State.storeTime
  dsimp only
  split
  · exact (Nat.le_max_right _ _).trans (Nat.le_max_left _ _)
  · exact (Nat.le_max_right _ _).trans (Line.le_freeTime _ _ _)

theorem State.storeTimes_spec (s : State) (gid : Nat) (g : Group) (w pa : Nat) (o : Order) (scope last : Nat) :
    let t := (s.storeTimes gid g w pa o scope none last).1
    (s.line (lineOf pa)).nextTime ≤ t ∧ (g.tmOf w).storeFloor (orderAt o (s.instOf gid g w scope) none) < t ∧ g.seenOf w (lineOf pa) < t := by
  obtain ⟨hfloor, -⟩ := State.storeTime_spec (s := s) (g := g) (w := w) (pa := pa) (o := orderAt o (s.instOf gid g w scope) none)
    (asked := none) (last := last)
  have hraised : s.storeTime g w pa (orderAt o (s.instOf gid g w scope) none) none last ≤ (s.storeTimes gid g w pa o scope none last).1 := by
    unfold State.storeTimes
    dsimp only
    split
    · exact le_rfl
    · exact Nat.le_max_left _ _
  exact ⟨(s.nextTime_le_storeTime g w pa _ last).trans hraised,
    (((Nat.le_max_left _ _).trans (Nat.le_max_left _ _)).trans_lt hfloor).trans_le hraised,
    (((Nat.le_max_right _ _).trans (Nat.le_max_left _ _)).trans_lt hfloor).trans_le hraised⟩

/-- A write above every other is the newest of its line. -/
theorem writesWith_of_newest {t : Nat} {V : List Version} (h : ∀ v ∈ V, v.time < t) (cells old : List Host.Cell) (tags : List (Inst × Nat)) :
    writesWith V t cells old tags = { time := t, old := old, tags := tags, moved := false } :: V := by
  cases V with
  | nil => exact writesWith_nil
  | cons v V =>
    refine writesWith_of_le (h v (.head _)).le fun ht => ?_
    obtain ⟨w, hw, rfl⟩ := List.mem_map.1 ht
    exact absurd (h w hw) (lt_irrefl _)

theorem Line.wtime_le_of_newest {l : Line} {t : Nat} (h : ∀ v ∈ l.versions, v.time < t) : l.wtime ≤ t := by
  unfold Line.wtime
  split
  · exact Nat.zero_le t
  · next v V hV => exact (h v (hV ▸ .head _)).le

theorem State.versions_atomWritten {s : State} {a : AtomLane} {p : Nat × List (Inst × Nat)}
    (h : ∀ v ∈ (s.line (lineOf a.pa)).versions, v.time < p.1) : ((s.atomWritten a p).line (lineOf a.pa)).versions =
      { time := p.1, old := s.under (lineOf a.pa) p.1 (cellsAt a.pa (s.atomBytes a)), tags := p.2, moved := false } ::
        (s.line (lineOf a.pa)).versions := by
  rw [State.atomWritten, State.line_writeLine_same]
  exact writesWith_of_newest h _ _ _

/-! ## Its word (Table 10.3) -/

theorem Memory.read_of_cells {m : Memory} {pa : Nat} {data : List Byte} (h : ∀ c ∈ cellsAt pa data, Memory.get m c.1 = c.2) :
    Memory.read m pa data.length = data := by
  induction data generalizing pa with
  | nil => rfl
  | cons b data ih =>
    rw [List.length_cons, Memory.read, ih fun c hc => h c (.tail _ hc), h (pa, b) (.head _)]

/-- The new word of an atomic, by its kind. -/
theorem atomNew_of_kind {k : AtomOp} {mr o x y v : Word}
    (h : let et := if 2 ≤ mrEtype mr ∧ mrEtype mr ≤ 4 then 1 else mrEtype mr
      let each := fun (f : Int → Int → Int) => packElems et (fun k => fit et (mrSat mr) (f (elemVal et o k) (elemVal et x k)))
      let signed := mrEtype mr = 0
      let flushed := fun (w : Word) => Fp.f32.decode (Fp.f32.flush (mrFtz mr) w.toNat)
      (k, v) ∈ [(AtomOp.add, each (fun x y => x + y)), (.sub, each (fun x y => x - y)),
        (.min, if (if signed then x.toInt < o.toInt else x.toNat < o.toNat) then x else o),
        (.max, if (if signed then o.toInt < x.toInt else o.toNat < x.toNat) then x else o),
        (.and, o &&& x), (.or, o ||| x), (.xor, o ^^^ x), (.xch, x), (.cas, if o = x then y else o),
        (.inc, if x.toNat ≤ o.toNat then 0 else o + 1), (.dec, if o = 0 ∨ x.toNat < o.toNat then x else o - 1),
        (.fadd, BitVec.ofNat 32 (Fp.f32.flush (mrFtz mr) (Fp.f32.sum (mrRound mr) (flushed o) (flushed x))))]) :
    atomNew k mr o x y = v := by
  simp only [List.mem_cons, List.not_mem_nil, or_false, Prod.mk.injEq] at h
  rcases h with ⟨rfl, rfl⟩ | ⟨rfl, rfl⟩ | ⟨rfl, rfl⟩ | ⟨rfl, rfl⟩ | ⟨rfl, rfl⟩ | ⟨rfl, rfl⟩ | ⟨rfl, rfl⟩ | ⟨rfl, rfl⟩ |
    ⟨rfl, rfl⟩ | ⟨rfl, rfl⟩ | ⟨rfl, rfl⟩ | ⟨rfl, rfl⟩
  case inr.inr.inl | inr.inr.inr.inl => by_cases hsigned : mrEtype mr = 0 <;> simp [atomNew, hsigned, BitVec.slt, BitVec.ult]
  all_goals simp [atomNew, BitVec.ule, BitVec.ult]

/-- Settles O31: an atomic is a vector access that sends its lanes, and a unit performs a lane as a write above every other of its line. -/
theorem atomics : Obligations.Atomics := by
  unfold Obligations.Atomics
  refine ⟨fun d a b i k n hi => ⟨fun s c g y l h hroom halign hreach => ?sent, fun s c g L h hroom hL => ?traps,
    fun s c g L h hret hL hdue => ?stalls⟩, fun s a g hwf hg hbad hstill halign hret hordered => ?performed⟩
  case sent =>
    refine runsTo_of_next h (exec_eq_atomic hi s) ?_
    rw [h.atomic_of_room hroom]
    exact h.access_of_passes halign hreach (performLanes_of_ok (send := fun u tg => (u.sendAtomic (ixOf s c g) k d
      ((List.range n).map (fun j => g.vr (d.toNat + j))) tg).1) (fun _ _ _ => rfl) l [] y)
  case traps =>
    refine trapsWith_of_trap h (exec_eq_atomic hi s) ?_
    rw [h.atomic_of_room hroom]
    exact h.access_of_misaligned hL
  case stalls => exact exec_of_stall h (exec_eq_atomic hi s) (atomic_ixOf_of_full hret hL hdue)
  case performed =>
    obtain ⟨hnext, hfloor, hseen⟩ := s.storeTimes_spec a.gid g a.lane a.pa a.order a.scope 0
    obtain ⟨hmem, hversions, hagenda⟩ := State.performAtomic_ledger hg hbad hstill hret rfl
    set p := s.storeTimes a.gid g a.lane a.pa a.order a.scope none 0
    have hlen : (s.atomBytes a).length = 4 := length_natLe _ _
    have hnodup := nodup_cellsAt a.pa (s.atomBytes a)
    have hcells : ∀ c ∈ cellsAt a.pa (s.atomBytes a), lineOf c.1 = lineOf a.pa := lineOf_of_mem_cellsAt (by rw [hlen]; omega)
    have hnewest : ∀ w ∈ (s.line (lineOf a.pa)).versions, w.time < p.1 := fun w hw => (Line.time_lt_nextTime _ hw).trans_le hnext
    have hfree : p.1 ∉ (s.line (lineOf a.pa)).versions.map Version.time := fun ht => by
      obtain ⟨w, hw, he⟩ := List.mem_map.1 ht
      exact absurd (hnewest w hw) (he ▸ lt_irrefl _)
    refine ⟨fun k v hkind hv => ?word, fun x hx => ?others, ⟨_, (hversions _).trans (State.versions_atomWritten hnewest),
      fun w hw => ⟨hnewest w hw, fun q hq => (Line.tags_lt_nextTime hw q hq).trans_le hnext⟩,
      (Line.rtime_lt_nextTime _).trans_le hnext, fun q hq => (Line.rnear_lt_nextTime q hq).trans_le hnext,
      fun w hw => (Line.owners_lt_nextTime w hw).trans_le hnext, hfloor, hseen,
      fun u x hu => ?earlier⟩, _, hagenda⟩
    case word =>
      have hread : Memory.read (s.performAtomic a).mem a.pa 4 = s.atomBytes a := by
        rw [hmem, ← hlen]
        exact Memory.read_of_cells fun c hc => State.get_mem_writeLine_newest hwf hnodup (Line.wtime_le_of_newest hnewest) hc
      rw [State.num, State.bytes, hread, State.atomBytes, leNat_natLe, hkind, atomNew_of_kind hv]
      exact Nat.mod_eq_of_lt v.isLt
    case others =>
      rw [hmem]
      exact State.get_mem_writeLine_other hwf hnodup (not_mem_cellsAt_of_outside (by rwa [hlen]))
    case earlier =>
      rw [State.byteAtTime, hversions, hmem]
      exact State.byteAtTime_writeLine_before hwf hfree hnodup hcells x hu

end Sys2Proof.Machine
end

section
/-! PROOF. O30, from what fences and prefetches leave, and the words that an ORD pair may hold. -/
namespace Sys2Proof.Machine
open Sys2Proof
set_option Elab.async false

/-! ## Fences (R246, R247, R256) -/

/-- The orders by their codes. -/
theorem order_prefixOf (noret : Bool) (order : BitVec 3) (scope : BitVec 4) :
    (prefixOf noret order scope).order =
      if order = 0 then .sc else if order = 1 then .acquire else if order = 2 then .release else if order = 3 then .acqRel else .relaxed := by
  have hcode : order = 0 ∨ order = 1 ∨ order = 2 ∨ order = 3 ∨ order = 4 ∨ order = 5 ∨ order = 6 ∨ order = 7 := by
    revert order
    decide
  rcases hcode with rfl | rfl | rfl | rfl | rfl | rfl | rfl | rfl <;> rfl

theorem exec_fence_eq (order : BitVec 3) (scope : BitVec 4) (s : State) :
    exec (.fence order scope) s = issue (.fence order scope) s (fun x s =>
      if s.flushBlocked x.gid then .stall
      else x.upd ((s.flushGroup x.gid Group.raiseH).fence x.gid (prefixOf false order scope).order scope.toNat)
        (fun g => { g with flushing := s.combinedLines x.gid })) := rfl

theorem exec_wcfl_eq (s : State) :
    exec .wcfl s = issue .wcfl s (fun x s =>
      if s.flushBlocked x.gid then .stall
      else x.upd (s.flushGroup x.gid) (fun g => { g.acquire g.wcTime with flushing := s.combinedLines x.gid })) := rfl

/-! ## PREF (R245) -/

/-- What one lane of a prefetch asks for. -/
def Ix.prefetchLane (x : Ix) (a b : Reg) (s : State) (L : Nat) : State :=
  match s.prefLine x (Vector.at0 (x.eas a b) L 0) with
  | some n =>
    if (s.slice (s.homeSlice (n * 256))).misses.contains n || (s.slice (s.homeSlice (n * 256))).has n then s
    else s.ask (portOf x.g.core (s.homeDie (n * 256))) n false true
  | none => s

theorem exec_pref_eq (a b : Reg) (s : State) :
    exec (.pref a b) s = issue (.pref a b) s (fun x s => .next (x.live.lanes.foldl (x.prefetchLane a b) s)) := rfl

/-- A prefetch asks for lines and no more. -/
theorem Unasked.prefetchLane {γ : Type} {f : State → γ} (h : Unasked f) (x : Ix) (a b : Reg) (s : State) (L : Nat) :
    f (x.prefetchLane a b s L) = f s := by
  unfold Ix.prefetchLane
  split
  · split
    · rfl
    · exact h.ask _ _ _ _ _
  · rfl

/-! ## The ORD pair (R45, R46, R50) -/

/-- Where a group issues, an instruction has a next state. -/
theorem exists_issue_next {s : State} {c : Cur} {g : Group} (hcur : s.cur = some c) (hg : s.group c.gid = some g) (i : Instr)
    (body : Ix → State → Done) : ∃ t, issue i s body = .next t := by
  unfold issue
  rw [hcur]
  dsimp only
  rw [hg]
  dsimp only
  split
  · exact ⟨_, rfl⟩
  · exact ⟨_, rfl⟩
  · split <;> exact ⟨_, rfl⟩

/-- An ORD whose second word is read, by its checks (R50); a handler may execute it (Table 16.2). -/
theorem exec_ord_of_word {s z : State} {c : Cur} {g : Group} {w : Word} (hcur : s.cur = some c) (hg : s.group c.gid = some g)
    (hfetch : s.fetchWord c.gid c.code (g.pc + 4) = (z, .word w)) (noret : Bool) (order : BitVec 3) (scope : BitVec 4) :
    exec (.ord noret order scope) s =
      if !fieldsLegal (useCtx (.ord noret order scope) g) (.ord noret order scope) then .next ((z.stamp c g).takeTrap c.gid (trapP 0x02))
      else if !ordPairs (fOp w).toNat || !admitsOrder (fOp w).toNat noret order.toNat then .next ((z.stamp c g).takeTrap c.gid (trapP 0x03))
      else match decode (bytesOfWord w) with
        | .error _ => .next ((z.stamp c g).takeTrap c.gid (trapP 0x02))
        | .ok (i, _) => (execPaired i { z with cur := some { c with pre := some (prefixOf noret order scope) } }).getD
            (.next ((z.stamp c g).takeTrap c.gid (trapP 0x03))) := by
  have hmay : ¬ (g.trap.inh && !handlerMay 0x40E) = true := by rw [show handlerMay 0x40E = true from rfl]; simp
  change execOrd noret order scope s = _
  unfold execOrd
  rw [hcur]
  dsimp only
  rw [hg]
  dsimp only
  rw [hfetch]
  exact if_neg hmay

/-- Settles O30: a fence waits for owners and then flushes, a prefetch asks for lines, and an ORD by its checks in turn. -/
theorem fencesAndPairs : Obligations.FencesAndPairs := by
  unfold Obligations.FencesAndPairs
  refine ⟨⟨fun order scope s c g h => ⟨fun hfree => ?fence, fun howned => ?fenceStalls⟩,
    fun s c g h => ⟨fun hfree => ?wcfl, fun howned => ?wcflStalls⟩, fun a b s c g h => ?pref⟩, fun noret order scope s c g z w h => ?ord⟩
  case fence =>
    refine runsTo_of_next h (exec_fence_eq order scope s) ((if_neg ?_).trans ?_)
    · rw [ixOf_gid, hfree]
      exact Bool.false_ne_true
    · rw [order_prefixOf]
      rfl
  case fenceStalls => exact exec_of_stall h (exec_fence_eq order scope s) (if_pos howned)
  case wcfl =>
    refine runsTo_of_next h (exec_wcfl_eq s) (if_neg ?_)
    rw [ixOf_gid, hfree]
    exact Bool.false_ne_true
  case wcflStalls => exact exec_of_stall h (exec_wcfl_eq s) (if_pos howned)
  case pref =>
    have hkept : Unasked (fun u : State => (u.mem, u.groups, u.teams)) := ⟨fun _ _ => rfl, fun _ _ => rfl, fun _ _ => rfl⟩
    have hasked := foldl_keeps (fun u : State => (u.mem, u.groups, u.teams)) ((ixOf s c g).prefetchLane a b)
      (hkept.prefetchLane (ixOf s c g) a b) (ixOf s c g).live.lanes (s.begun (.pref a b) c g)
    simp only [Prod.mk.injEq] at hasked
    exact ⟨_, runsTo_of_next h (exec_pref_eq a b s) rfl, hasked⟩
  case ord =>
    intro o hcur hg hfetch hh hmay
    refine ⟨fun hfields => ?fields, fun hfields => ⟨fun hpair => ?misuse, fun i hpair hadmits hdecode => ?paired⟩⟩
    case fields =>
      rw [exec_ord_of_word hcur hg hfetch]
      exact if_pos (by rw [hfields]; rfl)
    case misuse =>
      rw [exec_ord_of_word hcur hg hfetch, if_neg (by rw [hfields]; exact Bool.false_ne_true)]
      refine if_pos ?_
      rcases hpair with hnone | hnone <;> simp [hnone]
    case paired =>
      obtain ⟨body, hpaired, hissue, -⟩ := paired_of_decode hpair hdecode
      obtain ⟨t, ht⟩ := exists_issue_next (s := { z with cur := some { c with pre := some (prefixOf noret order scope) } }) rfl hh i body
      refine ⟨t, ?_, (hissue _).trans ht⟩
      rw [exec_ord_of_word hcur hg hfetch, if_neg (by rw [hfields]; exact Bool.false_ne_true),
        if_neg (by rw [hpair, hadmits]; exact Bool.false_ne_true), hdecode]
      dsimp only
      rw [hpaired, ht]
      rfl

end Sys2Proof.Machine
end

section
/-! PROOF. O32, from MONA by its first live lane and MWT by its monitor. -/
namespace Sys2Proof.Machine
open Sys2Proof
set_option Elab.async false

/-! ## MONA (R270, R272) -/

/-- An instruction that has not waited holds nothing to drop. -/
theorem Starts.unheld_ixOf {i : Instr} {s y : State} {c : Cur} {g : Group} (h : Starts i s c g) : (ixOf s c g).unheld y = y := by
  rw [Ix.unheld, h.again_ixOf]
  rfl

/-- MONA at a live lane whose address translates, in the terms of the state that the translation leaves. -/
def Ix.arm (x : Ix) (ea : Dword) (L pa typ : Nat) (s : State) : Done :=
  if 2 ≤ typ ∨ s.paKind pa = .hearth ∨ (s.regionOf pa).isSome then x.fail s (trapPA 0x2C ea 0)
  else
    let u := (x.unheld s).setGroup x.gid (fun g => { g with mon := none })
    let w := u.watched (u.homeSlice pa)
    x.upd u (fun g => { g with mon := some { line := lineOf pa, time := (g.tm L).h, coarse := decide (256 ≤ w.length) && !w.contains (lineOf pa) } })

/-- MONA at a live lane, by how its address translates. -/
def Ix.armAt (x : Ix) (ea : Dword) (L : Nat) (p : State × XRes) : Done :=
  match p.2 with
  | .wait n => x.parkWhole p.1 n
  | .fault c i => x.fail p.1 (trapPA c ea i)
  | .ok pa typ => x.arm ea L pa typ p.1

/-- MONA's own execution, by its first live lane. -/
def Ix.mona (x : Ix) (a b : Reg) (s : State) : Done :=
  match x.live.first with
  | none => x.upd (x.unheld s) (fun g => { g with mon := none })
  | some L =>
    let ea := x.g.sr a.toNat + (x.vl b L).zeroExtend 64
    x.armAt ea L (s.translate (s.groupXc x.gid) ea .read)

theorem exec_mona_eq (a b : Reg) (s : State) : exec (.mona a b) s = issue (.mona a b) s (fun x s => x.mona a b s) := rfl

section
variable {i : Instr} {s y z : State} {c : Cur} {g : Group} (h : Starts i s c g) {a b : Reg} {ea : Dword} {L pa typ : Nat}
include h

theorem Starts.mona_of_no_lane (hnone : g.liveNow = 0) :
    (ixOf s c g).mona a b y = .next (y.setGroup c.gid (fun h => { h with mon := none })) := by
  have hfirst : (ixOf s c g).live.first = none := by
    rw [show (ixOf s c g).live = 0 from hnone]
    rfl
  rw [Ix.mona, hfirst]
  dsimp only
  rw [h.unheld_ixOf]
  rfl

theorem Starts.mona_of_lane (hfirst : g.liveNow.first = some L)
    (htrans : y.translate (y.groupXc c.gid) (laneAt g a b L) .read = (z, .ok pa typ)) :
    (ixOf s c g).mona a b y = (ixOf s c g).arm (laneAt g a b L) L pa typ z := by
  have hea : (ixOf s c g).g.sr a.toNat + ((ixOf s c g).vl b L).zeroExtend 64 = laneAt g a b L := by
    rw [Ix.vl, h.ixOf_g]
    rfl
  rw [Ix.mona, show (ixOf s c g).live.first = some L from hfirst]
  dsimp only
  rw [hea, ixOf_gid, htrans]
  rfl

theorem Starts.arm_of_barred (hbar : 2 ≤ typ ∨ z.paKind pa = .hearth ∨ (z.regionOf pa).isSome = true) :
    (ixOf s c g).arm ea L pa typ z = .trap z (trapPA 0x2C ea 0) := by
  rw [Ix.arm, if_pos hbar, h.fail_ixOf]

theorem Starts.arm_of_normal (htyp : typ < 2) (hkind : z.paKind pa ≠ .hearth) (hregion : z.regionOf pa = none) :
    (ixOf s c g).arm ea L pa typ z =
      let u := z.setGroup c.gid (fun h => { h with mon := none })
      let w := u.watched (u.homeSlice pa)
      .next (u.setGroup c.gid (fun h =>
        { h with mon := some { line := lineOf pa, time := (h.tm L).h, coarse := decide (256 ≤ w.length) && !w.contains (lineOf pa) } })) := by
  have hfree : ¬ (2 ≤ typ ∨ z.paKind pa = .hearth ∨ (z.regionOf pa).isSome = true) := by
    rw [hregion]
    rintro (ht | hk | hr)
    · exact Nat.not_le.2 htyp ht
    · exact hkind hk
    · cases hr
  rw [Ix.arm, if_neg hfree, h.unheld_ixOf]
  rfl

end

/-! ## MWT (R271) -/

/-- A line has been written since a monitor was armed. -/
def State.writtenSince (s : State) (m : Monitor) : Bool := (s.line m.line).versions.any (fun v => !v.moved && decide (m.time < v.time))

/-- MWT with a monitor armed, for at most `n` cycles. -/
def Ix.await (x : Ix) (n : Dword) (m : Monitor) (s : State) : Done :=
  if s.writtenSince m then x.upd s (fun g => { g with mon := none })
  else if n = 0 then .trap s (trapP 0x2D)
  else if n = BitVec.allOnes 64 then .stay (s.setGroup x.gid (fun g => { g with park := some (.monitor none) }))
  else .stay ((s.setGroup x.gid (fun g => { g with park := some (.monitor (some (s.clk + n.toNat))) })).postAt (s.clk + n.toNat)
    (.monitorTimeoutExpiry x.gid))

/-- MWT's own execution, by the group's monitor. -/
def Ix.mwt (x : Ix) (a : Reg) (s : State) : Done :=
  match x.g.mon with
  | none => .next s
  | some m => x.await (x.g.sr a.toNat) m s

theorem exec_mwt_eq (a : Reg) (s : State) : exec (.mwt a) s = issue (.mwt a) s (fun x s => x.mwt a s) := rfl

section
variable {i : Instr} {s y : State} {c : Cur} {g : Group} (h : Starts i s c g) {a : Reg} {m : Monitor}
include h

theorem Starts.mwt_of_unarmed (hmon : g.mon = none) : (ixOf s c g).mwt a y = .next y := by rw [Ix.mwt, h.ixOf_g, hmon]

theorem Starts.mwt_of_written (hmon : g.mon = some m) (hwritten : y.writtenSince m = true) :
    (ixOf s c g).mwt a y = .next (y.setGroup c.gid (fun h => { h with mon := none })) := by
  rw [Ix.mwt, h.ixOf_g, hmon]
  exact if_pos hwritten

/-- Where the line has not been written, MWT traps or waits (R271). -/
theorem Starts.mwt_of_unwritten (hmon : g.mon = some m) (hwritten : y.writtenSince m = false) :
    (ixOf s c g).mwt a y =
      if g.sr a.toNat = 0 then .trap y (trapP 0x2D)
      else if g.sr a.toNat = BitVec.allOnes 64 then .stay (y.setGroup c.gid (fun h => { h with park := some (.monitor none) }))
      else .stay ((y.setGroup c.gid (fun h => { h with park := some (.monitor (some (y.clk + (g.sr a.toNat).toNat))) })).postAt
        (y.clk + (g.sr a.toNat).toNat) (.monitorTimeoutExpiry c.gid)) := by
  rw [Ix.mwt, h.ixOf_g, hmon]
  exact if_neg (by rw [hwritten]; exact Bool.false_ne_true)

end

/-- Settles O32: MONA by the line that its lane's address reaches, MWT by what has been written since and how long it may wait. -/
theorem monitors : Obligations.Monitors := by
  unfold Obligations.Monitors
  refine ⟨fun a b s c g h => ⟨fun hnone => ?unarmed, fun L z pa typ hfirst htrans => ⟨fun hbar => ?barred, fun htyp hkind hregion => ?armed⟩⟩,
    fun a s c g h => ⟨fun hmon => ?goesOn, fun m hmon => ⟨fun hwritten => ?written, fun hwritten hzero => ?traps, fun hwritten hever => ?ever,
      fun hwritten hzero hever => ?timed⟩⟩⟩
  case unarmed => exact runsTo_of_next h (exec_mona_eq a b s) (h.mona_of_no_lane hnone)
  case barred => exact failsIn_of_trap h (exec_mona_eq a b s) ((h.mona_of_lane hfirst htrans).trans (h.arm_of_barred hbar))
  case armed => exact runsTo_of_next h (exec_mona_eq a b s) ((h.mona_of_lane hfirst htrans).trans (h.arm_of_normal htyp hkind hregion))
  case goesOn => exact runsTo_of_next h (exec_mwt_eq a s) (h.mwt_of_unarmed hmon)
  case written => exact runsTo_of_next h (exec_mwt_eq a s) (h.mwt_of_written hmon hwritten)
  case traps => exact trapsWith_of_trap h (exec_mwt_eq a s) ((h.mwt_of_unwritten hmon hwritten).trans (if_pos hzero))
  case ever =>
    have hzero : g.sr a.toNat ≠ 0 := by
      rw [hever]
      decide
    exact staysAt_of_stay h (exec_mwt_eq a s) ((h.mwt_of_unwritten hmon hwritten).trans ((if_neg hzero).trans (if_pos hever)))
  case timed => exact staysAt_of_stay h (exec_mwt_eq a s) ((h.mwt_of_unwritten hmon hwritten).trans ((if_neg hzero).trans (if_neg hever)))

end Sys2Proof.Machine
end
